-- ==== Sys2Proof/Word.lean ====
section
/-! DEFINITION. The words of the machine: 32-bit register words and bytes. -/
namespace Sys2Proof

/-- A register word (BAR0 registers are 32 bits wide). -/
abbrev Word := BitVec 32

/-- A byte of a frame, an image or a record. -/
abbrev Byte := BitVec 8

end Sys2Proof
end

