-- ==== Sys2Proof/Syntax.lean ====
section
/-! DEFINITION. The commands of the block: one constructor of `Instr` for each row of spec/opcode_table.json, with
the operands the happening carries. The table gives no operands and no bits; the operands here are the model's
(assumption log 1): a register write carries the word written, an arrival carries its bytes and `dt`, the CCLK
cycles since the command before it. -/
namespace Sys2Proof

/-- A function with an enable bit and a STATE field (R25): which one. -/
inductive Fn where
  | spire
  | edge (p : Fin 48)
  | trunk (n : Fin 4)
  | carillon
  | canChannel (n : Fin 16)
  | canTt
  | filigree
  | sense
  | drive
  | ring (r : Fin 64)
  | localBus
  | ilgil (n : Fin 2)
  deriving DecidableEq, Repr

/-- How a received frame ended (R184, R236, R253). -/
inductive FrameErr where
  /-- good FCS -/
  | good
  /-- bad FCS or a receive error -/
  | bad
  /-- a reassembly error of R253 -/
  | frag
  /-- PCS code errors -/
  | code
  /-- an odd nibble count, at 10 and 100 Mbit/s -/
  | align
  /-- lost for want of a write head -/
  | overrun
  deriving DecidableEq, Repr

/-- The kinds of reference of a phase domain (R306). -/
inductive RefEdge where
  /-- a rising mains zero crossing -/
  | mains
  /-- a SYNC pin edge in mode 6 -/
  | sync
  /-- a tachometer quadrature edge, forward or not -/
  | tach (forward : Bool)
  /-- the tachometer index -/
  | index
  deriving DecidableEq, Repr

/-- A CAN frame as it stands on the bus (R338, R339). -/
structure CanFrame where
  ide : Bool
  fdf : Bool
  brs : Bool
  esi : Bool
  rtr : Bool
  id : BitVec 29
  dlc : Fin 16
  data : List Byte
  deriving DecidableEq, Repr

/-- The bus errors of R344. -/
inductive BusError where
  | bit | stuff | form | crc
  /-- a bit error while the channel sends an active error flag or an overload flag -/
  | flagBit
  /-- the 14th consecutive dominant bit of an active error or overload flag, the 8th after a passive one, and each eighth
  further one -/
  | dominantRun
  deriving DecidableEq, Repr

/-- The reset pins of R556. -/
inductive ResetPin where
  | poreset | perst
  deriving DecidableEq, Repr

/-- A Locket record as it stands in a flash slot (R527, R533). -/
structure Record where
  seq : Nat
  opsec : Nat
  pcc : Nat
  ns : Nat
  role : Nat
  sec : Nat
  rtype : Nat
  data : List Byte
  deriving DecidableEq, Repr

/-- A counter block of R533. -/
structure CounterBlock where
  serial : Nat
  opsec : Nat
  pcc : Nat
  keyRot : Nat
  sizeLog : Nat
  valid : Bool
  deriving DecidableEq, Repr

/-- The commands, in the order of spec/opcode_table.json. -/
inductive Instr where
  /-- MANAGEMENT_TICK (R19). Every 10 ms the management tick starts its four ordered tasks. -/
  | managementTick (temp : BitVec 12) (supply : BitVec 9) (upsets : List (Nat × Nat))
  /-- AUDIT_RESULT (R224). At 125 µs into the tick the device updates BUF_AUDIT_STATUS and reports new or changed ledger faults. -/
  | auditResult
  /-- CLOCK_FAULT (R42). A reference clock is lost or the core PLL loses lock, which latches clk_fault. -/
  | clockFault (clk : BitVec 4) (dt : Nat)
  /-- ROLE_LAPSE (R59). ROL_IDLE reaches zero and the role returns to operator. -/
  | roleLapse
  /-- SCHEDULE_SILENCE (R323). The own offset exceeds its limit for the set number of ticks, and the node silences its scheduled output. -/
  | scheduleSilence
  /-- SILENCE_RELEASE (R323). A host write of CAR_RELEASE ends a silence if the offset is within its limit. -/
  | silenceRelease (v : Word) (dt : Nat)
  /-- ENABLE_REQUEST (R26). A write of an enable bit requests a start or stop, which takes effect at once or is held. -/
  | enableRequest (fn : Fn) (v : Word) (dt : Nat)
  /-- SEQUENCE_COMPLETE (R26). A start or stop sequence completes, and any opposite held request begins one cell time later. -/
  | sequenceComplete (fn : Fn) (dt : Nat)
  /-- REGISTER_WRITE (R54). A BAR0 write to a register with no row of its own is clamped, checked against the role, stored or denied, and recorded. -/
  | registerWrite (off : Nat) (v : Word) (be : BitVec 4) (dt : Nat)
  /-- RC_READ (R49). A host read of an RC register returns the value and clears it. -/
  | rcRead (off : Nat) (dt : Nat)
  /-- SNAPSHOT_READ (R51). A read of the lowest word of a multi-register value snapshots the whole value. -/
  | snapshotRead (off : Nat) (dt : Nat)
  /-- CHALLENGE (R57). A write of ROL_CHALLENGE draws a fresh nonce unless a lockout runs. -/
  | challenge (v : Word) (dt : Nat)
  /-- NONCE_EXPIRY (R57). A nonce becomes invalid 60 s after it was drawn. -/
  | nonceExpiry
  /-- UNLOCK (R56). A write of ROL_UNLOCK.go consumes the nonce and starts the response comparison. -/
  | unlock (v : Word) (dt : Nat)
  /-- UNLOCK_COMPARE_DONE (R58). After 1 µs the comparison ends and the role is unlocked or a failure is counted and a lockout begins. -/
  | unlockCompareDone
  /-- LOCKOUT_EXPIRY (R58). The lockout after failed unlocks ends, and challenges are accepted again. -/
  | lockoutExpiry
  /-- ROLE_DROP (R60). A write of ROL_DROP.drop returns the role to operator. -/
  | roleDrop (v : Word) (dt : Nat)
  /-- KEY_ROTATE (R61). An installer writes ROL_ROTATE with the next counter value, which starts a key rotation. -/
  | keyRotate (v : Word) (dt : Nat)
  /-- ROTATION_FLASH_DONE (R61). The counter blocks are committed to both flash sectors, so the counter increments, KEY_ROTATE is recorded and the role drops; a failure abandons the rotation. -/
  | rotationFlashDone (ok0 ok1 : Bool) (dt : Nat)
  /-- IMAGE_START (R76). A write of ROL_IMG_CTRL.start starts a setting image from host memory or is held until the boot-image wait. -/
  | imageStart (v : Word) (dt : Nat)
  /-- IMAGE_ABORT (R74). A write of ROL_IMG_CTRL.abort stops the image after the current record with result 0x18. -/
  | imageAbort (v : Word) (dt : Nat)
  /-- IMAGE_CHECK_DONE (R72). The checks of an image complete and application begins or the image ends with a failure result. -/
  | imageCheckDone (slot0 slot1 : List Byte) (dt : Nat)
  /-- IMAGE_RECORD (R73). The next record of an image arrives on the second read and is applied under the rights of its level. -/
  | imageRecord (bytes : List Byte) (dt : Nat)
  /-- POLL_MATCH (R71). A POLL record's read matches its value and the image continues. -/
  | pollMatch
  /-- POLL_TIMEOUT (R71). A POLL record's timeout expires without a match, which ends the image with result 0x16. -/
  | pollTimeout
  /-- DELAY_EXPIRY (R71). A DELAY record's wait ends and the image continues. -/
  | delayExpiry
  /-- IMAGE_READ_ERROR (R588). A host memory read of an image fails, which ends the image with result 0x17. -/
  | imageReadError (addr cpl : Nat) (dt : Nat)
  /-- TRUNK_LINK_UP (R90). A trunk PHY reports link up; the line enters PROBING and a link-up BEACON is sent. -/
  | trunkLinkUp (line : Fin 4) (speed : Fin 4) (dt : Nat)
  /-- TRUNK_LINK_DOWN (R92). A trunk PHY reports link down; the line becomes DOWN and the frame in progress is cut. -/
  | trunkLinkDown (line : Fin 4) (dt : Nat)
  /-- BEACON_PERIOD (R90). Every 100 µs the device sends a periodic BEACON on each line with link. -/
  | beaconPeriod
  /-- ANSWER_BEACON (R90). Within H of a BEACON that needs an answer, the device sends a BEACON flagged answer. -/
  | answerBeacon (line : Fin 4)
  /-- BEACON_RECEIVE (R91). A received BEACON updates line state, peer, echo, link delay, neighbour currency and compat_dist. -/
  | beaconReceive (line : Fin 4) (bytes : List Byte) (back dt : Nat)
  /-- BEACON_DEADLINE (R92). No BEACON arrives within 305 µs of the last, so the line is declared LOST. -/
  | beaconDeadline (line : Fin 4)
  /-- COUNT_SEND (R96). Within H of a changed outgoing summary, the device sends a COUNT on every UP line of the direction. -/
  | countSend (dir : Fin 2)
  /-- COUNT_RECEIVE (R97). A COUNT from the recorded neighbour with a later seq replaces the held summary. -/
  | countReceive (line : Fin 4) (bytes : List Byte) (dt : Nat)
  /-- SETTLE_EXPIRY (R102). The settle window expires with the view unchanged, so the reference end commits or flags overflow or an identity clash. -/
  | settleExpiry
  /-- COMMIT_SEND (R102). At s + H the reference end sends its COMMIT on every UP line of its up direction. -/
  | commitSend
  /-- COMMIT_RECEIVE (R103). A received COMMIT is checked and is accepted, ignored, refused or aborted. -/
  | commitReceive (line : Fin 4) (bytes : List Byte) (back dt : Nat)
  /-- COMMIT_FORWARD (R104). At r + H the node forwards the accepted COMMIT with its updated fields and slip. -/
  | commitForward
  /-- WAIT_TIMEOUT (R109). A node in WAIT receives no COMMIT within 2 ms and aborts. -/
  | waitTimeout
  /-- SWITCH_INSTANT (R106). At the switch instant the node makes the new epoch live, swaps route banks, starts grace and records SPIRE_COMMIT. -/
  | switchInstant
  /-- BACKOFF_EXPIRY (R111). The back-off expires; the node sends COUNTs with restart set and enters GATHER. -/
  | backoffExpiry
  /-- LEAD_INPUT_CHANGE (R101). The LEAD ball changes level, which starts the filter. -/
  | leadInputChange (level : Bool) (dt : Nat)
  /-- LEAD_FILTER_ACCEPT (R101). The LEAD level has held for the filter time, so the filtered LEAD changes. -/
  | leadFilterAccept
  /-- COMPAT_HELLO_SEND (R116). In compatibility mode the device sends a HELLO from its template at the slow or fast period. -/
  | compatHelloSend
  /-- COMPAT_HELLO_RECEIVE (R117). A received HELLO updates the peer per line and compat_dist. -/
  | compatHelloReceive (line : Fin 4) (bytes : List Byte) (dt : Nat)
  /-- COMPAT_HELLO_TIMEOUT (R116). No HELLO arrives on a line within 3 × slow_ms. -/
  | compatHelloTimeout (line : Fin 4)
  /-- TOPOLOGY_RECEIVE (R116). A received TOPOLOGY frame is carried unchanged to the host's RX ring. -/
  | topologyReceive (line : Fin 4) (bytes : List Byte) (back dt : Nat)
  /-- COMPAT_COMMIT (R118). A write of SPR_COMPAT_COMMIT.go switches the node to the host's numbering at the next cycle. -/
  | compatCommit (v : Word) (dt : Nat)
  /-- COMPAT_HOLD_EXPIRY (R119). No HELLO has arrived within hold_s, so compat_dist leaves 0. -/
  | compatHoldExpiry
  /-- ROSTER_SEND (R139). Within H of its cause, the device sends, re-sends or relays ROSTER entries. -/
  | rosterSend (dir : Fin 2)
  /-- ROSTER_RECEIVE (R140). A ROSTER entry from the recorded neighbour is stored in the far roster. -/
  | rosterReceive (line : Fin 4) (bytes : List Byte) (dt : Nat)
  /-- GRACE_EXPIRY (R147). The grace period expires; grace_end is raised and a GRACE_END record is written. -/
  | graceExpiry
  /-- GRACE_REWRITE (R147). A write of EPO_GRACE during grace applies to the grace in progress and may end it at once. -/
  | graceRewrite (v : Word) (dt : Nat)
  /-- ADMISSION_POINT (R204). When a frame's first cell has been classified and its fan-out fixed, the frame is admitted or dropped and ADMIT moves. -/
  | admissionPoint (port : Fin 52) (bytes : List Byte) (len back dt : Nat)
  /-- CELL_WRITE (R205). A later cell of an admitted frame takes a free cell, or the frame is cut short. -/
  | cellWrite (port : Fin 52) (bytes : List Byte) (dt : Nat)
  /-- FRAME_END (R184). A frame's last cell is written and its FCS checked, which makes it ready or drops it. -/
  | frameEnd (port : Fin 52) (bytes : List Byte) (err : FrameErr) (frags : Nat) (dt : Nat)
  /-- LEARN (R177). A queued learn is applied to the forwarding database. -/
  | learn
  /-- AGEING_SWEEP (R178). A scheduled sweep clears hit bits, ages dynamic entries and removes aged ones. -/
  | ageingSweep
  /-- CELL_TIME (R185). In each cell time the device computes a crossbar matching and moves the matched cells. -/
  | cellTime
  /-- TX_FRAME_START (R247). At a frame boundary the MAC starts the head frame of the highest eligible queue. -/
  | txFrameStart (port : Fin 52) (dt : Nat)
  /-- PREEMPTION (R252). An express frame ready during a preemptable frame interrupts it at the first legal point. -/
  | preemption (line : Fin 4) (sent : Nat) (dt : Nat)
  /-- TX_FRAME_END (R215). A copy's last byte leaves the MAC; the copy moves to DELIVER and its cells may be released. -/
  | txFrameEnd (port : Fin 52) (dt : Nat)
  /-- REVERT_START (R193). A returned line has been UP for revert_ms, so the move of flows back begins. -/
  | revertStart (dir : Fin 2)
  /-- REVERT_DRAIN_MAX (R193). drain_max_ms passes, so a class is moved back even though its queue has not drained. -/
  | revertDrainMax (dir : Fin 2) (cls : Fin 8)
  /-- REVERT_ENABLE (R193). A write that sets FAB_AGG_CTRL.revert starts the move back at once if the line has been UP for revert_ms. -/
  | revertEnable (v : Word) (dt : Nat)
  /-- FDB_NOP (R179). An FDB_CMD write with op NOP does nothing. -/
  | fdbNop (v : Word) (dt : Nat)
  /-- FDB_LOOKUP (R179). The LOOKUP command finds the key and returns the entry and its index. -/
  | fdbLookup (v : Word) (dt : Nat)
  /-- FDB_INSERT (R179). The INSERT command writes an entry over its key or into the first free way, or refuses a bad entry. -/
  | fdbInsert (v : Word) (dt : Nat)
  /-- FDB_DELETE (R179). The DELETE command removes the entry with the key. -/
  | fdbDelete (v : Word) (dt : Nat)
  /-- FDB_FLUSH (R179). The FLUSH command starts removing the entries that pass its filters. -/
  | fdbFlush (v : Word) (dt : Nat)
  /-- FDB_READ (R179). The READ command copies an entry by index into FDB_DATA0–3. -/
  | fdbRead (v : Word) (dt : Nat)
  /-- FDB_COMMAND_DONE (R179). A database command completes; its result is stored and cmd_done is raised. -/
  | fdbCommandDone
  /-- EDGE_LINK_CHANGE (R235). An edge port's link, speed or duplex changes from in-band status or PCS synchronisation. -/
  | edgeLinkChange (port : Fin 48) (up : Bool) (speed : Fin 4) (full : Bool) (dt : Nat)
  /-- PAUSE_RECEIVE (R244). A received PAUSE or PFC frame starts, replaces or ends a pause time. -/
  | pauseReceive (port : Fin 48) (bytes : List Byte) (dt : Nat)
  /-- PAUSE_EXPIRY (R244). A running pause time expires and the stopped queues may start again. -/
  | pauseExpiry (port : Fin 48) (cls : Fin 9)
  /-- FLOW_CONTROL_FRAME (R245). At the next frame boundary the port sends a PAUSE or PFC frame for the merged requests. -/
  | flowControlFrame (port : Fin 48)
  /-- FC_REFRESH (R245). Half the quanta time has passed while a row is XOFF, so the flow control frame is sent again. -/
  | fcRefresh (port : Fin 48)
  /-- COLLISION (R239). A half-duplex transmit attempt meets a collision, sends the jam and backs off or drops the copy. -/
  | collision (port : Fin 48) (dt : Nat)
  /-- HD_BACKOFF_EXPIRY (R238). The half-duplex back-off ends and the port defers or retries. -/
  | hdBackoffExpiry (port : Fin 48)
  /-- VERIFY_SEND (R252). The preemption verify exchange sends a verify frame every verify_ms, up to verify_limit. -/
  | verifySend (line : Fin 4)
  /-- VERIFY_RESPONSE (R252). A respond frame is received and verify succeeds, so preemption becomes active. -/
  | verifyResponse (line : Fin 4) (dt : Nat)
  /-- PREEMPT_CONFIG_WRITE (R252). A write of TPT_PREEMPT while the link is up restarts preemption. -/
  | preemptConfigWrite (line : Fin 4) (v : Word) (dt : Nat)
  /-- DRAIN_EXPIRY (R257). drain_us ends and the copies left for the stopping edge port are dropped with PORT_STOP. -/
  | drainExpiry (port : Fin 48)
  /-- DRAIN_REWRITE (R257). A write of drain_us during STOPPING applies to the drain in progress and may end it at once. -/
  | drainRewrite (port : Fin 48) (v : Word) (dt : Nat)
  /-- MST_CLEAR (R260). A write of MST_CLEAR.go zeroes one port's counters and its half-range bits. -/
  | mstClear (v : Word) (dt : Nat)
  /-- SYNC_SEND (R291). A native Sync is sent on every master line, at each interval T or as an extra Sync after a step or switch. -/
  | syncSend
  /-- SYNC_RECEIVE (R292). A native Sync is accepted on the slave direction and its offset is computed. -/
  | syncReceive (line : Fin 4) (bytes : List Byte) (back dt : Nat)
  /-- SLEW_END (R283). A slew has worked off its offset; the rate is restored and any held rate write applies. -/
  | slewEnd
  /-- SYNC_TIMEOUT (R286). No Sync is accepted for 3 × T, so the servo enters HOLDOVER. -/
  | syncTimeout
  /-- TIME_ADJUST (R283). A host write of TIM_ADJ_CTRL.go applies an offset request as a step or slew, or is refused. -/
  | timeAdjust (v : Word) (dt : Nat)
  /-- RATE_WRITE (R285). A host write of TIM_RATE sets the rate, is held during a slew, or is refused. -/
  | rateWrite (v : Word) (dt : Nat)
  /-- PERMIT_GRANT (R284). An installer write of TIM_PERMIT.grant arms permit_grant. -/
  | permitGrant (v : Word) (dt : Nat)
  /-- PERMIT_LAPSE (R284). permit_grant lapses 10 s after it was granted. -/
  | permitLapse
  /-- ADDEND_WRITE (R288). A write of TIM_ADDEND_HI applies a new increment from the next cycle. -/
  | addendWrite (v : Word) (dt : Nat)
  /-- MERGE_TIMEOUT (R295). max_ms passes before merge completes. -/
  | mergeTimeout
  /-- MERGE_WAIT_EXPIRY (R295). wait_ms passes without a Sync or with only flagged Syncs, so the node drops its slave direction or resumes grandmaster. -/
  | mergeWaitExpiry
  /-- CORRELATION_LATCH (R296). A write of TIM_CORR_CTRL.go latches the time, stamp and CAN stamp counters. -/
  | correlationLatch (v : Word) (dt : Nat)
  /-- SYNC_PIN_CAPTURE (R297). An edge on a SYNC pin in a capture mode enters its capture FIFO. -/
  | syncPinCapture (pin : Fin 4) (level : Bool) (dt : Nat)
  /-- SYNC_CAPTURE_POP (R297). A read of TIM_SYNC_CAP_NS pops the FIFO head and snapshots its seconds. -/
  | syncCapturePop (pin : Fin 4) (dt : Nat)
  /-- PPS_PULSE (R298). The time passes a whole second plus the offset, so the PPS pin rises. -/
  | ppsPulse (pin : Fin 4)
  /-- PPS_END (R298). The PPS pulse ends after width_us. -/
  | ppsEnd (pin : Fin 4)
  /-- PHASE_REFERENCE (R306). A mains crossing, tachometer edge or SYNC edge drives the domain's PLL and its lock state. -/
  | phaseReference (dom : Fin 8) (kind : RefEdge) (dt : Nat)
  /-- REFERENCE_MISS (R308). No reference is accepted within 1.5 periods, so a miss is counted and the domain may enter HOLD. -/
  | referenceMiss (dom : Fin 8)
  /-- TACH_STILL (R308). No tachometer edge arrives for still_ms, so the domain enters HOLD. -/
  | tachStill (dom : Fin 8)
  /-- PD0_LIMIT (R311). PD0 stays out of LOCKED longer than hold_ms, which raises pd0_limit as a resignation trigger. -/
  | pd0Limit
  /-- PHASE_OFFSET_WRITE (R316). A write of PHS_OFFSET is a correction that moves the domain's position. -/
  | phaseOffsetWrite (dom : Fin 8) (v : Word) (dt : Nat)
  /-- CARILLON_FIRE (R315). In a cell time the scheduler selects the events whose phases were passed and applies their actions. -/
  | carillonFire
  /-- EVENT_ENTRY_WRITE (R314). A write of word 1 of a Carillon event puts the entry into use. -/
  | eventEntryWrite (ev : Fin 4096) (v : Word) (dt : Nat)
  /-- CAN_FRAME_RECEIVE (R338). A CAN frame received without error is stamped, offered to Filigree and filtered toward the host. -/
  | canFrameReceive (ch : Fin 16) (f : CanFrame) (len : Nat) (dt : Nat)
  /-- CAN_TX_RECORD (R341). A TX ring CAN record with index 0 enters the channel's host queue. -/
  | canTxRecord (ring : Fin 64) (bytes : List Byte) (dt : Nat)
  /-- CAN_ARBITRATION (R342). At a chance to start a frame the channel picks the winning queue head and sends it. -/
  | canArbitration (ch : Fin 16) (tdcv : BitVec 7) (dt : Nat)
  /-- CAN_TX_ACKNOWLEDGED (R345). A sent CAN frame is acknowledged; it is counted and written back DONE. -/
  | canTxAcknowledged (ch : Fin 16) (dt : Nat)
  /-- CAN_ACK_ERROR (R345). No dominant bit is sampled at the ACK slot, so an acknowledgement error is counted. -/
  | canAckError (ch : Fin 16) (dominant : Bool) (dt : Nat)
  /-- LONELY_RETRY (R347). retry_ms passes for a paused lonely channel, which allows one attempt. -/
  | lonelyRetry (ch : Fin 16)
  /-- CAN_BUS_ERROR (R344). A bit, stuff, form or CRC error moves the error counters and state. -/
  | canBusError (ch : Fin 16) (kind : BusError) (transmitting : Bool) (flag : Bool) (dt : Nat)
  /-- CAN_RECOVER (R348). A host write of CAN_CTRL.recover starts bus-off recovery. -/
  | canRecover (ch : Fin 16) (v : Word) (dt : Nat)
  /-- CAN_RECOVERY_DONE (R348). Bus-off recovery ends; the counters are 0 and recovered is raised. -/
  | canRecoveryDone (ch : Fin 16)
  /-- TT_TX_TRIGGER (R358). A Tx trigger updates its mailbox's age and opens an exclusive window or withholds the frame. -/
  | ttTxTrigger (trig : Fin 64)
  /-- TT_WINDOW_END (R354). An exclusive window ends with its frame unstarted, which counts a scheduling error and sets S1. -/
  | ttWindowEnd
  /-- TT_RX_TRIGGER (R354). An Rx trigger checks that the mailbox's frame has arrived and counts a miss otherwise. -/
  | ttRxTrigger (trig : Fin 64)
  /-- TT_ARB_TRIGGER (R354). An Arb trigger opens an arbitrating window for queued frames. -/
  | ttArbTrigger (trig : Fin 64)
  /-- TT_REF_TRIGGER (R353). A Tx_Ref trigger at a potential master sends the reference message. -/
  | ttRefTrigger (trig : Fin 64)
  /-- TT_WATCH_TRIGGER (R354). A Watch trigger is reached without a valid reference, which sets S2 and makes a master send a reference. -/
  | ttWatchTrigger (trig : Fin 64)
  /-- MAILBOX_LOAD (R357). A TX record with index above 0 loads a time-triggered mailbox whole. -/
  | mailboxLoad (ring : Fin 64) (bytes : List Byte) (dt : Nat)
  /-- FIL_ETH_FRAME (R364). A frame taken by port F is matched against the process-data profiles and queued as a source event. -/
  | filEthFrame
  /-- STATUS_SAMPLE (R365). Every period_us the device words 0 to 15 are sampled as source events. -/
  | statusSample
  /-- HOST_WORD_WRITE (R365). A write of FIL_HOST_WORD is a status source event. -/
  | hostWordWrite (i : Fin 16) (v : Word) (dt : Nat)
  /-- SOURCE_JOB (R376). Filigree takes a queued source event, matches its descriptor and refreshes its signals. -/
  | sourceJob
  /-- CHANGE_EMISSION_DUE (R373). The refresh job has ended and min_gap_us has passed, so a pending template is queued for emission. -/
  | changeEmissionDue (tpl : Fin 2048)
  /-- EMISSION (R372). Filigree walks a template's signals, ages them, completes the frame and sends it. -/
  | emission
  /-- FIL_HOLD (R380). A write of FIL_CTRL.hold = 1 holds the pipeline after the job in progress. -/
  | filHold (v : Word) (dt : Nat)
  /-- FIL_RELEASE (R380). A write of FIL_CTRL.hold = 0 lets the queued jobs run. -/
  | filRelease (v : Word) (dt : Nat)
  /-- SENSE_SAMPLE (R388). A decimated sample of a sense input is ready and feeds windows, cycles, crossings and proving. -/
  | senseSample (inp : Fin 32) (bits : List Bool) (dt : Nat)
  /-- INPUT_STUCK (R387). A bitstream holds one level for 64 MCLK periods, so the input is stuck. -/
  | inputStuck (inp : Fin 32) (level : Bool) (dt : Nat)
  /-- HOST_CONVERT (R391). A write of SNS_CONVERT starts CONVERT windows on the named inputs. -/
  | hostConvert (v : Word) (dt : Nat)
  /-- DRIVE_LEVEL_WRITE (R395). A write of DRV_LEVEL sets host levels, applied at once in HOST mode. -/
  | driveLevelWrite (v : Word) (dt : Nat)
  /-- DRIVE_PHASE_PASS (R395). A domain passes DRV_PHASE, which applies a SYNCED or FLASH level. -/
  | drivePhasePass (out : Fin 32)
  /-- READBACK_DELAY_END (R398). rb_delay_us after a change of an output, the readback comparison starts. -/
  | readbackDelayEnd (out : Fin 32)
  /-- READBACK_FAULT (R398). A readback mismatch has lasted 1 µs, which sets DRV_RB_FAULT. -/
  | readbackFault (out : Fin 32)
  /-- PROVE_WINDOW_OPEN (R399). delay_ms after an output change a proving window opens. -/
  | proveWindowOpen (out : Fin 32)
  /-- DOORBELL (R413). A BAR2 doorbell write sets a ring's producer position or is refused. -/
  | doorbell (ring : Fin 64) (v : Word) (dt : Nat)
  /-- TX_DESCRIPTOR_FETCH (R421). Fetched TX descriptors arrive from host memory and are checked for form. -/
  | txDescriptorFetch (ring : Fin 64) (descs : List (List Byte)) (dt : Nat)
  /-- TX_DATA_READ (R418). A TX frame's data arrives from host memory and the frame is admitted at port H. -/
  | txDataRead (ring : Fin 64) (bytes : List Byte) (dt : Nat)
  /-- RING_WRITE (R424). A copy for port H reaches the ring writer and is written into RX buffers. -/
  | ringWrite
  /-- STALL_WAIT_EXPIRY (R425). The stall wait expires and the stalled copy is discarded. -/
  | stallWaitExpiry (ring : Fin 64)
  /-- CAPTURE_WRITE (R430). A capture is written into a CAPTURE ring buffer or dropped with CAPTURE_FULL. -/
  | captureWrite
  /-- MODERATION_TIMER (R431). timer_us has passed since the first unannounced write-back, so an MSI-X message is sent. -/
  | moderationTimer (ring : Fin 64)
  /-- MSIX_UNMASK (R409). A vector or function mask clears and pending messages are sent. -/
  | msixUnmask (vec : Option (Fin 72)) (dt : Nat)
  /-- MISC_ACK (R433). A write of HST_MISC_ACK re-arms miscellaneous vectors whose causes still read 1. -/
  | miscAck (v : Word) (dt : Nat)
  /-- WATCHDOG_KICK (R436). A write to the BAR2 kick reloads the watchdog count. -/
  | watchdogKick (v : Word) (dt : Nat)
  /-- WATCHDOG_EXPIRY (R436). The watchdog count reaches zero; expiry latches, a record is written and resignation may follow. -/
  | watchdogExpiry
  /-- WATCHDOG_CONFIG (R436). Setting enable or writing timeout_ms starts or reloads the watchdog count. -/
  | watchdogConfig (v : Word) (dt : Nat)
  /-- HOST_DMA_ERROR (R435). A host memory request completes with an error and is handled by kind. -/
  | hostDmaError (kind : Fin 3) (ring : Fin 64) (addr cpl : Nat) (got : List Byte) (dt : Nat)
  /-- FUNCTION_LEVEL_RESET (R410). A function-level reset force-stops every ring, resets HST and RNG and drops the role. -/
  | functionLevelReset (dt : Nat)
  /-- PCIE_LINK_DOWN (R410). The PCI Express link goes down, which acts as a function-level reset. -/
  | pcieLinkDown (dt : Nat)
  /-- D3HOT_ENTRY (R410). Entry to D3hot acts as a function-level reset. -/
  | d3hotEntry (dt : Nat)
  /-- BUS_MASTER_CLEAR (R410). Bus Master Enable is cleared and rings stop making progress. -/
  | busMasterClear (dt : Nat)
  /-- PCIE_LINK_UP (R406). The PCI Express link completes training. -/
  | pcieLinkUp (speed width : Nat) (payload : Fin 3) (readMax : Fin 6) (dt : Nat)
  /-- BAR4_WRITE (R448). A posted BAR4 write is accepted into the write FIFO or discarded whole. -/
  | bar4Write (addr : BitVec 26) (data : List (Option Byte)) (dt : Nat)
  /-- BAR4_READ (R450). A BAR4 read takes a tag and starts its completion time-out. -/
  | bar4Read (addr : BitVec 26) (enables : List Bool) (dt : Nat)
  /-- LOCAL_CYCLE_END (R445). A local bus cycle ends; read data are sampled and the next cycle or a completion follows. -/
  | localCycleEnd (data : BitVec 16) (parityOk : Bool) (dt : Nat)
  /-- NO_READY (R446). A strobe lasts rdy_limit_us without ready, which ends it as NO_READY. -/
  | noReady
  /-- READ_TIMEOUT (R451). A BAR4 read's completion time-out fires and all ones are returned. -/
  | readTimeout (tag : Fin 8)
  /-- PREFETCH_EXPIRY (R452). A prefetch buffer is discarded 10 µs after it was filled. -/
  | prefetchExpiry (cs : Fin 4)
  /-- BUS_REQUEST (R454). LBREQ_N is seen low and the device grants the bus to the local master. -/
  | busRequest (dt : Nat)
  /-- TENURE_END (R454). LBREQ_N rises and the device ends the tenure. -/
  | tenureEnd (dt : Nat)
  /-- TENURE_EXPIRY (R454). A tenure lasts tenure_us and the grant is withdrawn. -/
  | tenureExpiry
  /-- INBOUND_WRITE (R455). A local master write with LTSEL_N low is taken as a write to host memory. -/
  | inboundWrite (addr : BitVec 24) (upper : Bool) (data : BitVec 16) (parityOk : BitVec 2) (dt : Nat)
  /-- INBOUND_READ (R455). A local master read with LTSEL_N low is answered with 0xFFFF and logged. -/
  | inboundRead (addr : BitVec 24) (dt : Nat)
  /-- INBOUND_FLUSH (R456). 160 ns pass after the last write of a block, so the merged block is sent upstream. -/
  | inboundFlush
  /-- LIRQ_EDGE (R457). A filtered LIRQ edge latches its bit and makes a message due. -/
  | lirqEdge (n : Fin 8) (rising : Bool) (dt : Nat)
  /-- CLASP_ACQUIRE (R459). A write of LBB_CLASP_CTRL.acquire holds the bus against the local master. -/
  | claspAcquire (v : Word) (dt : Nat)
  /-- CLASP_RELEASE (R459). A write of LBB_CLASP_CTRL.release ends the Clasp after the earlier writes. -/
  | claspRelease (v : Word) (dt : Nat)
  /-- CLASP_EXPIRY (R459). A Clasp held for max_us ends and is counted. -/
  | claspExpiry
  /-- ERROR_LOG_POP (R461). A read of LBB_ERR_INFO removes the head of the error log. -/
  | errorLogPop (dt : Nat)
  /-- CRC_RESTART (R469). A write of CRC_CTRL.restart loads init and clears the count. -/
  | crcRestart (u : Fin 4) (v : Word) (dt : Nat)
  /-- CRC_SEED (R470). A write of CRC_SEED loads a value to continue from. -/
  | crcSeed (u : Fin 4) (v : Word) (dt : Nat)
  /-- CRC_DATA8 (R467). A write of CRC_DATA8 feeds one byte. -/
  | crcData8 (u : Fin 4) (v : Word) (dt : Nat)
  /-- CRC_DATA16 (R467). A write of CRC_DATA16 feeds two bytes. -/
  | crcData16 (u : Fin 4) (v : Word) (dt : Nat)
  /-- CRC_DATA32 (R467). A write of CRC_DATA32 feeds four bytes. -/
  | crcData32 (u : Fin 4) (v : Word) (dt : Nat)
  /-- ILGIL_BLOCK_LOCK (R479). An Ilgil port's lanes reach block lock and deskew, and the port enters HELLO. -/
  | ilgilBlockLock (g : Fin 2) (dt : Nat)
  /-- ILGIL_HELLO_SEND (R479). Every 1 µs in HELLO the port sends a HELLO unit. -/
  | ilgilHelloSend (g : Fin 2)
  /-- ILGIL_HELLO_RECEIVE (R480). A HELLO unit is judged to accept or refuse the peer, derive an index and enter UP. -/
  | ilgilHelloReceive (g : Fin 2) (bytes : List Byte) (dt : Nat)
  /-- CELL_UNIT_RECEIVE (R484). A CELL unit is accepted in order and delivered, fanned out or forwarded. -/
  | cellUnitReceive (g : Fin 2) (bytes : List Byte) (dt : Nat)
  /-- CREDIT_UNIT_RECEIVE (R477). A CREDIT unit acknowledges reliable units, returns credits or requests a replay. -/
  | creditUnitReceive (g : Fin 2) (bytes : List Byte) (dt : Nat)
  /-- CREDIT_UNIT_SEND (R477). At least every 256 ns while owed, the receiver sends a CREDIT. -/
  | creditUnitSend (g : Fin 2)
  /-- REPLAY_TIMEOUT (R477). 2 µs pass without progress of ack, so unacknowledged units are sent again. -/
  | replayTimeout (g : Fin 2)
  /-- ILGIL_LINK_LOSS (R478). An Ilgil port loses block lock, units or replay progress and returns to DOWN. -/
  | ilgilLinkLoss (g : Fin 2) (dt : Nat)
  /-- REACH_SEND (R482). A REACH unit is sent after a change or every 100 µs. -/
  | reachSend (g : Fin 2)
  /-- REACH_RECEIVE (R482). A REACH unit updates the port's reach, paths, quarantine and node-role status. -/
  | reachReceive (g : Fin 2) (bytes : List Byte) (dt : Nat)
  /-- REBALANCE (R482). A write of ILG_REBALANCE.go moves indices to their shorter paths once drained. -/
  | rebalance (v : Word) (dt : Nat)
  /-- TIME_UNIT_SEND (R491). Every 125 µs a TIME unit is sent on each UP Ilgil port. -/
  | timeUnitSend (g : Fin 2)
  /-- TIME_UNIT_RECEIVE (R492). A TIME unit yields a delay sample and, at a worker on its path, a servo request. -/
  | timeUnitReceive (g : Fin 2) (bytes : List Byte) (dt : Nat)
  /-- ILG_MGMT_READ (R494). A write of ILG_MGMT_CTRL.go for a read sends a MGMT read to a worker. -/
  | ilgMgmtRead (v : Word) (dt : Nat)
  /-- ILG_MGMT_WRITE (R494). A write of ILG_MGMT_CTRL.go for a write sends a MGMT write to a worker. -/
  | ilgMgmtWrite (v : Word) (dt : Nat)
  /-- MGMT_REQUEST_RECEIVE (R494). A worker performs a MGMT access with the requester's role and responds. -/
  | mgmtRequestReceive (g : Fin 2) (bytes : List Byte) (dt : Nat)
  /-- MGMT_RESPONSE_RECEIVE (R494). A MGMT response loads ILG_MGMT_DATA and its result, or is counted late. -/
  | mgmtResponseReceive (g : Fin 2) (bytes : List Byte) (dt : Nat)
  /-- MGMT_TIMEOUT (R494). No MGMT response arrives within 100 µs, which gives result TIMEOUT. -/
  | mgmtTimeout
  /-- WORKER_IMAGE_START (R495). A write of ILG_IMG_CTRL.start sends a setting image to a worker. -/
  | workerImageStart (v : Word) (dt : Nat)
  /-- WORKER_IMAGE_ABORT (R495). A write of ILG_IMG_CTRL.abort ends a worker image with result 0x18. -/
  | workerImageAbort (v : Word) (dt : Nat)
  /-- IMAGE_UNIT_RECEIVE (R495). A worker receives an IMAGE unit of the image it is checking or applying. -/
  | imageUnitReceive (g : Fin 2) (bytes : List Byte) (dt : Nat)
  /-- IMAGE_RESULT_RECEIVE (R495). The manager receives a worker's image result and raises image_done. -/
  | imageResultReceive (g : Fin 2) (bytes : List Byte) (dt : Nat)
  /-- WORKER_REPORT (R496). A worker report updates the manager's view of its generation and currency. -/
  | workerReport (g : Fin 2) (bytes : List Byte) (dt : Nat)
  /-- WORKER_GEN_WRITE (R496). A write of ILG_WORKER_GEN re-judges the worker's currency in the next cycle. -/
  | workerGenWrite (i : Fin 7) (v : Word) (dt : Nat)
  /-- SWITCH_UNIT_RECEIVE (R486). A worker copies a SWITCH unit's epoch, numbering, map and grace, and relays it. -/
  | switchUnitReceive (g : Fin 2) (bytes : List Byte) (dt : Nat)
  /-- HEARTBEAT_SEND (R508). Every 250 µs, or as an extra, a side sends a heartbeat. -/
  | heartbeatSend
  /-- HEARTBEAT_RECEIVE (R509). A valid heartbeat updates RED_PEER, sync, eligibility and COUNT seqs. -/
  | heartbeatReceive (bytes : List Byte) (dt : Nat)
  /-- HEARTBEAT_LOSS (R509). No valid heartbeat ends within hb_loss_us, so an eligible standby claims. -/
  | heartbeatLoss
  /-- RESIGN_IN_CHANGE (R513). RESIGN_IN changes level, which may start a claim at a standby or a resigned side's return to STANDBY. -/
  | resignInChange (level : Bool) (dt : Nat)
  /-- CLAIM_WAIT_EXPIRY (R505). claim_wait_us ends and the claiming side yields or becomes ACTIVE by side. -/
  | claimWaitExpiry
  /-- CLAIM_CONFIRM (R505). RESIGN_IN has been high for 2 µs of the claim, so the side becomes ACTIVE. -/
  | claimConfirm
  /-- PEER_DEMAND (R506). RESIGN_IN has been low for 2 µs at an ACTIVE side, which gates its outputs and resigns it. -/
  | peerDemand
  /-- START_CLAIM (R507). After the boot image, side A at once and side B after 500 µs claim if RESIGN_IN is high. -/
  | startClaim
  /-- RED_RESIGN_CMD (R516). A write of RED_CMD.resign makes the side resign with cause host. -/
  | redResignCmd (v : Word) (dt : Nat)
  /-- RED_SWAP_CMD (R521). A write of RED_CMD.swap schedules a proof swap at a PD0 phase. -/
  | redSwapCmd (v : Word) (dt : Nat)
  /-- RED_CLAIM_CMD (R517). A write of RED_CMD.claim lets an unpaired device retake the role. -/
  | redClaimCmd (v : Word) (dt : Nat)
  /-- SWAP_INSTANT (R523). At the swap instant the active side resigns with cause swap and the standby claims. -/
  | swapInstant
  /-- SWAP_OVERDUE (R520). RED_ROLE_AGE reaches warn_h hours, which raises swap_overdue. -/
  | swapOverdue
  /-- AUTO_SWAP (R521). The peer's role age reaches interval_h, so the active side requests a swap itself. -/
  | autoSwap
  /-- PAGE_PROGRAM_DONE (R534). A flash page program completes and the commit continues or ends. -/
  | pageProgramDone (ok zeroOk : Bool) (dt : Nat)
  /-- ERASE_DONE (R535). A sector erase completes. -/
  | eraseDone (ok zeroOk : Bool) (dt : Nat)
  /-- POWER_FAIL (R536). PFAIL_N has been low for 1 µs; POWER_FAIL is written and every record is flushed to flash. -/
  | powerFail (dt : Nat)
  /-- POWER_RESTORED (R536). PFAIL_N rises while power holds and normal commits resume. -/
  | powerRestored (dt : Nat)
  /-- FREEZE (R537). A write of LKT_CTRL.freeze = 1 freezes the recorder after the page program in progress. -/
  | freeze (v : Word) (dt : Nat)
  /-- UNFREEZE (R537). A write of freeze = 0 unfreezes or withdraws a pending freeze. -/
  | unfreeze (v : Word) (dt : Nat)
  /-- FREEZE_LAPSE (R537). A freeze lasts max_freeze_s and lapses. -/
  | freezeLapse
  /-- RECORD_FETCH (R538). A write of LKT_READ_CTRL.go starts fetching one record. -/
  | recordFetch (v : Word) (dt : Nat)
  /-- RECORD_FETCH_DONE (R538). The fetched record is in LKT_READ_DATA with its result. -/
  | recordFetchDone (ok : Bool) (dt : Nat)
  /-- PARTITION_WRITE (R533). A maker write of LKT_PART.size_log at once writes a counter block with the new value. -/
  | partitionWrite (v : Word) (dt : Nat)
  /-- OPERATING_SECOND (R530). The keep-alive divider completes a second and LKT_OPSEC advances. -/
  | operatingSecond (dt : Nat)
  /-- MAIN_POWER_ON (R553). All main supplies enter range; LKT_PCC counts and the internal reset hold ends. -/
  | mainPowerOn (straps : BitVec 13) (dt : Nat)
  /-- MAIN_POWER_LOSS (R553). A main supply leaves range and the device is held in reset. -/
  | mainPowerLoss (vbak : Bool) (dt : Nat)
  /-- RESET_ASSERT (R556). PORESET_N or PERST_N goes low and the device enters reset. -/
  | resetAssert (pin : ResetPin) (dt : Nat)
  /-- RESET_END (R556). Reset ends at the first cycle in which no reset condition holds. -/
  | resetEnd (straps : BitVec 13) (dt : Nat)
  /-- PLL_LOCK (R560). The core PLL locks and cclk_lock is set. -/
  | pllLock (dt : Nat)
  /-- MEMORY_STEP_DONE (R560). Fuses and SRAM are loaded; PHY resets follow GLB_PHY_RST and PCI Express starts training. -/
  | memoryStepDone (temp : BitVec 12) (supply : BitVec 9) (clk : BitVec 4) (dt : Nat)
  /-- LOCKET_STEP (R560). Once PFAIL_N is high the device restores counters, finds the write point and makes POWER_ON. -/
  | locketStep (flashWorks : Bool) (dt : Nat)
  /-- PHY_RESET_WRITE (R546). A write of GLB_PHY_RST drives the PHY reset outputs. -/
  | phyResetWrite (v : Word) (dt : Nat)
  /-- TAP_BYPASS (R559). The TAP BYPASS instruction selects the bypass register. -/
  | tapBypass (dt : Nat)
  /-- TAP_IDCODE (R559). The TAP IDCODE instruction reports the identification code. -/
  | tapIdcode (dt : Nat)
  /-- TAP_SAMPLE_PRELOAD (R559). The TAP SAMPLE/PRELOAD instruction samples and preloads the boundary cells. -/
  | tapSamplePreload (sampled preload : List Bool) (dt : Nat)
  /-- TAP_EXTEST (R559). The TAP EXTEST instruction holds the device in reset and drives the balls from boundary cells. -/
  | tapExtest (dt : Nat)
  /-- TAP_CLAMP (R559). The TAP CLAMP instruction holds the device in reset and clamps the balls. -/
  | tapClamp (dt : Nat)
  /-- TAP_HIGHZ (R559). The TAP HIGHZ instruction holds the device in reset with the outputs high-impedance. -/
  | tapHighz (dt : Nat)
  /-- PORESET_RISING_EDGE (R556). PORESET_N rises while another reset condition still holds, and the straps are sampled at that edge. -/
  | poresetRisingEdge (straps : BitVec 13) (dt : Nat)
  /-- RX_DESCRIPTOR_FETCH (R425). Fetched RX or CAPTURE descriptors arrive from host memory, giving the ring writer buffer lengths so a copy can start or continue. -/
  | rxDescriptorFetch (ring : Fin 64) (descs : List (List Byte)) (dt : Nat)
  /-- BUS_MASTER_ENABLE (R410). Bus Master Enable is set again and rings resume fetching and their waiting write-backs proceed. -/
  | busMasterEnable (dt : Nat)
  /-- COUPLER_INPUT_CHANGE (R545). A CPL1 or CPL2 ball changes level, which starts its filter. -/
  | couplerInputChange (cpl : Fin 2) (level : Bool) (dt : Nat)
  /-- COUPLER_FILTER_ACCEPT (R545). A CPL input has held its new level for the filter time, so the filtered value in GLB_PINS changes. -/
  | couplerFilterAccept (cpl : Fin 2)
  /-- INPUT_UNSTUCK (R387). A stuck sense input's bitstream changes level and the input leaves the stuck state. -/
  | inputUnstuck (inp : Fin 32) (dt : Nat)
  /-- PROTOCOL_EXCEPTION_EXIT (R330). A channel in the protocol exception state sees bus idle and rejoins the bus. -/
  | protocolExceptionExit (ch : Fin 16) (dt : Nat)
  /-- CARRIER_SENSE (R239). Carrier on a half-duplex segment appears or ends, so the port defers or, after the interframe gap, may send. -/
  | carrierSense (port : Fin 48) (carrier : Bool) (dt : Nat)
  /-- VERIFY_FRAME_RECEIVE (R252). A preemption verify frame from the peer is received and answered with a respond frame. -/
  | verifyFrameReceive (line : Fin 4) (dt : Nat)
  /-- ERASE_SUSPENDED (R535). A flash erase suspend completes, after up to the erase suspend latency, and the waiting commit programs its pages. -/
  | eraseSuspended (dt : Nat)
  /-- WORKER_IMAGE_READ (R495). A host memory read issued by the manager for a worker image completes and its bytes are sent in IMAGE units. -/
  | workerImageRead (bytes : List Byte) (dt : Nat)
  deriving DecidableEq, Repr

end Sys2Proof
end

