-- ==== Sys2Proof/Decode.lean ====
section
/-! DEFINITION. The words of the table's rows. The table gives no row any bits (each row's `fields` is empty), so no
word spells a command. -/
namespace Sys2Proof

/-- The command that a word of the table spells: none, for no row has bits. -/
def decodeTableWord (_nbits _w : Nat) : Option Instr := none

end Sys2Proof
end

