-- ==== Sys2Proof/Config.lean ====
section
/-! DEFINITION. What one device fixes (its fuses) and the values the spec leaves open. Each is an opaque constant
without a body: nothing can be proved about its value, so every statement holds whatever it is (assumption log 2). -/
namespace Sys2Proof.Config

/-- The 64-bit fused identity (R35). -/
opaque fusedUid : BitVec 64
/-- The MAC fuse field (R36), 0 when blank. -/
opaque fusedMac : BitVec 48
/-- Byte k of the installer root key fuse (R55). -/
opaque installerRoot : Nat → Byte
/-- Byte k of the maker root key fuse (R55). -/
opaque makerRoot : Nat → Byte
/-- The n-th 128-bit draw of the random source (R57). -/
opaque nonce : Nat → BitVec 128
/-- The draw of the half-duplex back-off generator: fused identity, port, draw number (R240 gives no polynomial). -/
opaque backoff : BitVec 64 → Nat → Nat → BitVec 32
/-- A word of the device's own backup RAM, whose layout the spec does not give (R531, R540). -/
opaque bramWord : Nat → Nat → BitVec 32
/-- A 32-bit value the spec leaves open, numbered by the state's draw counter. -/
opaque free32 : Nat → BitVec 32

end Sys2Proof.Config
end

