-- ==== Sys2Proof/Machine/RegMap.lean ====
section
/-! DEFINITION. The register map of BAR0 (R583, R584): for every register and table word its offset, its fields
with their access codes (R9, R10) and legal sets (R46), its value after reset (R11), whether it is marked (R67) and
whether it is kept (R11). `Reg.X` is an offset, `Fld.X_f` a field of a register, `Row.X` the row of register X.
The 7,459 registers of R583 and the tables of R584 are all here. -/
namespace Sys2Proof.Machine

/-- The access code of a field (R9). -/
inductive Acc where
  | ro | rw | rc | w1c | w1s | wo
  deriving DecidableEq, Repr

/-- The role suffix of an access code (R10). -/
inductive Right where
  | anyRole | installer | maker
  deriving DecidableEq, Repr

/-- The legal set of a field and the nearest legal value (R46). -/
inductive Legal where
  | any
  /-- a numeric range: the nearer bound -/
  | range (lo hi : Nat)
  /-- a signed range of a two's complement field -/
  | signed (lo hi : Int)
  /-- the low bits are stored as 0 -/
  | zeroLow (n : Nat)
  /-- reserved codes and their replacements -/
  | code (l : List (Nat × Nat))
  deriving DecidableEq, Repr

/-- One field of a row: lowest bit, width, access, role, legal set. -/
structure FieldSpec where
  lo : Nat
  width : Nat
  acc : Acc
  right : Right
  legal : Legal
  deriving DecidableEq, Repr

/-- One row of a register map: word (i, j) lies at base + s1 * i + s2 * j (R584). -/
structure RegSpec where
  base : Nat
  n1 : Nat
  s1 : Nat
  n2 : Nat
  s2 : Nat
  reset : Nat
  marked : Bool
  kept : Bool
  fields : List FieldSpec
  deriving DecidableEq, Repr

/-- A field of one register: the register's offset, the lowest bit, the width. -/
structure Fld where
  reg : Nat
  lo : Nat
  width : Nat
  deriving DecidableEq, Repr


/-! ### GLB (R29, R564: identity, capability, monitor and pin registers; fields R31-R43, R565) -/

def Reg.GLB_ID : Nat := 0
def Fld.GLB_ID_family : Fld := ⟨Reg.GLB_ID, 24, 8⟩
def Fld.GLB_ID_device : Fld := ⟨Reg.GLB_ID, 8, 16⟩
def Fld.GLB_ID_revision : Fld := ⟨Reg.GLB_ID, 0, 8⟩
def Row.GLB_ID : RegSpec :=
  ⟨0, 1, 0, 1, 0, 0x460048a1, false, false,
    [⟨24, 8, .ro, .anyRole, .any⟩,
     ⟨8, 16, .ro, .anyRole, .any⟩,
     ⟨0, 8, .ro, .anyRole, .any⟩]⟩
def Reg.GLB_CAP_PORTS : Nat := 4
def Fld.GLB_CAP_PORTS_rings : Fld := ⟨Reg.GLB_CAP_PORTS, 16, 8⟩
def Fld.GLB_CAP_PORTS_ilgil_ports : Fld := ⟨Reg.GLB_CAP_PORTS, 12, 4⟩
def Fld.GLB_CAP_PORTS_trunk_ports : Fld := ⟨Reg.GLB_CAP_PORTS, 8, 4⟩
def Fld.GLB_CAP_PORTS_edge_ports : Fld := ⟨Reg.GLB_CAP_PORTS, 0, 8⟩
def Row.GLB_CAP_PORTS : RegSpec :=
  ⟨4, 1, 0, 1, 0, 0x402430, false, false,
    [⟨16, 8, .ro, .anyRole, .any⟩,
     ⟨12, 4, .ro, .anyRole, .any⟩,
     ⟨8, 4, .ro, .anyRole, .any⟩,
     ⟨0, 8, .ro, .anyRole, .any⟩]⟩
def Reg.GLB_CAP_TABLES : Nat := 8
def Fld.GLB_CAP_TABLES_fil_templates : Fld := ⟨Reg.GLB_CAP_TABLES, 28, 4⟩
def Fld.GLB_CAP_TABLES_fil_signals : Fld := ⟨Reg.GLB_CAP_TABLES, 23, 5⟩
def Fld.GLB_CAP_TABLES_fil_sources : Fld := ⟨Reg.GLB_CAP_TABLES, 18, 5⟩
def Fld.GLB_CAP_TABLES_car_events : Fld := ⟨Reg.GLB_CAP_TABLES, 13, 5⟩
def Fld.GLB_CAP_TABLES_fdb_entries : Fld := ⟨Reg.GLB_CAP_TABLES, 8, 5⟩
def Fld.GLB_CAP_TABLES_cells : Fld := ⟨Reg.GLB_CAP_TABLES, 0, 8⟩
def Row.GLB_CAP_TABLES : RegSpec :=
  ⟨8, 1, 0, 1, 0, 0x48210860, false, false,
    [⟨28, 4, .ro, .anyRole, .any⟩,
     ⟨23, 5, .ro, .anyRole, .any⟩,
     ⟨18, 5, .ro, .anyRole, .any⟩,
     ⟨13, 5, .ro, .anyRole, .any⟩,
     ⟨8, 5, .ro, .anyRole, .any⟩,
     ⟨0, 8, .ro, .anyRole, .any⟩]⟩
def Reg.GLB_CAP_IO : Nat := 0xc
def Fld.GLB_CAP_IO_phase_domains : Fld := ⟨Reg.GLB_CAP_IO, 21, 4⟩
def Fld.GLB_CAP_IO_tach_inputs : Fld := ⟨Reg.GLB_CAP_IO, 18, 3⟩
def Fld.GLB_CAP_IO_drive_outputs : Fld := ⟨Reg.GLB_CAP_IO, 12, 6⟩
def Fld.GLB_CAP_IO_sense_inputs : Fld := ⟨Reg.GLB_CAP_IO, 6, 6⟩
def Fld.GLB_CAP_IO_can_channels : Fld := ⟨Reg.GLB_CAP_IO, 0, 6⟩
def Row.GLB_CAP_IO : RegSpec :=
  ⟨0xc, 1, 0, 1, 0, 0x1120810, false, false,
    [⟨21, 4, .ro, .anyRole, .any⟩,
     ⟨18, 3, .ro, .anyRole, .any⟩,
     ⟨12, 6, .ro, .anyRole, .any⟩,
     ⟨6, 6, .ro, .anyRole, .any⟩,
     ⟨0, 6, .ro, .anyRole, .any⟩]⟩
def Reg.GLB_UID_LO : Nat := 0x10
def Fld.GLB_UID_LO_uid_lo : Fld := ⟨Reg.GLB_UID_LO, 0, 32⟩
def Row.GLB_UID_LO : RegSpec :=
  ⟨0x10, 1, 0, 1, 0, 0, false, false,
    [⟨0, 32, .ro, .anyRole, .any⟩]⟩
def Reg.GLB_UID_HI : Nat := 0x14
def Fld.GLB_UID_HI_uid_hi : Fld := ⟨Reg.GLB_UID_HI, 0, 32⟩
def Row.GLB_UID_HI : RegSpec :=
  ⟨0x14, 1, 0, 1, 0, 0, false, false,
    [⟨0, 32, .ro, .anyRole, .any⟩]⟩
def Reg.GLB_STRAP : Nat := 0x18
def Fld.GLB_STRAP_safe : Fld := ⟨Reg.GLB_STRAP, 10, 3⟩
def Fld.GLB_STRAP_spire : Fld := ⟨Reg.GLB_STRAP, 9, 1⟩
def Fld.GLB_STRAP_pcie : Fld := ⟨Reg.GLB_STRAP, 7, 2⟩
def Fld.GLB_STRAP_trunk : Fld := ⟨Reg.GLB_STRAP, 5, 2⟩
def Fld.GLB_STRAP_side : Fld := ⟨Reg.GLB_STRAP, 4, 1⟩
def Fld.GLB_STRAP_boot : Fld := ⟨Reg.GLB_STRAP, 2, 2⟩
def Fld.GLB_STRAP_role : Fld := ⟨Reg.GLB_STRAP, 0, 2⟩
def Row.GLB_STRAP : RegSpec :=
  ⟨0x18, 1, 0, 1, 0, 0, false, false,
    [⟨10, 3, .ro, .anyRole, .any⟩,
     ⟨9, 1, .ro, .anyRole, .any⟩,
     ⟨7, 2, .ro, .anyRole, .any⟩,
     ⟨5, 2, .ro, .anyRole, .any⟩,
     ⟨4, 1, .ro, .anyRole, .any⟩,
     ⟨2, 2, .ro, .anyRole, .any⟩,
     ⟨0, 2, .ro, .anyRole, .any⟩]⟩
def Reg.GLB_CLAMP_COUNT : Nat := 0x1c
def Fld.GLB_CLAMP_COUNT_count : Fld := ⟨Reg.GLB_CLAMP_COUNT, 0, 32⟩
def Row.GLB_CLAMP_COUNT : RegSpec :=
  ⟨0x1c, 1, 0, 1, 0, 0, false, false,
    [⟨0, 32, .rc, .anyRole, .any⟩]⟩
def Reg.GLB_TEMP : Nat := 0x20
def Fld.GLB_TEMP_temp : Fld := ⟨Reg.GLB_TEMP, 0, 12⟩
def Row.GLB_TEMP : RegSpec :=
  ⟨0x20, 1, 0, 1, 0, 0, false, false,
    [⟨0, 12, .ro, .anyRole, .any⟩]⟩
def Reg.GLB_TEMP_WARN : Nat := 0x24
def Fld.GLB_TEMP_WARN_warn : Fld := ⟨Reg.GLB_TEMP_WARN, 0, 12⟩
def Row.GLB_TEMP_WARN : RegSpec :=
  ⟨0x24, 1, 0, 1, 0, 0x460, false, false,
    [⟨0, 12, .rw, .installer, (.signed (-320) 1200)⟩]⟩
def Reg.GLB_SUPPLY : Nat := 0x28
def Fld.GLB_SUPPLY_vbak_low : Fld := ⟨Reg.GLB_SUPPLY, 8, 1⟩
def Fld.GLB_SUPPLY_vio18_high : Fld := ⟨Reg.GLB_SUPPLY, 7, 1⟩
def Fld.GLB_SUPPLY_vio18_low : Fld := ⟨Reg.GLB_SUPPLY, 6, 1⟩
def Fld.GLB_SUPPLY_vio33_high : Fld := ⟨Reg.GLB_SUPPLY, 5, 1⟩
def Fld.GLB_SUPPLY_vio33_low : Fld := ⟨Reg.GLB_SUPPLY, 4, 1⟩
def Fld.GLB_SUPPLY_vsrd_high : Fld := ⟨Reg.GLB_SUPPLY, 3, 1⟩
def Fld.GLB_SUPPLY_vsrd_low : Fld := ⟨Reg.GLB_SUPPLY, 2, 1⟩
def Fld.GLB_SUPPLY_vcore_high : Fld := ⟨Reg.GLB_SUPPLY, 1, 1⟩
def Fld.GLB_SUPPLY_vcore_low : Fld := ⟨Reg.GLB_SUPPLY, 0, 1⟩
def Row.GLB_SUPPLY : RegSpec :=
  ⟨0x28, 1, 0, 1, 0, 0, false, false,
    [⟨8, 1, .ro, .anyRole, .any⟩,
     ⟨7, 1, .ro, .anyRole, .any⟩,
     ⟨6, 1, .ro, .anyRole, .any⟩,
     ⟨5, 1, .ro, .anyRole, .any⟩,
     ⟨4, 1, .ro, .anyRole, .any⟩,
     ⟨3, 1, .ro, .anyRole, .any⟩,
     ⟨2, 1, .ro, .anyRole, .any⟩,
     ⟨1, 1, .ro, .anyRole, .any⟩,
     ⟨0, 1, .ro, .anyRole, .any⟩]⟩
def Reg.GLB_CLK : Nat := 0x2c
def Fld.GLB_CLK_xtal32_ok : Fld := ⟨Reg.GLB_CLK, 3, 1⟩
def Fld.GLB_CLK_ref156_ok : Fld := ⟨Reg.GLB_CLK, 2, 1⟩
def Fld.GLB_CLK_ref25_ok : Fld := ⟨Reg.GLB_CLK, 1, 1⟩
def Fld.GLB_CLK_cclk_lock : Fld := ⟨Reg.GLB_CLK, 0, 1⟩
def Row.GLB_CLK : RegSpec :=
  ⟨0x2c, 1, 0, 1, 0, 0, false, false,
    [⟨3, 1, .ro, .anyRole, .any⟩,
     ⟨2, 1, .ro, .anyRole, .any⟩,
     ⟨1, 1, .ro, .anyRole, .any⟩,
     ⟨0, 1, .ro, .anyRole, .any⟩]⟩
def Reg.GLB_MON_EVENT : Nat := 0x30
def Fld.GLB_MON_EVENT_vbak_low : Fld := ⟨Reg.GLB_MON_EVENT, 4, 1⟩
def Fld.GLB_MON_EVENT_clk_fault : Fld := ⟨Reg.GLB_MON_EVENT, 3, 1⟩
def Fld.GLB_MON_EVENT_supply_fault : Fld := ⟨Reg.GLB_MON_EVENT, 2, 1⟩
def Fld.GLB_MON_EVENT_temp_crit : Fld := ⟨Reg.GLB_MON_EVENT, 1, 1⟩
def Fld.GLB_MON_EVENT_temp_warn : Fld := ⟨Reg.GLB_MON_EVENT, 0, 1⟩
def Row.GLB_MON_EVENT : RegSpec :=
  ⟨0x30, 1, 0, 1, 0, 0, false, false,
    [⟨4, 1, .w1c, .anyRole, .any⟩,
     ⟨3, 1, .w1c, .anyRole, .any⟩,
     ⟨2, 1, .w1c, .anyRole, .any⟩,
     ⟨1, 1, .w1c, .anyRole, .any⟩,
     ⟨0, 1, .w1c, .anyRole, .any⟩]⟩
def Reg.GLB_MAC_BASE_LO : Nat := 0x34
def Fld.GLB_MAC_BASE_LO_mac_lo : Fld := ⟨Reg.GLB_MAC_BASE_LO, 0, 32⟩
def Row.GLB_MAC_BASE_LO : RegSpec :=
  ⟨0x34, 1, 0, 1, 0, 0, false, false,
    [⟨0, 32, .ro, .anyRole, .any⟩]⟩
def Reg.GLB_MAC_BASE_HI : Nat := 0x38
def Fld.GLB_MAC_BASE_HI_mac_hi : Fld := ⟨Reg.GLB_MAC_BASE_HI, 0, 16⟩
def Row.GLB_MAC_BASE_HI : RegSpec :=
  ⟨0x38, 1, 0, 1, 0, 0, false, false,
    [⟨0, 16, .ro, .anyRole, .any⟩]⟩

/-! ### ROL (R62: roles and setting images; fields R63-R65) -/

def Reg.ROL_STATUS : Nat := 0x10000
def Fld.ROL_STATUS_lockout_s : Fld := ⟨Reg.ROL_STATUS, 16, 8⟩
def Fld.ROL_STATUS_failures : Fld := ⟨Reg.ROL_STATUS, 8, 8⟩
def Fld.ROL_STATUS_rotate_busy : Fld := ⟨Reg.ROL_STATUS, 7, 1⟩
def Fld.ROL_STATUS_nonce_role : Fld := ⟨Reg.ROL_STATUS, 4, 2⟩
def Fld.ROL_STATUS_nonce_valid : Fld := ⟨Reg.ROL_STATUS, 3, 1⟩
def Fld.ROL_STATUS_role : Fld := ⟨Reg.ROL_STATUS, 0, 2⟩
def Row.ROL_STATUS : RegSpec :=
  ⟨0x10000, 1, 0, 1, 0, 0, false, false,
    [⟨16, 8, .ro, .anyRole, .any⟩,
     ⟨8, 8, .ro, .anyRole, .any⟩,
     ⟨7, 1, .ro, .anyRole, .any⟩,
     ⟨4, 2, .ro, .anyRole, .any⟩,
     ⟨3, 1, .ro, .anyRole, .any⟩,
     ⟨0, 2, .ro, .anyRole, .any⟩]⟩
def Reg.ROL_IDLE : Nat := 0x10004
def Fld.ROL_IDLE_ticks : Fld := ⟨Reg.ROL_IDLE, 0, 17⟩
def Row.ROL_IDLE : RegSpec :=
  ⟨0x10004, 1, 0, 1, 0, 0, false, false,
    [⟨0, 17, .ro, .anyRole, .any⟩]⟩
def Reg.ROL_CHALLENGE : Nat := 0x10008
def Fld.ROL_CHALLENGE_role : Fld := ⟨Reg.ROL_CHALLENGE, 0, 2⟩
def Row.ROL_CHALLENGE : RegSpec :=
  ⟨0x10008, 1, 0, 1, 0, 0, false, false,
    [⟨0, 2, .wo, .anyRole, .any⟩]⟩
def Reg.ROL_UNLOCK : Nat := 0x1000c
def Fld.ROL_UNLOCK_go : Fld := ⟨Reg.ROL_UNLOCK, 0, 1⟩
def Row.ROL_UNLOCK : RegSpec :=
  ⟨0x1000c, 1, 0, 1, 0, 0, false, false,
    [⟨0, 1, .wo, .anyRole, .any⟩]⟩
def Reg.ROL_NONCE (i : Nat) : Nat := 0x10010 + 4 * i
def Fld.ROL_NONCE_nonce (i : Nat) : Fld := ⟨Reg.ROL_NONCE i, 0, 32⟩
def Row.ROL_NONCE : RegSpec :=
  ⟨0x10010, 4, 4, 1, 0, 0, false, false,
    [⟨0, 32, .ro, .anyRole, .any⟩]⟩
def Reg.ROL_RESP (i : Nat) : Nat := 0x10020 + 4 * i
def Fld.ROL_RESP_resp (i : Nat) : Fld := ⟨Reg.ROL_RESP i, 0, 32⟩
def Row.ROL_RESP : RegSpec :=
  ⟨0x10020, 8, 4, 1, 0, 0, false, false,
    [⟨0, 32, .wo, .anyRole, .any⟩]⟩
def Reg.ROL_DROP : Nat := 0x10040
def Fld.ROL_DROP_drop : Fld := ⟨Reg.ROL_DROP, 0, 1⟩
def Row.ROL_DROP : RegSpec :=
  ⟨0x10040, 1, 0, 1, 0, 0, true, false,
    [⟨0, 1, .wo, .anyRole, .any⟩]⟩
def Reg.ROL_KEY_ROT : Nat := 0x10044
def Fld.ROL_KEY_ROT_count : Fld := ⟨Reg.ROL_KEY_ROT, 0, 32⟩
def Row.ROL_KEY_ROT : RegSpec :=
  ⟨0x10044, 1, 0, 1, 0, 0, false, true,
    [⟨0, 32, .ro, .anyRole, .any⟩]⟩
def Reg.ROL_ROTATE : Nat := 0x10048
def Fld.ROL_ROTATE_next : Fld := ⟨Reg.ROL_ROTATE, 0, 32⟩
def Row.ROL_ROTATE : RegSpec :=
  ⟨0x10048, 1, 0, 1, 0, 0, false, false,
    [⟨0, 32, .wo, .installer, .any⟩]⟩
def Reg.ROL_DENY_COUNT : Nat := 0x1004c
def Fld.ROL_DENY_COUNT_count : Fld := ⟨Reg.ROL_DENY_COUNT, 0, 32⟩
def Row.ROL_DENY_COUNT : RegSpec :=
  ⟨0x1004c, 1, 0, 1, 0, 0, false, false,
    [⟨0, 32, .rc, .anyRole, .any⟩]⟩
def Reg.ROL_EVENT : Nat := 0x10050
def Fld.ROL_EVENT_role_lapse : Fld := ⟨Reg.ROL_EVENT, 1, 1⟩
def Fld.ROL_EVENT_image_done : Fld := ⟨Reg.ROL_EVENT, 0, 1⟩
def Row.ROL_EVENT : RegSpec :=
  ⟨0x10050, 1, 0, 1, 0, 0, false, false,
    [⟨1, 1, .w1c, .anyRole, .any⟩,
     ⟨0, 1, .w1c, .anyRole, .any⟩]⟩
def Reg.ROL_EVENT_EN : Nat := 0x10054
def Fld.ROL_EVENT_EN_en : Fld := ⟨Reg.ROL_EVENT_EN, 0, 2⟩
def Row.ROL_EVENT_EN : RegSpec :=
  ⟨0x10054, 1, 0, 1, 0, 0, false, false,
    [⟨0, 2, .rw, .anyRole, .any⟩]⟩
def Reg.ROL_IMG_ADDR_LO : Nat := 0x10080
def Fld.ROL_IMG_ADDR_LO_addr : Fld := ⟨Reg.ROL_IMG_ADDR_LO, 0, 32⟩
def Row.ROL_IMG_ADDR_LO : RegSpec :=
  ⟨0x10080, 1, 0, 1, 0, 0, false, false,
    [⟨0, 32, .rw, .anyRole, (.zeroLow 2)⟩]⟩
def Reg.ROL_IMG_ADDR_HI : Nat := 0x10084
def Fld.ROL_IMG_ADDR_HI_addr : Fld := ⟨Reg.ROL_IMG_ADDR_HI, 0, 32⟩
def Row.ROL_IMG_ADDR_HI : RegSpec :=
  ⟨0x10084, 1, 0, 1, 0, 0, false, false,
    [⟨0, 32, .rw, .anyRole, .any⟩]⟩
def Reg.ROL_IMG_CTRL : Nat := 0x10088
def Fld.ROL_IMG_CTRL_abort : Fld := ⟨Reg.ROL_IMG_CTRL, 1, 1⟩
def Fld.ROL_IMG_CTRL_start : Fld := ⟨Reg.ROL_IMG_CTRL, 0, 1⟩
def Row.ROL_IMG_CTRL : RegSpec :=
  ⟨0x10088, 1, 0, 1, 0, 0, true, false,
    [⟨1, 1, .wo, .anyRole, .any⟩,
     ⟨0, 1, .wo, .anyRole, .any⟩]⟩
def Reg.ROL_IMG_STATUS : Nat := 0x1008c
def Fld.ROL_IMG_STATUS_index : Fld := ⟨Reg.ROL_IMG_STATUS, 16, 16⟩
def Fld.ROL_IMG_STATUS_result : Fld := ⟨Reg.ROL_IMG_STATUS, 8, 8⟩
def Fld.ROL_IMG_STATUS_source : Fld := ⟨Reg.ROL_IMG_STATUS, 3, 2⟩
def Fld.ROL_IMG_STATUS_slot : Fld := ⟨Reg.ROL_IMG_STATUS, 2, 1⟩
def Fld.ROL_IMG_STATUS_state : Fld := ⟨Reg.ROL_IMG_STATUS, 0, 2⟩
def Row.ROL_IMG_STATUS : RegSpec :=
  ⟨0x1008c, 1, 0, 1, 0, 0, false, false,
    [⟨16, 16, .ro, .anyRole, .any⟩,
     ⟨8, 8, .ro, .anyRole, .any⟩,
     ⟨3, 2, .ro, .anyRole, .any⟩,
     ⟨2, 1, .ro, .anyRole, .any⟩,
     ⟨0, 2, .ro, .anyRole, .any⟩]⟩
def Reg.ROL_IMG_GEN : Nat := 0x10090
def Fld.ROL_IMG_GEN_gen : Fld := ⟨Reg.ROL_IMG_GEN, 0, 32⟩
def Row.ROL_IMG_GEN : RegSpec :=
  ⟨0x10090, 1, 0, 1, 0, 0, false, false,
    [⟨0, 32, .ro, .anyRole, .any⟩]⟩

/-! ### SPR (R121; fields R122-R124) -/

def Reg.SPR_CTRL : Nat := 0x700000
def Fld.SPR_CTRL_settle_us : Fld := ⟨Reg.SPR_CTRL, 8, 11⟩
def Fld.SPR_CTRL_lead_renumber : Fld := ⟨Reg.SPR_CTRL, 6, 1⟩
def Fld.SPR_CTRL_native_return : Fld := ⟨Reg.SPR_CTRL, 5, 1⟩
def Fld.SPR_CTRL_auto_fallback : Fld := ⟨Reg.SPR_CTRL, 4, 1⟩
def Fld.SPR_CTRL_compat : Fld := ⟨Reg.SPR_CTRL, 3, 1⟩
def Fld.SPR_CTRL_state : Fld := ⟨Reg.SPR_CTRL, 1, 2⟩
def Fld.SPR_CTRL_enable : Fld := ⟨Reg.SPR_CTRL, 0, 1⟩
def Row.SPR_CTRL : RegSpec :=
  ⟨0x700000, 1, 0, 1, 0, 0xc811, true, false,
    [⟨8, 11, .rw, .installer, (.range 50 2000)⟩,
     ⟨6, 1, .rw, .installer, .any⟩,
     ⟨5, 1, .rw, .installer, .any⟩,
     ⟨4, 1, .rw, .installer, .any⟩,
     ⟨3, 1, .rw, .installer, .any⟩,
     ⟨1, 2, .ro, .anyRole, .any⟩,
     ⟨0, 1, .rw, .installer, .any⟩]⟩
def Reg.SPR_STATUS : Nat := 0x700004
def Fld.SPR_STATUS_abort_run : Fld := ⟨Reg.SPR_STATUS, 25, 4⟩
def Fld.SPR_STATUS_compat_active : Fld := ⟨Reg.SPR_STATUS, 24, 1⟩
def Fld.SPR_STATUS_unstable : Fld := ⟨Reg.SPR_STATUS, 23, 1⟩
def Fld.SPR_STATUS_id_clash : Fld := ⟨Reg.SPR_STATUS, 22, 1⟩
def Fld.SPR_STATUS_overflow : Fld := ⟨Reg.SPR_STATUS, 21, 1⟩
def Fld.SPR_STATUS_lead_conflict : Fld := ⟨Reg.SPR_STATUS, 20, 1⟩
def Fld.SPR_STATUS_lead : Fld := ⟨Reg.SPR_STATUS, 19, 1⟩
def Fld.SPR_STATUS_ref : Fld := ⟨Reg.SPR_STATUS, 18, 1⟩
def Fld.SPR_STATUS_end2 : Fld := ⟨Reg.SPR_STATUS, 17, 1⟩
def Fld.SPR_STATUS_end1 : Fld := ⟨Reg.SPR_STATUS, 16, 1⟩
def Fld.SPR_STATUS_n : Fld := ⟨Reg.SPR_STATUS, 10, 6⟩
def Fld.SPR_STATUS_tnn : Fld := ⟨Reg.SPR_STATUS, 4, 6⟩
def Fld.SPR_STATUS_fsm : Fld := ⟨Reg.SPR_STATUS, 0, 4⟩
def Row.SPR_STATUS : RegSpec :=
  ⟨0x700004, 1, 0, 1, 0, 0, false, false,
    [⟨25, 4, .ro, .anyRole, .any⟩,
     ⟨24, 1, .ro, .anyRole, .any⟩,
     ⟨23, 1, .ro, .anyRole, .any⟩,
     ⟨22, 1, .ro, .anyRole, .any⟩,
     ⟨21, 1, .ro, .anyRole, .any⟩,
     ⟨20, 1, .ro, .anyRole, .any⟩,
     ⟨19, 1, .ro, .anyRole, .any⟩,
     ⟨18, 1, .ro, .anyRole, .any⟩,
     ⟨17, 1, .ro, .anyRole, .any⟩,
     ⟨16, 1, .ro, .anyRole, .any⟩,
     ⟨10, 6, .ro, .anyRole, .any⟩,
     ⟨4, 6, .ro, .anyRole, .any⟩,
     ⟨0, 4, .ro, .anyRole, .any⟩]⟩
def Reg.SPR_EPOCH : Nat := 0x700008
def Fld.SPR_EPOCH_previous : Fld := ⟨Reg.SPR_EPOCH, 8, 8⟩
def Fld.SPR_EPOCH_live : Fld := ⟨Reg.SPR_EPOCH, 0, 8⟩
def Row.SPR_EPOCH : RegSpec :=
  ⟨0x700008, 1, 0, 1, 0, 0, false, false,
    [⟨8, 8, .ro, .anyRole, .any⟩,
     ⟨0, 8, .ro, .anyRole, .any⟩]⟩
def Reg.SPR_DIGEST : Nat := 0x70000c
def Fld.SPR_DIGEST_digest : Fld := ⟨Reg.SPR_DIGEST, 0, 32⟩
def Row.SPR_DIGEST : RegSpec :=
  ⟨0x70000c, 1, 0, 1, 0, 0, false, false,
    [⟨0, 32, .ro, .anyRole, .any⟩]⟩
def Reg.SPR_REF_ID_LO : Nat := 0x700010
def Fld.SPR_REF_ID_LO_id : Fld := ⟨Reg.SPR_REF_ID_LO, 0, 32⟩
def Row.SPR_REF_ID_LO : RegSpec :=
  ⟨0x700010, 1, 0, 1, 0, 0, false, false,
    [⟨0, 32, .ro, .anyRole, .any⟩]⟩
def Reg.SPR_REF_ID_HI : Nat := 0x700014
def Fld.SPR_REF_ID_HI_id : Fld := ⟨Reg.SPR_REF_ID_HI, 0, 32⟩
def Row.SPR_REF_ID_HI : RegSpec :=
  ⟨0x700014, 1, 0, 1, 0, 0, false, false,
    [⟨0, 32, .ro, .anyRole, .any⟩]⟩
def Reg.SPR_LEAD_MAP_LO : Nat := 0x700018
def Fld.SPR_LEAD_MAP_LO_map : Fld := ⟨Reg.SPR_LEAD_MAP_LO, 0, 32⟩
def Row.SPR_LEAD_MAP_LO : RegSpec :=
  ⟨0x700018, 1, 0, 1, 0, 0, false, false,
    [⟨0, 32, .ro, .anyRole, .any⟩]⟩
def Reg.SPR_LEAD_MAP_HI : Nat := 0x70001c
def Fld.SPR_LEAD_MAP_HI_map : Fld := ⟨Reg.SPR_LEAD_MAP_HI, 0, 32⟩
def Row.SPR_LEAD_MAP_HI : RegSpec :=
  ⟨0x70001c, 1, 0, 1, 0, 0, false, false,
    [⟨0, 32, .ro, .anyRole, .any⟩]⟩
def Reg.SPR_DIR1 : Nat := 0x700020
def Fld.SPR_DIR1_delay : Fld := ⟨Reg.SPR_DIR1, 8, 24⟩
def Fld.SPR_DIR1_hops : Fld := ⟨Reg.SPR_DIR1, 0, 6⟩
def Row.SPR_DIR1 : RegSpec :=
  ⟨0x700020, 1, 0, 1, 0, 0, false, false,
    [⟨8, 24, .ro, .anyRole, .any⟩,
     ⟨0, 6, .ro, .anyRole, .any⟩]⟩
def Reg.SPR_DIR2 : Nat := 0x700024
def Fld.SPR_DIR2_delay : Fld := ⟨Reg.SPR_DIR2, 8, 24⟩
def Fld.SPR_DIR2_hops : Fld := ⟨Reg.SPR_DIR2, 0, 6⟩
def Row.SPR_DIR2 : RegSpec :=
  ⟨0x700024, 1, 0, 1, 0, 0, false, false,
    [⟨8, 24, .ro, .anyRole, .any⟩,
     ⟨0, 6, .ro, .anyRole, .any⟩]⟩
def Reg.SPR_ETYPE : Nat := 0x700028
def Fld.SPR_ETYPE_ethertype : Fld := ⟨Reg.SPR_ETYPE, 0, 16⟩
def Row.SPR_ETYPE : RegSpec :=
  ⟨0x700028, 1, 0, 1, 0, 0x88b6, false, false,
    [⟨0, 16, .rw, .installer, (.range 1536 65535)⟩]⟩
def Reg.SPR_LEAD_FILT : Nat := 0x70002c
def Fld.SPR_LEAD_FILT_ms : Fld := ⟨Reg.SPR_LEAD_FILT, 0, 7⟩
def Row.SPR_LEAD_FILT : RegSpec :=
  ⟨0x70002c, 1, 0, 1, 0, 0xa, false, false,
    [⟨0, 7, .rw, .installer, (.range 0 100)⟩]⟩
def Reg.SPR_EVENT : Nat := 0x700030
def Fld.SPR_EVENT_mismatch : Fld := ⟨Reg.SPR_EVENT, 9, 1⟩
def Fld.SPR_EVENT_compat_fallback : Fld := ⟨Reg.SPR_EVENT, 8, 1⟩
def Fld.SPR_EVENT_unstable : Fld := ⟨Reg.SPR_EVENT, 7, 1⟩
def Fld.SPR_EVENT_id_clash : Fld := ⟨Reg.SPR_EVENT, 6, 1⟩
def Fld.SPR_EVENT_overflow : Fld := ⟨Reg.SPR_EVENT, 5, 1⟩
def Fld.SPR_EVENT_lead_conflict : Fld := ⟨Reg.SPR_EVENT, 4, 1⟩
def Fld.SPR_EVENT_line_change : Fld := ⟨Reg.SPR_EVENT, 3, 1⟩
def Fld.SPR_EVENT_view_change : Fld := ⟨Reg.SPR_EVENT, 2, 1⟩
def Fld.SPR_EVENT_abort : Fld := ⟨Reg.SPR_EVENT, 1, 1⟩
def Fld.SPR_EVENT_commit : Fld := ⟨Reg.SPR_EVENT, 0, 1⟩
def Row.SPR_EVENT : RegSpec :=
  ⟨0x700030, 1, 0, 1, 0, 0, false, false,
    [⟨9, 1, .w1c, .anyRole, .any⟩,
     ⟨8, 1, .w1c, .anyRole, .any⟩,
     ⟨7, 1, .w1c, .anyRole, .any⟩,
     ⟨6, 1, .w1c, .anyRole, .any⟩,
     ⟨5, 1, .w1c, .anyRole, .any⟩,
     ⟨4, 1, .w1c, .anyRole, .any⟩,
     ⟨3, 1, .w1c, .anyRole, .any⟩,
     ⟨2, 1, .w1c, .anyRole, .any⟩,
     ⟨1, 1, .w1c, .anyRole, .any⟩,
     ⟨0, 1, .w1c, .anyRole, .any⟩]⟩
def Reg.SPR_EVENT_EN : Nat := 0x700034
def Fld.SPR_EVENT_EN_mismatch : Fld := ⟨Reg.SPR_EVENT_EN, 9, 1⟩
def Fld.SPR_EVENT_EN_compat_fallback : Fld := ⟨Reg.SPR_EVENT_EN, 8, 1⟩
def Fld.SPR_EVENT_EN_unstable : Fld := ⟨Reg.SPR_EVENT_EN, 7, 1⟩
def Fld.SPR_EVENT_EN_id_clash : Fld := ⟨Reg.SPR_EVENT_EN, 6, 1⟩
def Fld.SPR_EVENT_EN_overflow : Fld := ⟨Reg.SPR_EVENT_EN, 5, 1⟩
def Fld.SPR_EVENT_EN_lead_conflict : Fld := ⟨Reg.SPR_EVENT_EN, 4, 1⟩
def Fld.SPR_EVENT_EN_line_change : Fld := ⟨Reg.SPR_EVENT_EN, 3, 1⟩
def Fld.SPR_EVENT_EN_view_change : Fld := ⟨Reg.SPR_EVENT_EN, 2, 1⟩
def Fld.SPR_EVENT_EN_abort : Fld := ⟨Reg.SPR_EVENT_EN, 1, 1⟩
def Fld.SPR_EVENT_EN_commit : Fld := ⟨Reg.SPR_EVENT_EN, 0, 1⟩
def Row.SPR_EVENT_EN : RegSpec :=
  ⟨0x700034, 1, 0, 1, 0, 0, false, false,
    [⟨9, 1, .rw, .anyRole, .any⟩,
     ⟨8, 1, .rw, .anyRole, .any⟩,
     ⟨7, 1, .rw, .anyRole, .any⟩,
     ⟨6, 1, .rw, .anyRole, .any⟩,
     ⟨5, 1, .rw, .anyRole, .any⟩,
     ⟨4, 1, .rw, .anyRole, .any⟩,
     ⟨3, 1, .rw, .anyRole, .any⟩,
     ⟨2, 1, .rw, .anyRole, .any⟩,
     ⟨1, 1, .rw, .anyRole, .any⟩,
     ⟨0, 1, .rw, .anyRole, .any⟩]⟩
def Reg.SPR_COMMITS : Nat := 0x700038
def Fld.SPR_COMMITS_count : Fld := ⟨Reg.SPR_COMMITS, 0, 32⟩
def Row.SPR_COMMITS : RegSpec :=
  ⟨0x700038, 1, 0, 1, 0, 0, false, false,
    [⟨0, 32, .rc, .anyRole, .any⟩]⟩
def Reg.SPR_ABORTS : Nat := 0x70003c
def Fld.SPR_ABORTS_count : Fld := ⟨Reg.SPR_ABORTS, 0, 32⟩
def Row.SPR_ABORTS : RegSpec :=
  ⟨0x70003c, 1, 0, 1, 0, 0, false, false,
    [⟨0, 32, .rc, .anyRole, .any⟩]⟩
def Reg.SPR_BEACON_LATE : Nat := 0x700040
def Fld.SPR_BEACON_LATE_count : Fld := ⟨Reg.SPR_BEACON_LATE, 0, 32⟩
def Row.SPR_BEACON_LATE : RegSpec :=
  ⟨0x700040, 1, 0, 1, 0, 0, false, false,
    [⟨0, 32, .rc, .anyRole, .any⟩]⟩
def Reg.SPR_BAD_FRAMES : Nat := 0x700044
def Fld.SPR_BAD_FRAMES_count : Fld := ⟨Reg.SPR_BAD_FRAMES, 0, 32⟩
def Row.SPR_BAD_FRAMES : RegSpec :=
  ⟨0x700044, 1, 0, 1, 0, 0, false, false,
    [⟨0, 32, .rc, .anyRole, .any⟩]⟩
def Reg.SPR_COMMIT_REFUSED : Nat := 0x700048
def Fld.SPR_COMMIT_REFUSED_count : Fld := ⟨Reg.SPR_COMMIT_REFUSED, 0, 32⟩
def Row.SPR_COMMIT_REFUSED : RegSpec :=
  ⟨0x700048, 1, 0, 1, 0, 0, false, false,
    [⟨0, 32, .rc, .anyRole, .any⟩]⟩
def Reg.SPR_LINE_STATUS (i : Nat) : Nat := 0x700100 + 0x20 * i
def Fld.SPR_LINE_STATUS_cause (i : Nat) : Fld := ⟨Reg.SPR_LINE_STATUS i, 8, 8⟩
def Fld.SPR_LINE_STATUS_used (i : Nat) : Fld := ⟨Reg.SPR_LINE_STATUS i, 3, 1⟩
def Fld.SPR_LINE_STATUS_lstate (i : Nat) : Fld := ⟨Reg.SPR_LINE_STATUS i, 0, 3⟩
def Row.SPR_LINE_STATUS : RegSpec :=
  ⟨0x700100, 4, 0x20, 1, 0, 0, false, false,
    [⟨8, 8, .ro, .anyRole, .any⟩,
     ⟨3, 1, .ro, .anyRole, .any⟩,
     ⟨0, 3, .ro, .anyRole, .any⟩]⟩
def Reg.SPR_NBR_ID_LO (i : Nat) : Nat := 0x700104 + 0x20 * i
def Fld.SPR_NBR_ID_LO_id (i : Nat) : Fld := ⟨Reg.SPR_NBR_ID_LO i, 0, 32⟩
def Row.SPR_NBR_ID_LO : RegSpec :=
  ⟨0x700104, 4, 0x20, 1, 0, 0, false, false,
    [⟨0, 32, .ro, .anyRole, .any⟩]⟩
def Reg.SPR_NBR_ID_HI (i : Nat) : Nat := 0x700108 + 0x20 * i
def Fld.SPR_NBR_ID_HI_id (i : Nat) : Fld := ⟨Reg.SPR_NBR_ID_HI i, 0, 32⟩
def Row.SPR_NBR_ID_HI : RegSpec :=
  ⟨0x700108, 4, 0x20, 1, 0, 0, false, false,
    [⟨0, 32, .ro, .anyRole, .any⟩]⟩
def Reg.SPR_LINK_DELAY (i : Nat) : Nat := 0x70010c + 0x20 * i
def Fld.SPR_LINK_DELAY_samples (i : Nat) : Fld := ⟨Reg.SPR_LINK_DELAY i, 28, 4⟩
def Fld.SPR_LINK_DELAY_delay (i : Nat) : Fld := ⟨Reg.SPR_LINK_DELAY i, 0, 24⟩
def Row.SPR_LINK_DELAY : RegSpec :=
  ⟨0x70010c, 4, 0x20, 1, 0, 0, false, false,
    [⟨28, 4, .ro, .anyRole, .any⟩,
     ⟨0, 24, .ro, .anyRole, .any⟩]⟩
def Reg.SPR_COMPAT_CTRL : Nat := 0x700200
def Fld.SPR_COMPAT_CTRL_topo_ring : Fld := ⟨Reg.SPR_COMPAT_CTRL, 24, 6⟩
def Fld.SPR_COMPAT_CTRL_status_offset : Fld := ⟨Reg.SPR_COMPAT_CTRL, 16, 8⟩
def Fld.SPR_COMPAT_CTRL_seq_offset : Fld := ⟨Reg.SPR_COMPAT_CTRL, 8, 8⟩
def Fld.SPR_COMPAT_CTRL_length : Fld := ⟨Reg.SPR_COMPAT_CTRL, 0, 7⟩
def Row.SPR_COMPAT_CTRL : RegSpec :=
  ⟨0x700200, 1, 0, 1, 0, 0, false, false,
    [⟨24, 6, .rw, .installer, .any⟩,
     ⟨16, 8, .rw, .installer, .any⟩,
     ⟨8, 8, .rw, .installer, .any⟩,
     ⟨0, 7, .rw, .installer, .any⟩]⟩
def Reg.SPR_COMPAT_TIMING : Nat := 0x700204
def Fld.SPR_COMPAT_TIMING_hold_s : Fld := ⟨Reg.SPR_COMPAT_TIMING, 24, 8⟩
def Fld.SPR_COMPAT_TIMING_fast_count : Fld := ⟨Reg.SPR_COMPAT_TIMING, 16, 8⟩
def Fld.SPR_COMPAT_TIMING_fast_ms : Fld := ⟨Reg.SPR_COMPAT_TIMING, 8, 8⟩
def Fld.SPR_COMPAT_TIMING_slow_ms : Fld := ⟨Reg.SPR_COMPAT_TIMING, 0, 8⟩
def Row.SPR_COMPAT_TIMING : RegSpec :=
  ⟨0x700204, 1, 0, 1, 0, 0xa030f64, false, false,
    [⟨24, 8, .rw, .installer, (.range 1 255)⟩,
     ⟨16, 8, .rw, .installer, .any⟩,
     ⟨8, 8, .rw, .installer, (.range 1 255)⟩,
     ⟨0, 8, .rw, .installer, (.range 1 255)⟩]⟩
def Reg.SPR_COMPAT_MATCH : Nat := 0x700208
def Fld.SPR_COMPAT_MATCH_sig_offset : Fld := ⟨Reg.SPR_COMPAT_MATCH, 16, 8⟩
def Fld.SPR_COMPAT_MATCH_etype : Fld := ⟨Reg.SPR_COMPAT_MATCH, 0, 16⟩
def Row.SPR_COMPAT_MATCH : RegSpec :=
  ⟨0x700208, 1, 0, 1, 0, 0, false, false,
    [⟨16, 8, .rw, .installer, .any⟩,
     ⟨0, 16, .rw, .installer, .any⟩]⟩
def Reg.SPR_COMPAT_SIG : Nat := 0x70020c
def Fld.SPR_COMPAT_SIG_sig : Fld := ⟨Reg.SPR_COMPAT_SIG, 0, 32⟩
def Row.SPR_COMPAT_SIG : RegSpec :=
  ⟨0x70020c, 1, 0, 1, 0, 0, false, false,
    [⟨0, 32, .rw, .installer, .any⟩]⟩
def Reg.SPR_COMPAT_TOPO : Nat := 0x700210
def Fld.SPR_COMPAT_TOPO_sig_offset : Fld := ⟨Reg.SPR_COMPAT_TOPO, 16, 8⟩
def Fld.SPR_COMPAT_TOPO_etype : Fld := ⟨Reg.SPR_COMPAT_TOPO, 0, 16⟩
def Row.SPR_COMPAT_TOPO : RegSpec :=
  ⟨0x700210, 1, 0, 1, 0, 0, false, false,
    [⟨16, 8, .rw, .installer, .any⟩,
     ⟨0, 16, .rw, .installer, .any⟩]⟩
def Reg.SPR_COMPAT_COMMIT : Nat := 0x700214
def Fld.SPR_COMPAT_COMMIT_go : Fld := ⟨Reg.SPR_COMPAT_COMMIT, 31, 1⟩
def Fld.SPR_COMPAT_COMMIT_n : Fld := ⟨Reg.SPR_COMPAT_COMMIT, 14, 6⟩
def Fld.SPR_COMPAT_COMMIT_tnn : Fld := ⟨Reg.SPR_COMPAT_COMMIT, 8, 6⟩
def Fld.SPR_COMPAT_COMMIT_epoch : Fld := ⟨Reg.SPR_COMPAT_COMMIT, 0, 8⟩
def Row.SPR_COMPAT_COMMIT : RegSpec :=
  ⟨0x700214, 1, 0, 1, 0, 0, false, false,
    [⟨31, 1, .wo, .anyRole, .any⟩,
     ⟨14, 6, .wo, .anyRole, (.range 1 63)⟩,
     ⟨8, 6, .wo, .anyRole, (.range 1 63)⟩,
     ⟨0, 8, .wo, .anyRole, (.range 1 255)⟩]⟩
def Reg.SPR_COMPAT_STATUS : Nat := 0x700218
def Fld.SPR_COMPAT_STATUS_applied : Fld := ⟨Reg.SPR_COMPAT_STATUS, 8, 8⟩
def Fld.SPR_COMPAT_STATUS_hello_seen : Fld := ⟨Reg.SPR_COMPAT_STATUS, 0, 4⟩
def Row.SPR_COMPAT_STATUS : RegSpec :=
  ⟨0x700218, 1, 0, 1, 0, 0, false, false,
    [⟨8, 8, .ro, .anyRole, .any⟩,
     ⟨0, 4, .ro, .anyRole, .any⟩]⟩
def Reg.SPR_COMPAT_HELLO (i : Nat) : Nat := 0x700300 + 4 * i
def Fld.SPR_COMPAT_HELLO_word (i : Nat) : Fld := ⟨Reg.SPR_COMPAT_HELLO i, 0, 32⟩
def Row.SPR_COMPAT_HELLO : RegSpec :=
  ⟨0x700300, 32, 4, 1, 0, 0, false, false,
    [⟨0, 32, .rw, .installer, .any⟩]⟩

/-! ### EPO (R161; fields R162-R164) -/

def Reg.EPO_CTRL : Nat := 0x780000
def Fld.EPO_CTRL_line_policy : Fld := ⟨Reg.EPO_CTRL, 1, 2⟩
def Fld.EPO_CTRL_auto_route : Fld := ⟨Reg.EPO_CTRL, 0, 1⟩
def Row.EPO_CTRL : RegSpec :=
  ⟨0x780000, 1, 0, 1, 0, 1, false, false,
    [⟨1, 2, .rw, .installer, (.code [(3, 0)])⟩,
     ⟨0, 1, .rw, .installer, .any⟩]⟩
def Reg.EPO_STATUS : Nat := 0x780004
def Fld.EPO_STATUS_grace_left_us : Fld := ⟨Reg.EPO_STATUS, 16, 16⟩
def Fld.EPO_STATUS_pending : Fld := ⟨Reg.EPO_STATUS, 8, 8⟩
def Fld.EPO_STATUS_map_partial : Fld := ⟨Reg.EPO_STATUS, 4, 1⟩
def Fld.EPO_STATUS_grace : Fld := ⟨Reg.EPO_STATUS, 3, 1⟩
def Fld.EPO_STATUS_switch_pending : Fld := ⟨Reg.EPO_STATUS, 2, 1⟩
def Fld.EPO_STATUS_live_bank : Fld := ⟨Reg.EPO_STATUS, 0, 1⟩
def Row.EPO_STATUS : RegSpec :=
  ⟨0x780004, 1, 0, 1, 0, 0, false, false,
    [⟨16, 16, .ro, .anyRole, .any⟩,
     ⟨8, 8, .ro, .anyRole, .any⟩,
     ⟨4, 1, .ro, .anyRole, .any⟩,
     ⟨3, 1, .ro, .anyRole, .any⟩,
     ⟨2, 1, .ro, .anyRole, .any⟩,
     ⟨0, 1, .ro, .anyRole, .any⟩]⟩
def Reg.EPO_ETYPE : Nat := 0x780008
def Fld.EPO_ETYPE_roster : Fld := ⟨Reg.EPO_ETYPE, 16, 16⟩
def Fld.EPO_ETYPE_tag : Fld := ⟨Reg.EPO_ETYPE, 0, 16⟩
def Row.EPO_ETYPE : RegSpec :=
  ⟨0x780008, 1, 0, 1, 0, 0x88b788b5, false, false,
    [⟨16, 16, .rw, .installer, (.range 1536 65535)⟩,
     ⟨0, 16, .rw, .installer, (.range 1536 65535)⟩]⟩
def Reg.EPO_GRACE : Nat := 0x78000c
def Fld.EPO_GRACE_us : Fld := ⟨Reg.EPO_GRACE, 0, 16⟩
def Row.EPO_GRACE : RegSpec :=
  ⟨0x78000c, 1, 0, 1, 0, 0x7d0, false, false,
    [⟨0, 16, .rw, .installer, (.range 500 10000)⟩]⟩
def Reg.EPO_ORPHAN : Nat := 0x780010
def Fld.EPO_ORPHAN_ring : Fld := ⟨Reg.EPO_ORPHAN, 0, 6⟩
def Row.EPO_ORPHAN : RegSpec :=
  ⟨0x780010, 1, 0, 1, 0, 0, false, false,
    [⟨0, 6, .rw, .installer, .any⟩]⟩
def Reg.EPO_TAT_BLOCK : Nat := 0x780014
def Fld.EPO_TAT_BLOCK_base : Fld := ⟨Reg.EPO_TAT_BLOCK, 0, 32⟩
def Row.EPO_TAT_BLOCK : RegSpec :=
  ⟨0x780014, 1, 0, 1, 0, 0, false, false,
    [⟨0, 32, .rw, .installer, .any⟩]⟩
def Reg.EPO_TAT_CTRL : Nat := 0x780018
def Fld.EPO_TAT_CTRL_local_field : Fld := ⟨Reg.EPO_TAT_CTRL, 24, 6⟩
def Fld.EPO_TAT_CTRL_tnn_lsb : Fld := ⟨Reg.EPO_TAT_CTRL, 16, 5⟩
def Fld.EPO_TAT_CTRL_prefix_len : Fld := ⟨Reg.EPO_TAT_CTRL, 8, 6⟩
def Fld.EPO_TAT_CTRL_enable : Fld := ⟨Reg.EPO_TAT_CTRL, 0, 1⟩
def Row.EPO_TAT_CTRL : RegSpec :=
  ⟨0x780018, 1, 0, 1, 0, 0x1000, false, false,
    [⟨24, 6, .rw, .installer, .any⟩,
     ⟨16, 5, .rw, .installer, .any⟩,
     ⟨8, 6, .rw, .installer, (.range 8 26)⟩,
     ⟨0, 1, .rw, .installer, .any⟩]⟩
def Reg.EPO_DIR_STATE : Nat := 0x78001c
def Fld.EPO_DIR_STATE_dir2_epoch : Fld := ⟨Reg.EPO_DIR_STATE, 16, 8⟩
def Fld.EPO_DIR_STATE_dir1_epoch : Fld := ⟨Reg.EPO_DIR_STATE, 8, 8⟩
def Fld.EPO_DIR_STATE_dir2_current : Fld := ⟨Reg.EPO_DIR_STATE, 1, 1⟩
def Fld.EPO_DIR_STATE_dir1_current : Fld := ⟨Reg.EPO_DIR_STATE, 0, 1⟩
def Row.EPO_DIR_STATE : RegSpec :=
  ⟨0x78001c, 1, 0, 1, 0, 0, false, false,
    [⟨16, 8, .ro, .anyRole, .any⟩,
     ⟨8, 8, .ro, .anyRole, .any⟩,
     ⟨1, 1, .ro, .anyRole, .any⟩,
     ⟨0, 1, .ro, .anyRole, .any⟩]⟩
def Reg.EPO_EVENT : Nat := 0x780020
def Fld.EPO_EVENT_hop_limit : Fld := ⟨Reg.EPO_EVENT, 4, 1⟩
def Fld.EPO_EVENT_stale_neighbour : Fld := ⟨Reg.EPO_EVENT, 3, 1⟩
def Fld.EPO_EVENT_map_partial : Fld := ⟨Reg.EPO_EVENT, 2, 1⟩
def Fld.EPO_EVENT_orphan : Fld := ⟨Reg.EPO_EVENT, 1, 1⟩
def Fld.EPO_EVENT_grace_end : Fld := ⟨Reg.EPO_EVENT, 0, 1⟩
def Row.EPO_EVENT : RegSpec :=
  ⟨0x780020, 1, 0, 1, 0, 0, false, false,
    [⟨4, 1, .w1c, .anyRole, .any⟩,
     ⟨3, 1, .w1c, .anyRole, .any⟩,
     ⟨2, 1, .w1c, .anyRole, .any⟩,
     ⟨1, 1, .w1c, .anyRole, .any⟩,
     ⟨0, 1, .w1c, .anyRole, .any⟩]⟩
def Reg.EPO_EVENT_EN : Nat := 0x780024
def Fld.EPO_EVENT_EN_hop_limit : Fld := ⟨Reg.EPO_EVENT_EN, 4, 1⟩
def Fld.EPO_EVENT_EN_stale_neighbour : Fld := ⟨Reg.EPO_EVENT_EN, 3, 1⟩
def Fld.EPO_EVENT_EN_map_partial : Fld := ⟨Reg.EPO_EVENT_EN, 2, 1⟩
def Fld.EPO_EVENT_EN_orphan : Fld := ⟨Reg.EPO_EVENT_EN, 1, 1⟩
def Fld.EPO_EVENT_EN_grace_end : Fld := ⟨Reg.EPO_EVENT_EN, 0, 1⟩
def Row.EPO_EVENT_EN : RegSpec :=
  ⟨0x780024, 1, 0, 1, 0, 0, false, false,
    [⟨4, 1, .rw, .anyRole, .any⟩,
     ⟨3, 1, .rw, .anyRole, .any⟩,
     ⟨2, 1, .rw, .anyRole, .any⟩,
     ⟨1, 1, .rw, .anyRole, .any⟩,
     ⟨0, 1, .rw, .anyRole, .any⟩]⟩
def Reg.EPO_TRANSLATED : Nat := 0x780040
def Fld.EPO_TRANSLATED_count : Fld := ⟨Reg.EPO_TRANSLATED, 0, 32⟩
def Row.EPO_TRANSLATED : RegSpec :=
  ⟨0x780040, 1, 0, 1, 0, 0, false, false,
    [⟨0, 32, .rc, .anyRole, .any⟩]⟩
def Reg.EPO_ORPHAN_LEFT : Nat := 0x780044
def Fld.EPO_ORPHAN_LEFT_count : Fld := ⟨Reg.EPO_ORPHAN_LEFT, 0, 32⟩
def Row.EPO_ORPHAN_LEFT : RegSpec :=
  ⟨0x780044, 1, 0, 1, 0, 0, false, false,
    [⟨0, 32, .rc, .anyRole, .any⟩]⟩
def Reg.EPO_ORPHAN_UNMAPPED : Nat := 0x780048
def Fld.EPO_ORPHAN_UNMAPPED_count : Fld := ⟨Reg.EPO_ORPHAN_UNMAPPED, 0, 32⟩
def Row.EPO_ORPHAN_UNMAPPED : RegSpec :=
  ⟨0x780048, 1, 0, 1, 0, 0, false, false,
    [⟨0, 32, .rc, .anyRole, .any⟩]⟩
def Reg.EPO_ORPHAN_STALE : Nat := 0x78004c
def Fld.EPO_ORPHAN_STALE_count : Fld := ⟨Reg.EPO_ORPHAN_STALE, 0, 32⟩
def Row.EPO_ORPHAN_STALE : RegSpec :=
  ⟨0x78004c, 1, 0, 1, 0, 0, false, false,
    [⟨0, 32, .rc, .anyRole, .any⟩]⟩
def Reg.EPO_ORPHAN_BLOCKED : Nat := 0x780050
def Fld.EPO_ORPHAN_BLOCKED_count : Fld := ⟨Reg.EPO_ORPHAN_BLOCKED, 0, 32⟩
def Row.EPO_ORPHAN_BLOCKED : RegSpec :=
  ⟨0x780050, 1, 0, 1, 0, 0, false, false,
    [⟨0, 32, .rc, .anyRole, .any⟩]⟩
def Reg.EPO_STALE_NBR_DROPS : Nat := 0x780054
def Fld.EPO_STALE_NBR_DROPS_count : Fld := ⟨Reg.EPO_STALE_NBR_DROPS, 0, 32⟩
def Row.EPO_STALE_NBR_DROPS : RegSpec :=
  ⟨0x780054, 1, 0, 1, 0, 0, false, false,
    [⟨0, 32, .rc, .anyRole, .any⟩]⟩
def Reg.EPO_UNTAGGED_DROPS : Nat := 0x780058
def Fld.EPO_UNTAGGED_DROPS_count : Fld := ⟨Reg.EPO_UNTAGGED_DROPS, 0, 32⟩
def Row.EPO_UNTAGGED_DROPS : RegSpec :=
  ⟨0x780058, 1, 0, 1, 0, 0, false, false,
    [⟨0, 32, .rc, .anyRole, .any⟩]⟩
def Reg.EPO_HOP_DROPS : Nat := 0x78005c
def Fld.EPO_HOP_DROPS_count : Fld := ⟨Reg.EPO_HOP_DROPS, 0, 32⟩
def Row.EPO_HOP_DROPS : RegSpec :=
  ⟨0x78005c, 1, 0, 1, 0, 0, false, false,
    [⟨0, 32, .rc, .anyRole, .any⟩]⟩
def Reg.EPO_NO_ROUTE_DROPS : Nat := 0x780060
def Fld.EPO_NO_ROUTE_DROPS_count : Fld := ⟨Reg.EPO_NO_ROUTE_DROPS, 0, 32⟩
def Row.EPO_NO_ROUTE_DROPS : RegSpec :=
  ⟨0x780060, 1, 0, 1, 0, 0, false, false,
    [⟨0, 32, .rc, .anyRole, .any⟩]⟩
def Reg.EPO_TAT_REWRITES : Nat := 0x780064
def Fld.EPO_TAT_REWRITES_count : Fld := ⟨Reg.EPO_TAT_REWRITES, 0, 32⟩
def Row.EPO_TAT_REWRITES : RegSpec :=
  ⟨0x780064, 1, 0, 1, 0, 0, false, false,
    [⟨0, 32, .rc, .anyRole, .any⟩]⟩
def Reg.EPO_LIVE_WRITES : Nat := 0x780068
def Fld.EPO_LIVE_WRITES_count : Fld := ⟨Reg.EPO_LIVE_WRITES, 0, 32⟩
def Row.EPO_LIVE_WRITES : RegSpec :=
  ⟨0x780068, 1, 0, 1, 0, 0, false, false,
    [⟨0, 32, .rc, .anyRole, .any⟩]⟩
def Reg.EPO_ROUTE (i : Nat) (j : Nat) : Nat := 0x781000 + 0x100 * i + 4 * j
def Fld.EPO_ROUTE_hops (i : Nat) (j : Nat) : Fld := ⟨Reg.EPO_ROUTE i j, 8, 6⟩
def Fld.EPO_ROUTE_lines (i : Nat) (j : Nat) : Fld := ⟨Reg.EPO_ROUTE i j, 4, 2⟩
def Fld.EPO_ROUTE_dir (i : Nat) (j : Nat) : Fld := ⟨Reg.EPO_ROUTE i j, 1, 2⟩
def Fld.EPO_ROUTE_valid (i : Nat) (j : Nat) : Fld := ⟨Reg.EPO_ROUTE i j, 0, 1⟩
def Row.EPO_ROUTE : RegSpec :=
  ⟨0x781000, 2, 0x100, 64, 4, 0, false, false,
    [⟨8, 6, .rw, .installer, (.range 0 62)⟩,
     ⟨4, 2, .rw, .installer, (.code [(3, 0)])⟩,
     ⟨1, 2, .rw, .installer, .any⟩,
     ⟨0, 1, .rw, .installer, .any⟩]⟩
def Reg.EPO_MAP (i : Nat) : Nat := 0x781200 + 4 * i
def Fld.EPO_MAP_fate (i : Nat) : Fld := ⟨Reg.EPO_MAP i, 6, 2⟩
def Fld.EPO_MAP_new_tnn (i : Nat) : Fld := ⟨Reg.EPO_MAP i, 0, 6⟩
def Row.EPO_MAP : RegSpec :=
  ⟨0x781200, 64, 4, 1, 0, 0, false, false,
    [⟨6, 2, .ro, .anyRole, .any⟩,
     ⟨0, 6, .ro, .anyRole, .any⟩]⟩
def Reg.EPO_ROSTER_LO (i : Nat) : Nat := 0x781400 + 8 * i
def Fld.EPO_ROSTER_LO_id (i : Nat) : Fld := ⟨Reg.EPO_ROSTER_LO i, 0, 32⟩
def Row.EPO_ROSTER_LO : RegSpec :=
  ⟨0x781400, 64, 8, 1, 0, 0, false, false,
    [⟨0, 32, .ro, .anyRole, .any⟩]⟩
def Reg.EPO_ROSTER_HI (i : Nat) : Nat := 0x781404 + 8 * i
def Fld.EPO_ROSTER_HI_id (i : Nat) : Fld := ⟨Reg.EPO_ROSTER_HI i, 0, 32⟩
def Row.EPO_ROSTER_HI : RegSpec :=
  ⟨0x781404, 64, 8, 1, 0, 0, false, false,
    [⟨0, 32, .ro, .anyRole, .any⟩]⟩

/-! ### FAB (R196; fields R197) -/

def Reg.FAB_CTRL : Nat := 0x100000
def Fld.FAB_CTRL_c7_express : Fld := ⟨Reg.FAB_CTRL, 8, 1⟩
def Fld.FAB_CTRL_iterations : Fld := ⟨Reg.FAB_CTRL, 0, 3⟩
def Row.FAB_CTRL : RegSpec :=
  ⟨0x100000, 1, 0, 1, 0, 0x104, false, false,
    [⟨8, 1, .rw, .installer, .any⟩,
     ⟨0, 3, .rw, .installer, (.range 1 4)⟩]⟩
def Reg.FAB_HASH : Nat := 0x100004
def Fld.FAB_HASH_l4 : Fld := ⟨Reg.FAB_HASH, 16, 1⟩
def Fld.FAB_HASH_seed : Fld := ⟨Reg.FAB_HASH, 0, 16⟩
def Row.FAB_HASH : RegSpec :=
  ⟨0x100004, 1, 0, 1, 0, 0x1ffff, false, false,
    [⟨16, 1, .rw, .installer, .any⟩,
     ⟨0, 16, .rw, .installer, .any⟩]⟩
def Reg.FAB_AGG_CTRL : Nat := 0x100008
def Fld.FAB_AGG_CTRL_drain_max_ms : Fld := ⟨Reg.FAB_AGG_CTRL, 16, 8⟩
def Fld.FAB_AGG_CTRL_revert_ms : Fld := ⟨Reg.FAB_AGG_CTRL, 8, 8⟩
def Fld.FAB_AGG_CTRL_revert : Fld := ⟨Reg.FAB_AGG_CTRL, 0, 1⟩
def Row.FAB_AGG_CTRL : RegSpec :=
  ⟨0x100008, 1, 0, 1, 0, 0x26401, false, false,
    [⟨16, 8, .rw, .installer, (.range 1 10)⟩,
     ⟨8, 8, .rw, .installer, (.range 1 255)⟩,
     ⟨0, 1, .rw, .installer, .any⟩]⟩
def Reg.FAB_AGG_STATE : Nat := 0x10000c
def Fld.FAB_AGG_STATE_dir2_reverting : Fld := ⟨Reg.FAB_AGG_STATE, 5, 1⟩
def Fld.FAB_AGG_STATE_dir1_reverting : Fld := ⟨Reg.FAB_AGG_STATE, 4, 1⟩
def Fld.FAB_AGG_STATE_dir2 : Fld := ⟨Reg.FAB_AGG_STATE, 2, 2⟩
def Fld.FAB_AGG_STATE_dir1 : Fld := ⟨Reg.FAB_AGG_STATE, 0, 2⟩
def Row.FAB_AGG_STATE : RegSpec :=
  ⟨0x10000c, 1, 0, 1, 0, 0xf, false, false,
    [⟨5, 1, .ro, .anyRole, .any⟩,
     ⟨4, 1, .ro, .anyRole, .any⟩,
     ⟨2, 2, .ro, .anyRole, .any⟩,
     ⟨0, 2, .ro, .anyRole, .any⟩]⟩
def Reg.FAB_EVENT : Nat := 0x100010
def Fld.FAB_EVENT_ct_abort : Fld := ⟨Reg.FAB_EVENT, 2, 1⟩
def Fld.FAB_EVENT_revert_forced : Fld := ⟨Reg.FAB_EVENT, 1, 1⟩
def Fld.FAB_EVENT_failover : Fld := ⟨Reg.FAB_EVENT, 0, 1⟩
def Row.FAB_EVENT : RegSpec :=
  ⟨0x100010, 1, 0, 1, 0, 0, false, false,
    [⟨2, 1, .w1c, .anyRole, .any⟩,
     ⟨1, 1, .w1c, .anyRole, .any⟩,
     ⟨0, 1, .w1c, .anyRole, .any⟩]⟩
def Reg.FAB_EVENT_EN : Nat := 0x100014
def Fld.FAB_EVENT_EN_ct_abort : Fld := ⟨Reg.FAB_EVENT_EN, 2, 1⟩
def Fld.FAB_EVENT_EN_revert_forced : Fld := ⟨Reg.FAB_EVENT_EN, 1, 1⟩
def Fld.FAB_EVENT_EN_failover : Fld := ⟨Reg.FAB_EVENT_EN, 0, 1⟩
def Row.FAB_EVENT_EN : RegSpec :=
  ⟨0x100014, 1, 0, 1, 0, 0, false, false,
    [⟨2, 1, .rw, .anyRole, .any⟩,
     ⟨1, 1, .rw, .anyRole, .any⟩,
     ⟨0, 1, .rw, .anyRole, .any⟩]⟩
def Reg.FAB_CT_FALLBACK : Nat := 0x100040
def Fld.FAB_CT_FALLBACK_count : Fld := ⟨Reg.FAB_CT_FALLBACK, 0, 32⟩
def Row.FAB_CT_FALLBACK : RegSpec :=
  ⟨0x100040, 1, 0, 1, 0, 0, false, false,
    [⟨0, 32, .rc, .anyRole, .any⟩]⟩
def Reg.FAB_CT_ABORT : Nat := 0x100044
def Fld.FAB_CT_ABORT_count : Fld := ⟨Reg.FAB_CT_ABORT, 0, 32⟩
def Row.FAB_CT_ABORT : RegSpec :=
  ⟨0x100044, 1, 0, 1, 0, 0, false, false,
    [⟨0, 32, .rc, .anyRole, .any⟩]⟩
def Reg.FAB_AGG_FAILOVER : Nat := 0x100048
def Fld.FAB_AGG_FAILOVER_count : Fld := ⟨Reg.FAB_AGG_FAILOVER, 0, 32⟩
def Row.FAB_AGG_FAILOVER : RegSpec :=
  ⟨0x100048, 1, 0, 1, 0, 0, false, false,
    [⟨0, 32, .rc, .anyRole, .any⟩]⟩
def Reg.FAB_AGG_FORCED : Nat := 0x10004c
def Fld.FAB_AGG_FORCED_count : Fld := ⟨Reg.FAB_AGG_FORCED, 0, 32⟩
def Row.FAB_AGG_FORCED : RegSpec :=
  ⟨0x10004c, 1, 0, 1, 0, 0, false, false,
    [⟨0, 32, .rc, .anyRole, .any⟩]⟩
def Reg.FAB_MC_SPLIT : Nat := 0x100050
def Fld.FAB_MC_SPLIT_count : Fld := ⟨Reg.FAB_MC_SPLIT, 0, 32⟩
def Row.FAB_MC_SPLIT : RegSpec :=
  ⟨0x100050, 1, 0, 1, 0, 0, false, false,
    [⟨0, 32, .rc, .anyRole, .any⟩]⟩
def Reg.FAB_CT_MODE (i : Nat) : Nat := 0x100100 + 4 * i
def Fld.FAB_CT_MODE_classes (i : Nat) : Fld := ⟨Reg.FAB_CT_MODE i, 0, 8⟩
def Row.FAB_CT_MODE : RegSpec :=
  ⟨0x100100, 54, 4, 1, 0, 0xe0, false, false,
    [⟨0, 8, .rw, .installer, .any⟩]⟩
def Reg.FAB_MCAST_LO (i : Nat) : Nat := 0x102000 + 8 * i
def Fld.FAB_MCAST_LO_ports (i : Nat) : Fld := ⟨Reg.FAB_MCAST_LO i, 0, 32⟩
def Row.FAB_MCAST_LO : RegSpec :=
  ⟨0x102000, 1024, 8, 1, 0, 0, false, false,
    [⟨0, 32, .rw, .installer, .any⟩]⟩
def Reg.FAB_MCAST_HI (i : Nat) : Nat := 0x102004 + 8 * i
def Fld.FAB_MCAST_HI_ports (i : Nat) : Fld := ⟨Reg.FAB_MCAST_HI i, 0, 26⟩
def Row.FAB_MCAST_HI : RegSpec :=
  ⟨0x102004, 1024, 8, 1, 0, 0, false, false,
    [⟨0, 26, .rw, .installer, .any⟩]⟩

/-! ### FDB (R198, R200, R174; fields R199) -/

def Reg.FDB_CTRL : Nat := 0x800000
def Fld.FDB_CTRL_age : Fld := ⟨Reg.FDB_CTRL, 1, 1⟩
def Fld.FDB_CTRL_learn : Fld := ⟨Reg.FDB_CTRL, 0, 1⟩
def Row.FDB_CTRL : RegSpec :=
  ⟨0x800000, 1, 0, 1, 0, 3, false, false,
    [⟨1, 1, .rw, .installer, .any⟩,
     ⟨0, 1, .rw, .installer, .any⟩]⟩
def Reg.FDB_AGE : Nat := 0x800004
def Fld.FDB_AGE_seconds : Fld := ⟨Reg.FDB_AGE, 0, 16⟩
def Row.FDB_AGE : RegSpec :=
  ⟨0x800004, 1, 0, 1, 0, 0x12c, false, false,
    [⟨0, 16, .rw, .installer, (.range 10 65535)⟩]⟩
def Reg.FDB_STATUS : Nat := 0x800008
def Fld.FDB_STATUS_used : Fld := ⟨Reg.FDB_STATUS, 0, 14⟩
def Row.FDB_STATUS : RegSpec :=
  ⟨0x800008, 1, 0, 1, 0, 0, false, false,
    [⟨0, 14, .ro, .anyRole, .any⟩]⟩
def Reg.FDB_CMD : Nat := 0x800010
def Fld.FDB_CMD_port : Fld := ⟨Reg.FDB_CMD, 8, 6⟩
def Fld.FDB_CMD_train_only : Fld := ⟨Reg.FDB_CMD, 6, 1⟩
def Fld.FDB_CMD_static_too : Fld := ⟨Reg.FDB_CMD, 5, 1⟩
def Fld.FDB_CMD_by_vid : Fld := ⟨Reg.FDB_CMD, 4, 1⟩
def Fld.FDB_CMD_by_port : Fld := ⟨Reg.FDB_CMD, 3, 1⟩
def Fld.FDB_CMD_op : Fld := ⟨Reg.FDB_CMD, 0, 3⟩
def Row.FDB_CMD : RegSpec :=
  ⟨0x800010, 1, 0, 1, 0, 0, false, false,
    [⟨8, 6, .wo, .installer, .any⟩,
     ⟨6, 1, .wo, .installer, .any⟩,
     ⟨5, 1, .wo, .installer, .any⟩,
     ⟨4, 1, .wo, .installer, .any⟩,
     ⟨3, 1, .wo, .installer, .any⟩,
     ⟨0, 3, .wo, .installer, (.code [(6, 0), (7, 0)])⟩]⟩
def Reg.FDB_CMD_STATUS : Nat := 0x800014
def Fld.FDB_CMD_STATUS_busy : Fld := ⟨Reg.FDB_CMD_STATUS, 31, 1⟩
def Fld.FDB_CMD_STATUS_index : Fld := ⟨Reg.FDB_CMD_STATUS, 16, 13⟩
def Fld.FDB_CMD_STATUS_result : Fld := ⟨Reg.FDB_CMD_STATUS, 0, 4⟩
def Row.FDB_CMD_STATUS : RegSpec :=
  ⟨0x800014, 1, 0, 1, 0, 0, false, false,
    [⟨31, 1, .ro, .anyRole, .any⟩,
     ⟨16, 13, .ro, .anyRole, .any⟩,
     ⟨0, 4, .ro, .anyRole, .any⟩]⟩
def Reg.FDB_DATA0 : Nat := 0x800020
def Fld.FDB_DATA0_mac_lo : Fld := ⟨Reg.FDB_DATA0, 0, 32⟩
def Row.FDB_DATA0 : RegSpec :=
  ⟨0x800020, 1, 0, 1, 0, 0, false, false,
    [⟨0, 32, .rw, .installer, .any⟩]⟩
def Reg.FDB_DATA1 : Nat := 0x800024
def Fld.FDB_DATA1_vid : Fld := ⟨Reg.FDB_DATA1, 16, 12⟩
def Fld.FDB_DATA1_mac_hi : Fld := ⟨Reg.FDB_DATA1, 0, 16⟩
def Row.FDB_DATA1 : RegSpec :=
  ⟨0x800024, 1, 0, 1, 0, 0, false, false,
    [⟨16, 12, .rw, .installer, .any⟩,
     ⟨0, 16, .rw, .installer, .any⟩]⟩
def Reg.FDB_DATA2 : Nat := 0x800028
def Fld.FDB_DATA2_valid : Fld := ⟨Reg.FDB_DATA2, 31, 1⟩
def Fld.FDB_DATA2_static : Fld := ⟨Reg.FDB_DATA2, 30, 1⟩
def Fld.FDB_DATA2_kind : Fld := ⟨Reg.FDB_DATA2, 28, 2⟩
def Fld.FDB_DATA2_epoch : Fld := ⟨Reg.FDB_DATA2, 16, 8⟩
def Fld.FDB_DATA2_hit : Fld := ⟨Reg.FDB_DATA2, 15, 1⟩
def Fld.FDB_DATA2_age : Fld := ⟨Reg.FDB_DATA2, 12, 2⟩
def Fld.FDB_DATA2_dest : Fld := ⟨Reg.FDB_DATA2, 0, 10⟩
def Row.FDB_DATA2 : RegSpec :=
  ⟨0x800028, 1, 0, 1, 0, 0, false, false,
    [⟨31, 1, .rw, .installer, .any⟩,
     ⟨30, 1, .rw, .installer, .any⟩,
     ⟨28, 2, .rw, .installer, (.code [(3, 0)])⟩,
     ⟨16, 8, .rw, .installer, .any⟩,
     ⟨15, 1, .rw, .installer, .any⟩,
     ⟨12, 2, .rw, .installer, .any⟩,
     ⟨0, 10, .rw, .installer, .any⟩]⟩
def Reg.FDB_DATA3 : Nat := 0x80002c
def Fld.FDB_DATA3_index : Fld := ⟨Reg.FDB_DATA3, 0, 13⟩
def Row.FDB_DATA3 : RegSpec :=
  ⟨0x80002c, 1, 0, 1, 0, 0, false, false,
    [⟨0, 13, .rw, .installer, .any⟩]⟩
def Reg.FDB_LEARNED : Nat := 0x800040
def Fld.FDB_LEARNED_count : Fld := ⟨Reg.FDB_LEARNED, 0, 32⟩
def Row.FDB_LEARNED : RegSpec :=
  ⟨0x800040, 1, 0, 1, 0, 0, false, false,
    [⟨0, 32, .rc, .anyRole, .any⟩]⟩
def Reg.FDB_LEARN_FULL : Nat := 0x800044
def Fld.FDB_LEARN_FULL_count : Fld := ⟨Reg.FDB_LEARN_FULL, 0, 32⟩
def Row.FDB_LEARN_FULL : RegSpec :=
  ⟨0x800044, 1, 0, 1, 0, 0, false, false,
    [⟨0, 32, .rc, .anyRole, .any⟩]⟩
def Reg.FDB_LEARN_LOST : Nat := 0x800048
def Fld.FDB_LEARN_LOST_count : Fld := ⟨Reg.FDB_LEARN_LOST, 0, 32⟩
def Row.FDB_LEARN_LOST : RegSpec :=
  ⟨0x800048, 1, 0, 1, 0, 0, false, false,
    [⟨0, 32, .rc, .anyRole, .any⟩]⟩
def Reg.FDB_AGED : Nat := 0x80004c
def Fld.FDB_AGED_count : Fld := ⟨Reg.FDB_AGED, 0, 32⟩
def Row.FDB_AGED : RegSpec :=
  ⟨0x80004c, 1, 0, 1, 0, 0, false, false,
    [⟨0, 32, .rc, .anyRole, .any⟩]⟩
def Reg.FDB_MOVED : Nat := 0x800050
def Fld.FDB_MOVED_count : Fld := ⟨Reg.FDB_MOVED, 0, 32⟩
def Row.FDB_MOVED : RegSpec :=
  ⟨0x800050, 1, 0, 1, 0, 0, false, false,
    [⟨0, 32, .rc, .anyRole, .any⟩]⟩
def Reg.FDB_TRAIN_STALE : Nat := 0x800054
def Fld.FDB_TRAIN_STALE_count : Fld := ⟨Reg.FDB_TRAIN_STALE, 0, 32⟩
def Row.FDB_TRAIN_STALE : RegSpec :=
  ⟨0x800054, 1, 0, 1, 0, 0, false, false,
    [⟨0, 32, .rc, .anyRole, .any⟩]⟩
def Reg.FDB_EVENT : Nat := 0x800060
def Fld.FDB_EVENT_cmd_done : Fld := ⟨Reg.FDB_EVENT, 1, 1⟩
def Fld.FDB_EVENT_learn_full : Fld := ⟨Reg.FDB_EVENT, 0, 1⟩
def Row.FDB_EVENT : RegSpec :=
  ⟨0x800060, 1, 0, 1, 0, 0, false, false,
    [⟨1, 1, .w1c, .anyRole, .any⟩,
     ⟨0, 1, .w1c, .anyRole, .any⟩]⟩
def Reg.FDB_EVENT_EN : Nat := 0x800064
def Fld.FDB_EVENT_EN_cmd_done : Fld := ⟨Reg.FDB_EVENT_EN, 1, 1⟩
def Fld.FDB_EVENT_EN_learn_full : Fld := ⟨Reg.FDB_EVENT_EN, 0, 1⟩
def Row.FDB_EVENT_EN : RegSpec :=
  ⟨0x800064, 1, 0, 1, 0, 0, false, false,
    [⟨1, 1, .rw, .anyRole, .any⟩,
     ⟨0, 1, .rw, .anyRole, .any⟩]⟩
def Reg.FDB_PORT (i : Nat) : Nat := 0x800100 + 4 * i
def Fld.FDB_PORT_default_class (i : Nat) : Fld := ⟨Reg.FDB_PORT i, 16, 3⟩
def Fld.FDB_PORT_learn (i : Nat) : Fld := ⟨Reg.FDB_PORT i, 14, 1⟩
def Fld.FDB_PORT_accept (i : Nat) : Fld := ⟨Reg.FDB_PORT i, 12, 2⟩
def Fld.FDB_PORT_pvid (i : Nat) : Fld := ⟨Reg.FDB_PORT i, 0, 12⟩
def Row.FDB_PORT : RegSpec :=
  ⟨0x800100, 58, 4, 1, 0, 0x4001, false, false,
    [⟨16, 3, .rw, .installer, .any⟩,
     ⟨14, 1, .rw, .installer, .any⟩,
     ⟨12, 2, .rw, .installer, (.code [(3, 0)])⟩,
     ⟨0, 12, .rw, .installer, (.range 1 4094)⟩]⟩
def Reg.FDB_PCP_MAP (i : Nat) : Nat := 0x800200 + 4 * i
def Fld.FDB_PCP_MAP_class7 (i : Nat) : Fld := ⟨Reg.FDB_PCP_MAP i, 21, 3⟩
def Fld.FDB_PCP_MAP_class6 (i : Nat) : Fld := ⟨Reg.FDB_PCP_MAP i, 18, 3⟩
def Fld.FDB_PCP_MAP_class5 (i : Nat) : Fld := ⟨Reg.FDB_PCP_MAP i, 15, 3⟩
def Fld.FDB_PCP_MAP_class4 (i : Nat) : Fld := ⟨Reg.FDB_PCP_MAP i, 12, 3⟩
def Fld.FDB_PCP_MAP_class3 (i : Nat) : Fld := ⟨Reg.FDB_PCP_MAP i, 9, 3⟩
def Fld.FDB_PCP_MAP_class2 (i : Nat) : Fld := ⟨Reg.FDB_PCP_MAP i, 6, 3⟩
def Fld.FDB_PCP_MAP_class1 (i : Nat) : Fld := ⟨Reg.FDB_PCP_MAP i, 3, 3⟩
def Fld.FDB_PCP_MAP_class0 (i : Nat) : Fld := ⟨Reg.FDB_PCP_MAP i, 0, 3⟩
def Row.FDB_PCP_MAP : RegSpec :=
  ⟨0x800200, 58, 4, 1, 0, 0xfac688, false, false,
    [⟨21, 3, .rw, .installer, .any⟩,
     ⟨18, 3, .rw, .installer, .any⟩,
     ⟨15, 3, .rw, .installer, .any⟩,
     ⟨12, 3, .rw, .installer, .any⟩,
     ⟨9, 3, .rw, .installer, .any⟩,
     ⟨6, 3, .rw, .installer, .any⟩,
     ⟨3, 3, .rw, .installer, .any⟩,
     ⟨0, 3, .rw, .installer, .any⟩]⟩
def Reg.FDB_VLAN_MEMBER_LO (i : Nat) : Nat := 0x840000 + 0x20 * i
def Fld.FDB_VLAN_MEMBER_LO_ports (i : Nat) : Fld := ⟨Reg.FDB_VLAN_MEMBER_LO i, 0, 32⟩
def Row.FDB_VLAN_MEMBER_LO : RegSpec :=
  ⟨0x840000, 4096, 0x20, 1, 0, 0, false, false,
    [⟨0, 32, .rw, .installer, .any⟩]⟩
def Reg.FDB_VLAN_MEMBER_HI (i : Nat) : Nat := 0x840004 + 0x20 * i
def Fld.FDB_VLAN_MEMBER_HI_ports (i : Nat) : Fld := ⟨Reg.FDB_VLAN_MEMBER_HI i, 0, 26⟩
def Row.FDB_VLAN_MEMBER_HI : RegSpec :=
  ⟨0x840004, 4096, 0x20, 1, 0, 0, false, false,
    [⟨0, 26, .rw, .installer, .any⟩]⟩
def Reg.FDB_VLAN_UNTAG_LO (i : Nat) : Nat := 0x840008 + 0x20 * i
def Fld.FDB_VLAN_UNTAG_LO_ports (i : Nat) : Fld := ⟨Reg.FDB_VLAN_UNTAG_LO i, 0, 32⟩
def Row.FDB_VLAN_UNTAG_LO : RegSpec :=
  ⟨0x840008, 4096, 0x20, 1, 0, 0, false, false,
    [⟨0, 32, .rw, .installer, .any⟩]⟩
def Reg.FDB_VLAN_UNTAG_HI (i : Nat) : Nat := 0x84000c + 0x20 * i
def Fld.FDB_VLAN_UNTAG_HI_ports (i : Nat) : Fld := ⟨Reg.FDB_VLAN_UNTAG_HI i, 0, 26⟩
def Row.FDB_VLAN_UNTAG_HI : RegSpec :=
  ⟨0x84000c, 4096, 0x20, 1, 0, 0, false, false,
    [⟨0, 26, .rw, .installer, .any⟩]⟩
def Reg.FDB_VLAN_FLAGS (i : Nat) : Nat := 0x840010 + 0x20 * i
def Fld.FDB_VLAN_FLAGS_flood_unknown (i : Nat) : Fld := ⟨Reg.FDB_VLAN_FLAGS i, 2, 1⟩
def Fld.FDB_VLAN_FLAGS_learn (i : Nat) : Fld := ⟨Reg.FDB_VLAN_FLAGS i, 1, 1⟩
def Fld.FDB_VLAN_FLAGS_valid (i : Nat) : Fld := ⟨Reg.FDB_VLAN_FLAGS i, 0, 1⟩
def Row.FDB_VLAN_FLAGS : RegSpec :=
  ⟨0x840010, 4096, 0x20, 1, 0, 0, false, false,
    [⟨2, 1, .rw, .installer, .any⟩,
     ⟨1, 1, .rw, .installer, .any⟩,
     ⟨0, 1, .rw, .installer, .any⟩]⟩
def Reg.FDB_ENTRY0 (i : Nat) : Nat := 0x880000 + 0x10 * i
def Fld.FDB_ENTRY0_mac_lo (i : Nat) : Fld := ⟨Reg.FDB_ENTRY0 i, 0, 32⟩
def Row.FDB_ENTRY0 : RegSpec :=
  ⟨0x880000, 8192, 0x10, 1, 0, 0, false, false,
    [⟨0, 32, .ro, .anyRole, .any⟩]⟩
def Reg.FDB_ENTRY1 (i : Nat) : Nat := 0x880004 + 0x10 * i
def Fld.FDB_ENTRY1_vid (i : Nat) : Fld := ⟨Reg.FDB_ENTRY1 i, 16, 12⟩
def Fld.FDB_ENTRY1_mac_hi (i : Nat) : Fld := ⟨Reg.FDB_ENTRY1 i, 0, 16⟩
def Row.FDB_ENTRY1 : RegSpec :=
  ⟨0x880004, 8192, 0x10, 1, 0, 0, false, false,
    [⟨16, 12, .ro, .anyRole, .any⟩,
     ⟨0, 16, .ro, .anyRole, .any⟩]⟩
def Reg.FDB_ENTRY2 (i : Nat) : Nat := 0x880008 + 0x10 * i
def Fld.FDB_ENTRY2_valid (i : Nat) : Fld := ⟨Reg.FDB_ENTRY2 i, 31, 1⟩
def Fld.FDB_ENTRY2_static (i : Nat) : Fld := ⟨Reg.FDB_ENTRY2 i, 30, 1⟩
def Fld.FDB_ENTRY2_kind (i : Nat) : Fld := ⟨Reg.FDB_ENTRY2 i, 28, 2⟩
def Fld.FDB_ENTRY2_epoch (i : Nat) : Fld := ⟨Reg.FDB_ENTRY2 i, 16, 8⟩
def Fld.FDB_ENTRY2_hit (i : Nat) : Fld := ⟨Reg.FDB_ENTRY2 i, 15, 1⟩
def Fld.FDB_ENTRY2_age (i : Nat) : Fld := ⟨Reg.FDB_ENTRY2 i, 12, 2⟩
def Fld.FDB_ENTRY2_dest (i : Nat) : Fld := ⟨Reg.FDB_ENTRY2 i, 0, 10⟩
def Row.FDB_ENTRY2 : RegSpec :=
  ⟨0x880008, 8192, 0x10, 1, 0, 0, false, false,
    [⟨31, 1, .ro, .anyRole, .any⟩,
     ⟨30, 1, .ro, .anyRole, .any⟩,
     ⟨28, 2, .ro, .anyRole, .any⟩,
     ⟨16, 8, .ro, .anyRole, .any⟩,
     ⟨15, 1, .ro, .anyRole, .any⟩,
     ⟨12, 2, .ro, .anyRole, .any⟩,
     ⟨0, 10, .ro, .anyRole, .any⟩]⟩
def Reg.FDB_ENTRY3 (i : Nat) : Nat := 0x88000c + 0x10 * i
def Row.FDB_ENTRY3 : RegSpec :=
  ⟨0x88000c, 8192, 0x10, 1, 0, 0, false, false,
    []⟩

/-! ### BUF (R228, R230; fields R229) -/

def Reg.BUF_CTRL : Nat := 0x140000
def Fld.BUF_CTRL_reclaim : Fld := ⟨Reg.BUF_CTRL, 1, 1⟩
def Fld.BUF_CTRL_resign : Fld := ⟨Reg.BUF_CTRL, 0, 1⟩
def Row.BUF_CTRL : RegSpec :=
  ⟨0x140000, 1, 0, 1, 0, 1, false, false,
    [⟨1, 1, .rw, .installer, .any⟩,
     ⟨0, 1, .rw, .installer, .any⟩]⟩
def Reg.BUF_POOL : Nat := 0x140004
def Fld.BUF_POOL_shared : Fld := ⟨Reg.BUF_POOL, 0, 17⟩
def Row.BUF_POOL : RegSpec :=
  ⟨0x140004, 1, 0, 1, 0, 0x1628c, false, false,
    [⟨0, 17, .ro, .anyRole, .any⟩]⟩
def Reg.BUF_SHARED_USE : Nat := 0x140008
def Fld.BUF_SHARED_USE_used : Fld := ⟨Reg.BUF_SHARED_USE, 0, 17⟩
def Row.BUF_SHARED_USE : RegSpec :=
  ⟨0x140008, 1, 0, 1, 0, 0, false, false,
    [⟨0, 17, .ro, .anyRole, .any⟩]⟩
def Reg.BUF_HEADROOM : Nat := 0x14000c
def Fld.BUF_HEADROOM_cells : Fld := ⟨Reg.BUF_HEADROOM, 0, 17⟩
def Row.BUF_HEADROOM : RegSpec :=
  ⟨0x14000c, 1, 0, 1, 0, 0, false, false,
    [⟨0, 17, .ro, .anyRole, .any⟩]⟩
def Reg.BUF_CELLS_FREE : Nat := 0x140010
def Fld.BUF_CELLS_FREE_cells : Fld := ⟨Reg.BUF_CELLS_FREE, 0, 17⟩
def Row.BUF_CELLS_FREE : RegSpec :=
  ⟨0x140010, 1, 0, 1, 0, 0, false, false,
    [⟨0, 17, .ro, .anyRole, .any⟩]⟩
def Reg.BUF_CELLS_QUEUED : Nat := 0x140014
def Fld.BUF_CELLS_QUEUED_cells : Fld := ⟨Reg.BUF_CELLS_QUEUED, 0, 17⟩
def Row.BUF_CELLS_QUEUED : RegSpec :=
  ⟨0x140014, 1, 0, 1, 0, 0, false, false,
    [⟨0, 17, .ro, .anyRole, .any⟩]⟩
def Reg.BUF_CELLS_TRANSIT : Nat := 0x140018
def Fld.BUF_CELLS_TRANSIT_cells : Fld := ⟨Reg.BUF_CELLS_TRANSIT, 0, 17⟩
def Row.BUF_CELLS_TRANSIT : RegSpec :=
  ⟨0x140018, 1, 0, 1, 0, 0, false, false,
    [⟨0, 17, .ro, .anyRole, .any⟩]⟩
def Reg.BUF_CELLS_RESERVED : Nat := 0x14001c
def Fld.BUF_CELLS_RESERVED_cells : Fld := ⟨Reg.BUF_CELLS_RESERVED, 0, 17⟩
def Row.BUF_CELLS_RESERVED : RegSpec :=
  ⟨0x14001c, 1, 0, 1, 0, 0, false, false,
    [⟨0, 17, .ro, .anyRole, .any⟩]⟩
def Reg.BUF_AUDIT_STATUS : Nat := 0x140020
def Fld.BUF_AUDIT_STATUS_bad_row : Fld := ⟨Reg.BUF_AUDIT_STATUS, 23, 9⟩
def Fld.BUF_AUDIT_STATUS_bad_rows : Fld := ⟨Reg.BUF_AUDIT_STATUS, 13, 9⟩
def Fld.BUF_AUDIT_STATUS_credit_bad : Fld := ⟨Reg.BUF_AUDIT_STATUS, 8, 1⟩
def Fld.BUF_AUDIT_STATUS_dup : Fld := ⟨Reg.BUF_AUDIT_STATUS, 7, 1⟩
def Fld.BUF_AUDIT_STATUS_leak : Fld := ⟨Reg.BUF_AUDIT_STATUS, 6, 1⟩
def Fld.BUF_AUDIT_STATUS_cells_bad : Fld := ⟨Reg.BUF_AUDIT_STATUS, 5, 1⟩
def Fld.BUF_AUDIT_STATUS_dropsum_bad : Fld := ⟨Reg.BUF_AUDIT_STATUS, 4, 1⟩
def Fld.BUF_AUDIT_STATUS_row_bad : Fld := ⟨Reg.BUF_AUDIT_STATUS, 3, 1⟩
def Fld.BUF_AUDIT_STATUS_excused : Fld := ⟨Reg.BUF_AUDIT_STATUS, 2, 1⟩
def Fld.BUF_AUDIT_STATUS_fault : Fld := ⟨Reg.BUF_AUDIT_STATUS, 1, 1⟩
def Fld.BUF_AUDIT_STATUS_valid : Fld := ⟨Reg.BUF_AUDIT_STATUS, 0, 1⟩
def Row.BUF_AUDIT_STATUS : RegSpec :=
  ⟨0x140020, 1, 0, 1, 0, 0, false, false,
    [⟨23, 9, .ro, .anyRole, .any⟩,
     ⟨13, 9, .ro, .anyRole, .any⟩,
     ⟨8, 1, .ro, .anyRole, .any⟩,
     ⟨7, 1, .ro, .anyRole, .any⟩,
     ⟨6, 1, .ro, .anyRole, .any⟩,
     ⟨5, 1, .ro, .anyRole, .any⟩,
     ⟨4, 1, .ro, .anyRole, .any⟩,
     ⟨3, 1, .ro, .anyRole, .any⟩,
     ⟨2, 1, .ro, .anyRole, .any⟩,
     ⟨1, 1, .ro, .anyRole, .any⟩,
     ⟨0, 1, .ro, .anyRole, .any⟩]⟩
def Reg.BUF_AUDIT_DIFF_LO : Nat := 0x140024
def Fld.BUF_AUDIT_DIFF_LO_diff : Fld := ⟨Reg.BUF_AUDIT_DIFF_LO, 0, 32⟩
def Row.BUF_AUDIT_DIFF_LO : RegSpec :=
  ⟨0x140024, 1, 0, 1, 0, 0, false, false,
    [⟨0, 32, .ro, .anyRole, .any⟩]⟩
def Reg.BUF_AUDIT_DIFF_HI : Nat := 0x140028
def Fld.BUF_AUDIT_DIFF_HI_diff : Fld := ⟨Reg.BUF_AUDIT_DIFF_HI, 0, 16⟩
def Row.BUF_AUDIT_DIFF_HI : RegSpec :=
  ⟨0x140028, 1, 0, 1, 0, 0, false, false,
    [⟨0, 16, .ro, .anyRole, .any⟩]⟩
def Reg.BUF_SNAP_TICK : Nat := 0x14002c
def Fld.BUF_SNAP_TICK_tick : Fld := ⟨Reg.BUF_SNAP_TICK, 0, 32⟩
def Row.BUF_SNAP_TICK : RegSpec :=
  ⟨0x14002c, 1, 0, 1, 0, 0, false, false,
    [⟨0, 32, .ro, .anyRole, .any⟩]⟩
def Reg.BUF_SNAP_CTRL : Nat := 0x140030
def Fld.BUF_SNAP_CTRL_hold : Fld := ⟨Reg.BUF_SNAP_CTRL, 0, 1⟩
def Row.BUF_SNAP_CTRL : RegSpec :=
  ⟨0x140030, 1, 0, 1, 0, 0, false, false,
    [⟨0, 1, .rw, .anyRole, .any⟩]⟩
def Reg.BUF_EVENT : Nat := 0x140034
def Fld.BUF_EVENT_duplicate : Fld := ⟨Reg.BUF_EVENT, 4, 1⟩
def Fld.BUF_EVENT_leak : Fld := ⟨Reg.BUF_EVENT, 3, 1⟩
def Fld.BUF_EVENT_credit_fault : Fld := ⟨Reg.BUF_EVENT, 2, 1⟩
def Fld.BUF_EVENT_cell_fault : Fld := ⟨Reg.BUF_EVENT, 1, 1⟩
def Fld.BUF_EVENT_ledger_fault : Fld := ⟨Reg.BUF_EVENT, 0, 1⟩
def Row.BUF_EVENT : RegSpec :=
  ⟨0x140034, 1, 0, 1, 0, 0, false, false,
    [⟨4, 1, .w1c, .anyRole, .any⟩,
     ⟨3, 1, .w1c, .anyRole, .any⟩,
     ⟨2, 1, .w1c, .anyRole, .any⟩,
     ⟨1, 1, .w1c, .anyRole, .any⟩,
     ⟨0, 1, .w1c, .anyRole, .any⟩]⟩
def Reg.BUF_EVENT_EN : Nat := 0x140038
def Fld.BUF_EVENT_EN_duplicate : Fld := ⟨Reg.BUF_EVENT_EN, 4, 1⟩
def Fld.BUF_EVENT_EN_leak : Fld := ⟨Reg.BUF_EVENT_EN, 3, 1⟩
def Fld.BUF_EVENT_EN_credit_fault : Fld := ⟨Reg.BUF_EVENT_EN, 2, 1⟩
def Fld.BUF_EVENT_EN_cell_fault : Fld := ⟨Reg.BUF_EVENT_EN, 1, 1⟩
def Fld.BUF_EVENT_EN_ledger_fault : Fld := ⟨Reg.BUF_EVENT_EN, 0, 1⟩
def Row.BUF_EVENT_EN : RegSpec :=
  ⟨0x140038, 1, 0, 1, 0, 0, false, false,
    [⟨4, 1, .rw, .anyRole, .any⟩,
     ⟨3, 1, .rw, .anyRole, .any⟩,
     ⟨2, 1, .rw, .anyRole, .any⟩,
     ⟨1, 1, .rw, .anyRole, .any⟩,
     ⟨0, 1, .rw, .anyRole, .any⟩]⟩
def Reg.BUF_ECN_MARKED : Nat := 0x140040
def Fld.BUF_ECN_MARKED_count : Fld := ⟨Reg.BUF_ECN_MARKED, 0, 32⟩
def Row.BUF_ECN_MARKED : RegSpec :=
  ⟨0x140040, 1, 0, 1, 0, 0, false, false,
    [⟨0, 32, .rc, .anyRole, .any⟩]⟩
def Reg.BUF_TRUNCATED : Nat := 0x140044
def Fld.BUF_TRUNCATED_count : Fld := ⟨Reg.BUF_TRUNCATED, 0, 32⟩
def Row.BUF_TRUNCATED : RegSpec :=
  ⟨0x140044, 1, 0, 1, 0, 0, false, false,
    [⟨0, 32, .rc, .anyRole, .any⟩]⟩
def Reg.BUF_LEAKED : Nat := 0x140048
def Fld.BUF_LEAKED_count : Fld := ⟨Reg.BUF_LEAKED, 0, 32⟩
def Row.BUF_LEAKED : RegSpec :=
  ⟨0x140048, 1, 0, 1, 0, 0, false, false,
    [⟨0, 32, .rc, .anyRole, .any⟩]⟩
def Reg.BUF_DUPLICATED : Nat := 0x14004c
def Fld.BUF_DUPLICATED_count : Fld := ⟨Reg.BUF_DUPLICATED, 0, 32⟩
def Row.BUF_DUPLICATED : RegSpec :=
  ⟨0x14004c, 1, 0, 1, 0, 0, false, false,
    [⟨0, 32, .rc, .anyRole, .any⟩]⟩
def Reg.BUF_RECLAIMED : Nat := 0x140050
def Fld.BUF_RECLAIMED_count : Fld := ⟨Reg.BUF_RECLAIMED, 0, 32⟩
def Row.BUF_RECLAIMED : RegSpec :=
  ⟨0x140050, 1, 0, 1, 0, 0, false, false,
    [⟨0, 32, .rc, .anyRole, .any⟩]⟩
def Reg.BUF_CLASS (i : Nat) : Nat := 0x140100 + 0x10 * i
def Fld.BUF_CLASS_threshold (i : Nat) : Fld := ⟨Reg.BUF_CLASS i, 16, 14⟩
def Fld.BUF_CLASS_behaviour (i : Nat) : Fld := ⟨Reg.BUF_CLASS i, 0, 2⟩
def Row.BUF_CLASS : RegSpec :=
  ⟨0x140100, 8, 0x10, 1, 0, 0x3fff0000, false, false,
    [⟨16, 14, .rw, .installer, .any⟩,
     ⟨0, 2, .rw, .installer, (.code [(3, 0)])⟩]⟩
def Reg.BUF_CLASS_PFC (i : Nat) : Nat := 0x140104 + 0x10 * i
def Fld.BUF_CLASS_PFC_headroom (i : Nat) : Fld := ⟨Reg.BUF_CLASS_PFC i, 16, 12⟩
def Fld.BUF_CLASS_PFC_xon_gap (i : Nat) : Fld := ⟨Reg.BUF_CLASS_PFC i, 0, 14⟩
def Row.BUF_CLASS_PFC : RegSpec :=
  ⟨0x140104, 8, 0x10, 1, 0, 0x40, false, false,
    [⟨16, 12, .rw, .installer, .any⟩,
     ⟨0, 14, .rw, .installer, .any⟩]⟩
def Reg.BUF_ROW_CFG (i : Nat) (j : Nat) : Nat := 0x141000 + 0x20 * i + 4 * j
def Fld.BUF_ROW_CFG_alpha (i : Nat) (j : Nat) : Fld := ⟨Reg.BUF_ROW_CFG i j, 16, 3⟩
def Fld.BUF_ROW_CFG_min_cells (i : Nat) (j : Nat) : Fld := ⟨Reg.BUF_ROW_CFG i j, 0, 12⟩
def Row.BUF_ROW_CFG : RegSpec :=
  ⟨0x141000, 58, 0x20, 8, 4, 0x40010, false, false,
    [⟨16, 3, .rw, .installer, .any⟩,
     ⟨0, 12, .rw, .installer, .any⟩]⟩
def Reg.BUF_ROW_STATE (i : Nat) (j : Nat) : Nat := 0x142000 + 0x20 * i + 4 * j
def Fld.BUF_ROW_STATE_xoff (i : Nat) (j : Nat) : Fld := ⟨Reg.BUF_ROW_STATE i j, 31, 1⟩
def Fld.BUF_ROW_STATE_source_wait (i : Nat) (j : Nat) : Fld := ⟨Reg.BUF_ROW_STATE i j, 30, 1⟩
def Fld.BUF_ROW_STATE_cells (i : Nat) (j : Nat) : Fld := ⟨Reg.BUF_ROW_STATE i j, 0, 17⟩
def Row.BUF_ROW_STATE : RegSpec :=
  ⟨0x142000, 58, 0x20, 8, 4, 0, false, false,
    [⟨31, 1, .ro, .anyRole, .any⟩,
     ⟨30, 1, .ro, .anyRole, .any⟩,
     ⟨0, 17, .ro, .anyRole, .any⟩]⟩
def Reg.BUF_DEPTH (i : Nat) (j : Nat) : Nat := 0x143000 + 0x20 * i + 4 * j
def Fld.BUF_DEPTH_cells (i : Nat) (j : Nat) : Fld := ⟨Reg.BUF_DEPTH i j, 0, 17⟩
def Row.BUF_DEPTH : RegSpec :=
  ⟨0x143000, 58, 0x20, 8, 4, 0, false, false,
    [⟨0, 17, .ro, .anyRole, .any⟩]⟩
def Reg.BUF_LEDGER (i : Nat) (j : Nat) : Nat := 0x150000 + 0x100 * i + 4 * j
def Fld.BUF_LEDGER_word (i : Nat) (j : Nat) : Fld := ⟨Reg.BUF_LEDGER i j, 0, 32⟩
def Row.BUF_LEDGER : RegSpec :=
  ⟨0x150000, 464, 0x100, 64, 4, 0, false, false,
    [⟨0, 32, .ro, .anyRole, .any⟩]⟩

/-! ### MIR (R231; fields R232) -/

def Reg.MIR_CTRL : Nat := 0x180000
def Fld.MIR_CTRL_enable : Fld := ⟨Reg.MIR_CTRL, 0, 1⟩
def Row.MIR_CTRL : RegSpec :=
  ⟨0x180000, 1, 0, 1, 0, 0, false, false,
    [⟨0, 1, .rw, .installer, .any⟩]⟩
def Reg.MIR_CAPTURES : Nat := 0x180004
def Fld.MIR_CAPTURES_count : Fld := ⟨Reg.MIR_CAPTURES, 0, 32⟩
def Row.MIR_CAPTURES : RegSpec :=
  ⟨0x180004, 1, 0, 1, 0, 0, false, false,
    [⟨0, 32, .rc, .anyRole, .any⟩]⟩
def Reg.MIR_CAPTURE_LOST : Nat := 0x180008
def Fld.MIR_CAPTURE_LOST_count : Fld := ⟨Reg.MIR_CAPTURE_LOST, 0, 32⟩
def Row.MIR_CAPTURE_LOST : RegSpec :=
  ⟨0x180008, 1, 0, 1, 0, 0, false, false,
    [⟨0, 32, .rc, .anyRole, .any⟩]⟩
def Reg.MIR_FILTER (i : Nat) : Nat := 0x180100 + 0x10 * i
def Fld.MIR_FILTER_enable (i : Nat) : Fld := ⟨Reg.MIR_FILTER i, 31, 1⟩
def Fld.MIR_FILTER_len128 (i : Nat) : Fld := ⟨Reg.MIR_FILTER i, 30, 1⟩
def Fld.MIR_FILTER_point (i : Nat) : Fld := ⟨Reg.MIR_FILTER i, 28, 2⟩
def Fld.MIR_FILTER_ring (i : Nat) : Fld := ⟨Reg.MIR_FILTER i, 16, 6⟩
def Fld.MIR_FILTER_port (i : Nat) : Fld := ⟨Reg.MIR_FILTER i, 8, 6⟩
def Fld.MIR_FILTER_class_mask (i : Nat) : Fld := ⟨Reg.MIR_FILTER i, 0, 8⟩
def Row.MIR_FILTER : RegSpec :=
  ⟨0x180100, 16, 0x10, 1, 0, 0, false, false,
    [⟨31, 1, .rw, .installer, .any⟩,
     ⟨30, 1, .rw, .installer, .any⟩,
     ⟨28, 2, .rw, .installer, (.code [(3, 0)])⟩,
     ⟨16, 6, .rw, .installer, .any⟩,
     ⟨8, 6, .rw, .installer, (.code [(58, 63), (59, 63), (60, 63), (61, 63), (62, 63)])⟩,
     ⟨0, 8, .rw, .installer, .any⟩]⟩
def Reg.MIR_MATCH (i : Nat) : Nat := 0x180104 + 0x10 * i
def Fld.MIR_MATCH_reason (i : Nat) : Fld := ⟨Reg.MIR_MATCH i, 16, 5⟩
def Fld.MIR_MATCH_ethertype (i : Nat) : Fld := ⟨Reg.MIR_MATCH i, 0, 16⟩
def Row.MIR_MATCH : RegSpec :=
  ⟨0x180104, 16, 0x10, 1, 0, 0, false, false,
    [⟨16, 5, .rw, .installer, .any⟩,
     ⟨0, 16, .rw, .installer, .any⟩]⟩
def Reg.MIR_SAMPLE (i : Nat) : Nat := 0x180108 + 0x10 * i
def Fld.MIR_SAMPLE_n (i : Nat) : Fld := ⟨Reg.MIR_SAMPLE i, 0, 16⟩
def Row.MIR_SAMPLE : RegSpec :=
  ⟨0x180108, 16, 0x10, 1, 0, 1, false, false,
    [⟨0, 16, .rw, .installer, (.range 1 65535)⟩]⟩
def Reg.MIR_HITS (i : Nat) : Nat := 0x18010c + 0x10 * i
def Fld.MIR_HITS_count (i : Nat) : Fld := ⟨Reg.MIR_HITS i, 0, 32⟩
def Row.MIR_HITS : RegSpec :=
  ⟨0x18010c, 16, 0x10, 1, 0, 0, false, false,
    [⟨0, 32, .rc, .anyRole, .any⟩]⟩

/-! ### EPT (R261; fields R262) -/

def Reg.EPT_CTRL (i : Nat) : Nat := 0x200000 + 0x1000 * i
def Fld.EPT_CTRL_drain_us (i : Nat) : Fld := ⟨Reg.EPT_CTRL i, 8, 14⟩
def Fld.EPT_CTRL_state (i : Nat) : Fld := ⟨Reg.EPT_CTRL i, 1, 2⟩
def Fld.EPT_CTRL_enable (i : Nat) : Fld := ⟨Reg.EPT_CTRL i, 0, 1⟩
def Row.EPT_CTRL : RegSpec :=
  ⟨0x200000, 48, 0x1000, 1, 0, 0x3e801, true, false,
    [⟨8, 14, .rw, .installer, (.range 0 10000)⟩,
     ⟨1, 2, .ro, .anyRole, .any⟩,
     ⟨0, 1, .rw, .anyRole, .any⟩]⟩
def Reg.EPT_MODE (i : Nat) : Nat := 0x200004 + 0x1000 * i
def Fld.EPT_MODE_maxfrm (i : Nat) : Fld := ⟨Reg.EPT_MODE i, 16, 14⟩
def Fld.EPT_MODE_duplex (i : Nat) : Fld := ⟨Reg.EPT_MODE i, 6, 1⟩
def Fld.EPT_MODE_speed (i : Nat) : Fld := ⟨Reg.EPT_MODE i, 4, 2⟩
def Fld.EPT_MODE_an (i : Nat) : Fld := ⟨Reg.EPT_MODE i, 1, 1⟩
def Fld.EPT_MODE_iface (i : Nat) : Fld := ⟨Reg.EPT_MODE i, 0, 1⟩
def Row.EPT_MODE : RegSpec :=
  ⟨0x200004, 48, 0x1000, 1, 0, 0x5ee0062, false, false,
    [⟨16, 14, .rw, .installer, (.range 1518 9216)⟩,
     ⟨6, 1, .rw, .installer, .any⟩,
     ⟨4, 2, .rw, .installer, .any⟩,
     ⟨1, 1, .rw, .installer, .any⟩,
     ⟨0, 1, .rw, .installer, .any⟩]⟩
def Reg.EPT_STATUS (i : Nat) : Nat := 0x200008 + 0x1000 * i
def Fld.EPT_STATUS_pfc_paused (i : Nat) : Fld := ⟨Reg.EPT_STATUS i, 16, 8⟩
def Fld.EPT_STATUS_paused (i : Nat) : Fld := ⟨Reg.EPT_STATUS i, 8, 1⟩
def Fld.EPT_STATUS_bad_mode (i : Nat) : Fld := ⟨Reg.EPT_STATUS i, 7, 1⟩
def Fld.EPT_STATUS_duplex (i : Nat) : Fld := ⟨Reg.EPT_STATUS i, 6, 1⟩
def Fld.EPT_STATUS_speed (i : Nat) : Fld := ⟨Reg.EPT_STATUS i, 4, 2⟩
def Fld.EPT_STATUS_an_done (i : Nat) : Fld := ⟨Reg.EPT_STATUS i, 1, 1⟩
def Fld.EPT_STATUS_link (i : Nat) : Fld := ⟨Reg.EPT_STATUS i, 0, 1⟩
def Row.EPT_STATUS : RegSpec :=
  ⟨0x200008, 48, 0x1000, 1, 0, 0, false, false,
    [⟨16, 8, .ro, .anyRole, .any⟩,
     ⟨8, 1, .ro, .anyRole, .any⟩,
     ⟨7, 1, .ro, .anyRole, .any⟩,
     ⟨6, 1, .ro, .anyRole, .any⟩,
     ⟨4, 2, .ro, .anyRole, .any⟩,
     ⟨1, 1, .ro, .anyRole, .any⟩,
     ⟨0, 1, .ro, .anyRole, .any⟩]⟩
def Reg.EPT_FC (i : Nat) : Nat := 0x20000c + 0x1000 * i
def Fld.EPT_FC_quanta (i : Nat) : Fld := ⟨Reg.EPT_FC i, 16, 16⟩
def Fld.EPT_FC_classes (i : Nat) : Fld := ⟨Reg.EPT_FC i, 8, 8⟩
def Fld.EPT_FC_mode (i : Nat) : Fld := ⟨Reg.EPT_FC i, 0, 2⟩
def Row.EPT_FC : RegSpec :=
  ⟨0x20000c, 48, 0x1000, 1, 0, 0xffff0000, false, false,
    [⟨16, 16, .rw, .installer, (.range 1 65535)⟩,
     ⟨8, 8, .rw, .installer, .any⟩,
     ⟨0, 2, .rw, .installer, (.code [(3, 0)])⟩]⟩
def Reg.EPT_SHAPE (i : Nat) (j : Nat) : Nat := 0x200020 + 0x1000 * i + 4 * j
def Fld.EPT_SHAPE_burst (i : Nat) (j : Nat) : Fld := ⟨Reg.EPT_SHAPE i j, 16, 12⟩
def Fld.EPT_SHAPE_rate (i : Nat) (j : Nat) : Fld := ⟨Reg.EPT_SHAPE i j, 0, 14⟩
def Row.EPT_SHAPE : RegSpec :=
  ⟨0x200020, 48, 0x1000, 8, 4, 0, false, false,
    [⟨16, 12, .rw, .installer, (.range 1 4095)⟩,
     ⟨0, 14, .rw, .installer, .any⟩]⟩
def Reg.EPT_GATE (i : Nat) : Nat := 0x200040 + 0x1000 * i
def Fld.EPT_GATE_gate (i : Nat) : Fld := ⟨Reg.EPT_GATE i, 0, 8⟩
def Row.EPT_GATE : RegSpec :=
  ⟨0x200040, 48, 0x1000, 1, 0, 0xff, false, false,
    [⟨0, 8, .ro, .anyRole, .any⟩]⟩
def Reg.EPT_EVENT (i : Nat) : Nat := 0x200044 + 0x1000 * i
def Fld.EPT_EVENT_bad_mode (i : Nat) : Fld := ⟨Reg.EPT_EVENT i, 4, 1⟩
def Fld.EPT_EVENT_late_coll (i : Nat) : Fld := ⟨Reg.EPT_EVENT i, 3, 1⟩
def Fld.EPT_EVENT_excess_coll (i : Nat) : Fld := ⟨Reg.EPT_EVENT i, 2, 1⟩
def Fld.EPT_EVENT_state_done (i : Nat) : Fld := ⟨Reg.EPT_EVENT i, 1, 1⟩
def Fld.EPT_EVENT_link_change (i : Nat) : Fld := ⟨Reg.EPT_EVENT i, 0, 1⟩
def Row.EPT_EVENT : RegSpec :=
  ⟨0x200044, 48, 0x1000, 1, 0, 0, false, false,
    [⟨4, 1, .w1c, .anyRole, .any⟩,
     ⟨3, 1, .w1c, .anyRole, .any⟩,
     ⟨2, 1, .w1c, .anyRole, .any⟩,
     ⟨1, 1, .w1c, .anyRole, .any⟩,
     ⟨0, 1, .w1c, .anyRole, .any⟩]⟩
def Reg.EPT_EVENT_EN (i : Nat) : Nat := 0x200048 + 0x1000 * i
def Fld.EPT_EVENT_EN_bad_mode (i : Nat) : Fld := ⟨Reg.EPT_EVENT_EN i, 4, 1⟩
def Fld.EPT_EVENT_EN_late_coll (i : Nat) : Fld := ⟨Reg.EPT_EVENT_EN i, 3, 1⟩
def Fld.EPT_EVENT_EN_excess_coll (i : Nat) : Fld := ⟨Reg.EPT_EVENT_EN i, 2, 1⟩
def Fld.EPT_EVENT_EN_state_done (i : Nat) : Fld := ⟨Reg.EPT_EVENT_EN i, 1, 1⟩
def Fld.EPT_EVENT_EN_link_change (i : Nat) : Fld := ⟨Reg.EPT_EVENT_EN i, 0, 1⟩
def Row.EPT_EVENT_EN : RegSpec :=
  ⟨0x200048, 48, 0x1000, 1, 0, 0, false, false,
    [⟨4, 1, .rw, .anyRole, .any⟩,
     ⟨3, 1, .rw, .anyRole, .any⟩,
     ⟨2, 1, .rw, .anyRole, .any⟩,
     ⟨1, 1, .rw, .anyRole, .any⟩,
     ⟨0, 1, .rw, .anyRole, .any⟩]⟩

/-! ### TPT (R263; fields R264) -/

def Reg.TPT_CTRL (i : Nat) : Nat := 0x400000 + 0x1000 * i
def Fld.TPT_CTRL_state (i : Nat) : Fld := ⟨Reg.TPT_CTRL i, 1, 2⟩
def Fld.TPT_CTRL_enable (i : Nat) : Fld := ⟨Reg.TPT_CTRL i, 0, 1⟩
def Row.TPT_CTRL : RegSpec :=
  ⟨0x400000, 4, 0x1000, 1, 0, 1, true, false,
    [⟨1, 2, .ro, .anyRole, .any⟩,
     ⟨0, 1, .rw, .anyRole, .any⟩]⟩
def Reg.TPT_MODE (i : Nat) : Nat := 0x400004 + 0x1000 * i
def Fld.TPT_MODE_an (i : Nat) : Fld := ⟨Reg.TPT_MODE i, 2, 1⟩
def Fld.TPT_MODE_speed (i : Nat) : Fld := ⟨Reg.TPT_MODE i, 0, 2⟩
def Row.TPT_MODE : RegSpec :=
  ⟨0x400004, 4, 0x1000, 1, 0, 4, false, false,
    [⟨2, 1, .rw, .installer, .any⟩,
     ⟨0, 2, .rw, .installer, .any⟩]⟩
def Reg.TPT_STATUS (i : Nat) : Nat := 0x400008 + 0x1000 * i
def Fld.TPT_STATUS_preempt_active (i : Nat) : Fld := ⟨Reg.TPT_STATUS i, 7, 1⟩
def Fld.TPT_STATUS_verify (i : Nat) : Fld := ⟨Reg.TPT_STATUS i, 4, 3⟩
def Fld.TPT_STATUS_speed (i : Nat) : Fld := ⟨Reg.TPT_STATUS i, 1, 2⟩
def Fld.TPT_STATUS_link (i : Nat) : Fld := ⟨Reg.TPT_STATUS i, 0, 1⟩
def Row.TPT_STATUS : RegSpec :=
  ⟨0x400008, 4, 0x1000, 1, 0, 0, false, false,
    [⟨7, 1, .ro, .anyRole, .any⟩,
     ⟨4, 3, .ro, .anyRole, .any⟩,
     ⟨1, 2, .ro, .anyRole, .any⟩,
     ⟨0, 1, .ro, .anyRole, .any⟩]⟩
def Reg.TPT_PREEMPT (i : Nat) : Nat := 0x40000c + 0x1000 * i
def Fld.TPT_PREEMPT_verify_limit (i : Nat) : Fld := ⟨Reg.TPT_PREEMPT i, 16, 3⟩
def Fld.TPT_PREEMPT_verify_ms (i : Nat) : Fld := ⟨Reg.TPT_PREEMPT i, 8, 8⟩
def Fld.TPT_PREEMPT_add_frag (i : Nat) : Fld := ⟨Reg.TPT_PREEMPT i, 4, 2⟩
def Fld.TPT_PREEMPT_verify (i : Nat) : Fld := ⟨Reg.TPT_PREEMPT i, 1, 1⟩
def Fld.TPT_PREEMPT_enable (i : Nat) : Fld := ⟨Reg.TPT_PREEMPT i, 0, 1⟩
def Row.TPT_PREEMPT : RegSpec :=
  ⟨0x40000c, 4, 0x1000, 1, 0, 0x30a03, false, false,
    [⟨16, 3, .rw, .installer, (.range 1 7)⟩,
     ⟨8, 8, .rw, .installer, (.range 1 128)⟩,
     ⟨4, 2, .rw, .installer, .any⟩,
     ⟨1, 1, .rw, .installer, .any⟩,
     ⟨0, 1, .rw, .installer, .any⟩]⟩
def Reg.TPT_SHAPE (i : Nat) (j : Nat) : Nat := 0x400020 + 0x1000 * i + 4 * j
def Fld.TPT_SHAPE_burst (i : Nat) (j : Nat) : Fld := ⟨Reg.TPT_SHAPE i j, 16, 12⟩
def Fld.TPT_SHAPE_rate (i : Nat) (j : Nat) : Fld := ⟨Reg.TPT_SHAPE i j, 0, 14⟩
def Row.TPT_SHAPE : RegSpec :=
  ⟨0x400020, 4, 0x1000, 8, 4, 0, false, false,
    [⟨16, 12, .rw, .installer, (.range 1 4095)⟩,
     ⟨0, 14, .rw, .installer, .any⟩]⟩
def Reg.TPT_GATE (i : Nat) : Nat := 0x400040 + 0x1000 * i
def Fld.TPT_GATE_gate (i : Nat) : Fld := ⟨Reg.TPT_GATE i, 0, 8⟩
def Row.TPT_GATE : RegSpec :=
  ⟨0x400040, 4, 0x1000, 1, 0, 0xff, false, false,
    [⟨0, 8, .ro, .anyRole, .any⟩]⟩
def Reg.TPT_EVENT (i : Nat) : Nat := 0x400044 + 0x1000 * i
def Fld.TPT_EVENT_frag_error (i : Nat) : Fld := ⟨Reg.TPT_EVENT i, 3, 1⟩
def Fld.TPT_EVENT_verify_fail (i : Nat) : Fld := ⟨Reg.TPT_EVENT i, 2, 1⟩
def Fld.TPT_EVENT_state_done (i : Nat) : Fld := ⟨Reg.TPT_EVENT i, 1, 1⟩
def Fld.TPT_EVENT_link_change (i : Nat) : Fld := ⟨Reg.TPT_EVENT i, 0, 1⟩
def Row.TPT_EVENT : RegSpec :=
  ⟨0x400044, 4, 0x1000, 1, 0, 0, false, false,
    [⟨3, 1, .w1c, .anyRole, .any⟩,
     ⟨2, 1, .w1c, .anyRole, .any⟩,
     ⟨1, 1, .w1c, .anyRole, .any⟩,
     ⟨0, 1, .w1c, .anyRole, .any⟩]⟩
def Reg.TPT_EVENT_EN (i : Nat) : Nat := 0x400048 + 0x1000 * i
def Fld.TPT_EVENT_EN_frag_error (i : Nat) : Fld := ⟨Reg.TPT_EVENT_EN i, 3, 1⟩
def Fld.TPT_EVENT_EN_verify_fail (i : Nat) : Fld := ⟨Reg.TPT_EVENT_EN i, 2, 1⟩
def Fld.TPT_EVENT_EN_state_done (i : Nat) : Fld := ⟨Reg.TPT_EVENT_EN i, 1, 1⟩
def Fld.TPT_EVENT_EN_link_change (i : Nat) : Fld := ⟨Reg.TPT_EVENT_EN i, 0, 1⟩
def Row.TPT_EVENT_EN : RegSpec :=
  ⟨0x400048, 4, 0x1000, 1, 0, 0, false, false,
    [⟨3, 1, .rw, .anyRole, .any⟩,
     ⟨2, 1, .rw, .anyRole, .any⟩,
     ⟨1, 1, .rw, .anyRole, .any⟩,
     ⟨0, 1, .rw, .anyRole, .any⟩]⟩

/-! ### MST (R265; fields R266) -/

def Reg.MST_CTRL : Nat := 0x300000
def Fld.MST_CTRL_irq_en : Fld := ⟨Reg.MST_CTRL, 0, 1⟩
def Row.MST_CTRL : RegSpec :=
  ⟨0x300000, 1, 0, 1, 0, 0, false, false,
    [⟨0, 1, .rw, .anyRole, .any⟩]⟩
def Reg.MST_PORT_EVENT_LO : Nat := 0x300008
def Fld.MST_PORT_EVENT_LO_ports : Fld := ⟨Reg.MST_PORT_EVENT_LO, 0, 32⟩
def Row.MST_PORT_EVENT_LO : RegSpec :=
  ⟨0x300008, 1, 0, 1, 0, 0, false, false,
    [⟨0, 32, .ro, .anyRole, .any⟩]⟩
def Reg.MST_PORT_EVENT_HI : Nat := 0x30000c
def Fld.MST_PORT_EVENT_HI_ports : Fld := ⟨Reg.MST_PORT_EVENT_HI, 0, 32⟩
def Row.MST_PORT_EVENT_HI : RegSpec :=
  ⟨0x30000c, 1, 0, 1, 0, 0, false, false,
    [⟨0, 32, .ro, .anyRole, .any⟩]⟩
def Reg.MST_CLEAR : Nat := 0x300018
def Fld.MST_CLEAR_go : Fld := ⟨Reg.MST_CLEAR, 31, 1⟩
def Fld.MST_CLEAR_port : Fld := ⟨Reg.MST_CLEAR, 0, 6⟩
def Row.MST_CLEAR : RegSpec :=
  ⟨0x300018, 1, 0, 1, 0, 0, false, false,
    [⟨31, 1, .wo, .anyRole, .any⟩,
     ⟨0, 6, .wo, .anyRole, (.range 0 51)⟩]⟩
def Reg.MST_HALF_LO (i : Nat) : Nat := 0x300100 + 8 * i
def Fld.MST_HALF_LO_half (i : Nat) : Fld := ⟨Reg.MST_HALF_LO i, 0, 32⟩
def Row.MST_HALF_LO : RegSpec :=
  ⟨0x300100, 52, 8, 1, 0, 0, false, false,
    [⟨0, 32, .w1c, .anyRole, .any⟩]⟩
def Reg.MST_HALF_HI (i : Nat) : Nat := 0x300104 + 8 * i
def Fld.MST_HALF_HI_half (i : Nat) : Fld := ⟨Reg.MST_HALF_HI i, 0, 32⟩
def Row.MST_HALF_HI : RegSpec :=
  ⟨0x300104, 52, 8, 1, 0, 0, false, false,
    [⟨0, 32, .w1c, .anyRole, .any⟩]⟩
def Reg.MST_CNT_LO (i : Nat) (j : Nat) : Nat := 0x301000 + 0x200 * i + 8 * j
def Fld.MST_CNT_LO_count (i : Nat) (j : Nat) : Fld := ⟨Reg.MST_CNT_LO i j, 0, 32⟩
def Row.MST_CNT_LO : RegSpec :=
  ⟨0x301000, 52, 0x200, 64, 8, 0, false, false,
    [⟨0, 32, .ro, .anyRole, .any⟩]⟩
def Reg.MST_CNT_HI (i : Nat) (j : Nat) : Nat := 0x301004 + 0x200 * i + 8 * j
def Fld.MST_CNT_HI_count (i : Nat) (j : Nat) : Fld := ⟨Reg.MST_CNT_HI i j, 0, 16⟩
def Row.MST_CNT_HI : RegSpec :=
  ⟨0x301004, 52, 0x200, 64, 8, 0, false, false,
    [⟨0, 16, .ro, .anyRole, .any⟩]⟩

/-! ### TIM (R300; fields R301) -/

def Reg.TIM_CTRL : Nat := 0x500000
def Fld.TIM_CTRL_host_ring : Fld := ⟨Reg.TIM_CTRL, 8, 6⟩
def Fld.TIM_CTRL_merge_auto : Fld := ⟨Reg.TIM_CTRL, 4, 1⟩
def Fld.TIM_CTRL_gm : Fld := ⟨Reg.TIM_CTRL, 3, 1⟩
def Fld.TIM_CTRL_bb_host : Fld := ⟨Reg.TIM_CTRL, 2, 1⟩
def Fld.TIM_CTRL_tc : Fld := ⟨Reg.TIM_CTRL, 1, 1⟩
def Fld.TIM_CTRL_inc_mode : Fld := ⟨Reg.TIM_CTRL, 0, 1⟩
def Row.TIM_CTRL : RegSpec :=
  ⟨0x500000, 1, 0, 1, 0, 0x10, false, false,
    [⟨8, 6, .rw, .installer, .any⟩,
     ⟨4, 1, .rw, .installer, .any⟩,
     ⟨3, 1, .rw, .installer, .any⟩,
     ⟨2, 1, .rw, .installer, .any⟩,
     ⟨1, 1, .rw, .installer, .any⟩,
     ⟨0, 1, .rw, .installer, .any⟩]⟩
def Reg.TIM_STATUS : Nat := 0x500004
def Fld.TIM_STATUS_rate_held : Fld := ⟨Reg.TIM_STATUS, 13, 1⟩
def Fld.TIM_STATUS_gm_yielded : Fld := ⟨Reg.TIM_STATUS, 12, 1⟩
def Fld.TIM_STATUS_gm_active : Fld := ⟨Reg.TIM_STATUS, 11, 1⟩
def Fld.TIM_STATUS_slave : Fld := ⟨Reg.TIM_STATUS, 9, 2⟩
def Fld.TIM_STATUS_merge_dir2 : Fld := ⟨Reg.TIM_STATUS, 8, 1⟩
def Fld.TIM_STATUS_merge_dir1 : Fld := ⟨Reg.TIM_STATUS, 7, 1⟩
def Fld.TIM_STATUS_permit_grant : Fld := ⟨Reg.TIM_STATUS, 6, 1⟩
def Fld.TIM_STATUS_permit_merge : Fld := ⟨Reg.TIM_STATUS, 5, 1⟩
def Fld.TIM_STATUS_permit_reset : Fld := ⟨Reg.TIM_STATUS, 4, 1⟩
def Fld.TIM_STATUS_slewing : Fld := ⟨Reg.TIM_STATUS, 3, 1⟩
def Fld.TIM_STATUS_servo : Fld := ⟨Reg.TIM_STATUS, 0, 3⟩
def Row.TIM_STATUS : RegSpec :=
  ⟨0x500004, 1, 0, 1, 0, 0x10, false, false,
    [⟨13, 1, .ro, .anyRole, .any⟩,
     ⟨12, 1, .ro, .anyRole, .any⟩,
     ⟨11, 1, .ro, .anyRole, .any⟩,
     ⟨9, 2, .ro, .anyRole, .any⟩,
     ⟨8, 1, .ro, .anyRole, .any⟩,
     ⟨7, 1, .ro, .anyRole, .any⟩,
     ⟨6, 1, .ro, .anyRole, .any⟩,
     ⟨5, 1, .ro, .anyRole, .any⟩,
     ⟨4, 1, .ro, .anyRole, .any⟩,
     ⟨3, 1, .ro, .anyRole, .any⟩,
     ⟨0, 3, .ro, .anyRole, .any⟩]⟩
def Reg.TIM_TIME_FRAC : Nat := 0x500010
def Fld.TIM_TIME_FRAC_frac : Fld := ⟨Reg.TIM_TIME_FRAC, 0, 16⟩
def Row.TIM_TIME_FRAC : RegSpec :=
  ⟨0x500010, 1, 0, 1, 0, 0, false, false,
    [⟨0, 16, .ro, .anyRole, .any⟩]⟩
def Reg.TIM_TIME_NS : Nat := 0x500014
def Fld.TIM_TIME_NS_ns : Fld := ⟨Reg.TIM_TIME_NS, 0, 30⟩
def Row.TIM_TIME_NS : RegSpec :=
  ⟨0x500014, 1, 0, 1, 0, 0, false, false,
    [⟨0, 30, .ro, .anyRole, .any⟩]⟩
def Reg.TIM_TIME_SEC_LO : Nat := 0x500018
def Fld.TIM_TIME_SEC_LO_sec : Fld := ⟨Reg.TIM_TIME_SEC_LO, 0, 32⟩
def Row.TIM_TIME_SEC_LO : RegSpec :=
  ⟨0x500018, 1, 0, 1, 0, 0, false, false,
    [⟨0, 32, .ro, .anyRole, .any⟩]⟩
def Reg.TIM_TIME_SEC_HI : Nat := 0x50001c
def Fld.TIM_TIME_SEC_HI_sec : Fld := ⟨Reg.TIM_TIME_SEC_HI, 0, 16⟩
def Row.TIM_TIME_SEC_HI : RegSpec :=
  ⟨0x50001c, 1, 0, 1, 0, 0, false, false,
    [⟨0, 16, .ro, .anyRole, .any⟩]⟩
def Reg.TIM_STAMP : Nat := 0x500020
def Fld.TIM_STAMP_stamp : Fld := ⟨Reg.TIM_STAMP, 0, 32⟩
def Row.TIM_STAMP : RegSpec :=
  ⟨0x500020, 1, 0, 1, 0, 0, false, false,
    [⟨0, 32, .ro, .anyRole, .any⟩]⟩
def Reg.TIM_RATE : Nat := 0x500024
def Fld.TIM_RATE_rate : Fld := ⟨Reg.TIM_RATE, 0, 32⟩
def Row.TIM_RATE : RegSpec :=
  ⟨0x500024, 1, 0, 1, 0, 0, false, false,
    [⟨0, 32, .rw, .anyRole, (.signed (-219902325) 219902325)⟩]⟩
def Reg.TIM_ADDEND_LO : Nat := 0x500028
def Fld.TIM_ADDEND_LO_addend : Fld := ⟨Reg.TIM_ADDEND_LO, 0, 32⟩
def Row.TIM_ADDEND_LO : RegSpec :=
  ⟨0x500028, 1, 0, 1, 0, 0x40000000, false, false,
    [⟨0, 32, .rw, .anyRole, .any⟩]⟩
def Reg.TIM_ADDEND_HI : Nat := 0x50002c
def Fld.TIM_ADDEND_HI_addend : Fld := ⟨Reg.TIM_ADDEND_HI, 0, 32⟩
def Row.TIM_ADDEND_HI : RegSpec :=
  ⟨0x50002c, 1, 0, 1, 0, 1, false, false,
    [⟨0, 32, .rw, .anyRole, .any⟩]⟩
def Reg.TIM_ADJ_LO : Nat := 0x500030
def Fld.TIM_ADJ_LO_offset : Fld := ⟨Reg.TIM_ADJ_LO, 0, 32⟩
def Row.TIM_ADJ_LO : RegSpec :=
  ⟨0x500030, 1, 0, 1, 0, 0, false, false,
    [⟨0, 32, .rw, .anyRole, .any⟩]⟩
def Reg.TIM_ADJ_HI : Nat := 0x500034
def Fld.TIM_ADJ_HI_offset : Fld := ⟨Reg.TIM_ADJ_HI, 0, 32⟩
def Row.TIM_ADJ_HI : RegSpec :=
  ⟨0x500034, 1, 0, 1, 0, 0, false, false,
    [⟨0, 32, .rw, .anyRole, .any⟩]⟩
def Reg.TIM_ADJ_CTRL : Nat := 0x500038
def Fld.TIM_ADJ_CTRL_go : Fld := ⟨Reg.TIM_ADJ_CTRL, 0, 1⟩
def Row.TIM_ADJ_CTRL : RegSpec :=
  ⟨0x500038, 1, 0, 1, 0, 0, false, false,
    [⟨0, 1, .wo, .anyRole, .any⟩]⟩
def Reg.TIM_PERMIT : Nat := 0x50003c
def Fld.TIM_PERMIT_grant : Fld := ⟨Reg.TIM_PERMIT, 0, 1⟩
def Row.TIM_PERMIT : RegSpec :=
  ⟨0x50003c, 1, 0, 1, 0, 0, false, false,
    [⟨0, 1, .w1s, .installer, .any⟩]⟩
def Reg.TIM_SERVO : Nat := 0x500040
def Fld.TIM_SERVO_step_ns : Fld := ⟨Reg.TIM_SERVO, 8, 24⟩
def Fld.TIM_SERVO_ki_shift : Fld := ⟨Reg.TIM_SERVO, 4, 4⟩
def Fld.TIM_SERVO_kp_shift : Fld := ⟨Reg.TIM_SERVO, 0, 4⟩
def Row.TIM_SERVO : RegSpec :=
  ⟨0x500040, 1, 0, 1, 0, 0x3e841, false, false,
    [⟨8, 24, .rw, .installer, (.range 100 1000000)⟩,
     ⟨4, 4, .rw, .installer, .any⟩,
     ⟨0, 4, .rw, .installer, .any⟩]⟩
def Reg.TIM_SERVO_LIM : Nat := 0x500044
def Fld.TIM_SERVO_LIM_unlock_ns : Fld := ⟨Reg.TIM_SERVO_LIM, 16, 16⟩
def Fld.TIM_SERVO_LIM_lock_ns : Fld := ⟨Reg.TIM_SERVO_LIM, 0, 16⟩
def Row.TIM_SERVO_LIM : RegSpec :=
  ⟨0x500044, 1, 0, 1, 0, 0x3e80032, false, false,
    [⟨16, 16, .rw, .installer, .any⟩,
     ⟨0, 16, .rw, .installer, (.range 1 65535)⟩]⟩
def Reg.TIM_BB_CTRL : Nat := 0x500048
def Fld.TIM_BB_CTRL_domain : Fld := ⟨Reg.TIM_BB_CTRL, 8, 8⟩
def Fld.TIM_BB_CTRL_log_sync : Fld := ⟨Reg.TIM_BB_CTRL, 0, 4⟩
def Row.TIM_BB_CTRL : RegSpec :=
  ⟨0x500048, 1, 0, 1, 0, 0xb, false, false,
    [⟨8, 8, .rw, .installer, .any⟩,
     ⟨0, 4, .rw, .installer, (.signed (-7) 0)⟩]⟩
def Reg.TIM_MERGE_CFG : Nat := 0x50004c
def Fld.TIM_MERGE_CFG_wait_ms : Fld := ⟨Reg.TIM_MERGE_CFG, 16, 16⟩
def Fld.TIM_MERGE_CFG_max_ms : Fld := ⟨Reg.TIM_MERGE_CFG, 0, 16⟩
def Row.TIM_MERGE_CFG : RegSpec :=
  ⟨0x50004c, 1, 0, 1, 0, 0x6403e8, false, false,
    [⟨16, 16, .rw, .installer, (.range 1 1000)⟩,
     ⟨0, 16, .rw, .installer, (.range 10 10000)⟩]⟩
def Reg.TIM_OFFSET : Nat := 0x500050
def Fld.TIM_OFFSET_offset : Fld := ⟨Reg.TIM_OFFSET, 0, 32⟩
def Row.TIM_OFFSET : RegSpec :=
  ⟨0x500050, 1, 0, 1, 0, 0, false, false,
    [⟨0, 32, .ro, .anyRole, .any⟩]⟩
def Reg.TIM_LAST_STEP_LO : Nat := 0x500054
def Fld.TIM_LAST_STEP_LO_step : Fld := ⟨Reg.TIM_LAST_STEP_LO, 0, 32⟩
def Row.TIM_LAST_STEP_LO : RegSpec :=
  ⟨0x500054, 1, 0, 1, 0, 0, false, false,
    [⟨0, 32, .ro, .anyRole, .any⟩]⟩
def Reg.TIM_LAST_STEP_HI : Nat := 0x500058
def Fld.TIM_LAST_STEP_HI_step : Fld := ⟨Reg.TIM_LAST_STEP_HI, 0, 32⟩
def Row.TIM_LAST_STEP_HI : RegSpec :=
  ⟨0x500058, 1, 0, 1, 0, 0, false, false,
    [⟨0, 32, .ro, .anyRole, .any⟩]⟩
def Reg.TIM_EVENT : Nat := 0x500060
def Fld.TIM_EVENT_sync_overflow : Fld := ⟨Reg.TIM_EVENT, 11, 1⟩
def Fld.TIM_EVENT_sync_cap : Fld := ⟨Reg.TIM_EVENT, 10, 1⟩
def Fld.TIM_EVENT_gm_resume : Fld := ⟨Reg.TIM_EVENT, 9, 1⟩
def Fld.TIM_EVENT_gm_yield : Fld := ⟨Reg.TIM_EVENT, 8, 1⟩
def Fld.TIM_EVENT_merge_timeout : Fld := ⟨Reg.TIM_EVENT, 7, 1⟩
def Fld.TIM_EVENT_merge_done : Fld := ⟨Reg.TIM_EVENT, 6, 1⟩
def Fld.TIM_EVENT_merge_start : Fld := ⟨Reg.TIM_EVENT, 5, 1⟩
def Fld.TIM_EVENT_holdover : Fld := ⟨Reg.TIM_EVENT, 4, 1⟩
def Fld.TIM_EVENT_unlock : Fld := ⟨Reg.TIM_EVENT, 3, 1⟩
def Fld.TIM_EVENT_locked : Fld := ⟨Reg.TIM_EVENT, 2, 1⟩
def Fld.TIM_EVENT_slew : Fld := ⟨Reg.TIM_EVENT, 1, 1⟩
def Fld.TIM_EVENT_step : Fld := ⟨Reg.TIM_EVENT, 0, 1⟩
def Row.TIM_EVENT : RegSpec :=
  ⟨0x500060, 1, 0, 1, 0, 0, false, false,
    [⟨11, 1, .w1c, .anyRole, .any⟩,
     ⟨10, 1, .w1c, .anyRole, .any⟩,
     ⟨9, 1, .w1c, .anyRole, .any⟩,
     ⟨8, 1, .w1c, .anyRole, .any⟩,
     ⟨7, 1, .w1c, .anyRole, .any⟩,
     ⟨6, 1, .w1c, .anyRole, .any⟩,
     ⟨5, 1, .w1c, .anyRole, .any⟩,
     ⟨4, 1, .w1c, .anyRole, .any⟩,
     ⟨3, 1, .w1c, .anyRole, .any⟩,
     ⟨2, 1, .w1c, .anyRole, .any⟩,
     ⟨1, 1, .w1c, .anyRole, .any⟩,
     ⟨0, 1, .w1c, .anyRole, .any⟩]⟩
def Reg.TIM_EVENT_EN : Nat := 0x500064
def Fld.TIM_EVENT_EN_sync_overflow : Fld := ⟨Reg.TIM_EVENT_EN, 11, 1⟩
def Fld.TIM_EVENT_EN_sync_cap : Fld := ⟨Reg.TIM_EVENT_EN, 10, 1⟩
def Fld.TIM_EVENT_EN_gm_resume : Fld := ⟨Reg.TIM_EVENT_EN, 9, 1⟩
def Fld.TIM_EVENT_EN_gm_yield : Fld := ⟨Reg.TIM_EVENT_EN, 8, 1⟩
def Fld.TIM_EVENT_EN_merge_timeout : Fld := ⟨Reg.TIM_EVENT_EN, 7, 1⟩
def Fld.TIM_EVENT_EN_merge_done : Fld := ⟨Reg.TIM_EVENT_EN, 6, 1⟩
def Fld.TIM_EVENT_EN_merge_start : Fld := ⟨Reg.TIM_EVENT_EN, 5, 1⟩
def Fld.TIM_EVENT_EN_holdover : Fld := ⟨Reg.TIM_EVENT_EN, 4, 1⟩
def Fld.TIM_EVENT_EN_unlock : Fld := ⟨Reg.TIM_EVENT_EN, 3, 1⟩
def Fld.TIM_EVENT_EN_locked : Fld := ⟨Reg.TIM_EVENT_EN, 2, 1⟩
def Fld.TIM_EVENT_EN_slew : Fld := ⟨Reg.TIM_EVENT_EN, 1, 1⟩
def Fld.TIM_EVENT_EN_step : Fld := ⟨Reg.TIM_EVENT_EN, 0, 1⟩
def Row.TIM_EVENT_EN : RegSpec :=
  ⟨0x500064, 1, 0, 1, 0, 0, false, false,
    [⟨11, 1, .rw, .anyRole, .any⟩,
     ⟨10, 1, .rw, .anyRole, .any⟩,
     ⟨9, 1, .rw, .anyRole, .any⟩,
     ⟨8, 1, .rw, .anyRole, .any⟩,
     ⟨7, 1, .rw, .anyRole, .any⟩,
     ⟨6, 1, .rw, .anyRole, .any⟩,
     ⟨5, 1, .rw, .anyRole, .any⟩,
     ⟨4, 1, .rw, .anyRole, .any⟩,
     ⟨3, 1, .rw, .anyRole, .any⟩,
     ⟨2, 1, .rw, .anyRole, .any⟩,
     ⟨1, 1, .rw, .anyRole, .any⟩,
     ⟨0, 1, .rw, .anyRole, .any⟩]⟩
def Reg.TIM_STEPS : Nat := 0x500070
def Fld.TIM_STEPS_count : Fld := ⟨Reg.TIM_STEPS, 0, 32⟩
def Row.TIM_STEPS : RegSpec :=
  ⟨0x500070, 1, 0, 1, 0, 0, false, false,
    [⟨0, 32, .rc, .anyRole, .any⟩]⟩
def Reg.TIM_SLEWS : Nat := 0x500074
def Fld.TIM_SLEWS_count : Fld := ⟨Reg.TIM_SLEWS, 0, 32⟩
def Row.TIM_SLEWS : RegSpec :=
  ⟨0x500074, 1, 0, 1, 0, 0, false, false,
    [⟨0, 32, .rc, .anyRole, .any⟩]⟩
def Reg.TIM_REFUSED : Nat := 0x500078
def Fld.TIM_REFUSED_count : Fld := ⟨Reg.TIM_REFUSED, 0, 32⟩
def Row.TIM_REFUSED : RegSpec :=
  ⟨0x500078, 1, 0, 1, 0, 0, false, false,
    [⟨0, 32, .rc, .anyRole, .any⟩]⟩
def Reg.TIM_TC_TWOSTEP : Nat := 0x50007c
def Fld.TIM_TC_TWOSTEP_count : Fld := ⟨Reg.TIM_TC_TWOSTEP, 0, 32⟩
def Row.TIM_TC_TWOSTEP : RegSpec :=
  ⟨0x50007c, 1, 0, 1, 0, 0, false, false,
    [⟨0, 32, .rc, .anyRole, .any⟩]⟩
def Reg.TIM_CORR_CTRL : Nat := 0x500080
def Fld.TIM_CORR_CTRL_go : Fld := ⟨Reg.TIM_CORR_CTRL, 0, 1⟩
def Row.TIM_CORR_CTRL : RegSpec :=
  ⟨0x500080, 1, 0, 1, 0, 0, false, false,
    [⟨0, 1, .wo, .anyRole, .any⟩]⟩
def Reg.TIM_CORR_FRAC : Nat := 0x500084
def Fld.TIM_CORR_FRAC_frac : Fld := ⟨Reg.TIM_CORR_FRAC, 0, 16⟩
def Row.TIM_CORR_FRAC : RegSpec :=
  ⟨0x500084, 1, 0, 1, 0, 0, false, false,
    [⟨0, 16, .ro, .anyRole, .any⟩]⟩
def Reg.TIM_CORR_NS : Nat := 0x500088
def Fld.TIM_CORR_NS_ns : Fld := ⟨Reg.TIM_CORR_NS, 0, 30⟩
def Row.TIM_CORR_NS : RegSpec :=
  ⟨0x500088, 1, 0, 1, 0, 0, false, false,
    [⟨0, 30, .ro, .anyRole, .any⟩]⟩
def Reg.TIM_CORR_SEC_LO : Nat := 0x50008c
def Fld.TIM_CORR_SEC_LO_sec_lo : Fld := ⟨Reg.TIM_CORR_SEC_LO, 0, 32⟩
def Row.TIM_CORR_SEC_LO : RegSpec :=
  ⟨0x50008c, 1, 0, 1, 0, 0, false, false,
    [⟨0, 32, .ro, .anyRole, .any⟩]⟩
def Reg.TIM_CORR_SEC_HI : Nat := 0x500090
def Fld.TIM_CORR_SEC_HI_sec_hi : Fld := ⟨Reg.TIM_CORR_SEC_HI, 0, 16⟩
def Row.TIM_CORR_SEC_HI : RegSpec :=
  ⟨0x500090, 1, 0, 1, 0, 0, false, false,
    [⟨0, 16, .ro, .anyRole, .any⟩]⟩
def Reg.TIM_CORR_STAMP : Nat := 0x500094
def Fld.TIM_CORR_STAMP_stamp : Fld := ⟨Reg.TIM_CORR_STAMP, 0, 32⟩
def Row.TIM_CORR_STAMP : RegSpec :=
  ⟨0x500094, 1, 0, 1, 0, 0, false, false,
    [⟨0, 32, .ro, .anyRole, .any⟩]⟩
def Reg.TIM_CORR_CAN_LO : Nat := 0x500098
def Fld.TIM_CORR_CAN_LO_can : Fld := ⟨Reg.TIM_CORR_CAN_LO, 0, 32⟩
def Row.TIM_CORR_CAN_LO : RegSpec :=
  ⟨0x500098, 1, 0, 1, 0, 0, false, false,
    [⟨0, 32, .ro, .anyRole, .any⟩]⟩
def Reg.TIM_CORR_CAN_HI : Nat := 0x50009c
def Fld.TIM_CORR_CAN_HI_can : Fld := ⟨Reg.TIM_CORR_CAN_HI, 0, 16⟩
def Row.TIM_CORR_CAN_HI : RegSpec :=
  ⟨0x50009c, 1, 0, 1, 0, 0, false, false,
    [⟨0, 16, .ro, .anyRole, .any⟩]⟩
def Reg.TIM_SYNC_CFG (i : Nat) : Nat := 0x500100 + 0x10 * i
def Fld.TIM_SYNC_CFG_fill (i : Nat) : Fld := ⟨Reg.TIM_SYNC_CFG i, 28, 4⟩
def Fld.TIM_SYNC_CFG_width_us (i : Nat) : Fld := ⟨Reg.TIM_SYNC_CFG i, 8, 16⟩
def Fld.TIM_SYNC_CFG_polarity (i : Nat) : Fld := ⟨Reg.TIM_SYNC_CFG i, 3, 1⟩
def Fld.TIM_SYNC_CFG_mode (i : Nat) : Fld := ⟨Reg.TIM_SYNC_CFG i, 0, 3⟩
def Row.TIM_SYNC_CFG : RegSpec :=
  ⟨0x500100, 4, 0x10, 1, 0, 0x6400, false, false,
    [⟨28, 4, .ro, .anyRole, .any⟩,
     ⟨8, 16, .rw, .installer, (.range 1 65535)⟩,
     ⟨3, 1, .rw, .installer, .any⟩,
     ⟨0, 3, .rw, .installer, (.code [(7, 0)])⟩]⟩
def Reg.TIM_SYNC_OFFSET (i : Nat) : Nat := 0x500104 + 0x10 * i
def Fld.TIM_SYNC_OFFSET_offset (i : Nat) : Fld := ⟨Reg.TIM_SYNC_OFFSET i, 0, 32⟩
def Row.TIM_SYNC_OFFSET : RegSpec :=
  ⟨0x500104, 4, 0x10, 1, 0, 0, false, false,
    [⟨0, 32, .rw, .installer, (.signed (-500000000) 500000000)⟩]⟩
def Reg.TIM_SYNC_CAP_NS (i : Nat) : Nat := 0x500108 + 0x10 * i
def Fld.TIM_SYNC_CAP_NS_ns (i : Nat) : Fld := ⟨Reg.TIM_SYNC_CAP_NS i, 0, 30⟩
def Row.TIM_SYNC_CAP_NS : RegSpec :=
  ⟨0x500108, 4, 0x10, 1, 0, 0, false, false,
    [⟨0, 30, .ro, .anyRole, .any⟩]⟩
def Reg.TIM_SYNC_CAP_SEC (i : Nat) : Nat := 0x50010c + 0x10 * i
def Fld.TIM_SYNC_CAP_SEC_sec (i : Nat) : Fld := ⟨Reg.TIM_SYNC_CAP_SEC i, 0, 32⟩
def Row.TIM_SYNC_CAP_SEC : RegSpec :=
  ⟨0x50010c, 4, 0x10, 1, 0, 0, false, false,
    [⟨0, 32, .ro, .anyRole, .any⟩]⟩
def Reg.TIM_SYNC_LOST (i : Nat) : Nat := 0x500140 + 4 * i
def Fld.TIM_SYNC_LOST_count (i : Nat) : Fld := ⟨Reg.TIM_SYNC_LOST i, 0, 32⟩
def Row.TIM_SYNC_LOST : RegSpec :=
  ⟨0x500140, 4, 4, 1, 0, 0, false, false,
    [⟨0, 32, .rc, .anyRole, .any⟩]⟩
def Reg.TIM_PORT_CFG (i : Nat) : Nat := 0x500200 + 0x10 * i
def Fld.TIM_PORT_CFG_asym_apply (i : Nat) : Fld := ⟨Reg.TIM_PORT_CFG i, 2, 1⟩
def Fld.TIM_PORT_CFG_p2p (i : Nat) : Fld := ⟨Reg.TIM_PORT_CFG i, 1, 1⟩
def Fld.TIM_PORT_CFG_to_host (i : Nat) : Fld := ⟨Reg.TIM_PORT_CFG i, 0, 1⟩
def Row.TIM_PORT_CFG : RegSpec :=
  ⟨0x500200, 52, 0x10, 1, 0, 0, false, false,
    [⟨2, 1, .rw, .installer, .any⟩,
     ⟨1, 1, .rw, .installer, .any⟩,
     ⟨0, 1, .rw, .installer, .any⟩]⟩
def Reg.TIM_PORT_LAT (i : Nat) : Nat := 0x500204 + 0x10 * i
def Fld.TIM_PORT_LAT_tx (i : Nat) : Fld := ⟨Reg.TIM_PORT_LAT i, 16, 16⟩
def Fld.TIM_PORT_LAT_rx (i : Nat) : Fld := ⟨Reg.TIM_PORT_LAT i, 0, 16⟩
def Row.TIM_PORT_LAT : RegSpec :=
  ⟨0x500204, 52, 0x10, 1, 0, 0, false, false,
    [⟨16, 16, .rw, .installer, .any⟩,
     ⟨0, 16, .rw, .installer, .any⟩]⟩
def Reg.TIM_PORT_ASYM (i : Nat) : Nat := 0x500208 + 0x10 * i
def Fld.TIM_PORT_ASYM_asym (i : Nat) : Fld := ⟨Reg.TIM_PORT_ASYM i, 0, 32⟩
def Row.TIM_PORT_ASYM : RegSpec :=
  ⟨0x500208, 52, 0x10, 1, 0, 0, false, false,
    [⟨0, 32, .rw, .installer, .any⟩]⟩
def Reg.TIM_PORT_DELAY (i : Nat) : Nat := 0x50020c + 0x10 * i
def Fld.TIM_PORT_DELAY_delay (i : Nat) : Fld := ⟨Reg.TIM_PORT_DELAY i, 0, 32⟩
def Row.TIM_PORT_DELAY : RegSpec :=
  ⟨0x50020c, 52, 0x10, 1, 0, 0, false, false,
    [⟨0, 32, .rw, .anyRole, .any⟩]⟩

/-! ### PHS (R325; fields R326) -/

def Reg.PHS_CTRL (i : Nat) : Nat := 0x580000 + 0x40 * i
def Fld.PHS_CTRL_reverse (i : Nat) : Fld := ⟨Reg.PHS_CTRL i, 14, 1⟩
def Fld.PHS_CTRL_input (i : Nat) : Fld := ⟨Reg.PHS_CTRL i, 8, 5⟩
def Fld.PHS_CTRL_source (i : Nat) : Fld := ⟨Reg.PHS_CTRL i, 4, 3⟩
def Fld.PHS_CTRL_host_lock (i : Nat) : Fld := ⟨Reg.PHS_CTRL i, 1, 1⟩
def Fld.PHS_CTRL_enable (i : Nat) : Fld := ⟨Reg.PHS_CTRL i, 0, 1⟩
def Row.PHS_CTRL : RegSpec :=
  ⟨0x580000, 8, 0x40, 1, 0, 0, false, false,
    [⟨14, 1, .rw, .installer, .any⟩,
     ⟨8, 5, .rw, .installer, .any⟩,
     ⟨4, 3, .rw, .installer, (.code [(4, 0), (5, 0), (6, 0), (7, 0)])⟩,
     ⟨1, 1, .rw, .installer, .any⟩,
     ⟨0, 1, .rw, .installer, .any⟩]⟩
def Reg.PHS_PERIOD (i : Nat) : Nat := 0x580004 + 0x40 * i
def Fld.PHS_PERIOD_param (i : Nat) : Fld := ⟨Reg.PHS_PERIOD i, 0, 32⟩
def Row.PHS_PERIOD : RegSpec :=
  ⟨0x580004, 8, 0x40, 1, 0, 0xf4240, false, false,
    [⟨0, 32, .rw, .installer, .any⟩]⟩
def Reg.PHS_OFFSET (i : Nat) : Nat := 0x580008 + 0x40 * i
def Fld.PHS_OFFSET_offset (i : Nat) : Fld := ⟨Reg.PHS_OFFSET i, 0, 32⟩
def Row.PHS_OFFSET : RegSpec :=
  ⟨0x580008, 8, 0x40, 1, 0, 0, false, false,
    [⟨0, 32, .rw, .installer, .any⟩]⟩
def Reg.PHS_LOOP (i : Nat) : Nat := 0x58000c + 0x40 * i
def Fld.PHS_LOOP_lock_window (i : Nat) : Fld := ⟨Reg.PHS_LOOP i, 24, 8⟩
def Fld.PHS_LOOP_reject_window (i : Nat) : Fld := ⟨Reg.PHS_LOOP i, 16, 8⟩
def Fld.PHS_LOOP_miss_limit (i : Nat) : Fld := ⟨Reg.PHS_LOOP i, 12, 4⟩
def Fld.PHS_LOOP_lock_count (i : Nat) : Fld := ⟨Reg.PHS_LOOP i, 8, 4⟩
def Fld.PHS_LOOP_ki_shift (i : Nat) : Fld := ⟨Reg.PHS_LOOP i, 4, 4⟩
def Fld.PHS_LOOP_kp_shift (i : Nat) : Fld := ⟨Reg.PHS_LOOP i, 0, 4⟩
def Row.PHS_LOOP : RegSpec :=
  ⟨0x58000c, 8, 0x40, 1, 0, 0x40103862, false, false,
    [⟨24, 8, .rw, .installer, (.range 1 255)⟩,
     ⟨16, 8, .rw, .installer, (.range 1 127)⟩,
     ⟨12, 4, .rw, .installer, (.range 1 15)⟩,
     ⟨8, 4, .rw, .installer, (.range 1 15)⟩,
     ⟨4, 4, .rw, .installer, .any⟩,
     ⟨0, 4, .rw, .installer, .any⟩]⟩
def Reg.PHS_SLIP (i : Nat) : Nat := 0x580010 + 0x40 * i
def Fld.PHS_SLIP_still_ms (i : Nat) : Fld := ⟨Reg.PHS_SLIP i, 16, 16⟩
def Fld.PHS_SLIP_slip_pct (i : Nat) : Fld := ⟨Reg.PHS_SLIP i, 0, 8⟩
def Row.PHS_SLIP : RegSpec :=
  ⟨0x580010, 8, 0x40, 1, 0, 0x1f40014, false, false,
    [⟨16, 16, .rw, .installer, (.range 1 65535)⟩,
     ⟨0, 8, .rw, .installer, (.range 1 100)⟩]⟩
def Reg.PHS_PHASE (i : Nat) : Nat := 0x580014 + 0x40 * i
def Fld.PHS_PHASE_phase (i : Nat) : Fld := ⟨Reg.PHS_PHASE i, 0, 32⟩
def Row.PHS_PHASE : RegSpec :=
  ⟨0x580014, 8, 0x40, 1, 0, 0, false, false,
    [⟨0, 32, .ro, .anyRole, .any⟩]⟩
def Reg.PHS_CYCLE (i : Nat) : Nat := 0x580018 + 0x40 * i
def Fld.PHS_CYCLE_cycle (i : Nat) : Fld := ⟨Reg.PHS_CYCLE i, 0, 32⟩
def Row.PHS_CYCLE : RegSpec :=
  ⟨0x580018, 8, 0x40, 1, 0, 0, false, false,
    [⟨0, 32, .ro, .anyRole, .any⟩]⟩
def Reg.PHS_FREQ (i : Nat) : Nat := 0x58001c + 0x40 * i
def Fld.PHS_FREQ_mhz (i : Nat) : Fld := ⟨Reg.PHS_FREQ i, 0, 32⟩
def Row.PHS_FREQ : RegSpec :=
  ⟨0x58001c, 8, 0x40, 1, 0, 0, false, false,
    [⟨0, 32, .ro, .anyRole, .any⟩]⟩
def Reg.PHS_STATUS (i : Nat) : Nat := 0x580020 + 0x40 * i
def Fld.PHS_STATUS_hold_ms (i : Nat) : Fld := ⟨Reg.PHS_STATUS i, 16, 16⟩
def Fld.PHS_STATUS_lstate (i : Nat) : Fld := ⟨Reg.PHS_STATUS i, 0, 3⟩
def Row.PHS_STATUS : RegSpec :=
  ⟨0x580020, 8, 0x40, 1, 0, 0, false, false,
    [⟨16, 16, .ro, .anyRole, .any⟩,
     ⟨0, 3, .ro, .anyRole, .any⟩]⟩
def Reg.PHS_REJECTS (i : Nat) : Nat := 0x580024 + 0x40 * i
def Fld.PHS_REJECTS_count (i : Nat) : Fld := ⟨Reg.PHS_REJECTS i, 0, 32⟩
def Row.PHS_REJECTS : RegSpec :=
  ⟨0x580024, 8, 0x40, 1, 0, 0, false, false,
    [⟨0, 32, .rc, .anyRole, .any⟩]⟩
def Reg.PHS_MISSES (i : Nat) : Nat := 0x580028 + 0x40 * i
def Fld.PHS_MISSES_count (i : Nat) : Fld := ⟨Reg.PHS_MISSES i, 0, 32⟩
def Row.PHS_MISSES : RegSpec :=
  ⟨0x580028, 8, 0x40, 1, 0, 0, false, false,
    [⟨0, 32, .rc, .anyRole, .any⟩]⟩
def Reg.PHS_CORRECT (i : Nat) : Nat := 0x58002c + 0x40 * i
def Fld.PHS_CORRECT_count (i : Nat) : Fld := ⟨Reg.PHS_CORRECT i, 0, 32⟩
def Row.PHS_CORRECT : RegSpec :=
  ⟨0x58002c, 8, 0x40, 1, 0, 0, false, false,
    [⟨0, 32, .rc, .anyRole, .any⟩]⟩
def Reg.PHS_EVENT : Nat := 0x580200
def Fld.PHS_EVENT_pd0_limit : Fld := ⟨Reg.PHS_EVENT, 24, 1⟩
def Fld.PHS_EVENT_slip : Fld := ⟨Reg.PHS_EVENT, 16, 8⟩
def Fld.PHS_EVENT_hold : Fld := ⟨Reg.PHS_EVENT, 8, 8⟩
def Fld.PHS_EVENT_locked : Fld := ⟨Reg.PHS_EVENT, 0, 8⟩
def Row.PHS_EVENT : RegSpec :=
  ⟨0x580200, 1, 0, 1, 0, 0, false, false,
    [⟨24, 1, .w1c, .anyRole, .any⟩,
     ⟨16, 8, .w1c, .anyRole, .any⟩,
     ⟨8, 8, .w1c, .anyRole, .any⟩,
     ⟨0, 8, .w1c, .anyRole, .any⟩]⟩
def Reg.PHS_EVENT_EN : Nat := 0x580204
def Fld.PHS_EVENT_EN_pd0_limit : Fld := ⟨Reg.PHS_EVENT_EN, 24, 1⟩
def Fld.PHS_EVENT_EN_slip : Fld := ⟨Reg.PHS_EVENT_EN, 16, 8⟩
def Fld.PHS_EVENT_EN_hold : Fld := ⟨Reg.PHS_EVENT_EN, 8, 8⟩
def Fld.PHS_EVENT_EN_locked : Fld := ⟨Reg.PHS_EVENT_EN, 0, 8⟩
def Row.PHS_EVENT_EN : RegSpec :=
  ⟨0x580204, 1, 0, 1, 0, 0, false, false,
    [⟨24, 1, .rw, .anyRole, .any⟩,
     ⟨16, 8, .rw, .anyRole, .any⟩,
     ⟨8, 8, .rw, .anyRole, .any⟩,
     ⟨0, 8, .rw, .anyRole, .any⟩]⟩
def Reg.PHS_PD0_LIM : Nat := 0x580208
def Fld.PHS_PD0_LIM_hold_ms : Fld := ⟨Reg.PHS_PD0_LIM, 0, 16⟩
def Row.PHS_PD0_LIM : RegSpec :=
  ⟨0x580208, 1, 0, 1, 0, 0x64, false, false,
    [⟨0, 16, .rw, .installer, (.range 1 65535)⟩]⟩

/-! ### CAR (R312, R327; fields R328) -/

def Reg.CAR_CTRL : Nat := 0x610000
def Fld.CAR_CTRL_silence_resign : Fld := ⟨Reg.CAR_CTRL, 4, 1⟩
def Fld.CAR_CTRL_state : Fld := ⟨Reg.CAR_CTRL, 1, 2⟩
def Fld.CAR_CTRL_enable : Fld := ⟨Reg.CAR_CTRL, 0, 1⟩
def Row.CAR_CTRL : RegSpec :=
  ⟨0x610000, 1, 0, 1, 0, 0x11, true, false,
    [⟨4, 1, .rw, .installer, .any⟩,
     ⟨1, 2, .ro, .anyRole, .any⟩,
     ⟨0, 1, .rw, .installer, .any⟩]⟩
def Reg.CAR_STATUS : Nat := 0x610004
def Fld.CAR_STATUS_evaluated : Fld := ⟨Reg.CAR_STATUS, 1, 1⟩
def Fld.CAR_STATUS_silenced : Fld := ⟨Reg.CAR_STATUS, 0, 1⟩
def Row.CAR_STATUS : RegSpec :=
  ⟨0x610004, 1, 0, 1, 0, 0, false, false,
    [⟨1, 1, .ro, .anyRole, .any⟩,
     ⟨0, 1, .ro, .anyRole, .any⟩]⟩
def Reg.CAR_MERGE : Nat := 0x610008
def Fld.CAR_MERGE_extra_ns : Fld := ⟨Reg.CAR_MERGE, 16, 16⟩
def Fld.CAR_MERGE_sched_classes : Fld := ⟨Reg.CAR_MERGE, 0, 8⟩
def Row.CAR_MERGE : RegSpec :=
  ⟨0x610008, 1, 0, 1, 0, 0x3e80020, false, false,
    [⟨16, 16, .rw, .installer, .any⟩,
     ⟨0, 8, .rw, .installer, .any⟩]⟩
def Reg.CAR_SILENCE : Nat := 0x61000c
def Fld.CAR_SILENCE_ticks : Fld := ⟨Reg.CAR_SILENCE, 16, 8⟩
def Fld.CAR_SILENCE_limit_ns : Fld := ⟨Reg.CAR_SILENCE, 0, 16⟩
def Row.CAR_SILENCE : RegSpec :=
  ⟨0x61000c, 1, 0, 1, 0, 0x301f4, false, false,
    [⟨16, 8, .rw, .installer, (.range 1 255)⟩,
     ⟨0, 16, .rw, .installer, (.range 10 65535)⟩]⟩
def Reg.CAR_RELEASE : Nat := 0x610010
def Fld.CAR_RELEASE_release : Fld := ⟨Reg.CAR_RELEASE, 0, 1⟩
def Row.CAR_RELEASE : RegSpec :=
  ⟨0x610010, 1, 0, 1, 0, 0, false, false,
    [⟨0, 1, .wo, .anyRole, .any⟩]⟩
def Reg.CAR_OWN_OFFSET : Nat := 0x610014
def Fld.CAR_OWN_OFFSET_offset : Fld := ⟨Reg.CAR_OWN_OFFSET, 0, 32⟩
def Row.CAR_OWN_OFFSET : RegSpec :=
  ⟨0x610014, 1, 0, 1, 0, 0, false, false,
    [⟨0, 32, .ro, .anyRole, .any⟩]⟩
def Reg.CAR_EVENT : Nat := 0x610018
def Fld.CAR_EVENT_state_done : Fld := ⟨Reg.CAR_EVENT, 6, 1⟩
def Fld.CAR_EVENT_late_frame : Fld := ⟨Reg.CAR_EVENT, 5, 1⟩
def Fld.CAR_EVENT_repeated : Fld := ⟨Reg.CAR_EVENT, 4, 1⟩
def Fld.CAR_EVENT_skipped : Fld := ⟨Reg.CAR_EVENT, 3, 1⟩
def Fld.CAR_EVENT_deferred : Fld := ⟨Reg.CAR_EVENT, 2, 1⟩
def Fld.CAR_EVENT_release : Fld := ⟨Reg.CAR_EVENT, 1, 1⟩
def Fld.CAR_EVENT_silence : Fld := ⟨Reg.CAR_EVENT, 0, 1⟩
def Row.CAR_EVENT : RegSpec :=
  ⟨0x610018, 1, 0, 1, 0, 0, false, false,
    [⟨6, 1, .w1c, .anyRole, .any⟩,
     ⟨5, 1, .w1c, .anyRole, .any⟩,
     ⟨4, 1, .w1c, .anyRole, .any⟩,
     ⟨3, 1, .w1c, .anyRole, .any⟩,
     ⟨2, 1, .w1c, .anyRole, .any⟩,
     ⟨1, 1, .w1c, .anyRole, .any⟩,
     ⟨0, 1, .w1c, .anyRole, .any⟩]⟩
def Reg.CAR_EVENT_EN : Nat := 0x61001c
def Fld.CAR_EVENT_EN_state_done : Fld := ⟨Reg.CAR_EVENT_EN, 6, 1⟩
def Fld.CAR_EVENT_EN_late_frame : Fld := ⟨Reg.CAR_EVENT_EN, 5, 1⟩
def Fld.CAR_EVENT_EN_repeated : Fld := ⟨Reg.CAR_EVENT_EN, 4, 1⟩
def Fld.CAR_EVENT_EN_skipped : Fld := ⟨Reg.CAR_EVENT_EN, 3, 1⟩
def Fld.CAR_EVENT_EN_deferred : Fld := ⟨Reg.CAR_EVENT_EN, 2, 1⟩
def Fld.CAR_EVENT_EN_release : Fld := ⟨Reg.CAR_EVENT_EN, 1, 1⟩
def Fld.CAR_EVENT_EN_silence : Fld := ⟨Reg.CAR_EVENT_EN, 0, 1⟩
def Row.CAR_EVENT_EN : RegSpec :=
  ⟨0x61001c, 1, 0, 1, 0, 0, false, false,
    [⟨6, 1, .rw, .anyRole, .any⟩,
     ⟨5, 1, .rw, .anyRole, .any⟩,
     ⟨4, 1, .rw, .anyRole, .any⟩,
     ⟨3, 1, .rw, .anyRole, .any⟩,
     ⟨2, 1, .rw, .anyRole, .any⟩,
     ⟨1, 1, .rw, .anyRole, .any⟩,
     ⟨0, 1, .rw, .anyRole, .any⟩]⟩
def Reg.CAR_FIRED : Nat := 0x610040
def Fld.CAR_FIRED_count : Fld := ⟨Reg.CAR_FIRED, 0, 32⟩
def Row.CAR_FIRED : RegSpec :=
  ⟨0x610040, 1, 0, 1, 0, 0, false, false,
    [⟨0, 32, .rc, .anyRole, .any⟩]⟩
def Reg.CAR_DEFERRED : Nat := 0x610044
def Fld.CAR_DEFERRED_count : Fld := ⟨Reg.CAR_DEFERRED, 0, 32⟩
def Row.CAR_DEFERRED : RegSpec :=
  ⟨0x610044, 1, 0, 1, 0, 0, false, false,
    [⟨0, 32, .rc, .anyRole, .any⟩]⟩
def Reg.CAR_SKIPPED : Nat := 0x610048
def Fld.CAR_SKIPPED_count : Fld := ⟨Reg.CAR_SKIPPED, 0, 32⟩
def Row.CAR_SKIPPED : RegSpec :=
  ⟨0x610048, 1, 0, 1, 0, 0, false, false,
    [⟨0, 32, .rc, .anyRole, .any⟩]⟩
def Reg.CAR_SUPPRESSED : Nat := 0x61004c
def Fld.CAR_SUPPRESSED_count : Fld := ⟨Reg.CAR_SUPPRESSED, 0, 32⟩
def Row.CAR_SUPPRESSED : RegSpec :=
  ⟨0x61004c, 1, 0, 1, 0, 0, false, false,
    [⟨0, 32, .rc, .anyRole, .any⟩]⟩
def Reg.CAR_REPEATED : Nat := 0x610050
def Fld.CAR_REPEATED_count : Fld := ⟨Reg.CAR_REPEATED, 0, 32⟩
def Row.CAR_REPEATED : RegSpec :=
  ⟨0x610050, 1, 0, 1, 0, 0, false, false,
    [⟨0, 32, .rc, .anyRole, .any⟩]⟩
def Reg.CAR_LATE_FRAMES : Nat := 0x610054
def Fld.CAR_LATE_FRAMES_count : Fld := ⟨Reg.CAR_LATE_FRAMES, 0, 32⟩
def Row.CAR_LATE_FRAMES : RegSpec :=
  ⟨0x610054, 1, 0, 1, 0, 0, false, false,
    [⟨0, 32, .rc, .anyRole, .any⟩]⟩
def Reg.CAR_GUARD (i : Nat) : Nat := 0x610100 + 4 * i
def Fld.CAR_GUARD_guard_ns (i : Nat) : Fld := ⟨Reg.CAR_GUARD i, 0, 16⟩
def Row.CAR_GUARD : RegSpec :=
  ⟨0x610100, 52, 4, 1, 0, 0x20, false, false,
    [⟨0, 16, .rw, .installer, .any⟩]⟩
def Reg.CAR_WIN_OPEN (i : Nat) : Nat := 0x611000 + 0x10 * i
def Fld.CAR_WIN_OPEN_phase (i : Nat) : Fld := ⟨Reg.CAR_WIN_OPEN i, 0, 32⟩
def Row.CAR_WIN_OPEN : RegSpec :=
  ⟨0x611000, 64, 0x10, 1, 0, 0, false, false,
    [⟨0, 32, .rw, .installer, .any⟩]⟩
def Reg.CAR_WIN_CLOSE (i : Nat) : Nat := 0x611004 + 0x10 * i
def Fld.CAR_WIN_CLOSE_phase (i : Nat) : Fld := ⟨Reg.CAR_WIN_CLOSE i, 0, 32⟩
def Row.CAR_WIN_CLOSE : RegSpec :=
  ⟨0x611004, 64, 0x10, 1, 0, 0, false, false,
    [⟨0, 32, .rw, .installer, .any⟩]⟩
def Reg.CAR_WIN_EXPECT (i : Nat) : Nat := 0x611008 + 0x10 * i
def Fld.CAR_WIN_EXPECT_phase (i : Nat) : Fld := ⟨Reg.CAR_WIN_EXPECT i, 0, 32⟩
def Row.CAR_WIN_EXPECT : RegSpec :=
  ⟨0x611008, 64, 0x10, 1, 0, 0, false, false,
    [⟨0, 32, .rw, .installer, .any⟩]⟩
def Reg.CAR_WIN_CFG (i : Nat) : Nat := 0x61100c + 0x10 * i
def Fld.CAR_WIN_CFG_valid (i : Nat) : Fld := ⟨Reg.CAR_WIN_CFG i, 31, 1⟩
def Fld.CAR_WIN_CFG_drift (i : Nat) : Fld := ⟨Reg.CAR_WIN_CFG i, 30, 1⟩
def Fld.CAR_WIN_CFG_domain (i : Nat) : Fld := ⟨Reg.CAR_WIN_CFG i, 27, 3⟩
def Fld.CAR_WIN_CFG_class (i : Nat) : Fld := ⟨Reg.CAR_WIN_CFG i, 24, 3⟩
def Fld.CAR_WIN_CFG_port (i : Nat) : Fld := ⟨Reg.CAR_WIN_CFG i, 16, 6⟩
def Fld.CAR_WIN_CFG_guard_ns (i : Nat) : Fld := ⟨Reg.CAR_WIN_CFG i, 0, 16⟩
def Row.CAR_WIN_CFG : RegSpec :=
  ⟨0x61100c, 64, 0x10, 1, 0, 0, false, false,
    [⟨31, 1, .rw, .installer, .any⟩,
     ⟨30, 1, .rw, .installer, .any⟩,
     ⟨27, 3, .rw, .installer, .any⟩,
     ⟨24, 3, .rw, .installer, .any⟩,
     ⟨16, 6, .rw, .installer, (.range 0 51)⟩,
     ⟨0, 16, .rw, .installer, .any⟩]⟩
def Reg.CAR_WIN_OFFSET (i : Nat) : Nat := 0x612000 + 8 * i
def Fld.CAR_WIN_OFFSET_offset (i : Nat) : Fld := ⟨Reg.CAR_WIN_OFFSET i, 0, 32⟩
def Row.CAR_WIN_OFFSET : RegSpec :=
  ⟨0x612000, 64, 8, 1, 0, 0, false, false,
    [⟨0, 32, .ro, .anyRole, .any⟩]⟩
def Reg.CAR_WIN_LATE (i : Nat) : Nat := 0x612004 + 8 * i
def Fld.CAR_WIN_LATE_count (i : Nat) : Fld := ⟨Reg.CAR_WIN_LATE i, 0, 32⟩
def Row.CAR_WIN_LATE : RegSpec :=
  ⟨0x612004, 64, 8, 1, 0, 0, false, false,
    [⟨0, 32, .rc, .anyRole, .any⟩]⟩

/-! ### CAN (R359; fields R360) -/

def Reg.CAN_CTRL (i : Nat) : Nat := 0xa00000 + 0x1000 * i
def Fld.CAN_CTRL_recover (i : Nat) : Fld := ⟨Reg.CAN_CTRL i, 14, 1⟩
def Fld.CAN_CTRL_lonely_pause (i : Nat) : Fld := ⟨Reg.CAN_CTRL i, 9, 1⟩
def Fld.CAN_CTRL_auto_recover (i : Nat) : Fld := ⟨Reg.CAN_CTRL i, 8, 1⟩
def Fld.CAN_CTRL_triple (i : Nat) : Fld := ⟨Reg.CAN_CTRL i, 6, 1⟩
def Fld.CAN_CTRL_fd (i : Nat) : Fld := ⟨Reg.CAN_CTRL i, 5, 1⟩
def Fld.CAN_CTRL_mode (i : Nat) : Fld := ⟨Reg.CAN_CTRL i, 3, 2⟩
def Fld.CAN_CTRL_state (i : Nat) : Fld := ⟨Reg.CAN_CTRL i, 1, 2⟩
def Fld.CAN_CTRL_enable (i : Nat) : Fld := ⟨Reg.CAN_CTRL i, 0, 1⟩
def Row.CAN_CTRL : RegSpec :=
  ⟨0xa00000, 16, 0x1000, 1, 0, 0x120, true, false,
    [⟨14, 1, .w1s, .anyRole, .any⟩,
     ⟨9, 1, .rw, .installer, .any⟩,
     ⟨8, 1, .rw, .installer, .any⟩,
     ⟨6, 1, .rw, .installer, .any⟩,
     ⟨5, 1, .rw, .installer, .any⟩,
     ⟨3, 2, .rw, .installer, (.code [(3, 0)])⟩,
     ⟨1, 2, .ro, .anyRole, .any⟩,
     ⟨0, 1, .rw, .installer, .any⟩]⟩
def Reg.CAN_NBT (i : Nat) : Nat := 0xa00004 + 0x1000 * i
def Fld.CAN_NBT_nsjw (i : Nat) : Fld := ⟨Reg.CAN_NBT i, 25, 7⟩
def Fld.CAN_NBT_ntseg1 (i : Nat) : Fld := ⟨Reg.CAN_NBT i, 16, 9⟩
def Fld.CAN_NBT_ntseg2 (i : Nat) : Fld := ⟨Reg.CAN_NBT i, 8, 7⟩
def Fld.CAN_NBT_nbrp (i : Nat) : Fld := ⟨Reg.CAN_NBT i, 0, 8⟩
def Row.CAN_NBT : RegSpec :=
  ⟨0xa00004, 16, 0x1000, 1, 0, 0x1e3e0f01, false, false,
    [⟨25, 7, .rw, .installer, .any⟩,
     ⟨16, 9, .rw, .installer, (.range 1 255)⟩,
     ⟨8, 7, .rw, .installer, (.range 1 127)⟩,
     ⟨0, 8, .rw, .installer, .any⟩]⟩
def Reg.CAN_DBT (i : Nat) : Nat := 0xa00008 + 0x1000 * i
def Fld.CAN_DBT_tdc_en (i : Nat) : Fld := ⟨Reg.CAN_DBT i, 31, 1⟩
def Fld.CAN_DBT_tdco (i : Nat) : Fld := ⟨Reg.CAN_DBT i, 24, 7⟩
def Fld.CAN_DBT_dsjw (i : Nat) : Fld := ⟨Reg.CAN_DBT i, 20, 4⟩
def Fld.CAN_DBT_dtseg2 (i : Nat) : Fld := ⟨Reg.CAN_DBT i, 16, 4⟩
def Fld.CAN_DBT_dtseg1 (i : Nat) : Fld := ⟨Reg.CAN_DBT i, 8, 5⟩
def Fld.CAN_DBT_dbrp (i : Nat) : Fld := ⟨Reg.CAN_DBT i, 0, 5⟩
def Row.CAN_DBT : RegSpec :=
  ⟨0xa00008, 16, 0x1000, 1, 0, 0x9e991c00, false, false,
    [⟨31, 1, .rw, .installer, .any⟩,
     ⟨24, 7, .rw, .installer, .any⟩,
     ⟨20, 4, .rw, .installer, .any⟩,
     ⟨16, 4, .rw, .installer, .any⟩,
     ⟨8, 5, .rw, .installer, .any⟩,
     ⟨0, 5, .rw, .installer, .any⟩]⟩
def Reg.CAN_STATUS (i : Nat) : Nat := 0xa0000c + 0x1000 * i
def Fld.CAN_STATUS_tdcv (i : Nat) : Fld := ⟨Reg.CAN_STATUS i, 25, 7⟩
def Fld.CAN_STATUS_rec (i : Nat) : Fld := ⟨Reg.CAN_STATUS i, 17, 8⟩
def Fld.CAN_STATUS_tec (i : Nat) : Fld := ⟨Reg.CAN_STATUS i, 8, 9⟩
def Fld.CAN_STATUS_lonely (i : Nat) : Fld := ⟨Reg.CAN_STATUS i, 7, 1⟩
def Fld.CAN_STATUS_warning (i : Nat) : Fld := ⟨Reg.CAN_STATUS i, 6, 1⟩
def Fld.CAN_STATUS_estate (i : Nat) : Fld := ⟨Reg.CAN_STATUS i, 4, 2⟩
def Fld.CAN_STATUS_recovering (i : Nat) : Fld := ⟨Reg.CAN_STATUS i, 3, 1⟩
def Row.CAN_STATUS : RegSpec :=
  ⟨0xa0000c, 16, 0x1000, 1, 0, 0, false, false,
    [⟨25, 7, .ro, .anyRole, .any⟩,
     ⟨17, 8, .ro, .anyRole, .any⟩,
     ⟨8, 9, .ro, .anyRole, .any⟩,
     ⟨7, 1, .ro, .anyRole, .any⟩,
     ⟨6, 1, .ro, .anyRole, .any⟩,
     ⟨4, 2, .ro, .anyRole, .any⟩,
     ⟨3, 1, .ro, .anyRole, .any⟩]⟩
def Reg.CAN_LONELY (i : Nat) : Nat := 0xa00010 + 0x1000 * i
def Fld.CAN_LONELY_retry_ms (i : Nat) : Fld := ⟨Reg.CAN_LONELY i, 8, 16⟩
def Fld.CAN_LONELY_count (i : Nat) : Fld := ⟨Reg.CAN_LONELY i, 0, 8⟩
def Row.CAN_LONELY : RegSpec :=
  ⟨0xa00010, 16, 0x1000, 1, 0, 0x6420, false, false,
    [⟨8, 16, .rw, .installer, (.range 1 65535)⟩,
     ⟨0, 8, .rw, .installer, (.range 1 255)⟩]⟩
def Reg.CAN_RX_CFG (i : Nat) : Nat := 0xa00014 + 0x1000 * i
def Fld.CAN_RX_CFG_ring (i : Nat) : Fld := ⟨Reg.CAN_RX_CFG i, 8, 6⟩
def Fld.CAN_RX_CFG_default_host (i : Nat) : Fld := ⟨Reg.CAN_RX_CFG i, 1, 1⟩
def Fld.CAN_RX_CFG_fil (i : Nat) : Fld := ⟨Reg.CAN_RX_CFG i, 0, 1⟩
def Row.CAN_RX_CFG : RegSpec :=
  ⟨0xa00014, 16, 0x1000, 1, 0, 1, false, false,
    [⟨8, 6, .rw, .installer, .any⟩,
     ⟨1, 1, .rw, .installer, .any⟩,
     ⟨0, 1, .rw, .installer, .any⟩]⟩
def Reg.CAN_EVENT (i : Nat) : Nat := 0xa00018 + 0x1000 * i
def Fld.CAN_EVENT_pex (i : Nat) : Fld := ⟨Reg.CAN_EVENT i, 7, 1⟩
def Fld.CAN_EVENT_rx_lost (i : Nat) : Fld := ⟨Reg.CAN_EVENT i, 6, 1⟩
def Fld.CAN_EVENT_warning (i : Nat) : Fld := ⟨Reg.CAN_EVENT i, 5, 1⟩
def Fld.CAN_EVENT_lonely (i : Nat) : Fld := ⟨Reg.CAN_EVENT i, 4, 1⟩
def Fld.CAN_EVENT_recovered (i : Nat) : Fld := ⟨Reg.CAN_EVENT i, 3, 1⟩
def Fld.CAN_EVENT_bus_off (i : Nat) : Fld := ⟨Reg.CAN_EVENT i, 2, 1⟩
def Fld.CAN_EVENT_passive (i : Nat) : Fld := ⟨Reg.CAN_EVENT i, 1, 1⟩
def Fld.CAN_EVENT_state_done (i : Nat) : Fld := ⟨Reg.CAN_EVENT i, 0, 1⟩
def Row.CAN_EVENT : RegSpec :=
  ⟨0xa00018, 16, 0x1000, 1, 0, 0, false, false,
    [⟨7, 1, .w1c, .anyRole, .any⟩,
     ⟨6, 1, .w1c, .anyRole, .any⟩,
     ⟨5, 1, .w1c, .anyRole, .any⟩,
     ⟨4, 1, .w1c, .anyRole, .any⟩,
     ⟨3, 1, .w1c, .anyRole, .any⟩,
     ⟨2, 1, .w1c, .anyRole, .any⟩,
     ⟨1, 1, .w1c, .anyRole, .any⟩,
     ⟨0, 1, .w1c, .anyRole, .any⟩]⟩
def Reg.CAN_EVENT_EN (i : Nat) : Nat := 0xa0001c + 0x1000 * i
def Fld.CAN_EVENT_EN_pex (i : Nat) : Fld := ⟨Reg.CAN_EVENT_EN i, 7, 1⟩
def Fld.CAN_EVENT_EN_rx_lost (i : Nat) : Fld := ⟨Reg.CAN_EVENT_EN i, 6, 1⟩
def Fld.CAN_EVENT_EN_warning (i : Nat) : Fld := ⟨Reg.CAN_EVENT_EN i, 5, 1⟩
def Fld.CAN_EVENT_EN_lonely (i : Nat) : Fld := ⟨Reg.CAN_EVENT_EN i, 4, 1⟩
def Fld.CAN_EVENT_EN_recovered (i : Nat) : Fld := ⟨Reg.CAN_EVENT_EN i, 3, 1⟩
def Fld.CAN_EVENT_EN_bus_off (i : Nat) : Fld := ⟨Reg.CAN_EVENT_EN i, 2, 1⟩
def Fld.CAN_EVENT_EN_passive (i : Nat) : Fld := ⟨Reg.CAN_EVENT_EN i, 1, 1⟩
def Fld.CAN_EVENT_EN_state_done (i : Nat) : Fld := ⟨Reg.CAN_EVENT_EN i, 0, 1⟩
def Row.CAN_EVENT_EN : RegSpec :=
  ⟨0xa0001c, 16, 0x1000, 1, 0, 0, false, false,
    [⟨7, 1, .rw, .anyRole, .any⟩,
     ⟨6, 1, .rw, .anyRole, .any⟩,
     ⟨5, 1, .rw, .anyRole, .any⟩,
     ⟨4, 1, .rw, .anyRole, .any⟩,
     ⟨3, 1, .rw, .anyRole, .any⟩,
     ⟨2, 1, .rw, .anyRole, .any⟩,
     ⟨1, 1, .rw, .anyRole, .any⟩,
     ⟨0, 1, .rw, .anyRole, .any⟩]⟩
def Reg.CAN_RX_FRAMES (i : Nat) : Nat := 0xa00040 + 0x1000 * i
def Fld.CAN_RX_FRAMES_count (i : Nat) : Fld := ⟨Reg.CAN_RX_FRAMES i, 0, 32⟩
def Row.CAN_RX_FRAMES : RegSpec :=
  ⟨0xa00040, 16, 0x1000, 1, 0, 0, false, false,
    [⟨0, 32, .rc, .anyRole, .any⟩]⟩
def Reg.CAN_TX_FRAMES (i : Nat) : Nat := 0xa00044 + 0x1000 * i
def Fld.CAN_TX_FRAMES_count (i : Nat) : Fld := ⟨Reg.CAN_TX_FRAMES i, 0, 32⟩
def Row.CAN_TX_FRAMES : RegSpec :=
  ⟨0xa00044, 16, 0x1000, 1, 0, 0, false, false,
    [⟨0, 32, .rc, .anyRole, .any⟩]⟩
def Reg.CAN_ACK_ERR (i : Nat) : Nat := 0xa00048 + 0x1000 * i
def Fld.CAN_ACK_ERR_count (i : Nat) : Fld := ⟨Reg.CAN_ACK_ERR i, 0, 32⟩
def Row.CAN_ACK_ERR : RegSpec :=
  ⟨0xa00048, 16, 0x1000, 1, 0, 0, false, false,
    [⟨0, 32, .rc, .anyRole, .any⟩]⟩
def Reg.CAN_BIT_ERR (i : Nat) : Nat := 0xa0004c + 0x1000 * i
def Fld.CAN_BIT_ERR_count (i : Nat) : Fld := ⟨Reg.CAN_BIT_ERR i, 0, 32⟩
def Row.CAN_BIT_ERR : RegSpec :=
  ⟨0xa0004c, 16, 0x1000, 1, 0, 0, false, false,
    [⟨0, 32, .rc, .anyRole, .any⟩]⟩
def Reg.CAN_STUFF_ERR (i : Nat) : Nat := 0xa00050 + 0x1000 * i
def Fld.CAN_STUFF_ERR_count (i : Nat) : Fld := ⟨Reg.CAN_STUFF_ERR i, 0, 32⟩
def Row.CAN_STUFF_ERR : RegSpec :=
  ⟨0xa00050, 16, 0x1000, 1, 0, 0, false, false,
    [⟨0, 32, .rc, .anyRole, .any⟩]⟩
def Reg.CAN_FORM_ERR (i : Nat) : Nat := 0xa00054 + 0x1000 * i
def Fld.CAN_FORM_ERR_count (i : Nat) : Fld := ⟨Reg.CAN_FORM_ERR i, 0, 32⟩
def Row.CAN_FORM_ERR : RegSpec :=
  ⟨0xa00054, 16, 0x1000, 1, 0, 0, false, false,
    [⟨0, 32, .rc, .anyRole, .any⟩]⟩
def Reg.CAN_CRC_ERR (i : Nat) : Nat := 0xa00058 + 0x1000 * i
def Fld.CAN_CRC_ERR_count (i : Nat) : Fld := ⟨Reg.CAN_CRC_ERR i, 0, 32⟩
def Row.CAN_CRC_ERR : RegSpec :=
  ⟨0xa00058, 16, 0x1000, 1, 0, 0, false, false,
    [⟨0, 32, .rc, .anyRole, .any⟩]⟩
def Reg.CAN_BUS_OFF_COUNT (i : Nat) : Nat := 0xa0005c + 0x1000 * i
def Fld.CAN_BUS_OFF_COUNT_count (i : Nat) : Fld := ⟨Reg.CAN_BUS_OFF_COUNT i, 0, 32⟩
def Row.CAN_BUS_OFF_COUNT : RegSpec :=
  ⟨0xa0005c, 16, 0x1000, 1, 0, 0, false, false,
    [⟨0, 32, .rc, .anyRole, .any⟩]⟩
def Reg.CAN_RX_LOST (i : Nat) : Nat := 0xa00060 + 0x1000 * i
def Fld.CAN_RX_LOST_count (i : Nat) : Fld := ⟨Reg.CAN_RX_LOST i, 0, 32⟩
def Row.CAN_RX_LOST : RegSpec :=
  ⟨0xa00060, 16, 0x1000, 1, 0, 0, false, false,
    [⟨0, 32, .rc, .anyRole, .any⟩]⟩
def Reg.CAN_TX_DROPPED (i : Nat) : Nat := 0xa00064 + 0x1000 * i
def Fld.CAN_TX_DROPPED_count (i : Nat) : Fld := ⟨Reg.CAN_TX_DROPPED i, 0, 32⟩
def Row.CAN_TX_DROPPED : RegSpec :=
  ⟨0xa00064, 16, 0x1000, 1, 0, 0, false, false,
    [⟨0, 32, .rc, .anyRole, .any⟩]⟩
def Reg.CAN_PEX (i : Nat) : Nat := 0xa00068 + 0x1000 * i
def Fld.CAN_PEX_count (i : Nat) : Fld := ⟨Reg.CAN_PEX i, 0, 32⟩
def Row.CAN_PEX : RegSpec :=
  ⟨0xa00068, 16, 0x1000, 1, 0, 0, false, false,
    [⟨0, 32, .rc, .anyRole, .any⟩]⟩
def Reg.CAN_FILT_ID (i : Nat) (j : Nat) : Nat := 0xa00100 + 0x1000 * i + 8 * j
def Fld.CAN_FILT_ID_valid (i : Nat) (j : Nat) : Fld := ⟨Reg.CAN_FILT_ID i j, 31, 1⟩
def Fld.CAN_FILT_ID_ide (i : Nat) (j : Nat) : Fld := ⟨Reg.CAN_FILT_ID i j, 30, 1⟩
def Fld.CAN_FILT_ID_to_host (i : Nat) (j : Nat) : Fld := ⟨Reg.CAN_FILT_ID i j, 29, 1⟩
def Fld.CAN_FILT_ID_id (i : Nat) (j : Nat) : Fld := ⟨Reg.CAN_FILT_ID i j, 0, 29⟩
def Row.CAN_FILT_ID : RegSpec :=
  ⟨0xa00100, 16, 0x1000, 32, 8, 0, false, false,
    [⟨31, 1, .rw, .installer, .any⟩,
     ⟨30, 1, .rw, .installer, .any⟩,
     ⟨29, 1, .rw, .installer, .any⟩,
     ⟨0, 29, .rw, .installer, .any⟩]⟩
def Reg.CAN_FILT_MASK (i : Nat) (j : Nat) : Nat := 0xa00104 + 0x1000 * i + 8 * j
def Fld.CAN_FILT_MASK_mask (i : Nat) (j : Nat) : Fld := ⟨Reg.CAN_FILT_MASK i j, 0, 29⟩
def Row.CAN_FILT_MASK : RegSpec :=
  ⟨0xa00104, 16, 0x1000, 32, 8, 0, false, false,
    [⟨0, 29, .rw, .installer, .any⟩]⟩
def Reg.CAN_TT_CTRL : Nat := 0xa10000
def Fld.CAN_TT_CTRL_channel : Fld := ⟨Reg.CAN_TT_CTRL, 8, 4⟩
def Fld.CAN_TT_CTRL_state : Fld := ⟨Reg.CAN_TT_CTRL, 1, 2⟩
def Fld.CAN_TT_CTRL_enable : Fld := ⟨Reg.CAN_TT_CTRL, 0, 1⟩
def Row.CAN_TT_CTRL : RegSpec :=
  ⟨0xa10000, 1, 0, 1, 0, 0, true, false,
    [⟨8, 4, .rw, .installer, .any⟩,
     ⟨1, 2, .ro, .anyRole, .any⟩,
     ⟨0, 1, .rw, .installer, .any⟩]⟩
def Reg.CAN_TT_CFG : Nat := 0xa10004
def Fld.CAN_TT_CFG_ref_id : Fld := ⟨Reg.CAN_TT_CFG, 21, 11⟩
def Fld.CAN_TT_CFG_prio : Fld := ⟨Reg.CAN_TT_CFG, 18, 3⟩
def Fld.CAN_TT_CFG_master : Fld := ⟨Reg.CAN_TT_CFG, 17, 1⟩
def Fld.CAN_TT_CFG_cycles_log : Fld := ⟨Reg.CAN_TT_CFG, 12, 3⟩
def Fld.CAN_TT_CFG_tx_enable : Fld := ⟨Reg.CAN_TT_CFG, 0, 8⟩
def Row.CAN_TT_CFG : RegSpec :=
  ⟨0xa10004, 1, 0, 1, 0, 0x2000010, false, false,
    [⟨21, 11, .rw, .installer, .any⟩,
     ⟨18, 3, .rw, .installer, .any⟩,
     ⟨17, 1, .rw, .installer, .any⟩,
     ⟨12, 3, .rw, .installer, (.range 0 6)⟩,
     ⟨0, 8, .rw, .installer, (.range 1 255)⟩]⟩
def Reg.CAN_TT_STATUS : Nat := 0xa10008
def Fld.CAN_TT_STATUS_cycle : Fld := ⟨Reg.CAN_TT_STATUS, 24, 6⟩
def Fld.CAN_TT_STATUS_ctime : Fld := ⟨Reg.CAN_TT_STATUS, 8, 16⟩
def Fld.CAN_TT_STATUS_level : Fld := ⟨Reg.CAN_TT_STATUS, 5, 2⟩
def Fld.CAN_TT_STATUS_master_now : Fld := ⟨Reg.CAN_TT_STATUS, 4, 1⟩
def Fld.CAN_TT_STATUS_tstate : Fld := ⟨Reg.CAN_TT_STATUS, 0, 2⟩
def Row.CAN_TT_STATUS : RegSpec :=
  ⟨0xa10008, 1, 0, 1, 0, 0, false, false,
    [⟨24, 6, .ro, .anyRole, .any⟩,
     ⟨8, 16, .ro, .anyRole, .any⟩,
     ⟨5, 2, .ro, .anyRole, .any⟩,
     ⟨4, 1, .ro, .anyRole, .any⟩,
     ⟨0, 2, .ro, .anyRole, .any⟩]⟩
def Reg.CAN_TT_SYNC_LO : Nat := 0xa1000c
def Fld.CAN_TT_SYNC_LO_stamp : Fld := ⟨Reg.CAN_TT_SYNC_LO, 0, 32⟩
def Row.CAN_TT_SYNC_LO : RegSpec :=
  ⟨0xa1000c, 1, 0, 1, 0, 0, false, false,
    [⟨0, 32, .ro, .anyRole, .any⟩]⟩
def Reg.CAN_TT_SYNC_HI : Nat := 0xa10010
def Fld.CAN_TT_SYNC_HI_stamp : Fld := ⟨Reg.CAN_TT_SYNC_HI, 0, 16⟩
def Row.CAN_TT_SYNC_HI : RegSpec :=
  ⟨0xa10010, 1, 0, 1, 0, 0, false, false,
    [⟨0, 16, .ro, .anyRole, .any⟩]⟩
def Reg.CAN_TT_EVENT : Nat := 0xa10014
def Fld.CAN_TT_EVENT_state_done : Fld := ⟨Reg.CAN_TT_EVENT, 3, 1⟩
def Fld.CAN_TT_EVENT_stale : Fld := ⟨Reg.CAN_TT_EVENT, 2, 1⟩
def Fld.CAN_TT_EVENT_missed : Fld := ⟨Reg.CAN_TT_EVENT, 1, 1⟩
def Fld.CAN_TT_EVENT_level : Fld := ⟨Reg.CAN_TT_EVENT, 0, 1⟩
def Row.CAN_TT_EVENT : RegSpec :=
  ⟨0xa10014, 1, 0, 1, 0, 0, false, false,
    [⟨3, 1, .w1c, .anyRole, .any⟩,
     ⟨2, 1, .w1c, .anyRole, .any⟩,
     ⟨1, 1, .w1c, .anyRole, .any⟩,
     ⟨0, 1, .w1c, .anyRole, .any⟩]⟩
def Reg.CAN_TT_EVENT_EN : Nat := 0xa10018
def Fld.CAN_TT_EVENT_EN_state_done : Fld := ⟨Reg.CAN_TT_EVENT_EN, 3, 1⟩
def Fld.CAN_TT_EVENT_EN_stale : Fld := ⟨Reg.CAN_TT_EVENT_EN, 2, 1⟩
def Fld.CAN_TT_EVENT_EN_missed : Fld := ⟨Reg.CAN_TT_EVENT_EN, 1, 1⟩
def Fld.CAN_TT_EVENT_EN_level : Fld := ⟨Reg.CAN_TT_EVENT_EN, 0, 1⟩
def Row.CAN_TT_EVENT_EN : RegSpec :=
  ⟨0xa10018, 1, 0, 1, 0, 0, false, false,
    [⟨3, 1, .rw, .anyRole, .any⟩,
     ⟨2, 1, .rw, .anyRole, .any⟩,
     ⟨1, 1, .rw, .anyRole, .any⟩,
     ⟨0, 1, .rw, .anyRole, .any⟩]⟩
def Reg.CAN_TT_SCHED_ERR : Nat := 0xa10040
def Fld.CAN_TT_SCHED_ERR_count : Fld := ⟨Reg.CAN_TT_SCHED_ERR, 0, 32⟩
def Row.CAN_TT_SCHED_ERR : RegSpec :=
  ⟨0xa10040, 1, 0, 1, 0, 0, false, false,
    [⟨0, 32, .rc, .anyRole, .any⟩]⟩
def Reg.CAN_TT_MISSED : Nat := 0xa10044
def Fld.CAN_TT_MISSED_count : Fld := ⟨Reg.CAN_TT_MISSED, 0, 32⟩
def Row.CAN_TT_MISSED : RegSpec :=
  ⟨0xa10044, 1, 0, 1, 0, 0, false, false,
    [⟨0, 32, .rc, .anyRole, .any⟩]⟩
def Reg.CAN_TT_WATCH : Nat := 0xa10048
def Fld.CAN_TT_WATCH_count : Fld := ⟨Reg.CAN_TT_WATCH, 0, 32⟩
def Row.CAN_TT_WATCH : RegSpec :=
  ⟨0xa10048, 1, 0, 1, 0, 0, false, false,
    [⟨0, 32, .rc, .anyRole, .any⟩]⟩
def Reg.CAN_TT_STALE : Nat := 0xa1004c
def Fld.CAN_TT_STALE_count : Fld := ⟨Reg.CAN_TT_STALE, 0, 32⟩
def Row.CAN_TT_STALE : RegSpec :=
  ⟨0xa1004c, 1, 0, 1, 0, 0, false, false,
    [⟨0, 32, .rc, .anyRole, .any⟩]⟩
def Reg.CAN_TT_SUPPRESSED : Nat := 0xa10050
def Fld.CAN_TT_SUPPRESSED_count : Fld := ⟨Reg.CAN_TT_SUPPRESSED, 0, 32⟩
def Row.CAN_TT_SUPPRESSED : RegSpec :=
  ⟨0xa10050, 1, 0, 1, 0, 0, false, false,
    [⟨0, 32, .rc, .anyRole, .any⟩]⟩
def Reg.CAN_TT_TRIG_A (i : Nat) : Nat := 0xa10100 + 8 * i
def Fld.CAN_TT_TRIG_A_time_mark (i : Nat) : Fld := ⟨Reg.CAN_TT_TRIG_A i, 0, 16⟩
def Row.CAN_TT_TRIG_A : RegSpec :=
  ⟨0xa10100, 64, 8, 1, 0, 0, false, false,
    [⟨0, 16, .rw, .installer, .any⟩]⟩
def Reg.CAN_TT_TRIG_B (i : Nat) : Nat := 0xa10104 + 8 * i
def Fld.CAN_TT_TRIG_B_type (i : Nat) : Fld := ⟨Reg.CAN_TT_TRIG_B i, 16, 3⟩
def Fld.CAN_TT_TRIG_B_repeat_log (i : Nat) : Fld := ⟨Reg.CAN_TT_TRIG_B i, 12, 3⟩
def Fld.CAN_TT_TRIG_B_base (i : Nat) : Fld := ⟨Reg.CAN_TT_TRIG_B i, 6, 6⟩
def Fld.CAN_TT_TRIG_B_mailbox (i : Nat) : Fld := ⟨Reg.CAN_TT_TRIG_B i, 0, 6⟩
def Row.CAN_TT_TRIG_B : RegSpec :=
  ⟨0xa10104, 64, 8, 1, 0, 0, false, false,
    [⟨16, 3, .rw, .installer, (.code [(6, 0), (7, 0)])⟩,
     ⟨12, 3, .rw, .installer, (.range 0 6)⟩,
     ⟨6, 6, .rw, .installer, .any⟩,
     ⟨0, 6, .rw, .installer, .any⟩]⟩
def Reg.CAN_MB_ID (i : Nat) : Nat := 0xa20000 + 0x80 * i
def Fld.CAN_MB_ID_fdf (i : Nat) : Fld := ⟨Reg.CAN_MB_ID i, 31, 1⟩
def Fld.CAN_MB_ID_ide (i : Nat) : Fld := ⟨Reg.CAN_MB_ID i, 30, 1⟩
def Fld.CAN_MB_ID_brs (i : Nat) : Fld := ⟨Reg.CAN_MB_ID i, 29, 1⟩
def Fld.CAN_MB_ID_id (i : Nat) : Fld := ⟨Reg.CAN_MB_ID i, 0, 29⟩
def Row.CAN_MB_ID : RegSpec :=
  ⟨0xa20000, 64, 0x80, 1, 0, 0, false, false,
    [⟨31, 1, .rw, .installer, .any⟩,
     ⟨30, 1, .rw, .installer, .any⟩,
     ⟨29, 1, .rw, .installer, .any⟩,
     ⟨0, 29, .rw, .installer, .any⟩]⟩
def Reg.CAN_MB_CFG (i : Nat) : Nat := 0xa20004 + 0x80 * i
def Fld.CAN_MB_CFG_age_limit (i : Nat) : Fld := ⟨Reg.CAN_MB_CFG i, 24, 8⟩
def Fld.CAN_MB_CFG_age_offset (i : Nat) : Fld := ⟨Reg.CAN_MB_CFG i, 16, 8⟩
def Fld.CAN_MB_CFG_stale_action (i : Nat) : Fld := ⟨Reg.CAN_MB_CFG i, 8, 1⟩
def Fld.CAN_MB_CFG_dlc (i : Nat) : Fld := ⟨Reg.CAN_MB_CFG i, 0, 4⟩
def Row.CAN_MB_CFG : RegSpec :=
  ⟨0xa20004, 64, 0x80, 1, 0, 0xff0000, false, false,
    [⟨24, 8, .rw, .installer, .any⟩,
     ⟨16, 8, .rw, .installer, .any⟩,
     ⟨8, 1, .rw, .installer, .any⟩,
     ⟨0, 4, .rw, .installer, .any⟩]⟩
def Reg.CAN_MB_STATE (i : Nat) : Nat := 0xa20008 + 0x80 * i
def Fld.CAN_MB_STATE_loaded (i : Nat) : Fld := ⟨Reg.CAN_MB_STATE i, 8, 1⟩
def Fld.CAN_MB_STATE_age (i : Nat) : Fld := ⟨Reg.CAN_MB_STATE i, 0, 8⟩
def Row.CAN_MB_STATE : RegSpec :=
  ⟨0xa20008, 64, 0x80, 1, 0, 0, false, false,
    [⟨8, 1, .ro, .anyRole, .any⟩,
     ⟨0, 8, .ro, .anyRole, .any⟩]⟩
def Reg.CAN_MB_STAMP_LO (i : Nat) : Nat := 0xa20010 + 0x80 * i
def Fld.CAN_MB_STAMP_LO_stamp (i : Nat) : Fld := ⟨Reg.CAN_MB_STAMP_LO i, 0, 32⟩
def Row.CAN_MB_STAMP_LO : RegSpec :=
  ⟨0xa20010, 64, 0x80, 1, 0, 0, false, false,
    [⟨0, 32, .ro, .anyRole, .any⟩]⟩
def Reg.CAN_MB_STAMP_HI (i : Nat) : Nat := 0xa20014 + 0x80 * i
def Fld.CAN_MB_STAMP_HI_stamp (i : Nat) : Fld := ⟨Reg.CAN_MB_STAMP_HI i, 0, 16⟩
def Row.CAN_MB_STAMP_HI : RegSpec :=
  ⟨0xa20014, 64, 0x80, 1, 0, 0, false, false,
    [⟨0, 16, .ro, .anyRole, .any⟩]⟩
def Reg.CAN_MB_DATA (i : Nat) (j : Nat) : Nat := 0xa20040 + 0x80 * i + 4 * j
def Fld.CAN_MB_DATA_data (i : Nat) (j : Nat) : Fld := ⟨Reg.CAN_MB_DATA i j, 0, 32⟩
def Row.CAN_MB_DATA : RegSpec :=
  ⟨0xa20040, 64, 0x80, 16, 4, 0, false, false,
    [⟨0, 32, .ro, .anyRole, .any⟩]⟩

/-! ### FIL (R382, R366, R367, R370; fields R383) -/

def Reg.FIL_CTRL : Nat := 0xc00000
def Fld.FIL_CTRL_hold : Fld := ⟨Reg.FIL_CTRL, 4, 1⟩
def Fld.FIL_CTRL_state : Fld := ⟨Reg.FIL_CTRL, 1, 2⟩
def Fld.FIL_CTRL_enable : Fld := ⟨Reg.FIL_CTRL, 0, 1⟩
def Row.FIL_CTRL : RegSpec :=
  ⟨0xc00000, 1, 0, 1, 0, 1, true, false,
    [⟨4, 1, .rw, .installer, .any⟩,
     ⟨1, 2, .ro, .anyRole, .any⟩,
     ⟨0, 1, .rw, .installer, .any⟩]⟩
def Reg.FIL_STATUS : Nat := 0xc00004
def Fld.FIL_STATUS_emit_fill : Fld := ⟨Reg.FIL_STATUS, 24, 7⟩
def Fld.FIL_STATUS_src_fill : Fld := ⟨Reg.FIL_STATUS, 8, 9⟩
def Fld.FIL_STATUS_held : Fld := ⟨Reg.FIL_STATUS, 0, 1⟩
def Row.FIL_STATUS : RegSpec :=
  ⟨0xc00004, 1, 0, 1, 0, 0, false, false,
    [⟨24, 7, .ro, .anyRole, .any⟩,
     ⟨8, 9, .ro, .anyRole, .any⟩,
     ⟨0, 1, .ro, .anyRole, .any⟩]⟩
def Reg.FIL_STATUS_CFG : Nat := 0xc00008
def Fld.FIL_STATUS_CFG_period_us : Fld := ⟨Reg.FIL_STATUS_CFG, 0, 14⟩
def Row.FIL_STATUS_CFG : RegSpec :=
  ⟨0xc00008, 1, 0, 1, 0, 0x3e8, false, false,
    [⟨0, 14, .rw, .installer, (.range 10 10000)⟩]⟩
def Reg.FIL_HASH_KEY0 : Nat := 0xc0000c
def Fld.FIL_HASH_KEY0_key : Fld := ⟨Reg.FIL_HASH_KEY0, 0, 32⟩
def Row.FIL_HASH_KEY0 : RegSpec :=
  ⟨0xc0000c, 1, 0, 1, 0, 0, false, false,
    [⟨0, 32, .rw, .anyRole, .any⟩]⟩
def Reg.FIL_HASH_KEY1 : Nat := 0xc00010
def Fld.FIL_HASH_KEY1_key : Fld := ⟨Reg.FIL_HASH_KEY1, 0, 32⟩
def Row.FIL_HASH_KEY1 : RegSpec :=
  ⟨0xc00010, 1, 0, 1, 0, 0, false, false,
    [⟨0, 32, .rw, .anyRole, .any⟩]⟩
def Reg.FIL_HASH : Nat := 0xc00014
def Fld.FIL_HASH_bucket : Fld := ⟨Reg.FIL_HASH, 0, 10⟩
def Row.FIL_HASH : RegSpec :=
  ⟨0xc00014, 1, 0, 1, 0, 0, false, false,
    [⟨0, 10, .ro, .anyRole, .any⟩]⟩
def Reg.FIL_EVENT : Nat := 0xc00018
def Fld.FIL_EVENT_state_done : Fld := ⟨Reg.FIL_EVENT, 5, 1⟩
def Fld.FIL_EVENT_tpl_bad : Fld := ⟨Reg.FIL_EVENT, 4, 1⟩
def Fld.FIL_EVENT_list_err : Fld := ⟨Reg.FIL_EVENT, 3, 1⟩
def Fld.FIL_EVENT_invalid : Fld := ⟨Reg.FIL_EVENT, 2, 1⟩
def Fld.FIL_EVENT_emit_lost : Fld := ⟨Reg.FIL_EVENT, 1, 1⟩
def Fld.FIL_EVENT_src_lost : Fld := ⟨Reg.FIL_EVENT, 0, 1⟩
def Row.FIL_EVENT : RegSpec :=
  ⟨0xc00018, 1, 0, 1, 0, 0, false, false,
    [⟨5, 1, .w1c, .anyRole, .any⟩,
     ⟨4, 1, .w1c, .anyRole, .any⟩,
     ⟨3, 1, .w1c, .anyRole, .any⟩,
     ⟨2, 1, .w1c, .anyRole, .any⟩,
     ⟨1, 1, .w1c, .anyRole, .any⟩,
     ⟨0, 1, .w1c, .anyRole, .any⟩]⟩
def Reg.FIL_EVENT_EN : Nat := 0xc0001c
def Fld.FIL_EVENT_EN_state_done : Fld := ⟨Reg.FIL_EVENT_EN, 5, 1⟩
def Fld.FIL_EVENT_EN_tpl_bad : Fld := ⟨Reg.FIL_EVENT_EN, 4, 1⟩
def Fld.FIL_EVENT_EN_list_err : Fld := ⟨Reg.FIL_EVENT_EN, 3, 1⟩
def Fld.FIL_EVENT_EN_invalid : Fld := ⟨Reg.FIL_EVENT_EN, 2, 1⟩
def Fld.FIL_EVENT_EN_emit_lost : Fld := ⟨Reg.FIL_EVENT_EN, 1, 1⟩
def Fld.FIL_EVENT_EN_src_lost : Fld := ⟨Reg.FIL_EVENT_EN, 0, 1⟩
def Row.FIL_EVENT_EN : RegSpec :=
  ⟨0xc0001c, 1, 0, 1, 0, 0, false, false,
    [⟨5, 1, .rw, .anyRole, .any⟩,
     ⟨4, 1, .rw, .anyRole, .any⟩,
     ⟨3, 1, .rw, .anyRole, .any⟩,
     ⟨2, 1, .rw, .anyRole, .any⟩,
     ⟨1, 1, .rw, .anyRole, .any⟩,
     ⟨0, 1, .rw, .anyRole, .any⟩]⟩
def Reg.FIL_NO_MATCH : Nat := 0xc00040
def Fld.FIL_NO_MATCH_count : Fld := ⟨Reg.FIL_NO_MATCH, 0, 32⟩
def Row.FIL_NO_MATCH : RegSpec :=
  ⟨0xc00040, 1, 0, 1, 0, 0, false, false,
    [⟨0, 32, .rc, .anyRole, .any⟩]⟩
def Reg.FIL_ETH_NOMATCH : Nat := 0xc00044
def Fld.FIL_ETH_NOMATCH_count : Fld := ⟨Reg.FIL_ETH_NOMATCH, 0, 32⟩
def Row.FIL_ETH_NOMATCH : RegSpec :=
  ⟨0xc00044, 1, 0, 1, 0, 0, false, false,
    [⟨0, 32, .rc, .anyRole, .any⟩]⟩
def Reg.FIL_ETH_OFF : Nat := 0xc00048
def Fld.FIL_ETH_OFF_count : Fld := ⟨Reg.FIL_ETH_OFF, 0, 32⟩
def Row.FIL_ETH_OFF : RegSpec :=
  ⟨0xc00048, 1, 0, 1, 0, 0, false, false,
    [⟨0, 32, .rc, .anyRole, .any⟩]⟩
def Reg.FIL_SRC_LOST : Nat := 0xc0004c
def Fld.FIL_SRC_LOST_count : Fld := ⟨Reg.FIL_SRC_LOST, 0, 32⟩
def Row.FIL_SRC_LOST : RegSpec :=
  ⟨0xc0004c, 1, 0, 1, 0, 0, false, false,
    [⟨0, 32, .rc, .anyRole, .any⟩]⟩
def Reg.FIL_SHORT : Nat := 0xc00050
def Fld.FIL_SHORT_count : Fld := ⟨Reg.FIL_SHORT, 0, 32⟩
def Row.FIL_SHORT : RegSpec :=
  ⟨0xc00050, 1, 0, 1, 0, 0, false, false,
    [⟨0, 32, .rc, .anyRole, .any⟩]⟩
def Reg.FIL_CLAMPED : Nat := 0xc00054
def Fld.FIL_CLAMPED_count : Fld := ⟨Reg.FIL_CLAMPED, 0, 32⟩
def Row.FIL_CLAMPED : RegSpec :=
  ⟨0xc00054, 1, 0, 1, 0, 0, false, false,
    [⟨0, 32, .rc, .anyRole, .any⟩]⟩
def Reg.FIL_INVALID : Nat := 0xc00058
def Fld.FIL_INVALID_count : Fld := ⟨Reg.FIL_INVALID, 0, 32⟩
def Row.FIL_INVALID : RegSpec :=
  ⟨0xc00058, 1, 0, 1, 0, 0, false, false,
    [⟨0, 32, .rc, .anyRole, .any⟩]⟩
def Reg.FIL_EMITS : Nat := 0xc0005c
def Fld.FIL_EMITS_count : Fld := ⟨Reg.FIL_EMITS, 0, 32⟩
def Row.FIL_EMITS : RegSpec :=
  ⟨0xc0005c, 1, 0, 1, 0, 0, false, false,
    [⟨0, 32, .rc, .anyRole, .any⟩]⟩
def Reg.FIL_EMIT_LOST : Nat := 0xc00060
def Fld.FIL_EMIT_LOST_count : Fld := ⟨Reg.FIL_EMIT_LOST, 0, 32⟩
def Row.FIL_EMIT_LOST : RegSpec :=
  ⟨0xc00060, 1, 0, 1, 0, 0, false, false,
    [⟨0, 32, .rc, .anyRole, .any⟩]⟩
def Reg.FIL_EMIT_IGNORED : Nat := 0xc00064
def Fld.FIL_EMIT_IGNORED_count : Fld := ⟨Reg.FIL_EMIT_IGNORED, 0, 32⟩
def Row.FIL_EMIT_IGNORED : RegSpec :=
  ⟨0xc00064, 1, 0, 1, 0, 0, false, false,
    [⟨0, 32, .rc, .anyRole, .any⟩]⟩
def Reg.FIL_EMIT_SUPPRESSED : Nat := 0xc00068
def Fld.FIL_EMIT_SUPPRESSED_count : Fld := ⟨Reg.FIL_EMIT_SUPPRESSED, 0, 32⟩
def Row.FIL_EMIT_SUPPRESSED : RegSpec :=
  ⟨0xc00068, 1, 0, 1, 0, 0, false, false,
    [⟨0, 32, .rc, .anyRole, .any⟩]⟩
def Reg.FIL_LIST_ERR : Nat := 0xc0006c
def Fld.FIL_LIST_ERR_count : Fld := ⟨Reg.FIL_LIST_ERR, 0, 32⟩
def Row.FIL_LIST_ERR : RegSpec :=
  ⟨0xc0006c, 1, 0, 1, 0, 0, false, false,
    [⟨0, 32, .rc, .anyRole, .any⟩]⟩
def Reg.FIL_TPL_BAD : Nat := 0xc00070
def Fld.FIL_TPL_BAD_count : Fld := ⟨Reg.FIL_TPL_BAD, 0, 32⟩
def Row.FIL_TPL_BAD : RegSpec :=
  ⟨0xc00070, 1, 0, 1, 0, 0, false, false,
    [⟨0, 32, .rc, .anyRole, .any⟩]⟩
def Reg.FIL_PROFILE_MATCH (i : Nat) : Nat := 0xc00100 + 8 * i
def Fld.FIL_PROFILE_MATCH_udp_port (i : Nat) : Fld := ⟨Reg.FIL_PROFILE_MATCH i, 16, 16⟩
def Fld.FIL_PROFILE_MATCH_ethertype (i : Nat) : Fld := ⟨Reg.FIL_PROFILE_MATCH i, 0, 16⟩
def Row.FIL_PROFILE_MATCH : RegSpec :=
  ⟨0xc00100, 8, 8, 1, 0, 0, false, false,
    [⟨16, 16, .rw, .installer, .any⟩,
     ⟨0, 16, .rw, .installer, (.range 1536 65535)⟩]⟩
def Reg.FIL_PROFILE_CFG (i : Nat) : Nat := 0xc00104 + 8 * i
def Fld.FIL_PROFILE_CFG_valid (i : Nat) : Fld := ⟨Reg.FIL_PROFILE_CFG i, 31, 1⟩
def Fld.FIL_PROFILE_CFG_id_offset (i : Nat) : Fld := ⟨Reg.FIL_PROFILE_CFG i, 0, 8⟩
def Row.FIL_PROFILE_CFG : RegSpec :=
  ⟨0xc00104, 8, 8, 1, 0, 0, false, false,
    [⟨31, 1, .rw, .installer, .any⟩,
     ⟨0, 8, .rw, .installer, (.range 0 252)⟩]⟩
def Reg.FIL_HOST_WORD (i : Nat) : Nat := 0xc00200 + 4 * i
def Fld.FIL_HOST_WORD_word (i : Nat) : Fld := ⟨Reg.FIL_HOST_WORD i, 0, 32⟩
def Row.FIL_HOST_WORD : RegSpec :=
  ⟨0xc00200, 16, 4, 1, 0, 0, false, false,
    [⟨0, 32, .rw, .anyRole, .any⟩]⟩
def Reg.FIL_SRC0 (i : Nat) : Nat := 0xc10000 + 0x10 * i
def Fld.FIL_SRC0_key (i : Nat) : Fld := ⟨Reg.FIL_SRC0 i, 0, 32⟩
def Row.FIL_SRC0 : RegSpec :=
  ⟨0xc10000, 4096, 0x10, 1, 0, 0, false, false,
    [⟨0, 32, .rw, .installer, .any⟩]⟩
def Reg.FIL_SRC1 (i : Nat) : Nat := 0xc10004 + 0x10 * i
def Fld.FIL_SRC1_valid (i : Nat) : Fld := ⟨Reg.FIL_SRC1 i, 31, 1⟩
def Fld.FIL_SRC1_kind (i : Nat) : Fld := ⟨Reg.FIL_SRC1 i, 29, 2⟩
def Fld.FIL_SRC1_key2 (i : Nat) : Fld := ⟨Reg.FIL_SRC1 i, 16, 8⟩
def Fld.FIL_SRC1_first (i : Nat) : Fld := ⟨Reg.FIL_SRC1 i, 0, 14⟩
def Row.FIL_SRC1 : RegSpec :=
  ⟨0xc10004, 4096, 0x10, 1, 0, 0, false, false,
    [⟨31, 1, .rw, .installer, .any⟩,
     ⟨29, 2, .rw, .installer, .any⟩,
     ⟨16, 8, .rw, .installer, .any⟩,
     ⟨0, 14, .rw, .installer, .any⟩]⟩
def Reg.FIL_SRC2 (i : Nat) : Nat := 0xc10008 + 0x10 * i
def Fld.FIL_SRC2_min_len (i : Nat) : Fld := ⟨Reg.FIL_SRC2 i, 24, 8⟩
def Fld.FIL_SRC2_count (i : Nat) : Fld := ⟨Reg.FIL_SRC2 i, 0, 15⟩
def Row.FIL_SRC2 : RegSpec :=
  ⟨0xc10008, 4096, 0x10, 1, 0, 0, false, false,
    [⟨24, 8, .rw, .installer, .any⟩,
     ⟨0, 15, .rw, .installer, (.range 0 16384)⟩]⟩
def Reg.FIL_SRC3 (i : Nat) : Nat := 0xc1000c + 0x10 * i
def Fld.FIL_SRC3_hits (i : Nat) : Fld := ⟨Reg.FIL_SRC3 i, 0, 32⟩
def Row.FIL_SRC3 : RegSpec :=
  ⟨0xc1000c, 4096, 0x10, 1, 0, 0, false, false,
    [⟨0, 32, .ro, .anyRole, .any⟩]⟩
def Reg.FIL_TPL0 (i : Nat) : Nat := 0xc20000 + 0x20 * i
def Fld.FIL_TPL0_valid (i : Nat) : Fld := ⟨Reg.FIL_TPL0 i, 31, 1⟩
def Fld.FIL_TPL0_kind (i : Nat) : Fld := ⟨Reg.FIL_TPL0 i, 30, 1⟩
def Fld.FIL_TPL0_sched (i : Nat) : Fld := ⟨Reg.FIL_TPL0 i, 29, 1⟩
def Fld.FIL_TPL0_change (i : Nat) : Fld := ⟨Reg.FIL_TPL0 i, 28, 1⟩
def Fld.FIL_TPL0_channel (i : Nat) : Fld := ⟨Reg.FIL_TPL0 i, 24, 4⟩
def Fld.FIL_TPL0_length (i : Nat) : Fld := ⟨Reg.FIL_TPL0 i, 15, 9⟩
def Fld.FIL_TPL0_first (i : Nat) : Fld := ⟨Reg.FIL_TPL0 i, 0, 14⟩
def Row.FIL_TPL0 : RegSpec :=
  ⟨0xc20000, 2048, 0x20, 1, 0, 0, false, false,
    [⟨31, 1, .rw, .installer, .any⟩,
     ⟨30, 1, .rw, .installer, .any⟩,
     ⟨29, 1, .rw, .installer, .any⟩,
     ⟨28, 1, .rw, .installer, .any⟩,
     ⟨24, 4, .rw, .installer, .any⟩,
     ⟨15, 9, .rw, .installer, (.range 1 256)⟩,
     ⟨0, 14, .rw, .installer, .any⟩]⟩
def Reg.FIL_TPL1 (i : Nat) : Nat := 0xc20004 + 0x20 * i
def Fld.FIL_TPL1_min_gap_us (i : Nat) : Fld := ⟨Reg.FIL_TPL1 i, 16, 16⟩
def Fld.FIL_TPL1_count (i : Nat) : Fld := ⟨Reg.FIL_TPL1 i, 0, 15⟩
def Row.FIL_TPL1 : RegSpec :=
  ⟨0xc20004, 2048, 0x20, 1, 0, 0, false, false,
    [⟨16, 16, .rw, .installer, .any⟩,
     ⟨0, 15, .rw, .installer, (.range 0 16384)⟩]⟩
def Reg.FIL_TPL2 (i : Nat) : Nat := 0xc20008 + 0x20 * i
def Fld.FIL_TPL2_word (i : Nat) : Fld := ⟨Reg.FIL_TPL2 i, 0, 32⟩
def Row.FIL_TPL2 : RegSpec :=
  ⟨0xc20008, 2048, 0x20, 1, 0, 0, false, false,
    [⟨0, 32, .rw, .installer, .any⟩]⟩
def Reg.FIL_TPL3 (i : Nat) : Nat := 0xc2000c + 0x20 * i
def Fld.FIL_TPL3_maxage_en (i : Nat) : Fld := ⟨Reg.FIL_TPL3 i, 31, 1⟩
def Fld.FIL_TPL3_maxage_off (i : Nat) : Fld := ⟨Reg.FIL_TPL3 i, 16, 8⟩
def Fld.FIL_TPL3_seq_en (i : Nat) : Fld := ⟨Reg.FIL_TPL3 i, 15, 1⟩
def Fld.FIL_TPL3_seq16 (i : Nat) : Fld := ⟨Reg.FIL_TPL3 i, 14, 1⟩
def Fld.FIL_TPL3_seq_off (i : Nat) : Fld := ⟨Reg.FIL_TPL3 i, 0, 8⟩
def Row.FIL_TPL3 : RegSpec :=
  ⟨0xc2000c, 2048, 0x20, 1, 0, 0, false, false,
    [⟨31, 1, .rw, .installer, .any⟩,
     ⟨16, 8, .rw, .installer, .any⟩,
     ⟨15, 1, .rw, .installer, .any⟩,
     ⟨14, 1, .rw, .installer, .any⟩,
     ⟨0, 8, .rw, .installer, .any⟩]⟩
def Reg.FIL_TPL4 (i : Nat) : Nat := 0xc20010 + 0x20 * i
def Fld.FIL_TPL4_chk_en (i : Nat) : Fld := ⟨Reg.FIL_TPL4 i, 31, 1⟩
def Fld.FIL_TPL4_chk_kind (i : Nat) : Fld := ⟨Reg.FIL_TPL4 i, 28, 3⟩
def Fld.FIL_TPL4_inv_en (i : Nat) : Fld := ⟨Reg.FIL_TPL4 i, 24, 1⟩
def Fld.FIL_TPL4_chk_off (i : Nat) : Fld := ⟨Reg.FIL_TPL4 i, 16, 8⟩
def Fld.FIL_TPL4_chk_start (i : Nat) : Fld := ⟨Reg.FIL_TPL4 i, 8, 8⟩
def Fld.FIL_TPL4_inv_off (i : Nat) : Fld := ⟨Reg.FIL_TPL4 i, 0, 8⟩
def Row.FIL_TPL4 : RegSpec :=
  ⟨0xc20010, 2048, 0x20, 1, 0, 0, false, false,
    [⟨31, 1, .rw, .installer, .any⟩,
     ⟨28, 3, .rw, .installer, (.range 0 3)⟩,
     ⟨24, 1, .rw, .installer, .any⟩,
     ⟨16, 8, .rw, .installer, .any⟩,
     ⟨8, 8, .rw, .installer, .any⟩,
     ⟨0, 8, .rw, .installer, .any⟩]⟩
def Reg.FIL_TPL5 (i : Nat) : Nat := 0xc20014 + 0x20 * i
def Fld.FIL_TPL5_seq (i : Nat) : Fld := ⟨Reg.FIL_TPL5 i, 0, 16⟩
def Row.FIL_TPL5 : RegSpec :=
  ⟨0xc20014, 2048, 0x20, 1, 0, 0, false, false,
    [⟨0, 16, .ro, .anyRole, .any⟩]⟩
def Reg.FIL_TPL6 (i : Nat) : Nat := 0xc20018 + 0x20 * i
def Fld.FIL_TPL6_emits (i : Nat) : Fld := ⟨Reg.FIL_TPL6 i, 0, 32⟩
def Row.FIL_TPL6 : RegSpec :=
  ⟨0xc20018, 2048, 0x20, 1, 0, 0, false, false,
    [⟨0, 32, .ro, .anyRole, .any⟩]⟩
def Reg.FIL_TPL7 (i : Nat) : Nat := 0xc2001c + 0x20 * i
def Fld.FIL_TPL7_last_max_age (i : Nat) : Fld := ⟨Reg.FIL_TPL7 i, 0, 8⟩
def Row.FIL_TPL7 : RegSpec :=
  ⟨0xc2001c, 2048, 0x20, 1, 0, 0, false, false,
    [⟨0, 8, .ro, .anyRole, .any⟩]⟩
def Reg.FIL_SIG0 (i : Nat) : Nat := 0xc40000 + 0x20 * i
def Fld.FIL_SIG0_valid (i : Nat) : Fld := ⟨Reg.FIL_SIG0 i, 31, 1⟩
def Fld.FIL_SIG0_raw (i : Nat) : Fld := ⟨Reg.FIL_SIG0 i, 30, 1⟩
def Fld.FIL_SIG0_src_signed (i : Nat) : Fld := ⟨Reg.FIL_SIG0 i, 29, 1⟩
def Fld.FIL_SIG0_src_big (i : Nat) : Fld := ⟨Reg.FIL_SIG0 i, 28, 1⟩
def Fld.FIL_SIG0_src_len (i : Nat) : Fld := ⟨Reg.FIL_SIG0 i, 22, 6⟩
def Fld.FIL_SIG0_round (i : Nat) : Fld := ⟨Reg.FIL_SIG0 i, 21, 1⟩
def Fld.FIL_SIG0_shift (i : Nat) : Fld := ⟨Reg.FIL_SIG0 i, 16, 5⟩
def Fld.FIL_SIG0_src_start (i : Nat) : Fld := ⟨Reg.FIL_SIG0 i, 0, 11⟩
def Row.FIL_SIG0 : RegSpec :=
  ⟨0xc40000, 16384, 0x20, 1, 0, 0, false, false,
    [⟨31, 1, .rw, .installer, .any⟩,
     ⟨30, 1, .rw, .installer, .any⟩,
     ⟨29, 1, .rw, .installer, .any⟩,
     ⟨28, 1, .rw, .installer, .any⟩,
     ⟨22, 6, .rw, .installer, .any⟩,
     ⟨21, 1, .rw, .installer, .any⟩,
     ⟨16, 5, .rw, .installer, .any⟩,
     ⟨0, 11, .rw, .installer, .any⟩]⟩
def Reg.FIL_SIG1 (i : Nat) : Nat := 0xc40004 + 0x20 * i
def Fld.FIL_SIG1_m (i : Nat) : Fld := ⟨Reg.FIL_SIG1 i, 0, 32⟩
def Row.FIL_SIG1 : RegSpec :=
  ⟨0xc40004, 16384, 0x20, 1, 0, 0, false, false,
    [⟨0, 32, .rw, .installer, .any⟩]⟩
def Reg.FIL_SIG2 (i : Nat) : Nat := 0xc40008 + 0x20 * i
def Fld.FIL_SIG2_b (i : Nat) : Fld := ⟨Reg.FIL_SIG2 i, 0, 32⟩
def Row.FIL_SIG2 : RegSpec :=
  ⟨0xc40008, 16384, 0x20, 1, 0, 0, false, false,
    [⟨0, 32, .rw, .installer, .any⟩]⟩
def Reg.FIL_SIG3 (i : Nat) : Nat := 0xc4000c + 0x20 * i
def Fld.FIL_SIG3_lo (i : Nat) : Fld := ⟨Reg.FIL_SIG3 i, 0, 32⟩
def Row.FIL_SIG3 : RegSpec :=
  ⟨0xc4000c, 16384, 0x20, 1, 0, 0, false, false,
    [⟨0, 32, .rw, .installer, .any⟩]⟩
def Reg.FIL_SIG4 (i : Nat) : Nat := 0xc40010 + 0x20 * i
def Fld.FIL_SIG4_hi (i : Nat) : Fld := ⟨Reg.FIL_SIG4 i, 0, 32⟩
def Row.FIL_SIG4 : RegSpec :=
  ⟨0xc40010, 16384, 0x20, 1, 0, 0, false, false,
    [⟨0, 32, .rw, .installer, .any⟩]⟩
def Reg.FIL_SIG5 (i : Nat) : Nat := 0xc40014 + 0x20 * i
def Fld.FIL_SIG5_template (i : Nat) : Fld := ⟨Reg.FIL_SIG5 i, 21, 11⟩
def Fld.FIL_SIG5_dst_big (i : Nat) : Fld := ⟨Reg.FIL_SIG5 i, 20, 1⟩
def Fld.FIL_SIG5_dst_len (i : Nat) : Fld := ⟨Reg.FIL_SIG5 i, 14, 6⟩
def Fld.FIL_SIG5_dst_signed (i : Nat) : Fld := ⟨Reg.FIL_SIG5 i, 13, 1⟩
def Fld.FIL_SIG5_chg (i : Nat) : Fld := ⟨Reg.FIL_SIG5 i, 12, 1⟩
def Fld.FIL_SIG5_dst_start (i : Nat) : Fld := ⟨Reg.FIL_SIG5 i, 0, 11⟩
def Row.FIL_SIG5 : RegSpec :=
  ⟨0xc40014, 16384, 0x20, 1, 0, 0, false, false,
    [⟨21, 11, .rw, .installer, .any⟩,
     ⟨20, 1, .rw, .installer, .any⟩,
     ⟨14, 6, .rw, .installer, .any⟩,
     ⟨13, 1, .rw, .installer, .any⟩,
     ⟨12, 1, .rw, .installer, .any⟩,
     ⟨0, 11, .rw, .installer, .any⟩]⟩
def Reg.FIL_SIG6 (i : Nat) : Nat := 0xc40018 + 0x20 * i
def Fld.FIL_SIG6_default (i : Nat) : Fld := ⟨Reg.FIL_SIG6 i, 0, 32⟩
def Row.FIL_SIG6 : RegSpec :=
  ⟨0xc40018, 16384, 0x20, 1, 0, 0, false, false,
    [⟨0, 32, .rw, .installer, .any⟩]⟩
def Reg.FIL_SIG7 (i : Nat) : Nat := 0xc4001c + 0x20 * i
def Fld.FIL_SIG7_age_limit (i : Nat) : Fld := ⟨Reg.FIL_SIG7 i, 24, 8⟩
def Fld.FIL_SIG7_age (i : Nat) : Fld := ⟨Reg.FIL_SIG7 i, 16, 8⟩
def Fld.FIL_SIG7_refreshed (i : Nat) : Fld := ⟨Reg.FIL_SIG7 i, 15, 1⟩
def Fld.FIL_SIG7_invalid (i : Nat) : Fld := ⟨Reg.FIL_SIG7 i, 14, 1⟩
def Fld.FIL_SIG7_next (i : Nat) : Fld := ⟨Reg.FIL_SIG7 i, 0, 14⟩
def Row.FIL_SIG7 : RegSpec :=
  ⟨0xc4001c, 16384, 0x20, 1, 0, 0, false, false,
    [⟨24, 8, .rw, .installer, .any⟩,
     ⟨16, 8, .ro, .anyRole, .any⟩,
     ⟨15, 1, .ro, .anyRole, .any⟩,
     ⟨14, 1, .ro, .anyRole, .any⟩,
     ⟨0, 14, .rw, .installer, .any⟩]⟩
def Reg.FIL_TPL_DATA (i : Nat) (j : Nat) : Nat := 0xd00000 + 0x100 * i + 4 * j
def Fld.FIL_TPL_DATA_word (i : Nat) (j : Nat) : Fld := ⟨Reg.FIL_TPL_DATA i j, 0, 32⟩
def Row.FIL_TPL_DATA : RegSpec :=
  ⟨0xd00000, 2048, 0x100, 64, 4, 0, false, false,
    [⟨0, 32, .rw, .installer, .any⟩]⟩

/-! ### SNS (R401; fields R402) -/

def Reg.SNS_CTRL : Nat := 0xe00000
def Fld.SNS_CTRL_state : Fld := ⟨Reg.SNS_CTRL, 1, 2⟩
def Fld.SNS_CTRL_enable : Fld := ⟨Reg.SNS_CTRL, 0, 1⟩
def Row.SNS_CTRL : RegSpec :=
  ⟨0xe00000, 1, 0, 1, 0, 1, true, false,
    [⟨1, 2, .ro, .anyRole, .any⟩,
     ⟨0, 1, .rw, .installer, .any⟩]⟩
def Reg.SNS_CONVERT : Nat := 0xe00004
def Fld.SNS_CONVERT_start : Fld := ⟨Reg.SNS_CONVERT, 0, 32⟩
def Row.SNS_CONVERT : RegSpec :=
  ⟨0xe00004, 1, 0, 1, 0, 0, false, false,
    [⟨0, 32, .wo, .anyRole, .any⟩]⟩
def Reg.SNS_EVENT : Nat := 0xe00008
def Fld.SNS_EVENT_state_done : Fld := ⟨Reg.SNS_EVENT, 2, 1⟩
def Fld.SNS_EVENT_overrange : Fld := ⟨Reg.SNS_EVENT, 1, 1⟩
def Fld.SNS_EVENT_stuck : Fld := ⟨Reg.SNS_EVENT, 0, 1⟩
def Row.SNS_EVENT : RegSpec :=
  ⟨0xe00008, 1, 0, 1, 0, 0, false, false,
    [⟨2, 1, .w1c, .anyRole, .any⟩,
     ⟨1, 1, .w1c, .anyRole, .any⟩,
     ⟨0, 1, .w1c, .anyRole, .any⟩]⟩
def Reg.SNS_EVENT_EN : Nat := 0xe0000c
def Fld.SNS_EVENT_EN_state_done : Fld := ⟨Reg.SNS_EVENT_EN, 2, 1⟩
def Fld.SNS_EVENT_EN_overrange : Fld := ⟨Reg.SNS_EVENT_EN, 1, 1⟩
def Fld.SNS_EVENT_EN_stuck : Fld := ⟨Reg.SNS_EVENT_EN, 0, 1⟩
def Row.SNS_EVENT_EN : RegSpec :=
  ⟨0xe0000c, 1, 0, 1, 0, 0, false, false,
    [⟨2, 1, .rw, .anyRole, .any⟩,
     ⟨1, 1, .rw, .anyRole, .any⟩,
     ⟨0, 1, .rw, .anyRole, .any⟩]⟩
def Reg.SNS_STUCK : Nat := 0xe00010
def Fld.SNS_STUCK_stuck : Fld := ⟨Reg.SNS_STUCK, 0, 32⟩
def Row.SNS_STUCK : RegSpec :=
  ⟨0xe00010, 1, 0, 1, 0, 0, false, false,
    [⟨0, 32, .ro, .anyRole, .any⟩]⟩
def Reg.SNS_CONV_OVERLAP : Nat := 0xe00040
def Fld.SNS_CONV_OVERLAP_count : Fld := ⟨Reg.SNS_CONV_OVERLAP, 0, 32⟩
def Row.SNS_CONV_OVERLAP : RegSpec :=
  ⟨0xe00040, 1, 0, 1, 0, 0, false, false,
    [⟨0, 32, .rc, .anyRole, .any⟩]⟩
def Reg.SNS_STUCK_COUNT : Nat := 0xe00044
def Fld.SNS_STUCK_COUNT_count : Fld := ⟨Reg.SNS_STUCK_COUNT, 0, 32⟩
def Row.SNS_STUCK_COUNT : RegSpec :=
  ⟨0xe00044, 1, 0, 1, 0, 0, false, false,
    [⟨0, 32, .rc, .anyRole, .any⟩]⟩
def Reg.SNS_MCLK_CFG (i : Nat) : Nat := 0xe00080 + 4 * i
def Fld.SNS_MCLK_CFG_enable (i : Nat) : Fld := ⟨Reg.SNS_MCLK_CFG i, 31, 1⟩
def Fld.SNS_MCLK_CFG_ext_delay_ns (i : Nat) : Fld := ⟨Reg.SNS_MCLK_CFG i, 16, 8⟩
def Fld.SNS_MCLK_CFG_edge (i : Nat) : Fld := ⟨Reg.SNS_MCLK_CFG i, 8, 1⟩
def Fld.SNS_MCLK_CFG_rate (i : Nat) : Fld := ⟨Reg.SNS_MCLK_CFG i, 4, 2⟩
def Row.SNS_MCLK_CFG : RegSpec :=
  ⟨0xe00080, 4, 4, 1, 0, 0x120, false, false,
    [⟨31, 1, .rw, .installer, .any⟩,
     ⟨16, 8, .rw, .installer, .any⟩,
     ⟨8, 1, .rw, .installer, .any⟩,
     ⟨4, 2, .rw, .installer, (.code [(3, 2)])⟩]⟩
def Reg.SNS_CH_CFG (i : Nat) : Nat := 0xe01000 + 0x40 * i
def Fld.SNS_CH_CFG_on (i : Nat) : Fld := ⟨Reg.SNS_CH_CFG i, 31, 1⟩
def Fld.SNS_CH_CFG_domain (i : Nat) : Fld := ⟨Reg.SNS_CH_CFG i, 28, 3⟩
def Fld.SNS_CH_CFG_cycle_en (i : Nat) : Fld := ⟨Reg.SNS_CH_CFG i, 27, 1⟩
def Fld.SNS_CH_CFG_fil_conv (i : Nat) : Fld := ⟨Reg.SNS_CH_CFG i, 26, 1⟩
def Fld.SNS_CH_CFG_fil_cycle (i : Nat) : Fld := ⟨Reg.SNS_CH_CFG i, 25, 1⟩
def Fld.SNS_CH_CFG_fil_zc (i : Nat) : Fld := ⟨Reg.SNS_CH_CFG i, 24, 1⟩
def Fld.SNS_CH_CFG_fil_prove (i : Nat) : Fld := ⟨Reg.SNS_CH_CFG i, 23, 1⟩
def Fld.SNS_CH_CFG_osr (i : Nat) : Fld := ⟨Reg.SNS_CH_CFG i, 20, 2⟩
def Fld.SNS_CH_CFG_conv_samples (i : Nat) : Fld := ⟨Reg.SNS_CH_CFG i, 0, 12⟩
def Row.SNS_CH_CFG : RegSpec :=
  ⟨0xe01000, 32, 0x40, 1, 0, 0x300010, false, false,
    [⟨31, 1, .rw, .installer, .any⟩,
     ⟨28, 3, .rw, .installer, .any⟩,
     ⟨27, 1, .rw, .installer, .any⟩,
     ⟨26, 1, .rw, .installer, .any⟩,
     ⟨25, 1, .rw, .installer, .any⟩,
     ⟨24, 1, .rw, .installer, .any⟩,
     ⟨23, 1, .rw, .installer, .any⟩,
     ⟨20, 2, .rw, .installer, .any⟩,
     ⟨0, 12, .rw, .installer, (.range 1 4095)⟩]⟩
def Reg.SNS_ZC_CFG (i : Nat) : Nat := 0xe01004 + 0x40 * i
def Fld.SNS_ZC_CFG_hyst (i : Nat) : Fld := ⟨Reg.SNS_ZC_CFG i, 24, 8⟩
def Fld.SNS_ZC_CFG_level (i : Nat) : Fld := ⟨Reg.SNS_ZC_CFG i, 0, 24⟩
def Row.SNS_ZC_CFG : RegSpec :=
  ⟨0xe01004, 32, 0x40, 1, 0, 0x10000000, false, false,
    [⟨24, 8, .rw, .installer, (.range 1 255)⟩,
     ⟨0, 24, .rw, .installer, .any⟩]⟩
def Reg.SNS_SAMPLE (i : Nat) : Nat := 0xe01008 + 0x40 * i
def Fld.SNS_SAMPLE_sample (i : Nat) : Fld := ⟨Reg.SNS_SAMPLE i, 0, 24⟩
def Row.SNS_SAMPLE : RegSpec :=
  ⟨0xe01008, 32, 0x40, 1, 0, 0, false, false,
    [⟨0, 24, .ro, .anyRole, .any⟩]⟩
def Reg.SNS_STATUS (i : Nat) : Nat := 0xe0100c + 0x40 * i
def Fld.SNS_STATUS_conv_left (i : Nat) : Fld := ⟨Reg.SNS_STATUS i, 16, 16⟩
def Fld.SNS_STATUS_conv_busy (i : Nat) : Fld := ⟨Reg.SNS_STATUS i, 2, 1⟩
def Fld.SNS_STATUS_overrange (i : Nat) : Fld := ⟨Reg.SNS_STATUS i, 1, 1⟩
def Fld.SNS_STATUS_stuck (i : Nat) : Fld := ⟨Reg.SNS_STATUS i, 0, 1⟩
def Row.SNS_STATUS : RegSpec :=
  ⟨0xe0100c, 32, 0x40, 1, 0, 0, false, false,
    [⟨16, 16, .ro, .anyRole, .any⟩,
     ⟨2, 1, .ro, .anyRole, .any⟩,
     ⟨1, 1, .ro, .anyRole, .any⟩,
     ⟨0, 1, .ro, .anyRole, .any⟩]⟩
def Reg.SNS_RES_CONV (i : Nat) (j : Nat) : Nat := 0xe01010 + 0x40 * i + 4 * j
def Fld.SNS_RES_CONV_record (i : Nat) (j : Nat) : Fld := ⟨Reg.SNS_RES_CONV i j, 0, 32⟩
def Row.SNS_RES_CONV : RegSpec :=
  ⟨0xe01010, 32, 0x40, 4, 4, 0, false, false,
    [⟨0, 32, .ro, .anyRole, .any⟩]⟩
def Reg.SNS_RES_CYCLE (i : Nat) (j : Nat) : Nat := 0xe01020 + 0x40 * i + 4 * j
def Fld.SNS_RES_CYCLE_record (i : Nat) (j : Nat) : Fld := ⟨Reg.SNS_RES_CYCLE i j, 0, 32⟩
def Row.SNS_RES_CYCLE : RegSpec :=
  ⟨0xe01020, 32, 0x40, 4, 4, 0, false, false,
    [⟨0, 32, .ro, .anyRole, .any⟩]⟩
def Reg.SNS_RES_ZC (i : Nat) (j : Nat) : Nat := 0xe01030 + 0x40 * i + 4 * j
def Fld.SNS_RES_ZC_record (i : Nat) (j : Nat) : Fld := ⟨Reg.SNS_RES_ZC i j, 0, 32⟩
def Row.SNS_RES_ZC : RegSpec :=
  ⟨0xe01030, 32, 0x40, 4, 4, 0, false, false,
    [⟨0, 32, .ro, .anyRole, .any⟩]⟩

/-! ### DRV (R403; fields R404) -/

def Reg.DRV_CTRL : Nat := 0xe80000
def Fld.DRV_CTRL_state : Fld := ⟨Reg.DRV_CTRL, 1, 2⟩
def Fld.DRV_CTRL_enable : Fld := ⟨Reg.DRV_CTRL, 0, 1⟩
def Row.DRV_CTRL : RegSpec :=
  ⟨0xe80000, 1, 0, 1, 0, 0, true, false,
    [⟨1, 2, .ro, .anyRole, .any⟩,
     ⟨0, 1, .rw, .installer, .any⟩]⟩
def Reg.DRV_LEVEL : Nat := 0xe80004
def Fld.DRV_LEVEL_level : Fld := ⟨Reg.DRV_LEVEL, 0, 32⟩
def Row.DRV_LEVEL : RegSpec :=
  ⟨0xe80004, 1, 0, 1, 0, 0, false, false,
    [⟨0, 32, .rw, .anyRole, .any⟩]⟩
def Reg.DRV_CMD : Nat := 0xe80008
def Fld.DRV_CMD_level : Fld := ⟨Reg.DRV_CMD, 0, 32⟩
def Row.DRV_CMD : RegSpec :=
  ⟨0xe80008, 1, 0, 1, 0, 0, false, false,
    [⟨0, 32, .ro, .anyRole, .any⟩]⟩
def Reg.DRV_OUT : Nat := 0xe8000c
def Fld.DRV_OUT_level : Fld := ⟨Reg.DRV_OUT, 0, 32⟩
def Row.DRV_OUT : RegSpec :=
  ⟨0xe8000c, 1, 0, 1, 0, 0, false, false,
    [⟨0, 32, .ro, .anyRole, .any⟩]⟩
def Reg.DRV_PIN : Nat := 0xe80010
def Fld.DRV_PIN_level : Fld := ⟨Reg.DRV_PIN, 0, 32⟩
def Row.DRV_PIN : RegSpec :=
  ⟨0xe80010, 1, 0, 1, 0, 0, false, false,
    [⟨0, 32, .ro, .anyRole, .any⟩]⟩
def Reg.DRV_RB_FAULT : Nat := 0xe80014
def Fld.DRV_RB_FAULT_fault : Fld := ⟨Reg.DRV_RB_FAULT, 0, 32⟩
def Row.DRV_RB_FAULT : RegSpec :=
  ⟨0xe80014, 1, 0, 1, 0, 0, false, false,
    [⟨0, 32, .w1c, .anyRole, .any⟩]⟩
def Reg.DRV_PROVE_FAIL : Nat := 0xe80018
def Fld.DRV_PROVE_FAIL_fault : Fld := ⟨Reg.DRV_PROVE_FAIL, 0, 32⟩
def Row.DRV_PROVE_FAIL : RegSpec :=
  ⟨0xe80018, 1, 0, 1, 0, 0, false, false,
    [⟨0, 32, .w1c, .anyRole, .any⟩]⟩
def Reg.DRV_EVENT : Nat := 0xe8001c
def Fld.DRV_EVENT_state_done : Fld := ⟨Reg.DRV_EVENT, 2, 1⟩
def Fld.DRV_EVENT_prove_fail : Fld := ⟨Reg.DRV_EVENT, 1, 1⟩
def Fld.DRV_EVENT_rb_fault : Fld := ⟨Reg.DRV_EVENT, 0, 1⟩
def Row.DRV_EVENT : RegSpec :=
  ⟨0xe8001c, 1, 0, 1, 0, 0, false, false,
    [⟨2, 1, .w1c, .anyRole, .any⟩,
     ⟨1, 1, .w1c, .anyRole, .any⟩,
     ⟨0, 1, .w1c, .anyRole, .any⟩]⟩
def Reg.DRV_EVENT_EN : Nat := 0xe80020
def Fld.DRV_EVENT_EN_state_done : Fld := ⟨Reg.DRV_EVENT_EN, 2, 1⟩
def Fld.DRV_EVENT_EN_prove_fail : Fld := ⟨Reg.DRV_EVENT_EN, 1, 1⟩
def Fld.DRV_EVENT_EN_rb_fault : Fld := ⟨Reg.DRV_EVENT_EN, 0, 1⟩
def Row.DRV_EVENT_EN : RegSpec :=
  ⟨0xe80020, 1, 0, 1, 0, 0, false, false,
    [⟨2, 1, .rw, .anyRole, .any⟩,
     ⟨1, 1, .rw, .anyRole, .any⟩,
     ⟨0, 1, .rw, .anyRole, .any⟩]⟩
def Reg.DRV_IGNORED : Nat := 0xe80040
def Fld.DRV_IGNORED_count : Fld := ⟨Reg.DRV_IGNORED, 0, 32⟩
def Row.DRV_IGNORED : RegSpec :=
  ⟨0xe80040, 1, 0, 1, 0, 0, false, false,
    [⟨0, 32, .rc, .anyRole, .any⟩]⟩
def Reg.DRV_RB_COUNT : Nat := 0xe80044
def Fld.DRV_RB_COUNT_count : Fld := ⟨Reg.DRV_RB_COUNT, 0, 32⟩
def Row.DRV_RB_COUNT : RegSpec :=
  ⟨0xe80044, 1, 0, 1, 0, 0, false, false,
    [⟨0, 32, .rc, .anyRole, .any⟩]⟩
def Reg.DRV_PROVE_COUNT : Nat := 0xe80048
def Fld.DRV_PROVE_COUNT_count : Fld := ⟨Reg.DRV_PROVE_COUNT, 0, 32⟩
def Row.DRV_PROVE_COUNT : RegSpec :=
  ⟨0xe80048, 1, 0, 1, 0, 0, false, false,
    [⟨0, 32, .rc, .anyRole, .any⟩]⟩
def Reg.DRV_PROVE_ABANDONED : Nat := 0xe8004c
def Fld.DRV_PROVE_ABANDONED_count : Fld := ⟨Reg.DRV_PROVE_ABANDONED, 0, 32⟩
def Row.DRV_PROVE_ABANDONED : RegSpec :=
  ⟨0xe8004c, 1, 0, 1, 0, 0, false, false,
    [⟨0, 32, .rc, .anyRole, .any⟩]⟩
def Reg.DRV_CFG (i : Nat) : Nat := 0xe81000 + 0x20 * i
def Fld.DRV_CFG_safe (i : Nat) : Fld := ⟨Reg.DRV_CFG i, 20, 2⟩
def Fld.DRV_CFG_domain (i : Nat) : Fld := ⟨Reg.DRV_CFG i, 16, 3⟩
def Fld.DRV_CFG_rb_safe (i : Nat) : Fld := ⟨Reg.DRV_CFG i, 13, 1⟩
def Fld.DRV_CFG_rb_en (i : Nat) : Fld := ⟨Reg.DRV_CFG i, 12, 1⟩
def Fld.DRV_CFG_rb_delay_us (i : Nat) : Fld := ⟨Reg.DRV_CFG i, 4, 8⟩
def Fld.DRV_CFG_hold (i : Nat) : Fld := ⟨Reg.DRV_CFG i, 3, 1⟩
def Fld.DRV_CFG_role_gate (i : Nat) : Fld := ⟨Reg.DRV_CFG i, 2, 1⟩
def Fld.DRV_CFG_mode (i : Nat) : Fld := ⟨Reg.DRV_CFG i, 0, 2⟩
def Row.DRV_CFG : RegSpec :=
  ⟨0xe81000, 32, 0x20, 1, 0, 0x324, false, false,
    [⟨20, 2, .rw, .installer, (.code [(3, 0)])⟩,
     ⟨16, 3, .rw, .installer, .any⟩,
     ⟨13, 1, .rw, .installer, .any⟩,
     ⟨12, 1, .rw, .installer, .any⟩,
     ⟨4, 8, .rw, .installer, (.range 1 255)⟩,
     ⟨3, 1, .rw, .installer, .any⟩,
     ⟨2, 1, .rw, .installer, .any⟩,
     ⟨0, 2, .rw, .installer, .any⟩]⟩
def Reg.DRV_PHASE (i : Nat) : Nat := 0xe81004 + 0x20 * i
def Fld.DRV_PHASE_phase (i : Nat) : Fld := ⟨Reg.DRV_PHASE i, 0, 32⟩
def Row.DRV_PHASE : RegSpec :=
  ⟨0xe81004, 32, 0x20, 1, 0, 0, false, false,
    [⟨0, 32, .rw, .installer, .any⟩]⟩
def Reg.DRV_FLASH (i : Nat) : Nat := 0xe81008 + 0x20 * i
def Fld.DRV_FLASH_offset (i : Nat) : Fld := ⟨Reg.DRV_FLASH i, 20, 10⟩
def Fld.DRV_FLASH_off (i : Nat) : Fld := ⟨Reg.DRV_FLASH i, 10, 10⟩
def Fld.DRV_FLASH_on (i : Nat) : Fld := ⟨Reg.DRV_FLASH i, 0, 10⟩
def Row.DRV_FLASH : RegSpec :=
  ⟨0xe81008, 32, 0x20, 1, 0, 0x401, false, false,
    [⟨20, 10, .rw, .installer, .any⟩,
     ⟨10, 10, .rw, .installer, (.range 1 1023)⟩,
     ⟨0, 10, .rw, .installer, (.range 1 1023)⟩]⟩
def Reg.DRV_PROVE_CFG (i : Nat) : Nat := 0xe8100c + 0x20 * i
def Fld.DRV_PROVE_CFG_en (i : Nat) : Fld := ⟨Reg.DRV_PROVE_CFG i, 31, 1⟩
def Fld.DRV_PROVE_CFG_input (i : Nat) : Fld := ⟨Reg.DRV_PROVE_CFG i, 24, 5⟩
def Fld.DRV_PROVE_CFG_delay_ms (i : Nat) : Fld := ⟨Reg.DRV_PROVE_CFG i, 16, 8⟩
def Fld.DRV_PROVE_CFG_samples (i : Nat) : Fld := ⟨Reg.DRV_PROVE_CFG i, 0, 16⟩
def Row.DRV_PROVE_CFG : RegSpec :=
  ⟨0xe8100c, 32, 0x20, 1, 0, 0, false, false,
    [⟨31, 1, .rw, .installer, .any⟩,
     ⟨24, 5, .rw, .installer, .any⟩,
     ⟨16, 8, .rw, .installer, .any⟩,
     ⟨0, 16, .rw, .installer, (.range 1 65535)⟩]⟩
def Reg.DRV_PROVE_LO (i : Nat) : Nat := 0xe81010 + 0x20 * i
def Fld.DRV_PROVE_LO_limit (i : Nat) : Fld := ⟨Reg.DRV_PROVE_LO i, 0, 24⟩
def Row.DRV_PROVE_LO : RegSpec :=
  ⟨0xe81010, 32, 0x20, 1, 0, 0, false, false,
    [⟨0, 24, .rw, .installer, .any⟩]⟩
def Reg.DRV_PROVE_HI (i : Nat) : Nat := 0xe81014 + 0x20 * i
def Fld.DRV_PROVE_HI_limit (i : Nat) : Fld := ⟨Reg.DRV_PROVE_HI i, 0, 24⟩
def Row.DRV_PROVE_HI : RegSpec :=
  ⟨0xe81014, 32, 0x20, 1, 0, 0xffffff, false, false,
    [⟨0, 24, .rw, .installer, .any⟩]⟩
def Reg.DRV_PROVE_OFF (i : Nat) : Nat := 0xe81018 + 0x20 * i
def Fld.DRV_PROVE_OFF_limit (i : Nat) : Fld := ⟨Reg.DRV_PROVE_OFF i, 0, 24⟩
def Row.DRV_PROVE_OFF : RegSpec :=
  ⟨0xe81018, 32, 0x20, 1, 0, 0xffffff, false, false,
    [⟨0, 24, .rw, .installer, .any⟩]⟩
def Reg.DRV_PROVE_LAST (i : Nat) : Nat := 0xe8101c + 0x20 * i
def Fld.DRV_PROVE_LAST_valid (i : Nat) : Fld := ⟨Reg.DRV_PROVE_LAST i, 31, 1⟩
def Fld.DRV_PROVE_LAST_on (i : Nat) : Fld := ⟨Reg.DRV_PROVE_LAST i, 30, 1⟩
def Fld.DRV_PROVE_LAST_fail (i : Nat) : Fld := ⟨Reg.DRV_PROVE_LAST i, 29, 1⟩
def Fld.DRV_PROVE_LAST_count (i : Nat) : Fld := ⟨Reg.DRV_PROVE_LAST i, 24, 5⟩
def Fld.DRV_PROVE_LAST_rms (i : Nat) : Fld := ⟨Reg.DRV_PROVE_LAST i, 0, 24⟩
def Row.DRV_PROVE_LAST : RegSpec :=
  ⟨0xe8101c, 32, 0x20, 1, 0, 0, false, false,
    [⟨31, 1, .ro, .anyRole, .any⟩,
     ⟨30, 1, .ro, .anyRole, .any⟩,
     ⟨29, 1, .ro, .anyRole, .any⟩,
     ⟨24, 5, .ro, .anyRole, .any⟩,
     ⟨0, 24, .ro, .anyRole, .any⟩]⟩

/-! ### HST (R437; fields R438) -/

def Reg.HST_LINK : Nat := 0x20000
def Fld.HST_LINK_dstate : Fld := ⟨Reg.HST_LINK, 10, 2⟩
def Fld.HST_LINK_speed : Fld := ⟨Reg.HST_LINK, 8, 2⟩
def Fld.HST_LINK_width : Fld := ⟨Reg.HST_LINK, 4, 3⟩
def Fld.HST_LINK_fn_mask : Fld := ⟨Reg.HST_LINK, 3, 1⟩
def Fld.HST_LINK_msix_en : Fld := ⟨Reg.HST_LINK, 2, 1⟩
def Fld.HST_LINK_bme : Fld := ⟨Reg.HST_LINK, 1, 1⟩
def Fld.HST_LINK_up : Fld := ⟨Reg.HST_LINK, 0, 1⟩
def Row.HST_LINK : RegSpec :=
  ⟨0x20000, 1, 0, 1, 0, 0, false, false,
    [⟨10, 2, .ro, .anyRole, .any⟩,
     ⟨8, 2, .ro, .anyRole, .any⟩,
     ⟨4, 3, .ro, .anyRole, .any⟩,
     ⟨3, 1, .ro, .anyRole, .any⟩,
     ⟨2, 1, .ro, .anyRole, .any⟩,
     ⟨1, 1, .ro, .anyRole, .any⟩,
     ⟨0, 1, .ro, .anyRole, .any⟩]⟩
def Reg.HST_EVENT : Nat := 0x20004
def Fld.HST_EVENT_d3hot : Fld := ⟨Reg.HST_EVENT, 4, 1⟩
def Fld.HST_EVENT_dma_error : Fld := ⟨Reg.HST_EVENT, 3, 1⟩
def Fld.HST_EVENT_flr : Fld := ⟨Reg.HST_EVENT, 2, 1⟩
def Fld.HST_EVENT_link_down : Fld := ⟨Reg.HST_EVENT, 1, 1⟩
def Fld.HST_EVENT_wdog : Fld := ⟨Reg.HST_EVENT, 0, 1⟩
def Row.HST_EVENT : RegSpec :=
  ⟨0x20004, 1, 0, 1, 0, 0, false, false,
    [⟨4, 1, .w1c, .anyRole, .any⟩,
     ⟨3, 1, .w1c, .anyRole, .any⟩,
     ⟨2, 1, .w1c, .anyRole, .any⟩,
     ⟨1, 1, .w1c, .anyRole, .any⟩,
     ⟨0, 1, .w1c, .anyRole, .any⟩]⟩
def Reg.HST_EVENT_EN : Nat := 0x20008
def Fld.HST_EVENT_EN_d3hot : Fld := ⟨Reg.HST_EVENT_EN, 4, 1⟩
def Fld.HST_EVENT_EN_dma_error : Fld := ⟨Reg.HST_EVENT_EN, 3, 1⟩
def Fld.HST_EVENT_EN_flr : Fld := ⟨Reg.HST_EVENT_EN, 2, 1⟩
def Fld.HST_EVENT_EN_link_down : Fld := ⟨Reg.HST_EVENT_EN, 1, 1⟩
def Fld.HST_EVENT_EN_wdog : Fld := ⟨Reg.HST_EVENT_EN, 0, 1⟩
def Row.HST_EVENT_EN : RegSpec :=
  ⟨0x20008, 1, 0, 1, 0, 0, false, false,
    [⟨4, 1, .rw, .anyRole, .any⟩,
     ⟨3, 1, .rw, .anyRole, .any⟩,
     ⟨2, 1, .rw, .anyRole, .any⟩,
     ⟨1, 1, .rw, .anyRole, .any⟩,
     ⟨0, 1, .rw, .anyRole, .any⟩]⟩
def Reg.HST_MISC_CAUSE : Nat := 0x20010
def Fld.HST_MISC_CAUSE_cause : Fld := ⟨Reg.HST_MISC_CAUSE, 0, 23⟩
def Row.HST_MISC_CAUSE : RegSpec :=
  ⟨0x20010, 1, 0, 1, 0, 0, false, false,
    [⟨0, 23, .ro, .anyRole, .any⟩]⟩
def Reg.HST_MISC_VEC0 : Nat := 0x20014
def Fld.HST_MISC_VEC0_vec9 : Fld := ⟨Reg.HST_MISC_VEC0, 27, 3⟩
def Fld.HST_MISC_VEC0_vec8 : Fld := ⟨Reg.HST_MISC_VEC0, 24, 3⟩
def Fld.HST_MISC_VEC0_vec7 : Fld := ⟨Reg.HST_MISC_VEC0, 21, 3⟩
def Fld.HST_MISC_VEC0_vec6 : Fld := ⟨Reg.HST_MISC_VEC0, 18, 3⟩
def Fld.HST_MISC_VEC0_vec5 : Fld := ⟨Reg.HST_MISC_VEC0, 15, 3⟩
def Fld.HST_MISC_VEC0_vec4 : Fld := ⟨Reg.HST_MISC_VEC0, 12, 3⟩
def Fld.HST_MISC_VEC0_vec3 : Fld := ⟨Reg.HST_MISC_VEC0, 9, 3⟩
def Fld.HST_MISC_VEC0_vec2 : Fld := ⟨Reg.HST_MISC_VEC0, 6, 3⟩
def Fld.HST_MISC_VEC0_vec1 : Fld := ⟨Reg.HST_MISC_VEC0, 3, 3⟩
def Fld.HST_MISC_VEC0_vec0 : Fld := ⟨Reg.HST_MISC_VEC0, 0, 3⟩
def Row.HST_MISC_VEC0 : RegSpec :=
  ⟨0x20014, 1, 0, 1, 0, 0, false, false,
    [⟨27, 3, .rw, .anyRole, .any⟩,
     ⟨24, 3, .rw, .anyRole, .any⟩,
     ⟨21, 3, .rw, .anyRole, .any⟩,
     ⟨18, 3, .rw, .anyRole, .any⟩,
     ⟨15, 3, .rw, .anyRole, .any⟩,
     ⟨12, 3, .rw, .anyRole, .any⟩,
     ⟨9, 3, .rw, .anyRole, .any⟩,
     ⟨6, 3, .rw, .anyRole, .any⟩,
     ⟨3, 3, .rw, .anyRole, .any⟩,
     ⟨0, 3, .rw, .anyRole, .any⟩]⟩
def Reg.HST_MISC_VEC1 : Nat := 0x20018
def Fld.HST_MISC_VEC1_vec9 : Fld := ⟨Reg.HST_MISC_VEC1, 27, 3⟩
def Fld.HST_MISC_VEC1_vec8 : Fld := ⟨Reg.HST_MISC_VEC1, 24, 3⟩
def Fld.HST_MISC_VEC1_vec7 : Fld := ⟨Reg.HST_MISC_VEC1, 21, 3⟩
def Fld.HST_MISC_VEC1_vec6 : Fld := ⟨Reg.HST_MISC_VEC1, 18, 3⟩
def Fld.HST_MISC_VEC1_vec5 : Fld := ⟨Reg.HST_MISC_VEC1, 15, 3⟩
def Fld.HST_MISC_VEC1_vec4 : Fld := ⟨Reg.HST_MISC_VEC1, 12, 3⟩
def Fld.HST_MISC_VEC1_vec3 : Fld := ⟨Reg.HST_MISC_VEC1, 9, 3⟩
def Fld.HST_MISC_VEC1_vec2 : Fld := ⟨Reg.HST_MISC_VEC1, 6, 3⟩
def Fld.HST_MISC_VEC1_vec1 : Fld := ⟨Reg.HST_MISC_VEC1, 3, 3⟩
def Fld.HST_MISC_VEC1_vec0 : Fld := ⟨Reg.HST_MISC_VEC1, 0, 3⟩
def Row.HST_MISC_VEC1 : RegSpec :=
  ⟨0x20018, 1, 0, 1, 0, 0, false, false,
    [⟨27, 3, .rw, .anyRole, .any⟩,
     ⟨24, 3, .rw, .anyRole, .any⟩,
     ⟨21, 3, .rw, .anyRole, .any⟩,
     ⟨18, 3, .rw, .anyRole, .any⟩,
     ⟨15, 3, .rw, .anyRole, .any⟩,
     ⟨12, 3, .rw, .anyRole, .any⟩,
     ⟨9, 3, .rw, .anyRole, .any⟩,
     ⟨6, 3, .rw, .anyRole, .any⟩,
     ⟨3, 3, .rw, .anyRole, .any⟩,
     ⟨0, 3, .rw, .anyRole, .any⟩]⟩
def Reg.HST_MISC_VEC2 : Nat := 0x2001c
def Fld.HST_MISC_VEC2_vec2 : Fld := ⟨Reg.HST_MISC_VEC2, 6, 3⟩
def Fld.HST_MISC_VEC2_vec1 : Fld := ⟨Reg.HST_MISC_VEC2, 3, 3⟩
def Fld.HST_MISC_VEC2_vec0 : Fld := ⟨Reg.HST_MISC_VEC2, 0, 3⟩
def Row.HST_MISC_VEC2 : RegSpec :=
  ⟨0x2001c, 1, 0, 1, 0, 0, false, false,
    [⟨6, 3, .rw, .anyRole, .any⟩,
     ⟨3, 3, .rw, .anyRole, .any⟩,
     ⟨0, 3, .rw, .anyRole, .any⟩]⟩
def Reg.HST_MISC_ACK : Nat := 0x20020
def Fld.HST_MISC_ACK_ack : Fld := ⟨Reg.HST_MISC_ACK, 0, 8⟩
def Row.HST_MISC_ACK : RegSpec :=
  ⟨0x20020, 1, 0, 1, 0, 0, false, false,
    [⟨0, 8, .wo, .anyRole, .any⟩]⟩
def Reg.HST_RX_MAP_LO : Nat := 0x20030
def Fld.HST_RX_MAP_LO_ring3 : Fld := ⟨Reg.HST_RX_MAP_LO, 24, 6⟩
def Fld.HST_RX_MAP_LO_ring2 : Fld := ⟨Reg.HST_RX_MAP_LO, 16, 6⟩
def Fld.HST_RX_MAP_LO_ring1 : Fld := ⟨Reg.HST_RX_MAP_LO, 8, 6⟩
def Fld.HST_RX_MAP_LO_ring0 : Fld := ⟨Reg.HST_RX_MAP_LO, 0, 6⟩
def Row.HST_RX_MAP_LO : RegSpec :=
  ⟨0x20030, 1, 0, 1, 0, 0, false, false,
    [⟨24, 6, .rw, .anyRole, .any⟩,
     ⟨16, 6, .rw, .anyRole, .any⟩,
     ⟨8, 6, .rw, .anyRole, .any⟩,
     ⟨0, 6, .rw, .anyRole, .any⟩]⟩
def Reg.HST_RX_MAP_HI : Nat := 0x20034
def Fld.HST_RX_MAP_HI_ring3 : Fld := ⟨Reg.HST_RX_MAP_HI, 24, 6⟩
def Fld.HST_RX_MAP_HI_ring2 : Fld := ⟨Reg.HST_RX_MAP_HI, 16, 6⟩
def Fld.HST_RX_MAP_HI_ring1 : Fld := ⟨Reg.HST_RX_MAP_HI, 8, 6⟩
def Fld.HST_RX_MAP_HI_ring0 : Fld := ⟨Reg.HST_RX_MAP_HI, 0, 6⟩
def Row.HST_RX_MAP_HI : RegSpec :=
  ⟨0x20034, 1, 0, 1, 0, 0, false, false,
    [⟨24, 6, .rw, .anyRole, .any⟩,
     ⟨16, 6, .rw, .anyRole, .any⟩,
     ⟨8, 6, .rw, .anyRole, .any⟩,
     ⟨0, 6, .rw, .anyRole, .any⟩]⟩
def Reg.HST_WDOG_CTRL : Nat := 0x20040
def Fld.HST_WDOG_CTRL_timeout_ms : Fld := ⟨Reg.HST_WDOG_CTRL, 16, 14⟩
def Fld.HST_WDOG_CTRL_resign : Fld := ⟨Reg.HST_WDOG_CTRL, 1, 1⟩
def Fld.HST_WDOG_CTRL_enable : Fld := ⟨Reg.HST_WDOG_CTRL, 0, 1⟩
def Row.HST_WDOG_CTRL : RegSpec :=
  ⟨0x20040, 1, 0, 1, 0, 0x3e80002, true, false,
    [⟨16, 14, .rw, .installer, (.range 1 10000)⟩,
     ⟨1, 1, .rw, .installer, .any⟩,
     ⟨0, 1, .rw, .installer, .any⟩]⟩
def Reg.HST_WDOG_STATUS : Nat := 0x20044
def Fld.HST_WDOG_STATUS_expired : Fld := ⟨Reg.HST_WDOG_STATUS, 31, 1⟩
def Fld.HST_WDOG_STATUS_left_ms : Fld := ⟨Reg.HST_WDOG_STATUS, 0, 14⟩
def Row.HST_WDOG_STATUS : RegSpec :=
  ⟨0x20044, 1, 0, 1, 0, 0, true, false,
    [⟨31, 1, .ro, .anyRole, .any⟩,
     ⟨0, 14, .ro, .anyRole, .any⟩]⟩
def Reg.HST_ERR_ADDR_LO : Nat := 0x20050
def Fld.HST_ERR_ADDR_LO_addr : Fld := ⟨Reg.HST_ERR_ADDR_LO, 0, 32⟩
def Row.HST_ERR_ADDR_LO : RegSpec :=
  ⟨0x20050, 1, 0, 1, 0, 0, false, false,
    [⟨0, 32, .ro, .anyRole, .any⟩]⟩
def Reg.HST_ERR_ADDR_HI : Nat := 0x20054
def Fld.HST_ERR_ADDR_HI_addr : Fld := ⟨Reg.HST_ERR_ADDR_HI, 0, 32⟩
def Row.HST_ERR_ADDR_HI : RegSpec :=
  ⟨0x20054, 1, 0, 1, 0, 0, false, false,
    [⟨0, 32, .ro, .anyRole, .any⟩]⟩
def Reg.HST_ERR_INFO : Nat := 0x20058
def Fld.HST_ERR_INFO_cpl : Fld := ⟨Reg.HST_ERR_INFO, 12, 3⟩
def Fld.HST_ERR_INFO_kind : Fld := ⟨Reg.HST_ERR_INFO, 8, 2⟩
def Fld.HST_ERR_INFO_ring : Fld := ⟨Reg.HST_ERR_INFO, 0, 6⟩
def Row.HST_ERR_INFO : RegSpec :=
  ⟨0x20058, 1, 0, 1, 0, 0, false, false,
    [⟨12, 3, .ro, .anyRole, .any⟩,
     ⟨8, 2, .ro, .anyRole, .any⟩,
     ⟨0, 6, .ro, .anyRole, .any⟩]⟩
def Reg.HST_DMA_ERRORS : Nat := 0x20060
def Fld.HST_DMA_ERRORS_count : Fld := ⟨Reg.HST_DMA_ERRORS, 0, 32⟩
def Row.HST_DMA_ERRORS : RegSpec :=
  ⟨0x20060, 1, 0, 1, 0, 0, false, false,
    [⟨0, 32, .rc, .anyRole, .any⟩]⟩

/-! ### RNG (R439; fields R440) -/

def Reg.RNG_CTRL (i : Nat) : Nat := 0x40000 + 0x40 * i
def Fld.RNG_CTRL_err (i : Nat) : Fld := ⟨Reg.RNG_CTRL i, 18, 2⟩
def Fld.RNG_CTRL_prod_gen (i : Nat) : Fld := ⟨Reg.RNG_CTRL i, 17, 1⟩
def Fld.RNG_CTRL_cons_gen (i : Nat) : Fld := ⟨Reg.RNG_CTRL i, 16, 1⟩
def Fld.RNG_CTRL_size_log (i : Nat) : Fld := ⟨Reg.RNG_CTRL i, 8, 5⟩
def Fld.RNG_CTRL_type (i : Nat) : Fld := ⟨Reg.RNG_CTRL i, 4, 2⟩
def Fld.RNG_CTRL_state (i : Nat) : Fld := ⟨Reg.RNG_CTRL i, 1, 2⟩
def Fld.RNG_CTRL_enable (i : Nat) : Fld := ⟨Reg.RNG_CTRL i, 0, 1⟩
def Row.RNG_CTRL : RegSpec :=
  ⟨0x40000, 64, 0x40, 1, 0, 0x400, true, false,
    [⟨18, 2, .ro, .anyRole, .any⟩,
     ⟨17, 1, .ro, .anyRole, .any⟩,
     ⟨16, 1, .ro, .anyRole, .any⟩,
     ⟨8, 5, .rw, .anyRole, (.range 4 16)⟩,
     ⟨4, 2, .rw, .anyRole, .any⟩,
     ⟨1, 2, .ro, .anyRole, .any⟩,
     ⟨0, 1, .rw, .anyRole, .any⟩]⟩
def Reg.RNG_BASE_LO (i : Nat) : Nat := 0x40004 + 0x40 * i
def Fld.RNG_BASE_LO_base (i : Nat) : Fld := ⟨Reg.RNG_BASE_LO i, 0, 32⟩
def Row.RNG_BASE_LO : RegSpec :=
  ⟨0x40004, 64, 0x40, 1, 0, 0, false, false,
    [⟨0, 32, .rw, .anyRole, (.zeroLow 12)⟩]⟩
def Reg.RNG_BASE_HI (i : Nat) : Nat := 0x40008 + 0x40 * i
def Fld.RNG_BASE_HI_base (i : Nat) : Fld := ⟨Reg.RNG_BASE_HI i, 0, 32⟩
def Row.RNG_BASE_HI : RegSpec :=
  ⟨0x40008, 64, 0x40, 1, 0, 0, false, false,
    [⟨0, 32, .rw, .anyRole, .any⟩]⟩
def Reg.RNG_CFG (i : Nat) : Nat := 0x4000c + 0x40 * i
def Fld.RNG_CFG_min_cells (i : Nat) : Fld := ⟨Reg.RNG_CFG i, 16, 14⟩
def Fld.RNG_CFG_prio (i : Nat) : Fld := ⟨Reg.RNG_CFG i, 4, 3⟩
def Fld.RNG_CFG_policy (i : Nat) : Fld := ⟨Reg.RNG_CFG i, 0, 1⟩
def Row.RNG_CFG : RegSpec :=
  ⟨0x4000c, 64, 0x40, 1, 0, 0, false, false,
    [⟨16, 14, .rw, .anyRole, .any⟩,
     ⟨4, 3, .rw, .anyRole, .any⟩,
     ⟨0, 1, .rw, .anyRole, .any⟩]⟩
def Reg.RNG_MOD (i : Nat) : Nat := 0x40010 + 0x40 * i
def Fld.RNG_MOD_timer_us (i : Nat) : Fld := ⟨Reg.RNG_MOD i, 16, 10⟩
def Fld.RNG_MOD_count (i : Nat) : Fld := ⟨Reg.RNG_MOD i, 0, 8⟩
def Row.RNG_MOD : RegSpec :=
  ⟨0x40010, 64, 0x40, 1, 0, 1, false, false,
    [⟨16, 10, .rw, .anyRole, (.range 0 1000)⟩,
     ⟨0, 8, .rw, .anyRole, (.range 1 255)⟩]⟩
def Reg.RNG_STALL_WAIT (i : Nat) : Nat := 0x40014 + 0x40 * i
def Fld.RNG_STALL_WAIT_us (i : Nat) : Fld := ⟨Reg.RNG_STALL_WAIT i, 0, 10⟩
def Row.RNG_STALL_WAIT : RegSpec :=
  ⟨0x40014, 64, 0x40, 1, 0, 0, false, false,
    [⟨0, 10, .rw, .anyRole, (.range 0 1000)⟩]⟩
def Reg.RNG_STATUS (i : Nat) : Nat := 0x40018 + 0x40 * i
def Fld.RNG_STATUS_prod (i : Nat) : Fld := ⟨Reg.RNG_STATUS i, 16, 16⟩
def Fld.RNG_STATUS_cons (i : Nat) : Fld := ⟨Reg.RNG_STATUS i, 0, 16⟩
def Row.RNG_STATUS : RegSpec :=
  ⟨0x40018, 64, 0x40, 1, 0, 0, false, false,
    [⟨16, 16, .ro, .anyRole, .any⟩,
     ⟨0, 16, .ro, .anyRole, .any⟩]⟩
def Reg.RNG_FRAMES (i : Nat) : Nat := 0x40020 + 0x40 * i
def Fld.RNG_FRAMES_count (i : Nat) : Fld := ⟨Reg.RNG_FRAMES i, 0, 32⟩
def Row.RNG_FRAMES : RegSpec :=
  ⟨0x40020, 64, 0x40, 1, 0, 0, false, false,
    [⟨0, 32, .rc, .anyRole, .any⟩]⟩
def Reg.RNG_DROPS (i : Nat) : Nat := 0x40024 + 0x40 * i
def Fld.RNG_DROPS_count (i : Nat) : Fld := ⟨Reg.RNG_DROPS i, 0, 32⟩
def Row.RNG_DROPS : RegSpec :=
  ⟨0x40024, 64, 0x40, 1, 0, 0, false, false,
    [⟨0, 32, .rc, .anyRole, .any⟩]⟩
def Reg.RNG_DISCARDS (i : Nat) : Nat := 0x40028 + 0x40 * i
def Fld.RNG_DISCARDS_count (i : Nat) : Fld := ⟨Reg.RNG_DISCARDS i, 0, 32⟩
def Row.RNG_DISCARDS : RegSpec :=
  ⟨0x40028, 64, 0x40, 1, 0, 0, false, false,
    [⟨0, 32, .rc, .anyRole, .any⟩]⟩
def Reg.RNG_LATE_DOORBELL (i : Nat) : Nat := 0x4002c + 0x40 * i
def Fld.RNG_LATE_DOORBELL_count (i : Nat) : Fld := ⟨Reg.RNG_LATE_DOORBELL i, 0, 32⟩
def Row.RNG_LATE_DOORBELL : RegSpec :=
  ⟨0x4002c, 64, 0x40, 1, 0, 0, false, false,
    [⟨0, 32, .rc, .anyRole, .any⟩]⟩
def Reg.RNG_BAD_DOORBELL (i : Nat) : Nat := 0x40030 + 0x40 * i
def Fld.RNG_BAD_DOORBELL_count (i : Nat) : Fld := ⟨Reg.RNG_BAD_DOORBELL i, 0, 32⟩
def Row.RNG_BAD_DOORBELL : RegSpec :=
  ⟨0x40030, 64, 0x40, 1, 0, 0, false, false,
    [⟨0, 32, .rc, .anyRole, .any⟩]⟩
def Reg.RNG_EVENT : Nat := 0x41000
def Fld.RNG_EVENT_state_done : Fld := ⟨Reg.RNG_EVENT, 5, 1⟩
def Fld.RNG_EVENT_event_lost : Fld := ⟨Reg.RNG_EVENT, 4, 1⟩
def Fld.RNG_EVENT_drop : Fld := ⟨Reg.RNG_EVENT, 3, 1⟩
def Fld.RNG_EVENT_discard : Fld := ⟨Reg.RNG_EVENT, 2, 1⟩
def Fld.RNG_EVENT_fetch_error : Fld := ⟨Reg.RNG_EVENT, 1, 1⟩
def Fld.RNG_EVENT_bad_doorbell : Fld := ⟨Reg.RNG_EVENT, 0, 1⟩
def Row.RNG_EVENT : RegSpec :=
  ⟨0x41000, 1, 0, 1, 0, 0, false, false,
    [⟨5, 1, .w1c, .anyRole, .any⟩,
     ⟨4, 1, .w1c, .anyRole, .any⟩,
     ⟨3, 1, .w1c, .anyRole, .any⟩,
     ⟨2, 1, .w1c, .anyRole, .any⟩,
     ⟨1, 1, .w1c, .anyRole, .any⟩,
     ⟨0, 1, .w1c, .anyRole, .any⟩]⟩
def Reg.RNG_EVENT_EN : Nat := 0x41004
def Fld.RNG_EVENT_EN_state_done : Fld := ⟨Reg.RNG_EVENT_EN, 5, 1⟩
def Fld.RNG_EVENT_EN_event_lost : Fld := ⟨Reg.RNG_EVENT_EN, 4, 1⟩
def Fld.RNG_EVENT_EN_drop : Fld := ⟨Reg.RNG_EVENT_EN, 3, 1⟩
def Fld.RNG_EVENT_EN_discard : Fld := ⟨Reg.RNG_EVENT_EN, 2, 1⟩
def Fld.RNG_EVENT_EN_fetch_error : Fld := ⟨Reg.RNG_EVENT_EN, 1, 1⟩
def Fld.RNG_EVENT_EN_bad_doorbell : Fld := ⟨Reg.RNG_EVENT_EN, 0, 1⟩
def Row.RNG_EVENT_EN : RegSpec :=
  ⟨0x41004, 1, 0, 1, 0, 0, false, false,
    [⟨5, 1, .rw, .anyRole, .any⟩,
     ⟨4, 1, .rw, .anyRole, .any⟩,
     ⟨3, 1, .rw, .anyRole, .any⟩,
     ⟨2, 1, .rw, .anyRole, .any⟩,
     ⟨1, 1, .rw, .anyRole, .any⟩,
     ⟨0, 1, .rw, .anyRole, .any⟩]⟩
def Reg.RNG_EVENT_RING_LO : Nat := 0x41008
def Fld.RNG_EVENT_RING_LO_ring : Fld := ⟨Reg.RNG_EVENT_RING_LO, 0, 32⟩
def Row.RNG_EVENT_RING_LO : RegSpec :=
  ⟨0x41008, 1, 0, 1, 0, 0, false, false,
    [⟨0, 32, .w1c, .anyRole, .any⟩]⟩
def Reg.RNG_EVENT_RING_HI : Nat := 0x4100c
def Fld.RNG_EVENT_RING_HI_ring : Fld := ⟨Reg.RNG_EVENT_RING_HI, 0, 32⟩
def Row.RNG_EVENT_RING_HI : RegSpec :=
  ⟨0x4100c, 1, 0, 1, 0, 0, false, false,
    [⟨0, 32, .w1c, .anyRole, .any⟩]⟩

/-! ### LBB (R463; fields R464) -/

def Reg.LBB_CTRL : Nat := 0xf00000
def Fld.LBB_CTRL_cpl_timeout_us : Fld := ⟨Reg.LBB_CTRL, 24, 7⟩
def Fld.LBB_CTRL_rdy_limit_us : Fld := ⟨Reg.LBB_CTRL, 16, 7⟩
def Fld.LBB_CTRL_state : Fld := ⟨Reg.LBB_CTRL, 1, 2⟩
def Fld.LBB_CTRL_enable : Fld := ⟨Reg.LBB_CTRL, 0, 1⟩
def Row.LBB_CTRL : RegSpec :=
  ⟨0xf00000, 1, 0, 1, 0, 0xa0a0000, true, false,
    [⟨24, 7, .rw, .installer, (.range 1 100)⟩,
     ⟨16, 7, .rw, .installer, (.range 1 100)⟩,
     ⟨1, 2, .ro, .anyRole, .any⟩,
     ⟨0, 1, .rw, .installer, .any⟩]⟩
def Reg.LBB_STATUS : Nat := 0xf00004
def Fld.LBB_STATUS_wfifo_free : Fld := ⟨Reg.LBB_STATUS, 24, 6⟩
def Fld.LBB_STATUS_tags_busy : Fld := ⟨Reg.LBB_STATUS, 16, 4⟩
def Fld.LBB_STATUS_clasp : Fld := ⟨Reg.LBB_STATUS, 12, 2⟩
def Fld.LBB_STATUS_owner : Fld := ⟨Reg.LBB_STATUS, 8, 2⟩
def Row.LBB_STATUS : RegSpec :=
  ⟨0xf00004, 1, 0, 1, 0, 0, false, false,
    [⟨24, 6, .ro, .anyRole, .any⟩,
     ⟨16, 4, .ro, .anyRole, .any⟩,
     ⟨12, 2, .ro, .anyRole, .any⟩,
     ⟨8, 2, .ro, .anyRole, .any⟩]⟩
def Reg.LBB_ARB : Nat := 0xf00008
def Fld.LBB_ARB_tenure_us : Fld := ⟨Reg.LBB_ARB, 8, 8⟩
def Fld.LBB_ARB_master_en : Fld := ⟨Reg.LBB_ARB, 0, 1⟩
def Row.LBB_ARB : RegSpec :=
  ⟨0xf00008, 1, 0, 1, 0, 0x1400, false, false,
    [⟨8, 8, .rw, .installer, (.range 1 100)⟩,
     ⟨0, 1, .rw, .installer, .any⟩]⟩
def Reg.LBB_CLASP_CTRL : Nat := 0xf0000c
def Fld.LBB_CLASP_CTRL_max_us : Fld := ⟨Reg.LBB_CLASP_CTRL, 16, 8⟩
def Fld.LBB_CLASP_CTRL_release : Fld := ⟨Reg.LBB_CLASP_CTRL, 1, 1⟩
def Fld.LBB_CLASP_CTRL_acquire : Fld := ⟨Reg.LBB_CLASP_CTRL, 0, 1⟩
def Row.LBB_CLASP_CTRL : RegSpec :=
  ⟨0xf0000c, 1, 0, 1, 0, 0, false, false,
    [⟨16, 8, .wo, .anyRole, (.range 1 100)⟩,
     ⟨1, 1, .wo, .anyRole, .any⟩,
     ⟨0, 1, .wo, .anyRole, .any⟩]⟩
def Reg.LBB_INB_CFG : Nat := 0xf00010
def Fld.LBB_INB_CFG_parity : Fld := ⟨Reg.LBB_INB_CFG, 1, 1⟩
def Fld.LBB_INB_CFG_enable : Fld := ⟨Reg.LBB_INB_CFG, 0, 1⟩
def Row.LBB_INB_CFG : RegSpec :=
  ⟨0xf00010, 1, 0, 1, 0, 0, false, false,
    [⟨1, 1, .rw, .installer, .any⟩,
     ⟨0, 1, .rw, .installer, .any⟩]⟩
def Reg.LBB_INB_BASE_LO : Nat := 0xf00014
def Fld.LBB_INB_BASE_LO_base : Fld := ⟨Reg.LBB_INB_BASE_LO, 0, 32⟩
def Row.LBB_INB_BASE_LO : RegSpec :=
  ⟨0xf00014, 1, 0, 1, 0, 0, false, false,
    [⟨0, 32, .rw, .installer, (.zeroLow 24)⟩]⟩
def Reg.LBB_INB_BASE_HI : Nat := 0xf00018
def Fld.LBB_INB_BASE_HI_base : Fld := ⟨Reg.LBB_INB_BASE_HI, 0, 32⟩
def Row.LBB_INB_BASE_HI : RegSpec :=
  ⟨0xf00018, 1, 0, 1, 0, 0, false, false,
    [⟨0, 32, .rw, .installer, .any⟩]⟩
def Reg.LBB_IRQ_CFG : Nat := 0xf0001c
def Fld.LBB_IRQ_CFG_falling : Fld := ⟨Reg.LBB_IRQ_CFG, 24, 8⟩
def Fld.LBB_IRQ_CFG_vec7 : Fld := ⟨Reg.LBB_IRQ_CFG, 21, 3⟩
def Fld.LBB_IRQ_CFG_vec6 : Fld := ⟨Reg.LBB_IRQ_CFG, 18, 3⟩
def Fld.LBB_IRQ_CFG_vec5 : Fld := ⟨Reg.LBB_IRQ_CFG, 15, 3⟩
def Fld.LBB_IRQ_CFG_vec4 : Fld := ⟨Reg.LBB_IRQ_CFG, 12, 3⟩
def Fld.LBB_IRQ_CFG_vec3 : Fld := ⟨Reg.LBB_IRQ_CFG, 9, 3⟩
def Fld.LBB_IRQ_CFG_vec2 : Fld := ⟨Reg.LBB_IRQ_CFG, 6, 3⟩
def Fld.LBB_IRQ_CFG_vec1 : Fld := ⟨Reg.LBB_IRQ_CFG, 3, 3⟩
def Fld.LBB_IRQ_CFG_vec0 : Fld := ⟨Reg.LBB_IRQ_CFG, 0, 3⟩
def Row.LBB_IRQ_CFG : RegSpec :=
  ⟨0xf0001c, 1, 0, 1, 0, 0, false, false,
    [⟨24, 8, .rw, .installer, .any⟩,
     ⟨21, 3, .rw, .installer, .any⟩,
     ⟨18, 3, .rw, .installer, .any⟩,
     ⟨15, 3, .rw, .installer, .any⟩,
     ⟨12, 3, .rw, .installer, .any⟩,
     ⟨9, 3, .rw, .installer, .any⟩,
     ⟨6, 3, .rw, .installer, .any⟩,
     ⟨3, 3, .rw, .installer, .any⟩,
     ⟨0, 3, .rw, .installer, .any⟩]⟩
def Reg.LBB_IRQ_EN : Nat := 0xf00020
def Fld.LBB_IRQ_EN_en : Fld := ⟨Reg.LBB_IRQ_EN, 0, 8⟩
def Row.LBB_IRQ_EN : RegSpec :=
  ⟨0xf00020, 1, 0, 1, 0, 0, false, false,
    [⟨0, 8, .rw, .anyRole, .any⟩]⟩
def Reg.LBB_IRQ_EVENT : Nat := 0xf00024
def Fld.LBB_IRQ_EVENT_edge : Fld := ⟨Reg.LBB_IRQ_EVENT, 0, 8⟩
def Row.LBB_IRQ_EVENT : RegSpec :=
  ⟨0xf00024, 1, 0, 1, 0, 0, false, false,
    [⟨0, 8, .w1c, .anyRole, .any⟩]⟩
def Reg.LBB_EVENT : Nat := 0xf00028
def Fld.LBB_EVENT_state_done : Fld := ⟨Reg.LBB_EVENT, 3, 1⟩
def Fld.LBB_EVENT_tenure_expired : Fld := ⟨Reg.LBB_EVENT, 2, 1⟩
def Fld.LBB_EVENT_clasp_expired : Fld := ⟨Reg.LBB_EVENT, 1, 1⟩
def Fld.LBB_EVENT_error : Fld := ⟨Reg.LBB_EVENT, 0, 1⟩
def Row.LBB_EVENT : RegSpec :=
  ⟨0xf00028, 1, 0, 1, 0, 0, false, false,
    [⟨3, 1, .w1c, .anyRole, .any⟩,
     ⟨2, 1, .w1c, .anyRole, .any⟩,
     ⟨1, 1, .w1c, .anyRole, .any⟩,
     ⟨0, 1, .w1c, .anyRole, .any⟩]⟩
def Reg.LBB_EVENT_EN : Nat := 0xf0002c
def Fld.LBB_EVENT_EN_state_done : Fld := ⟨Reg.LBB_EVENT_EN, 3, 1⟩
def Fld.LBB_EVENT_EN_tenure_expired : Fld := ⟨Reg.LBB_EVENT_EN, 2, 1⟩
def Fld.LBB_EVENT_EN_clasp_expired : Fld := ⟨Reg.LBB_EVENT_EN, 1, 1⟩
def Fld.LBB_EVENT_EN_error : Fld := ⟨Reg.LBB_EVENT_EN, 0, 1⟩
def Row.LBB_EVENT_EN : RegSpec :=
  ⟨0xf0002c, 1, 0, 1, 0, 0, false, false,
    [⟨3, 1, .rw, .anyRole, .any⟩,
     ⟨2, 1, .rw, .anyRole, .any⟩,
     ⟨1, 1, .rw, .anyRole, .any⟩,
     ⟨0, 1, .rw, .anyRole, .any⟩]⟩
def Reg.LBB_ERR_INFO : Nat := 0xf00030
def Fld.LBB_ERR_INFO_valid : Fld := ⟨Reg.LBB_ERR_INFO, 31, 1⟩
def Fld.LBB_ERR_INFO_kind : Fld := ⟨Reg.LBB_ERR_INFO, 12, 4⟩
def Fld.LBB_ERR_INFO_source : Fld := ⟨Reg.LBB_ERR_INFO, 8, 2⟩
def Fld.LBB_ERR_INFO_cs : Fld := ⟨Reg.LBB_ERR_INFO, 4, 2⟩
def Fld.LBB_ERR_INFO_tag : Fld := ⟨Reg.LBB_ERR_INFO, 0, 3⟩
def Row.LBB_ERR_INFO : RegSpec :=
  ⟨0xf00030, 1, 0, 1, 0, 0, false, false,
    [⟨31, 1, .ro, .anyRole, .any⟩,
     ⟨12, 4, .ro, .anyRole, .any⟩,
     ⟨8, 2, .ro, .anyRole, .any⟩,
     ⟨4, 2, .ro, .anyRole, .any⟩,
     ⟨0, 3, .ro, .anyRole, .any⟩]⟩
def Reg.LBB_ERR_ADDR : Nat := 0xf00034
def Fld.LBB_ERR_ADDR_addr : Fld := ⟨Reg.LBB_ERR_ADDR, 0, 26⟩
def Row.LBB_ERR_ADDR : RegSpec :=
  ⟨0xf00034, 1, 0, 1, 0, 0, false, false,
    [⟨0, 26, .ro, .anyRole, .any⟩]⟩
def Reg.LBB_ERRORS : Nat := 0xf00040
def Fld.LBB_ERRORS_count : Fld := ⟨Reg.LBB_ERRORS, 0, 32⟩
def Row.LBB_ERRORS : RegSpec :=
  ⟨0xf00040, 1, 0, 1, 0, 0, false, false,
    [⟨0, 32, .rc, .anyRole, .any⟩]⟩
def Reg.LBB_LATE_CPL : Nat := 0xf00044
def Fld.LBB_LATE_CPL_count : Fld := ⟨Reg.LBB_LATE_CPL, 0, 32⟩
def Row.LBB_LATE_CPL : RegSpec :=
  ⟨0xf00044, 1, 0, 1, 0, 0, false, false,
    [⟨0, 32, .rc, .anyRole, .any⟩]⟩
def Reg.LBB_ERR_LOST : Nat := 0xf00048
def Fld.LBB_ERR_LOST_count : Fld := ⟨Reg.LBB_ERR_LOST, 0, 32⟩
def Row.LBB_ERR_LOST : RegSpec :=
  ⟨0xf00048, 1, 0, 1, 0, 0, false, false,
    [⟨0, 32, .rc, .anyRole, .any⟩]⟩
def Reg.LBB_PREFETCH_DISCARD : Nat := 0xf0004c
def Fld.LBB_PREFETCH_DISCARD_count : Fld := ⟨Reg.LBB_PREFETCH_DISCARD, 0, 32⟩
def Row.LBB_PREFETCH_DISCARD : RegSpec :=
  ⟨0xf0004c, 1, 0, 1, 0, 0, false, false,
    [⟨0, 32, .rc, .anyRole, .any⟩]⟩
def Reg.LBB_CLASP_EXPIRED : Nat := 0xf00050
def Fld.LBB_CLASP_EXPIRED_count : Fld := ⟨Reg.LBB_CLASP_EXPIRED, 0, 32⟩
def Row.LBB_CLASP_EXPIRED : RegSpec :=
  ⟨0xf00050, 1, 0, 1, 0, 0, false, false,
    [⟨0, 32, .rc, .anyRole, .any⟩]⟩
def Reg.LBB_TENURE_EXPIRED : Nat := 0xf00054
def Fld.LBB_TENURE_EXPIRED_count : Fld := ⟨Reg.LBB_TENURE_EXPIRED, 0, 32⟩
def Row.LBB_TENURE_EXPIRED : RegSpec :=
  ⟨0xf00054, 1, 0, 1, 0, 0, false, false,
    [⟨0, 32, .rc, .anyRole, .any⟩]⟩
def Reg.LBB_IRQ_MERGED : Nat := 0xf00058
def Fld.LBB_IRQ_MERGED_count : Fld := ⟨Reg.LBB_IRQ_MERGED, 0, 32⟩
def Row.LBB_IRQ_MERGED : RegSpec :=
  ⟨0xf00058, 1, 0, 1, 0, 0, false, false,
    [⟨0, 32, .rc, .anyRole, .any⟩]⟩
def Reg.LBB_CS_CFG (i : Nat) : Nat := 0xf00100 + 0x10 * i
def Fld.LBB_CS_CFG_enable (i : Nat) : Fld := ⟨Reg.LBB_CS_CFG i, 31, 1⟩
def Fld.LBB_CS_CFG_size_log (i : Nat) : Fld := ⟨Reg.LBB_CS_CFG i, 24, 5⟩
def Fld.LBB_CS_CFG_prefetch (i : Nat) : Fld := ⟨Reg.LBB_CS_CFG i, 4, 1⟩
def Fld.LBB_CS_CFG_burst (i : Nat) : Fld := ⟨Reg.LBB_CS_CFG i, 3, 1⟩
def Fld.LBB_CS_CFG_parity (i : Nat) : Fld := ⟨Reg.LBB_CS_CFG i, 2, 1⟩
def Fld.LBB_CS_CFG_ready_en (i : Nat) : Fld := ⟨Reg.LBB_CS_CFG i, 1, 1⟩
def Fld.LBB_CS_CFG_width (i : Nat) : Fld := ⟨Reg.LBB_CS_CFG i, 0, 1⟩
def Row.LBB_CS_CFG : RegSpec :=
  ⟨0xf00100, 4, 0x10, 1, 0, 0, false, false,
    [⟨31, 1, .rw, .installer, .any⟩,
     ⟨24, 5, .rw, .installer, (.range 12 24)⟩,
     ⟨4, 1, .rw, .installer, .any⟩,
     ⟨3, 1, .rw, .installer, .any⟩,
     ⟨2, 1, .rw, .installer, .any⟩,
     ⟨1, 1, .rw, .installer, .any⟩,
     ⟨0, 1, .rw, .installer, .any⟩]⟩
def Reg.LBB_CS_TIMING (i : Nat) : Nat := 0xf00104 + 0x10 * i
def Fld.LBB_CS_TIMING_t_turn (i : Nat) : Fld := ⟨Reg.LBB_CS_TIMING i, 24, 4⟩
def Fld.LBB_CS_TIMING_t_hold (i : Nat) : Fld := ⟨Reg.LBB_CS_TIMING i, 16, 4⟩
def Fld.LBB_CS_TIMING_t_strobe (i : Nat) : Fld := ⟨Reg.LBB_CS_TIMING i, 8, 6⟩
def Fld.LBB_CS_TIMING_t_as (i : Nat) : Fld := ⟨Reg.LBB_CS_TIMING i, 0, 4⟩
def Row.LBB_CS_TIMING : RegSpec :=
  ⟨0xf00104, 4, 0x10, 1, 0, 0x20f3f0f, false, false,
    [⟨24, 4, .rw, .installer, (.range 1 15)⟩,
     ⟨16, 4, .rw, .installer, .any⟩,
     ⟨8, 6, .rw, .installer, (.range 1 63)⟩,
     ⟨0, 4, .rw, .installer, .any⟩]⟩

/-! ### CRC (R472; fields R473) -/

def Reg.CRC_CTRL (i : Nat) : Nat := 0xf40000 + 0x20 * i
def Fld.CRC_CTRL_restart (i : Nat) : Fld := ⟨Reg.CRC_CTRL i, 0, 1⟩
def Row.CRC_CTRL : RegSpec :=
  ⟨0xf40000, 4, 0x20, 1, 0, 0, false, false,
    [⟨0, 1, .wo, .anyRole, .any⟩]⟩
def Reg.CRC_SEED (i : Nat) : Nat := 0xf40004 + 0x20 * i
def Fld.CRC_SEED_seed (i : Nat) : Fld := ⟨Reg.CRC_SEED i, 0, 32⟩
def Row.CRC_SEED : RegSpec :=
  ⟨0xf40004, 4, 0x20, 1, 0, 0, false, false,
    [⟨0, 32, .wo, .anyRole, .any⟩]⟩
def Reg.CRC_DATA8 (i : Nat) : Nat := 0xf40008 + 0x20 * i
def Fld.CRC_DATA8_data (i : Nat) : Fld := ⟨Reg.CRC_DATA8 i, 0, 8⟩
def Row.CRC_DATA8 : RegSpec :=
  ⟨0xf40008, 4, 0x20, 1, 0, 0, false, false,
    [⟨0, 8, .wo, .anyRole, .any⟩]⟩
def Reg.CRC_DATA16 (i : Nat) : Nat := 0xf4000c + 0x20 * i
def Fld.CRC_DATA16_data (i : Nat) : Fld := ⟨Reg.CRC_DATA16 i, 0, 16⟩
def Row.CRC_DATA16 : RegSpec :=
  ⟨0xf4000c, 4, 0x20, 1, 0, 0, false, false,
    [⟨0, 16, .wo, .anyRole, .any⟩]⟩
def Reg.CRC_DATA32 (i : Nat) : Nat := 0xf40010 + 0x20 * i
def Fld.CRC_DATA32_data (i : Nat) : Fld := ⟨Reg.CRC_DATA32 i, 0, 32⟩
def Row.CRC_DATA32 : RegSpec :=
  ⟨0xf40010, 4, 0x20, 1, 0, 0, false, false,
    [⟨0, 32, .wo, .anyRole, .any⟩]⟩
def Reg.CRC_RESULT (i : Nat) : Nat := 0xf40014 + 0x20 * i
def Fld.CRC_RESULT_result (i : Nat) : Fld := ⟨Reg.CRC_RESULT i, 0, 32⟩
def Row.CRC_RESULT : RegSpec :=
  ⟨0xf40014, 4, 0x20, 1, 0, 0, false, false,
    [⟨0, 32, .ro, .anyRole, .any⟩]⟩
def Reg.CRC_COUNT (i : Nat) : Nat := 0xf40018 + 0x20 * i
def Fld.CRC_COUNT_count (i : Nat) : Fld := ⟨Reg.CRC_COUNT i, 0, 32⟩
def Row.CRC_COUNT : RegSpec :=
  ⟨0xf40018, 4, 0x20, 1, 0, 0, false, false,
    [⟨0, 32, .ro, .anyRole, .any⟩]⟩

/-! ### ILG (R499; fields R500) -/

def Reg.ILG_CTRL : Nat := 0xf80000
def Fld.ILG_CTRL_devices : Fld := ⟨Reg.ILG_CTRL, 8, 4⟩
def Fld.ILG_CTRL_ring : Fld := ⟨Reg.ILG_CTRL, 4, 1⟩
def Row.ILG_CTRL : RegSpec :=
  ⟨0xf80000, 1, 0, 1, 0, 0x800, false, false,
    [⟨8, 4, .rw, .installer, (.range 2 8)⟩,
     ⟨4, 1, .rw, .installer, .any⟩]⟩
def Reg.ILG_STATUS : Nat := 0xf80004
def Fld.ILG_STATUS_quarantined : Fld := ⟨Reg.ILG_STATUS, 24, 8⟩
def Fld.ILG_STATUS_reachable : Fld := ⟨Reg.ILG_STATUS, 16, 8⟩
def Fld.ILG_STATUS_index : Fld := ⟨Reg.ILG_STATUS, 8, 4⟩
def Fld.ILG_STATUS_time_port : Fld := ⟨Reg.ILG_STATUS, 5, 2⟩
def Fld.ILG_STATUS_manager_reachable : Fld := ⟨Reg.ILG_STATUS, 4, 1⟩
def Fld.ILG_STATUS_quarantine : Fld := ⟨Reg.ILG_STATUS, 3, 1⟩
def Fld.ILG_STATUS_node_role : Fld := ⟨Reg.ILG_STATUS, 2, 1⟩
def Fld.ILG_STATUS_role : Fld := ⟨Reg.ILG_STATUS, 0, 2⟩
def Row.ILG_STATUS : RegSpec :=
  ⟨0xf80004, 1, 0, 1, 0, 0, false, false,
    [⟨24, 8, .ro, .anyRole, .any⟩,
     ⟨16, 8, .ro, .anyRole, .any⟩,
     ⟨8, 4, .ro, .anyRole, .any⟩,
     ⟨5, 2, .ro, .anyRole, .any⟩,
     ⟨4, 1, .ro, .anyRole, .any⟩,
     ⟨3, 1, .ro, .anyRole, .any⟩,
     ⟨2, 1, .ro, .anyRole, .any⟩,
     ⟨0, 2, .ro, .anyRole, .any⟩]⟩
def Reg.ILG_REBALANCE : Nat := 0xf80008
def Fld.ILG_REBALANCE_go : Fld := ⟨Reg.ILG_REBALANCE, 0, 1⟩
def Row.ILG_REBALANCE : RegSpec :=
  ⟨0xf80008, 1, 0, 1, 0, 0, false, false,
    [⟨0, 1, .wo, .anyRole, .any⟩]⟩
def Reg.ILG_EVENT : Nat := 0xf8000c
def Fld.ILG_EVENT_state_done : Fld := ⟨Reg.ILG_EVENT, 8, 1⟩
def Fld.ILG_EVENT_image_done : Fld := ⟨Reg.ILG_EVENT, 7, 1⟩
def Fld.ILG_EVENT_stale : Fld := ⟨Reg.ILG_EVENT, 6, 1⟩
def Fld.ILG_EVENT_quarantine : Fld := ⟨Reg.ILG_EVENT, 5, 1⟩
def Fld.ILG_EVENT_index_clash : Fld := ⟨Reg.ILG_EVENT, 4, 1⟩
def Fld.ILG_EVENT_role_clash : Fld := ⟨Reg.ILG_EVENT, 3, 1⟩
def Fld.ILG_EVENT_path_change : Fld := ⟨Reg.ILG_EVENT, 2, 1⟩
def Fld.ILG_EVENT_link_down : Fld := ⟨Reg.ILG_EVENT, 1, 1⟩
def Fld.ILG_EVENT_link_up : Fld := ⟨Reg.ILG_EVENT, 0, 1⟩
def Row.ILG_EVENT : RegSpec :=
  ⟨0xf8000c, 1, 0, 1, 0, 0, false, false,
    [⟨8, 1, .w1c, .anyRole, .any⟩,
     ⟨7, 1, .w1c, .anyRole, .any⟩,
     ⟨6, 1, .w1c, .anyRole, .any⟩,
     ⟨5, 1, .w1c, .anyRole, .any⟩,
     ⟨4, 1, .w1c, .anyRole, .any⟩,
     ⟨3, 1, .w1c, .anyRole, .any⟩,
     ⟨2, 1, .w1c, .anyRole, .any⟩,
     ⟨1, 1, .w1c, .anyRole, .any⟩,
     ⟨0, 1, .w1c, .anyRole, .any⟩]⟩
def Reg.ILG_EVENT_EN : Nat := 0xf80010
def Fld.ILG_EVENT_EN_state_done : Fld := ⟨Reg.ILG_EVENT_EN, 8, 1⟩
def Fld.ILG_EVENT_EN_image_done : Fld := ⟨Reg.ILG_EVENT_EN, 7, 1⟩
def Fld.ILG_EVENT_EN_stale : Fld := ⟨Reg.ILG_EVENT_EN, 6, 1⟩
def Fld.ILG_EVENT_EN_quarantine : Fld := ⟨Reg.ILG_EVENT_EN, 5, 1⟩
def Fld.ILG_EVENT_EN_index_clash : Fld := ⟨Reg.ILG_EVENT_EN, 4, 1⟩
def Fld.ILG_EVENT_EN_role_clash : Fld := ⟨Reg.ILG_EVENT_EN, 3, 1⟩
def Fld.ILG_EVENT_EN_path_change : Fld := ⟨Reg.ILG_EVENT_EN, 2, 1⟩
def Fld.ILG_EVENT_EN_link_down : Fld := ⟨Reg.ILG_EVENT_EN, 1, 1⟩
def Fld.ILG_EVENT_EN_link_up : Fld := ⟨Reg.ILG_EVENT_EN, 0, 1⟩
def Row.ILG_EVENT_EN : RegSpec :=
  ⟨0xf80010, 1, 0, 1, 0, 0, false, false,
    [⟨8, 1, .rw, .anyRole, .any⟩,
     ⟨7, 1, .rw, .anyRole, .any⟩,
     ⟨6, 1, .rw, .anyRole, .any⟩,
     ⟨5, 1, .rw, .anyRole, .any⟩,
     ⟨4, 1, .rw, .anyRole, .any⟩,
     ⟨3, 1, .rw, .anyRole, .any⟩,
     ⟨2, 1, .rw, .anyRole, .any⟩,
     ⟨1, 1, .rw, .anyRole, .any⟩,
     ⟨0, 1, .rw, .anyRole, .any⟩]⟩
def Reg.ILG_MGMT_CTRL : Nat := 0xf80020
def Fld.ILG_MGMT_CTRL_go : Fld := ⟨Reg.ILG_MGMT_CTRL, 31, 1⟩
def Fld.ILG_MGMT_CTRL_index : Fld := ⟨Reg.ILG_MGMT_CTRL, 16, 3⟩
def Fld.ILG_MGMT_CTRL_write : Fld := ⟨Reg.ILG_MGMT_CTRL, 8, 1⟩
def Row.ILG_MGMT_CTRL : RegSpec :=
  ⟨0xf80020, 1, 0, 1, 0, 0, false, false,
    [⟨31, 1, .wo, .anyRole, .any⟩,
     ⟨16, 3, .wo, .anyRole, (.range 1 7)⟩,
     ⟨8, 1, .wo, .anyRole, .any⟩]⟩
def Reg.ILG_MGMT_ADDR : Nat := 0xf80024
def Fld.ILG_MGMT_ADDR_offset : Fld := ⟨Reg.ILG_MGMT_ADDR, 0, 24⟩
def Row.ILG_MGMT_ADDR : RegSpec :=
  ⟨0xf80024, 1, 0, 1, 0, 0, false, false,
    [⟨0, 24, .rw, .anyRole, (.zeroLow 2)⟩]⟩
def Reg.ILG_MGMT_DATA : Nat := 0xf80028
def Fld.ILG_MGMT_DATA_data : Fld := ⟨Reg.ILG_MGMT_DATA, 0, 32⟩
def Row.ILG_MGMT_DATA : RegSpec :=
  ⟨0xf80028, 1, 0, 1, 0, 0, false, false,
    [⟨0, 32, .rw, .anyRole, .any⟩]⟩
def Reg.ILG_MGMT_STATUS : Nat := 0xf8002c
def Fld.ILG_MGMT_STATUS_busy : Fld := ⟨Reg.ILG_MGMT_STATUS, 31, 1⟩
def Fld.ILG_MGMT_STATUS_result : Fld := ⟨Reg.ILG_MGMT_STATUS, 0, 4⟩
def Row.ILG_MGMT_STATUS : RegSpec :=
  ⟨0xf8002c, 1, 0, 1, 0, 0, false, false,
    [⟨31, 1, .ro, .anyRole, .any⟩,
     ⟨0, 4, .ro, .anyRole, .any⟩]⟩
def Reg.ILG_IMG_ADDR_LO : Nat := 0xf80030
def Fld.ILG_IMG_ADDR_LO_addr : Fld := ⟨Reg.ILG_IMG_ADDR_LO, 0, 32⟩
def Row.ILG_IMG_ADDR_LO : RegSpec :=
  ⟨0xf80030, 1, 0, 1, 0, 0, false, false,
    [⟨0, 32, .rw, .anyRole, (.zeroLow 2)⟩]⟩
def Reg.ILG_IMG_ADDR_HI : Nat := 0xf80034
def Fld.ILG_IMG_ADDR_HI_addr : Fld := ⟨Reg.ILG_IMG_ADDR_HI, 0, 32⟩
def Row.ILG_IMG_ADDR_HI : RegSpec :=
  ⟨0xf80034, 1, 0, 1, 0, 0, false, false,
    [⟨0, 32, .rw, .anyRole, .any⟩]⟩
def Reg.ILG_IMG_CTRL : Nat := 0xf80038
def Fld.ILG_IMG_CTRL_index : Fld := ⟨Reg.ILG_IMG_CTRL, 8, 3⟩
def Fld.ILG_IMG_CTRL_abort : Fld := ⟨Reg.ILG_IMG_CTRL, 1, 1⟩
def Fld.ILG_IMG_CTRL_start : Fld := ⟨Reg.ILG_IMG_CTRL, 0, 1⟩
def Row.ILG_IMG_CTRL : RegSpec :=
  ⟨0xf80038, 1, 0, 1, 0, 0, false, false,
    [⟨8, 3, .wo, .anyRole, (.range 1 7)⟩,
     ⟨1, 1, .wo, .anyRole, .any⟩,
     ⟨0, 1, .wo, .anyRole, .any⟩]⟩
def Reg.ILG_IMG_STATUS : Nat := 0xf8003c
def Fld.ILG_IMG_STATUS_index : Fld := ⟨Reg.ILG_IMG_STATUS, 16, 3⟩
def Fld.ILG_IMG_STATUS_result : Fld := ⟨Reg.ILG_IMG_STATUS, 8, 8⟩
def Fld.ILG_IMG_STATUS_state : Fld := ⟨Reg.ILG_IMG_STATUS, 0, 2⟩
def Row.ILG_IMG_STATUS : RegSpec :=
  ⟨0xf8003c, 1, 0, 1, 0, 0, false, false,
    [⟨16, 3, .ro, .anyRole, .any⟩,
     ⟨8, 8, .ro, .anyRole, .any⟩,
     ⟨0, 2, .ro, .anyRole, .any⟩]⟩
def Reg.ILG_LATE_MGMT : Nat := 0xf80040
def Fld.ILG_LATE_MGMT_count : Fld := ⟨Reg.ILG_LATE_MGMT, 0, 32⟩
def Row.ILG_LATE_MGMT : RegSpec :=
  ⟨0xf80040, 1, 0, 1, 0, 0, false, false,
    [⟨0, 32, .rc, .anyRole, .any⟩]⟩
def Reg.ILG_PORT_CTRL (i : Nat) : Nat := 0xf80100 + 0x40 * i
def Fld.ILG_PORT_CTRL_state (i : Nat) : Fld := ⟨Reg.ILG_PORT_CTRL i, 1, 2⟩
def Fld.ILG_PORT_CTRL_enable (i : Nat) : Fld := ⟨Reg.ILG_PORT_CTRL i, 0, 1⟩
def Row.ILG_PORT_CTRL : RegSpec :=
  ⟨0xf80100, 2, 0x40, 1, 0, 0, true, false,
    [⟨1, 2, .ro, .anyRole, .any⟩,
     ⟨0, 1, .rw, .installer, .any⟩]⟩
def Reg.ILG_PORT_STATUS (i : Nat) : Nat := 0xf80104 + 0x40 * i
def Fld.ILG_PORT_STATUS_lane_lock (i : Nat) : Fld := ⟨Reg.ILG_PORT_STATUS i, 24, 4⟩
def Fld.ILG_PORT_STATUS_peer_index (i : Nat) : Fld := ⟨Reg.ILG_PORT_STATUS i, 16, 4⟩
def Fld.ILG_PORT_STATUS_peer_role (i : Nat) : Fld := ⟨Reg.ILG_PORT_STATUS i, 12, 2⟩
def Fld.ILG_PORT_STATUS_lstate (i : Nat) : Fld := ⟨Reg.ILG_PORT_STATUS i, 0, 3⟩
def Row.ILG_PORT_STATUS : RegSpec :=
  ⟨0xf80104, 2, 0x40, 1, 0, 0, false, false,
    [⟨24, 4, .ro, .anyRole, .any⟩,
     ⟨16, 4, .ro, .anyRole, .any⟩,
     ⟨12, 2, .ro, .anyRole, .any⟩,
     ⟨0, 3, .ro, .anyRole, .any⟩]⟩
def Reg.ILG_PORT_REACH (i : Nat) : Nat := 0xf80108 + 0x40 * i
def Fld.ILG_PORT_REACH_reach (i : Nat) : Fld := ⟨Reg.ILG_PORT_REACH i, 0, 8⟩
def Row.ILG_PORT_REACH : RegSpec :=
  ⟨0xf80108, 2, 0x40, 1, 0, 0, false, false,
    [⟨0, 8, .ro, .anyRole, .any⟩]⟩
def Reg.ILG_PORT_DELAY (i : Nat) : Nat := 0xf8010c + 0x40 * i
def Fld.ILG_PORT_DELAY_samples (i : Nat) : Fld := ⟨Reg.ILG_PORT_DELAY i, 28, 4⟩
def Fld.ILG_PORT_DELAY_delay (i : Nat) : Fld := ⟨Reg.ILG_PORT_DELAY i, 0, 24⟩
def Row.ILG_PORT_DELAY : RegSpec :=
  ⟨0xf8010c, 2, 0x40, 1, 0, 0, false, false,
    [⟨28, 4, .ro, .anyRole, .any⟩,
     ⟨0, 24, .ro, .anyRole, .any⟩]⟩
def Reg.ILG_PEER_ID_LO (i : Nat) : Nat := 0xf80110 + 0x40 * i
def Fld.ILG_PEER_ID_LO_id (i : Nat) : Fld := ⟨Reg.ILG_PEER_ID_LO i, 0, 32⟩
def Row.ILG_PEER_ID_LO : RegSpec :=
  ⟨0xf80110, 2, 0x40, 1, 0, 0, false, false,
    [⟨0, 32, .ro, .anyRole, .any⟩]⟩
def Reg.ILG_PEER_ID_HI (i : Nat) : Nat := 0xf80114 + 0x40 * i
def Fld.ILG_PEER_ID_HI_id (i : Nat) : Fld := ⟨Reg.ILG_PEER_ID_HI i, 0, 32⟩
def Row.ILG_PEER_ID_HI : RegSpec :=
  ⟨0xf80114, 2, 0x40, 1, 0, 0, false, false,
    [⟨0, 32, .ro, .anyRole, .any⟩]⟩
def Reg.ILG_REPLAYS (i : Nat) : Nat := 0xf80118 + 0x40 * i
def Fld.ILG_REPLAYS_count (i : Nat) : Fld := ⟨Reg.ILG_REPLAYS i, 0, 32⟩
def Row.ILG_REPLAYS : RegSpec :=
  ⟨0xf80118, 2, 0x40, 1, 0, 0, false, false,
    [⟨0, 32, .rc, .anyRole, .any⟩]⟩
def Reg.ILG_CHECK_ERR (i : Nat) : Nat := 0xf8011c + 0x40 * i
def Fld.ILG_CHECK_ERR_count (i : Nat) : Fld := ⟨Reg.ILG_CHECK_ERR i, 0, 32⟩
def Row.ILG_CHECK_ERR : RegSpec :=
  ⟨0xf8011c, 2, 0x40, 1, 0, 0, false, false,
    [⟨0, 32, .rc, .anyRole, .any⟩]⟩
def Reg.ILG_LINK_DOWNS (i : Nat) : Nat := 0xf80120 + 0x40 * i
def Fld.ILG_LINK_DOWNS_count (i : Nat) : Fld := ⟨Reg.ILG_LINK_DOWNS i, 0, 32⟩
def Row.ILG_LINK_DOWNS : RegSpec :=
  ⟨0xf80120, 2, 0x40, 1, 0, 0, false, false,
    [⟨0, 32, .rc, .anyRole, .any⟩]⟩
def Reg.ILG_CREDIT (i : Nat) (j : Nat) : Nat := 0xf80200 + 0x20 * i + 4 * j
def Fld.ILG_CREDIT_out (i : Nat) (j : Nat) : Fld := ⟨Reg.ILG_CREDIT i j, 16, 12⟩
def Fld.ILG_CREDIT_avail (i : Nat) (j : Nat) : Fld := ⟨Reg.ILG_CREDIT i j, 0, 12⟩
def Row.ILG_CREDIT : RegSpec :=
  ⟨0xf80200, 2, 0x20, 8, 4, 0, false, false,
    [⟨16, 12, .ro, .anyRole, .any⟩,
     ⟨0, 12, .ro, .anyRole, .any⟩]⟩
def Reg.ILG_WORKER_GEN (i : Nat) : Nat := 0xf80400 + 0x20 * i
def Fld.ILG_WORKER_GEN_gen (i : Nat) : Fld := ⟨Reg.ILG_WORKER_GEN i, 0, 32⟩
def Row.ILG_WORKER_GEN : RegSpec :=
  ⟨0xf80420, 7, 0x20, 1, 0, 0, false, false,
    [⟨0, 32, .rw, .installer, .any⟩]⟩
def Reg.ILG_WORKER_STATE (i : Nat) : Nat := 0xf80404 + 0x20 * i
def Fld.ILG_WORKER_STATE_result (i : Nat) : Fld := ⟨Reg.ILG_WORKER_STATE i, 8, 8⟩
def Fld.ILG_WORKER_STATE_current (i : Nat) : Fld := ⟨Reg.ILG_WORKER_STATE i, 2, 1⟩
def Fld.ILG_WORKER_STATE_reachable (i : Nat) : Fld := ⟨Reg.ILG_WORKER_STATE i, 1, 1⟩
def Fld.ILG_WORKER_STATE_reported (i : Nat) : Fld := ⟨Reg.ILG_WORKER_STATE i, 0, 1⟩
def Row.ILG_WORKER_STATE : RegSpec :=
  ⟨0xf80424, 7, 0x20, 1, 0, 0, false, false,
    [⟨8, 8, .ro, .anyRole, .any⟩,
     ⟨2, 1, .ro, .anyRole, .any⟩,
     ⟨1, 1, .ro, .anyRole, .any⟩,
     ⟨0, 1, .ro, .anyRole, .any⟩]⟩
def Reg.ILG_WORKER_REPGEN (i : Nat) : Nat := 0xf80408 + 0x20 * i
def Fld.ILG_WORKER_REPGEN_gen (i : Nat) : Fld := ⟨Reg.ILG_WORKER_REPGEN i, 0, 32⟩
def Row.ILG_WORKER_REPGEN : RegSpec :=
  ⟨0xf80428, 7, 0x20, 1, 0, 0, false, false,
    [⟨0, 32, .ro, .anyRole, .any⟩]⟩
def Reg.ILG_WORKER_ID_LO (i : Nat) : Nat := 0xf8040c + 0x20 * i
def Fld.ILG_WORKER_ID_LO_id (i : Nat) : Fld := ⟨Reg.ILG_WORKER_ID_LO i, 0, 32⟩
def Row.ILG_WORKER_ID_LO : RegSpec :=
  ⟨0xf8042c, 7, 0x20, 1, 0, 0, false, false,
    [⟨0, 32, .ro, .anyRole, .any⟩]⟩
def Reg.ILG_WORKER_ID_HI (i : Nat) : Nat := 0xf80410 + 0x20 * i
def Fld.ILG_WORKER_ID_HI_id (i : Nat) : Fld := ⟨Reg.ILG_WORKER_ID_HI i, 0, 32⟩
def Row.ILG_WORKER_ID_HI : RegSpec :=
  ⟨0xf80430, 7, 0x20, 1, 0, 0, false, false,
    [⟨0, 32, .ro, .anyRole, .any⟩]⟩

/-! ### RED (R524; fields R525) -/

def Reg.RED_CTRL : Nat := 0xfa0000
def Fld.RED_CTRL_side : Fld := ⟨Reg.RED_CTRL, 2, 1⟩
def Fld.RED_CTRL_shared_id : Fld := ⟨Reg.RED_CTRL, 1, 1⟩
def Fld.RED_CTRL_paired : Fld := ⟨Reg.RED_CTRL, 0, 1⟩
def Row.RED_CTRL : RegSpec :=
  ⟨0xfa0000, 1, 0, 1, 0, 0, false, false,
    [⟨2, 1, .ro, .anyRole, .any⟩,
     ⟨1, 1, .rw, .installer, .any⟩,
     ⟨0, 1, .rw, .installer, .any⟩]⟩
def Reg.RED_STATUS : Nat := 0xfa0004
def Fld.RED_STATUS_role_gen : Fld := ⟨Reg.RED_STATUS, 24, 8⟩
def Fld.RED_STATUS_tag_match : Fld := ⟨Reg.RED_STATUS, 10, 1⟩
def Fld.RED_STATUS_id_match : Fld := ⟨Reg.RED_STATUS, 9, 1⟩
def Fld.RED_STATUS_hb_ok : Fld := ⟨Reg.RED_STATUS, 8, 1⟩
def Fld.RED_STATUS_resign_out : Fld := ⟨Reg.RED_STATUS, 7, 1⟩
def Fld.RED_STATUS_resign_in : Fld := ⟨Reg.RED_STATUS, 6, 1⟩
def Fld.RED_STATUS_withdrawn : Fld := ⟨Reg.RED_STATUS, 5, 1⟩
def Fld.RED_STATUS_synced : Fld := ⟨Reg.RED_STATUS, 4, 1⟩
def Fld.RED_STATUS_eligible : Fld := ⟨Reg.RED_STATUS, 3, 1⟩
def Fld.RED_STATUS_role : Fld := ⟨Reg.RED_STATUS, 0, 3⟩
def Row.RED_STATUS : RegSpec :=
  ⟨0xfa0004, 1, 0, 1, 0, 0, false, false,
    [⟨24, 8, .ro, .anyRole, .any⟩,
     ⟨10, 1, .ro, .anyRole, .any⟩,
     ⟨9, 1, .ro, .anyRole, .any⟩,
     ⟨8, 1, .ro, .anyRole, .any⟩,
     ⟨7, 1, .ro, .anyRole, .any⟩,
     ⟨6, 1, .ro, .anyRole, .any⟩,
     ⟨5, 1, .ro, .anyRole, .any⟩,
     ⟨4, 1, .ro, .anyRole, .any⟩,
     ⟨3, 1, .ro, .anyRole, .any⟩,
     ⟨0, 3, .ro, .anyRole, .any⟩]⟩
def Reg.RED_NODE_ID_LO : Nat := 0xfa0008
def Fld.RED_NODE_ID_LO_id : Fld := ⟨Reg.RED_NODE_ID_LO, 0, 32⟩
def Row.RED_NODE_ID_LO : RegSpec :=
  ⟨0xfa0008, 1, 0, 1, 0, 0, false, false,
    [⟨0, 32, .rw, .installer, .any⟩]⟩
def Reg.RED_NODE_ID_HI : Nat := 0xfa000c
def Fld.RED_NODE_ID_HI_id : Fld := ⟨Reg.RED_NODE_ID_HI, 0, 32⟩
def Row.RED_NODE_ID_HI : RegSpec :=
  ⟨0xfa000c, 1, 0, 1, 0, 0, false, false,
    [⟨0, 32, .rw, .installer, .any⟩]⟩
def Reg.RED_CFG_TAG : Nat := 0xfa0010
def Fld.RED_CFG_TAG_tag : Fld := ⟨Reg.RED_CFG_TAG, 0, 32⟩
def Row.RED_CFG_TAG : RegSpec :=
  ⟨0xfa0010, 1, 0, 1, 0, 0, false, false,
    [⟨0, 32, .rw, .installer, .any⟩]⟩
def Reg.RED_TIMING : Nat := 0xfa0014
def Fld.RED_TIMING_claim_wait_us : Fld := ⟨Reg.RED_TIMING, 16, 10⟩
def Fld.RED_TIMING_hb_loss_us : Fld := ⟨Reg.RED_TIMING, 0, 10⟩
def Row.RED_TIMING : RegSpec :=
  ⟨0xfa0014, 1, 0, 1, 0, 0x320258, false, false,
    [⟨16, 10, .rw, .installer, (.range 10 100)⟩,
     ⟨0, 10, .rw, .installer, (.range 300 800)⟩]⟩
def Reg.RED_CMD : Nat := 0xfa0018
def Fld.RED_CMD_claim : Fld := ⟨Reg.RED_CMD, 2, 1⟩
def Fld.RED_CMD_swap : Fld := ⟨Reg.RED_CMD, 1, 1⟩
def Fld.RED_CMD_resign : Fld := ⟨Reg.RED_CMD, 0, 1⟩
def Row.RED_CMD : RegSpec :=
  ⟨0xfa0018, 1, 0, 1, 0, 0, false, false,
    [⟨2, 1, .wo, .installer, .any⟩,
     ⟨1, 1, .wo, .installer, .any⟩,
     ⟨0, 1, .wo, .installer, .any⟩]⟩
def Reg.RED_SWAP : Nat := 0xfa001c
def Fld.RED_SWAP_phase : Fld := ⟨Reg.RED_SWAP, 0, 32⟩
def Row.RED_SWAP : RegSpec :=
  ⟨0xfa001c, 1, 0, 1, 0, 0, false, false,
    [⟨0, 32, .rw, .installer, .any⟩]⟩
def Reg.RED_SWAP_AUTO : Nat := 0xfa0020
def Fld.RED_SWAP_AUTO_warn_h : Fld := ⟨Reg.RED_SWAP_AUTO, 16, 16⟩
def Fld.RED_SWAP_AUTO_interval_h : Fld := ⟨Reg.RED_SWAP_AUTO, 0, 16⟩
def Row.RED_SWAP_AUTO : RegSpec :=
  ⟨0xfa0020, 1, 0, 1, 0, 0x180000, false, false,
    [⟨16, 16, .rw, .installer, .any⟩,
     ⟨0, 16, .rw, .installer, .any⟩]⟩
def Reg.RED_CAUSE : Nat := 0xfa0024
def Fld.RED_CAUSE_cause : Fld := ⟨Reg.RED_CAUSE, 0, 12⟩
def Row.RED_CAUSE : RegSpec :=
  ⟨0xfa0024, 1, 0, 1, 0, 0, false, false,
    [⟨0, 12, .w1c, .installer, .any⟩]⟩
def Reg.RED_EVENT : Nat := 0xfa0028
def Fld.RED_EVENT_swap_overdue : Fld := ⟨Reg.RED_EVENT, 7, 1⟩
def Fld.RED_EVENT_swap_done : Fld := ⟨Reg.RED_EVENT, 6, 1⟩
def Fld.RED_EVENT_withdraw : Fld := ⟨Reg.RED_EVENT, 5, 1⟩
def Fld.RED_EVENT_sync_fail : Fld := ⟨Reg.RED_EVENT, 4, 1⟩
def Fld.RED_EVENT_conflict : Fld := ⟨Reg.RED_EVENT, 3, 1⟩
def Fld.RED_EVENT_hb_loss : Fld := ⟨Reg.RED_EVENT, 2, 1⟩
def Fld.RED_EVENT_resign : Fld := ⟨Reg.RED_EVENT, 1, 1⟩
def Fld.RED_EVENT_takeover : Fld := ⟨Reg.RED_EVENT, 0, 1⟩
def Row.RED_EVENT : RegSpec :=
  ⟨0xfa0028, 1, 0, 1, 0, 0, false, false,
    [⟨7, 1, .w1c, .anyRole, .any⟩,
     ⟨6, 1, .w1c, .anyRole, .any⟩,
     ⟨5, 1, .w1c, .anyRole, .any⟩,
     ⟨4, 1, .w1c, .anyRole, .any⟩,
     ⟨3, 1, .w1c, .anyRole, .any⟩,
     ⟨2, 1, .w1c, .anyRole, .any⟩,
     ⟨1, 1, .w1c, .anyRole, .any⟩,
     ⟨0, 1, .w1c, .anyRole, .any⟩]⟩
def Reg.RED_EVENT_EN : Nat := 0xfa002c
def Fld.RED_EVENT_EN_swap_overdue : Fld := ⟨Reg.RED_EVENT_EN, 7, 1⟩
def Fld.RED_EVENT_EN_swap_done : Fld := ⟨Reg.RED_EVENT_EN, 6, 1⟩
def Fld.RED_EVENT_EN_withdraw : Fld := ⟨Reg.RED_EVENT_EN, 5, 1⟩
def Fld.RED_EVENT_EN_sync_fail : Fld := ⟨Reg.RED_EVENT_EN, 4, 1⟩
def Fld.RED_EVENT_EN_conflict : Fld := ⟨Reg.RED_EVENT_EN, 3, 1⟩
def Fld.RED_EVENT_EN_hb_loss : Fld := ⟨Reg.RED_EVENT_EN, 2, 1⟩
def Fld.RED_EVENT_EN_resign : Fld := ⟨Reg.RED_EVENT_EN, 1, 1⟩
def Fld.RED_EVENT_EN_takeover : Fld := ⟨Reg.RED_EVENT_EN, 0, 1⟩
def Row.RED_EVENT_EN : RegSpec :=
  ⟨0xfa002c, 1, 0, 1, 0, 0, false, false,
    [⟨7, 1, .rw, .anyRole, .any⟩,
     ⟨6, 1, .rw, .anyRole, .any⟩,
     ⟨5, 1, .rw, .anyRole, .any⟩,
     ⟨4, 1, .rw, .anyRole, .any⟩,
     ⟨3, 1, .rw, .anyRole, .any⟩,
     ⟨2, 1, .rw, .anyRole, .any⟩,
     ⟨1, 1, .rw, .anyRole, .any⟩,
     ⟨0, 1, .rw, .anyRole, .any⟩]⟩
def Reg.RED_ROLE_AGE : Nat := 0xfa0030
def Fld.RED_ROLE_AGE_seconds : Fld := ⟨Reg.RED_ROLE_AGE, 0, 32⟩
def Row.RED_ROLE_AGE : RegSpec :=
  ⟨0xfa0030, 1, 0, 1, 0, 0, false, true,
    [⟨0, 32, .ro, .anyRole, .any⟩]⟩
def Reg.RED_PEER : Nat := 0xfa0034
def Fld.RED_PEER_live : Fld := ⟨Reg.RED_PEER, 24, 8⟩
def Fld.RED_PEER_role_gen : Fld := ⟨Reg.RED_PEER, 16, 8⟩
def Fld.RED_PEER_tnn : Fld := ⟨Reg.RED_PEER, 8, 6⟩
def Fld.RED_PEER_dir2_up : Fld := ⟨Reg.RED_PEER, 5, 1⟩
def Fld.RED_PEER_dir1_up : Fld := ⟨Reg.RED_PEER, 4, 1⟩
def Fld.RED_PEER_eligible : Fld := ⟨Reg.RED_PEER, 3, 1⟩
def Fld.RED_PEER_role : Fld := ⟨Reg.RED_PEER, 0, 3⟩
def Row.RED_PEER : RegSpec :=
  ⟨0xfa0034, 1, 0, 1, 0, 0, false, false,
    [⟨24, 8, .ro, .anyRole, .any⟩,
     ⟨16, 8, .ro, .anyRole, .any⟩,
     ⟨8, 6, .ro, .anyRole, .any⟩,
     ⟨5, 1, .ro, .anyRole, .any⟩,
     ⟨4, 1, .ro, .anyRole, .any⟩,
     ⟨3, 1, .ro, .anyRole, .any⟩,
     ⟨0, 3, .ro, .anyRole, .any⟩]⟩
def Reg.RED_TAKEOVERS : Nat := 0xfa0040
def Fld.RED_TAKEOVERS_count : Fld := ⟨Reg.RED_TAKEOVERS, 0, 32⟩
def Row.RED_TAKEOVERS : RegSpec :=
  ⟨0xfa0040, 1, 0, 1, 0, 0, false, false,
    [⟨0, 32, .rc, .anyRole, .any⟩]⟩
def Reg.RED_RESIGNS : Nat := 0xfa0044
def Fld.RED_RESIGNS_count : Fld := ⟨Reg.RED_RESIGNS, 0, 32⟩
def Row.RED_RESIGNS : RegSpec :=
  ⟨0xfa0044, 1, 0, 1, 0, 0, false, false,
    [⟨0, 32, .rc, .anyRole, .any⟩]⟩
def Reg.RED_HB_LOSS : Nat := 0xfa0048
def Fld.RED_HB_LOSS_count : Fld := ⟨Reg.RED_HB_LOSS, 0, 32⟩
def Row.RED_HB_LOSS : RegSpec :=
  ⟨0xfa0048, 1, 0, 1, 0, 0, false, false,
    [⟨0, 32, .rc, .anyRole, .any⟩]⟩
def Reg.RED_HB_LATE : Nat := 0xfa004c
def Fld.RED_HB_LATE_count : Fld := ⟨Reg.RED_HB_LATE, 0, 32⟩
def Row.RED_HB_LATE : RegSpec :=
  ⟨0xfa004c, 1, 0, 1, 0, 0, false, false,
    [⟨0, 32, .rc, .anyRole, .any⟩]⟩
def Reg.RED_HB_BAD : Nat := 0xfa0050
def Fld.RED_HB_BAD_count : Fld := ⟨Reg.RED_HB_BAD, 0, 32⟩
def Row.RED_HB_BAD : RegSpec :=
  ⟨0xfa0050, 1, 0, 1, 0, 0, false, false,
    [⟨0, 32, .rc, .anyRole, .any⟩]⟩
def Reg.RED_CONFLICTS : Nat := 0xfa0054
def Fld.RED_CONFLICTS_count : Fld := ⟨Reg.RED_CONFLICTS, 0, 32⟩
def Row.RED_CONFLICTS : RegSpec :=
  ⟨0xfa0054, 1, 0, 1, 0, 0, false, false,
    [⟨0, 32, .rc, .anyRole, .any⟩]⟩
def Reg.RED_SWAPS : Nat := 0xfa0058
def Fld.RED_SWAPS_count : Fld := ⟨Reg.RED_SWAPS, 0, 32⟩
def Row.RED_SWAPS : RegSpec :=
  ⟨0xfa0058, 1, 0, 1, 0, 0, false, false,
    [⟨0, 32, .rc, .anyRole, .any⟩]⟩

/-! ### LKT (R539; fields R540) -/

def Reg.LKT_CTRL : Nat := 0xfc0000
def Fld.LKT_CTRL_max_freeze_s : Fld := ⟨Reg.LKT_CTRL, 8, 6⟩
def Fld.LKT_CTRL_freeze : Fld := ⟨Reg.LKT_CTRL, 0, 1⟩
def Row.LKT_CTRL : RegSpec :=
  ⟨0xfc0000, 1, 0, 1, 0, 0xa00, true, false,
    [⟨8, 6, .rw, .anyRole, (.range 1 60)⟩,
     ⟨0, 1, .rw, .anyRole, .any⟩]⟩
def Reg.LKT_STATUS : Nat := 0xfc0004
def Fld.LKT_STATUS_uncommitted : Fld := ⟨Reg.LKT_STATUS, 20, 12⟩
def Fld.LKT_STATUS_held : Fld := ⟨Reg.LKT_STATUS, 12, 8⟩
def Fld.LKT_STATUS_continuity : Fld := ⟨Reg.LKT_STATUS, 4, 1⟩
def Fld.LKT_STATUS_flash_ok : Fld := ⟨Reg.LKT_STATUS, 3, 1⟩
def Fld.LKT_STATUS_pfail : Fld := ⟨Reg.LKT_STATUS, 2, 1⟩
def Fld.LKT_STATUS_frozen : Fld := ⟨Reg.LKT_STATUS, 1, 1⟩
def Fld.LKT_STATUS_pending : Fld := ⟨Reg.LKT_STATUS, 0, 1⟩
def Row.LKT_STATUS : RegSpec :=
  ⟨0xfc0004, 1, 0, 1, 0, 0, true, false,
    [⟨20, 12, .ro, .anyRole, .any⟩,
     ⟨12, 8, .ro, .anyRole, .any⟩,
     ⟨4, 1, .ro, .anyRole, .any⟩,
     ⟨3, 1, .ro, .anyRole, .any⟩,
     ⟨2, 1, .ro, .anyRole, .any⟩,
     ⟨1, 1, .ro, .anyRole, .any⟩,
     ⟨0, 1, .ro, .anyRole, .any⟩]⟩
def Reg.LKT_PART : Nat := 0xfc0008
def Fld.LKT_PART_active_log : Fld := ⟨Reg.LKT_PART, 8, 5⟩
def Fld.LKT_PART_size_log : Fld := ⟨Reg.LKT_PART, 0, 5⟩
def Row.LKT_PART : RegSpec :=
  ⟨0xfc0008, 1, 0, 1, 0, 0x1515, true, true,
    [⟨8, 5, .ro, .anyRole, .any⟩,
     ⟨0, 5, .rw, .maker, (.range 16 27)⟩]⟩
def Reg.LKT_SEQ : Nat := 0xfc000c
def Fld.LKT_SEQ_seq : Fld := ⟨Reg.LKT_SEQ, 0, 32⟩
def Row.LKT_SEQ : RegSpec :=
  ⟨0xfc000c, 1, 0, 1, 0, 0, true, true,
    [⟨0, 32, .ro, .anyRole, .any⟩]⟩
def Reg.LKT_OPSEC : Nat := 0xfc0010
def Fld.LKT_OPSEC_count : Fld := ⟨Reg.LKT_OPSEC, 0, 32⟩
def Row.LKT_OPSEC : RegSpec :=
  ⟨0xfc0010, 1, 0, 1, 0, 0, true, true,
    [⟨0, 32, .ro, .anyRole, .any⟩]⟩
def Reg.LKT_PCC : Nat := 0xfc0014
def Fld.LKT_PCC_count : Fld := ⟨Reg.LKT_PCC, 0, 32⟩
def Row.LKT_PCC : RegSpec :=
  ⟨0xfc0014, 1, 0, 1, 0, 0, true, true,
    [⟨0, 32, .ro, .anyRole, .any⟩]⟩
def Reg.LKT_OLDEST : Nat := 0xfc0018
def Fld.LKT_OLDEST_value : Fld := ⟨Reg.LKT_OLDEST, 0, 32⟩
def Row.LKT_OLDEST : RegSpec :=
  ⟨0xfc0018, 1, 0, 1, 0, 0, true, false,
    [⟨0, 32, .ro, .anyRole, .any⟩]⟩
def Reg.LKT_NEWEST : Nat := 0xfc001c
def Fld.LKT_NEWEST_value : Fld := ⟨Reg.LKT_NEWEST, 0, 32⟩
def Row.LKT_NEWEST : RegSpec :=
  ⟨0xfc001c, 1, 0, 1, 0, 0, true, false,
    [⟨0, 32, .ro, .anyRole, .any⟩]⟩
def Reg.LKT_COUNT : Nat := 0xfc0020
def Fld.LKT_COUNT_value : Fld := ⟨Reg.LKT_COUNT, 0, 32⟩
def Row.LKT_COUNT : RegSpec :=
  ⟨0xfc0020, 1, 0, 1, 0, 0, true, false,
    [⟨0, 32, .ro, .anyRole, .any⟩]⟩
def Reg.LKT_READ_CTRL : Nat := 0xfc0024
def Fld.LKT_READ_CTRL_go : Fld := ⟨Reg.LKT_READ_CTRL, 31, 1⟩
def Fld.LKT_READ_CTRL_source : Fld := ⟨Reg.LKT_READ_CTRL, 30, 1⟩
def Fld.LKT_READ_CTRL_position : Fld := ⟨Reg.LKT_READ_CTRL, 0, 24⟩
def Row.LKT_READ_CTRL : RegSpec :=
  ⟨0xfc0024, 1, 0, 1, 0, 0, true, false,
    [⟨31, 1, .wo, .anyRole, .any⟩,
     ⟨30, 1, .wo, .anyRole, .any⟩,
     ⟨0, 24, .wo, .anyRole, .any⟩]⟩
def Reg.LKT_READ_STATUS : Nat := 0xfc0028
def Fld.LKT_READ_STATUS_busy : Fld := ⟨Reg.LKT_READ_STATUS, 31, 1⟩
def Fld.LKT_READ_STATUS_result : Fld := ⟨Reg.LKT_READ_STATUS, 0, 2⟩
def Row.LKT_READ_STATUS : RegSpec :=
  ⟨0xfc0028, 1, 0, 1, 0, 0, true, false,
    [⟨31, 1, .ro, .anyRole, .any⟩,
     ⟨0, 2, .ro, .anyRole, .any⟩]⟩
def Reg.LKT_READ_DATA (i : Nat) : Nat := 0xfc0030 + 4 * i
def Fld.LKT_READ_DATA_data (i : Nat) : Fld := ⟨Reg.LKT_READ_DATA i, 0, 32⟩
def Row.LKT_READ_DATA : RegSpec :=
  ⟨0xfc0030, 8, 4, 1, 0, 0, true, false,
    [⟨0, 32, .ro, .anyRole, .any⟩]⟩
def Reg.LKT_EVENT : Nat := 0xfc0050
def Fld.LKT_EVENT_freeze_lapse : Fld := ⟨Reg.LKT_EVENT, 5, 1⟩
def Fld.LKT_EVENT_flash_error : Fld := ⟨Reg.LKT_EVENT, 4, 1⟩
def Fld.LKT_EVENT_gap : Fld := ⟨Reg.LKT_EVENT, 3, 1⟩
def Fld.LKT_EVENT_continuity_lost : Fld := ⟨Reg.LKT_EVENT, 2, 1⟩
def Fld.LKT_EVENT_pfail : Fld := ⟨Reg.LKT_EVENT, 1, 1⟩
def Fld.LKT_EVENT_lost : Fld := ⟨Reg.LKT_EVENT, 0, 1⟩
def Row.LKT_EVENT : RegSpec :=
  ⟨0xfc0050, 1, 0, 1, 0, 0, true, false,
    [⟨5, 1, .w1c, .anyRole, .any⟩,
     ⟨4, 1, .w1c, .anyRole, .any⟩,
     ⟨3, 1, .w1c, .anyRole, .any⟩,
     ⟨2, 1, .w1c, .anyRole, .any⟩,
     ⟨1, 1, .w1c, .anyRole, .any⟩,
     ⟨0, 1, .w1c, .anyRole, .any⟩]⟩
def Reg.LKT_EVENT_EN : Nat := 0xfc0054
def Fld.LKT_EVENT_EN_freeze_lapse : Fld := ⟨Reg.LKT_EVENT_EN, 5, 1⟩
def Fld.LKT_EVENT_EN_flash_error : Fld := ⟨Reg.LKT_EVENT_EN, 4, 1⟩
def Fld.LKT_EVENT_EN_gap : Fld := ⟨Reg.LKT_EVENT_EN, 3, 1⟩
def Fld.LKT_EVENT_EN_continuity_lost : Fld := ⟨Reg.LKT_EVENT_EN, 2, 1⟩
def Fld.LKT_EVENT_EN_pfail : Fld := ⟨Reg.LKT_EVENT_EN, 1, 1⟩
def Fld.LKT_EVENT_EN_lost : Fld := ⟨Reg.LKT_EVENT_EN, 0, 1⟩
def Row.LKT_EVENT_EN : RegSpec :=
  ⟨0xfc0054, 1, 0, 1, 0, 0, true, false,
    [⟨5, 1, .rw, .anyRole, .any⟩,
     ⟨4, 1, .rw, .anyRole, .any⟩,
     ⟨3, 1, .rw, .anyRole, .any⟩,
     ⟨2, 1, .rw, .anyRole, .any⟩,
     ⟨1, 1, .rw, .anyRole, .any⟩,
     ⟨0, 1, .rw, .anyRole, .any⟩]⟩
def Reg.LKT_LOST : Nat := 0xfc0060
def Fld.LKT_LOST_count : Fld := ⟨Reg.LKT_LOST, 0, 32⟩
def Row.LKT_LOST : RegSpec :=
  ⟨0xfc0060, 1, 0, 1, 0, 0, true, false,
    [⟨0, 32, .rc, .anyRole, .any⟩]⟩
def Reg.LKT_FLASH_ERRORS : Nat := 0xfc0064
def Fld.LKT_FLASH_ERRORS_count : Fld := ⟨Reg.LKT_FLASH_ERRORS, 0, 32⟩
def Row.LKT_FLASH_ERRORS : RegSpec :=
  ⟨0xfc0064, 1, 0, 1, 0, 0, true, false,
    [⟨0, 32, .rc, .anyRole, .any⟩]⟩
def Reg.LKT_OVERWRITTEN : Nat := 0xfc0068
def Fld.LKT_OVERWRITTEN_count : Fld := ⟨Reg.LKT_OVERWRITTEN, 0, 32⟩
def Row.LKT_OVERWRITTEN : RegSpec :=
  ⟨0xfc0068, 1, 0, 1, 0, 0, true, false,
    [⟨0, 32, .rc, .anyRole, .any⟩]⟩
def Reg.LKT_BRAM_DEV (i : Nat) : Nat := 0xfc0100 + 4 * i
def Fld.LKT_BRAM_DEV_word (i : Nat) : Fld := ⟨Reg.LKT_BRAM_DEV i, 0, 32⟩
def Row.LKT_BRAM_DEV : RegSpec :=
  ⟨0xfc0100, 16, 4, 1, 0, 0, true, true,
    [⟨0, 32, .ro, .anyRole, .any⟩]⟩
def Reg.LKT_BRAM (i : Nat) : Nat := 0xfc0140 + 4 * i
def Fld.LKT_BRAM_word (i : Nat) : Fld := ⟨Reg.LKT_BRAM i, 0, 32⟩
def Row.LKT_BRAM : RegSpec :=
  ⟨0xfc0140, 112, 4, 1, 0, 0, true, true,
    [⟨0, 32, .rw, .anyRole, .any⟩]⟩

/-! ### GLB (R29, R564: identity, capability, monitor and pin registers; fields R31-R43, R565) -/

def Reg.GLB_PINS : Nat := 0x40
def Fld.GLB_PINS_cpl2_raw : Fld := ⟨Reg.GLB_PINS, 6, 1⟩
def Fld.GLB_PINS_cpl1_raw : Fld := ⟨Reg.GLB_PINS, 5, 1⟩
def Fld.GLB_PINS_lead_raw : Fld := ⟨Reg.GLB_PINS, 4, 1⟩
def Fld.GLB_PINS_pfail_n : Fld := ⟨Reg.GLB_PINS, 3, 1⟩
def Fld.GLB_PINS_cpl2 : Fld := ⟨Reg.GLB_PINS, 1, 1⟩
def Fld.GLB_PINS_cpl1 : Fld := ⟨Reg.GLB_PINS, 0, 1⟩
def Row.GLB_PINS : RegSpec :=
  ⟨0x40, 1, 0, 1, 0, 0, false, false,
    [⟨6, 1, .ro, .anyRole, .any⟩,
     ⟨5, 1, .ro, .anyRole, .any⟩,
     ⟨4, 1, .ro, .anyRole, .any⟩,
     ⟨3, 1, .ro, .anyRole, .any⟩,
     ⟨1, 1, .ro, .anyRole, .any⟩,
     ⟨0, 1, .ro, .anyRole, .any⟩]⟩
def Reg.GLB_RESET_INFO : Nat := 0x44
def Fld.GLB_RESET_INFO_pll : Fld := ⟨Reg.GLB_RESET_INFO, 5, 1⟩
def Fld.GLB_RESET_INFO_perst_n : Fld := ⟨Reg.GLB_RESET_INFO, 4, 1⟩
def Fld.GLB_RESET_INFO_poreset_n : Fld := ⟨Reg.GLB_RESET_INFO, 3, 1⟩
def Fld.GLB_RESET_INFO_power : Fld := ⟨Reg.GLB_RESET_INFO, 2, 1⟩
def Fld.GLB_RESET_INFO_cause : Fld := ⟨Reg.GLB_RESET_INFO, 0, 2⟩
def Row.GLB_RESET_INFO : RegSpec :=
  ⟨0x44, 1, 0, 1, 0, 0, false, false,
    [⟨5, 1, .ro, .anyRole, .any⟩,
     ⟨4, 1, .ro, .anyRole, .any⟩,
     ⟨3, 1, .ro, .anyRole, .any⟩,
     ⟨2, 1, .ro, .anyRole, .any⟩,
     ⟨0, 2, .ro, .anyRole, .any⟩]⟩
def Reg.GLB_PHY_RST : Nat := 0x48
def Fld.GLB_PHY_RST_trunk : Fld := ⟨Reg.GLB_PHY_RST, 10, 4⟩
def Fld.GLB_PHY_RST_edge : Fld := ⟨Reg.GLB_PHY_RST, 0, 6⟩
def Row.GLB_PHY_RST : RegSpec :=
  ⟨0x48, 1, 0, 1, 0, 0, false, false,
    [⟨10, 4, .rw, .installer, .any⟩,
     ⟨0, 6, .rw, .installer, .any⟩]⟩

/-! ### CAR (R312, R327; fields R328) -/

def Reg.CAR_EVT0 (i : Nat) : Nat := 0x600000 + 0x10 * i
def Fld.CAR_EVT0_phase (i : Nat) : Fld := ⟨Reg.CAR_EVT0 i, 0, 32⟩
def Row.CAR_EVT0 : RegSpec :=
  ⟨0x600000, 4096, 0x10, 1, 0, 0, false, false,
    [⟨0, 32, .rw, .installer, .any⟩]⟩
def Reg.CAR_EVT1 (i : Nat) : Nat := 0x600004 + 0x10 * i
def Fld.CAR_EVT1_valid (i : Nat) : Fld := ⟨Reg.CAR_EVT1 i, 31, 1⟩
def Fld.CAR_EVT1_domain (i : Nat) : Fld := ⟨Reg.CAR_EVT1 i, 28, 3⟩
def Fld.CAR_EVT1_action (i : Nat) : Fld := ⟨Reg.CAR_EVT1 i, 24, 4⟩
def Fld.CAR_EVT1_hold (i : Nat) : Fld := ⟨Reg.CAR_EVT1 i, 22, 2⟩
def Fld.CAR_EVT1_skip (i : Nat) : Fld := ⟨Reg.CAR_EVT1 i, 21, 1⟩
def Fld.CAR_EVT1_every (i : Nat) : Fld := ⟨Reg.CAR_EVT1 i, 8, 8⟩
def Fld.CAR_EVT1_offset (i : Nat) : Fld := ⟨Reg.CAR_EVT1 i, 0, 8⟩
def Row.CAR_EVT1 : RegSpec :=
  ⟨0x600004, 4096, 0x10, 1, 0, 0, false, false,
    [⟨31, 1, .rw, .installer, .any⟩,
     ⟨28, 3, .rw, .installer, .any⟩,
     ⟨24, 4, .rw, .installer, (.code [(8, 0), (9, 0), (10, 0), (11, 0), (12, 0), (13, 0), (14, 0), (15, 0)])⟩,
     ⟨22, 2, .rw, .installer, (.code [(3, 1)])⟩,
     ⟨21, 1, .rw, .installer, .any⟩,
     ⟨8, 8, .rw, .installer, .any⟩,
     ⟨0, 8, .rw, .installer, .any⟩]⟩
def Reg.CAR_EVT2 (i : Nat) : Nat := 0x600008 + 0x10 * i
def Fld.CAR_EVT2_operand (i : Nat) : Fld := ⟨Reg.CAR_EVT2 i, 0, 32⟩
def Row.CAR_EVT2 : RegSpec :=
  ⟨0x600008, 4096, 0x10, 1, 0, 0, false, false,
    [⟨0, 32, .rw, .installer, .any⟩]⟩
def Reg.CAR_EVT3 (i : Nat) : Nat := 0x60000c + 0x10 * i
def Fld.CAR_EVT3_operand (i : Nat) : Fld := ⟨Reg.CAR_EVT3 i, 0, 32⟩
def Row.CAR_EVT3 : RegSpec :=
  ⟨0x60000c, 4096, 0x10, 1, 0, 0, false, false,
    [⟨0, 32, .rw, .installer, .any⟩]⟩

/-- The rows of block GLB. -/
def Rows.GLB : List RegSpec :=
  [Row.GLB_ID, Row.GLB_CAP_PORTS, Row.GLB_CAP_TABLES, Row.GLB_CAP_IO, Row.GLB_UID_LO, Row.GLB_UID_HI,
   Row.GLB_STRAP, Row.GLB_CLAMP_COUNT, Row.GLB_TEMP, Row.GLB_TEMP_WARN, Row.GLB_SUPPLY, Row.GLB_CLK,
   Row.GLB_MON_EVENT, Row.GLB_MAC_BASE_LO, Row.GLB_MAC_BASE_HI, Row.GLB_PINS, Row.GLB_RESET_INFO,
   Row.GLB_PHY_RST]

/-- The rows of block ROL. -/
def Rows.ROL : List RegSpec :=
  [Row.ROL_STATUS, Row.ROL_IDLE, Row.ROL_CHALLENGE, Row.ROL_UNLOCK, Row.ROL_NONCE, Row.ROL_RESP, Row.ROL_DROP,
   Row.ROL_KEY_ROT, Row.ROL_ROTATE, Row.ROL_DENY_COUNT, Row.ROL_EVENT, Row.ROL_EVENT_EN, Row.ROL_IMG_ADDR_LO,
   Row.ROL_IMG_ADDR_HI, Row.ROL_IMG_CTRL, Row.ROL_IMG_STATUS, Row.ROL_IMG_GEN]

/-- The rows of block SPR. -/
def Rows.SPR : List RegSpec :=
  [Row.SPR_CTRL, Row.SPR_STATUS, Row.SPR_EPOCH, Row.SPR_DIGEST, Row.SPR_REF_ID_LO, Row.SPR_REF_ID_HI,
   Row.SPR_LEAD_MAP_LO, Row.SPR_LEAD_MAP_HI, Row.SPR_DIR1, Row.SPR_DIR2, Row.SPR_ETYPE, Row.SPR_LEAD_FILT,
   Row.SPR_EVENT, Row.SPR_EVENT_EN, Row.SPR_COMMITS, Row.SPR_ABORTS, Row.SPR_BEACON_LATE, Row.SPR_BAD_FRAMES,
   Row.SPR_COMMIT_REFUSED, Row.SPR_LINE_STATUS, Row.SPR_NBR_ID_LO, Row.SPR_NBR_ID_HI, Row.SPR_LINK_DELAY,
   Row.SPR_COMPAT_CTRL, Row.SPR_COMPAT_TIMING, Row.SPR_COMPAT_MATCH, Row.SPR_COMPAT_SIG, Row.SPR_COMPAT_TOPO,
   Row.SPR_COMPAT_COMMIT, Row.SPR_COMPAT_STATUS, Row.SPR_COMPAT_HELLO]

/-- The rows of block EPO. -/
def Rows.EPO : List RegSpec :=
  [Row.EPO_CTRL, Row.EPO_STATUS, Row.EPO_ETYPE, Row.EPO_GRACE, Row.EPO_ORPHAN, Row.EPO_TAT_BLOCK,
   Row.EPO_TAT_CTRL, Row.EPO_DIR_STATE, Row.EPO_EVENT, Row.EPO_EVENT_EN, Row.EPO_TRANSLATED,
   Row.EPO_ORPHAN_LEFT, Row.EPO_ORPHAN_UNMAPPED, Row.EPO_ORPHAN_STALE, Row.EPO_ORPHAN_BLOCKED,
   Row.EPO_STALE_NBR_DROPS, Row.EPO_UNTAGGED_DROPS, Row.EPO_HOP_DROPS, Row.EPO_NO_ROUTE_DROPS,
   Row.EPO_TAT_REWRITES, Row.EPO_LIVE_WRITES, Row.EPO_ROUTE, Row.EPO_MAP, Row.EPO_ROSTER_LO, Row.EPO_ROSTER_HI]

/-- The rows of block FAB. -/
def Rows.FAB : List RegSpec :=
  [Row.FAB_CTRL, Row.FAB_HASH, Row.FAB_AGG_CTRL, Row.FAB_AGG_STATE, Row.FAB_EVENT, Row.FAB_EVENT_EN,
   Row.FAB_CT_FALLBACK, Row.FAB_CT_ABORT, Row.FAB_AGG_FAILOVER, Row.FAB_AGG_FORCED, Row.FAB_MC_SPLIT,
   Row.FAB_CT_MODE, Row.FAB_MCAST_LO, Row.FAB_MCAST_HI]

/-- The rows of block FDB. -/
def Rows.FDB : List RegSpec :=
  [Row.FDB_CTRL, Row.FDB_AGE, Row.FDB_STATUS, Row.FDB_CMD, Row.FDB_CMD_STATUS, Row.FDB_DATA0, Row.FDB_DATA1,
   Row.FDB_DATA2, Row.FDB_DATA3, Row.FDB_LEARNED, Row.FDB_LEARN_FULL, Row.FDB_LEARN_LOST, Row.FDB_AGED,
   Row.FDB_MOVED, Row.FDB_TRAIN_STALE, Row.FDB_EVENT, Row.FDB_EVENT_EN, Row.FDB_PORT, Row.FDB_PCP_MAP,
   Row.FDB_VLAN_MEMBER_LO, Row.FDB_VLAN_MEMBER_HI, Row.FDB_VLAN_UNTAG_LO, Row.FDB_VLAN_UNTAG_HI,
   Row.FDB_VLAN_FLAGS, Row.FDB_ENTRY0, Row.FDB_ENTRY1, Row.FDB_ENTRY2, Row.FDB_ENTRY3]

/-- The rows of block BUF. -/
def Rows.BUF : List RegSpec :=
  [Row.BUF_CTRL, Row.BUF_POOL, Row.BUF_SHARED_USE, Row.BUF_HEADROOM, Row.BUF_CELLS_FREE, Row.BUF_CELLS_QUEUED,
   Row.BUF_CELLS_TRANSIT, Row.BUF_CELLS_RESERVED, Row.BUF_AUDIT_STATUS, Row.BUF_AUDIT_DIFF_LO,
   Row.BUF_AUDIT_DIFF_HI, Row.BUF_SNAP_TICK, Row.BUF_SNAP_CTRL, Row.BUF_EVENT, Row.BUF_EVENT_EN,
   Row.BUF_ECN_MARKED, Row.BUF_TRUNCATED, Row.BUF_LEAKED, Row.BUF_DUPLICATED, Row.BUF_RECLAIMED, Row.BUF_CLASS,
   Row.BUF_CLASS_PFC, Row.BUF_ROW_CFG, Row.BUF_ROW_STATE, Row.BUF_DEPTH, Row.BUF_LEDGER]

/-- The rows of block MIR. -/
def Rows.MIR : List RegSpec :=
  [Row.MIR_CTRL, Row.MIR_CAPTURES, Row.MIR_CAPTURE_LOST, Row.MIR_FILTER, Row.MIR_MATCH, Row.MIR_SAMPLE,
   Row.MIR_HITS]

/-- The rows of block EPT. -/
def Rows.EPT : List RegSpec :=
  [Row.EPT_CTRL, Row.EPT_MODE, Row.EPT_STATUS, Row.EPT_FC, Row.EPT_SHAPE, Row.EPT_GATE, Row.EPT_EVENT,
   Row.EPT_EVENT_EN]

/-- The rows of block TPT. -/
def Rows.TPT : List RegSpec :=
  [Row.TPT_CTRL, Row.TPT_MODE, Row.TPT_STATUS, Row.TPT_PREEMPT, Row.TPT_SHAPE, Row.TPT_GATE, Row.TPT_EVENT,
   Row.TPT_EVENT_EN]

/-- The rows of block MST. -/
def Rows.MST : List RegSpec :=
  [Row.MST_CTRL, Row.MST_PORT_EVENT_LO, Row.MST_PORT_EVENT_HI, Row.MST_CLEAR, Row.MST_HALF_LO, Row.MST_HALF_HI,
   Row.MST_CNT_LO, Row.MST_CNT_HI]

/-- The rows of block TIM. -/
def Rows.TIM : List RegSpec :=
  [Row.TIM_CTRL, Row.TIM_STATUS, Row.TIM_TIME_FRAC, Row.TIM_TIME_NS, Row.TIM_TIME_SEC_LO, Row.TIM_TIME_SEC_HI,
   Row.TIM_STAMP, Row.TIM_RATE, Row.TIM_ADDEND_LO, Row.TIM_ADDEND_HI, Row.TIM_ADJ_LO, Row.TIM_ADJ_HI,
   Row.TIM_ADJ_CTRL, Row.TIM_PERMIT, Row.TIM_SERVO, Row.TIM_SERVO_LIM, Row.TIM_BB_CTRL, Row.TIM_MERGE_CFG,
   Row.TIM_OFFSET, Row.TIM_LAST_STEP_LO, Row.TIM_LAST_STEP_HI, Row.TIM_EVENT, Row.TIM_EVENT_EN, Row.TIM_STEPS,
   Row.TIM_SLEWS, Row.TIM_REFUSED, Row.TIM_TC_TWOSTEP, Row.TIM_CORR_CTRL, Row.TIM_CORR_FRAC, Row.TIM_CORR_NS,
   Row.TIM_CORR_SEC_LO, Row.TIM_CORR_SEC_HI, Row.TIM_CORR_STAMP, Row.TIM_CORR_CAN_LO, Row.TIM_CORR_CAN_HI,
   Row.TIM_SYNC_CFG, Row.TIM_SYNC_OFFSET, Row.TIM_SYNC_CAP_NS, Row.TIM_SYNC_CAP_SEC, Row.TIM_SYNC_LOST,
   Row.TIM_PORT_CFG, Row.TIM_PORT_LAT, Row.TIM_PORT_ASYM, Row.TIM_PORT_DELAY]

/-- The rows of block PHS. -/
def Rows.PHS : List RegSpec :=
  [Row.PHS_CTRL, Row.PHS_PERIOD, Row.PHS_OFFSET, Row.PHS_LOOP, Row.PHS_SLIP, Row.PHS_PHASE, Row.PHS_CYCLE,
   Row.PHS_FREQ, Row.PHS_STATUS, Row.PHS_REJECTS, Row.PHS_MISSES, Row.PHS_CORRECT, Row.PHS_EVENT,
   Row.PHS_EVENT_EN, Row.PHS_PD0_LIM]

/-- The rows of block CAR. -/
def Rows.CAR : List RegSpec :=
  [Row.CAR_CTRL, Row.CAR_STATUS, Row.CAR_MERGE, Row.CAR_SILENCE, Row.CAR_RELEASE, Row.CAR_OWN_OFFSET,
   Row.CAR_EVENT, Row.CAR_EVENT_EN, Row.CAR_FIRED, Row.CAR_DEFERRED, Row.CAR_SKIPPED, Row.CAR_SUPPRESSED,
   Row.CAR_REPEATED, Row.CAR_LATE_FRAMES, Row.CAR_GUARD, Row.CAR_WIN_OPEN, Row.CAR_WIN_CLOSE,
   Row.CAR_WIN_EXPECT, Row.CAR_WIN_CFG, Row.CAR_WIN_OFFSET, Row.CAR_WIN_LATE, Row.CAR_EVT0, Row.CAR_EVT1,
   Row.CAR_EVT2, Row.CAR_EVT3]

/-- The rows of block CAN. -/
def Rows.CAN : List RegSpec :=
  [Row.CAN_CTRL, Row.CAN_NBT, Row.CAN_DBT, Row.CAN_STATUS, Row.CAN_LONELY, Row.CAN_RX_CFG, Row.CAN_EVENT,
   Row.CAN_EVENT_EN, Row.CAN_RX_FRAMES, Row.CAN_TX_FRAMES, Row.CAN_ACK_ERR, Row.CAN_BIT_ERR, Row.CAN_STUFF_ERR,
   Row.CAN_FORM_ERR, Row.CAN_CRC_ERR, Row.CAN_BUS_OFF_COUNT, Row.CAN_RX_LOST, Row.CAN_TX_DROPPED, Row.CAN_PEX,
   Row.CAN_FILT_ID, Row.CAN_FILT_MASK, Row.CAN_TT_CTRL, Row.CAN_TT_CFG, Row.CAN_TT_STATUS, Row.CAN_TT_SYNC_LO,
   Row.CAN_TT_SYNC_HI, Row.CAN_TT_EVENT, Row.CAN_TT_EVENT_EN, Row.CAN_TT_SCHED_ERR, Row.CAN_TT_MISSED,
   Row.CAN_TT_WATCH, Row.CAN_TT_STALE, Row.CAN_TT_SUPPRESSED, Row.CAN_TT_TRIG_A, Row.CAN_TT_TRIG_B,
   Row.CAN_MB_ID, Row.CAN_MB_CFG, Row.CAN_MB_STATE, Row.CAN_MB_STAMP_LO, Row.CAN_MB_STAMP_HI, Row.CAN_MB_DATA]

/-- The rows of block FIL. -/
def Rows.FIL : List RegSpec :=
  [Row.FIL_CTRL, Row.FIL_STATUS, Row.FIL_STATUS_CFG, Row.FIL_HASH_KEY0, Row.FIL_HASH_KEY1, Row.FIL_HASH,
   Row.FIL_EVENT, Row.FIL_EVENT_EN, Row.FIL_NO_MATCH, Row.FIL_ETH_NOMATCH, Row.FIL_ETH_OFF, Row.FIL_SRC_LOST,
   Row.FIL_SHORT, Row.FIL_CLAMPED, Row.FIL_INVALID, Row.FIL_EMITS, Row.FIL_EMIT_LOST, Row.FIL_EMIT_IGNORED,
   Row.FIL_EMIT_SUPPRESSED, Row.FIL_LIST_ERR, Row.FIL_TPL_BAD, Row.FIL_PROFILE_MATCH, Row.FIL_PROFILE_CFG,
   Row.FIL_HOST_WORD, Row.FIL_SRC0, Row.FIL_SRC1, Row.FIL_SRC2, Row.FIL_SRC3, Row.FIL_TPL0, Row.FIL_TPL1,
   Row.FIL_TPL2, Row.FIL_TPL3, Row.FIL_TPL4, Row.FIL_TPL5, Row.FIL_TPL6, Row.FIL_TPL7, Row.FIL_SIG0,
   Row.FIL_SIG1, Row.FIL_SIG2, Row.FIL_SIG3, Row.FIL_SIG4, Row.FIL_SIG5, Row.FIL_SIG6, Row.FIL_SIG7,
   Row.FIL_TPL_DATA]

/-- The rows of block SNS. -/
def Rows.SNS : List RegSpec :=
  [Row.SNS_CTRL, Row.SNS_CONVERT, Row.SNS_EVENT, Row.SNS_EVENT_EN, Row.SNS_STUCK, Row.SNS_CONV_OVERLAP,
   Row.SNS_STUCK_COUNT, Row.SNS_MCLK_CFG, Row.SNS_CH_CFG, Row.SNS_ZC_CFG, Row.SNS_SAMPLE, Row.SNS_STATUS,
   Row.SNS_RES_CONV, Row.SNS_RES_CYCLE, Row.SNS_RES_ZC]

/-- The rows of block DRV. -/
def Rows.DRV : List RegSpec :=
  [Row.DRV_CTRL, Row.DRV_LEVEL, Row.DRV_CMD, Row.DRV_OUT, Row.DRV_PIN, Row.DRV_RB_FAULT, Row.DRV_PROVE_FAIL,
   Row.DRV_EVENT, Row.DRV_EVENT_EN, Row.DRV_IGNORED, Row.DRV_RB_COUNT, Row.DRV_PROVE_COUNT,
   Row.DRV_PROVE_ABANDONED, Row.DRV_CFG, Row.DRV_PHASE, Row.DRV_FLASH, Row.DRV_PROVE_CFG, Row.DRV_PROVE_LO,
   Row.DRV_PROVE_HI, Row.DRV_PROVE_OFF, Row.DRV_PROVE_LAST]

/-- The rows of block HST. -/
def Rows.HST : List RegSpec :=
  [Row.HST_LINK, Row.HST_EVENT, Row.HST_EVENT_EN, Row.HST_MISC_CAUSE, Row.HST_MISC_VEC0, Row.HST_MISC_VEC1,
   Row.HST_MISC_VEC2, Row.HST_MISC_ACK, Row.HST_RX_MAP_LO, Row.HST_RX_MAP_HI, Row.HST_WDOG_CTRL,
   Row.HST_WDOG_STATUS, Row.HST_ERR_ADDR_LO, Row.HST_ERR_ADDR_HI, Row.HST_ERR_INFO, Row.HST_DMA_ERRORS]

/-- The rows of block RNG. -/
def Rows.RNG : List RegSpec :=
  [Row.RNG_CTRL, Row.RNG_BASE_LO, Row.RNG_BASE_HI, Row.RNG_CFG, Row.RNG_MOD, Row.RNG_STALL_WAIT, Row.RNG_STATUS,
   Row.RNG_FRAMES, Row.RNG_DROPS, Row.RNG_DISCARDS, Row.RNG_LATE_DOORBELL, Row.RNG_BAD_DOORBELL, Row.RNG_EVENT,
   Row.RNG_EVENT_EN, Row.RNG_EVENT_RING_LO, Row.RNG_EVENT_RING_HI]

/-- The rows of block LBB. -/
def Rows.LBB : List RegSpec :=
  [Row.LBB_CTRL, Row.LBB_STATUS, Row.LBB_ARB, Row.LBB_CLASP_CTRL, Row.LBB_INB_CFG, Row.LBB_INB_BASE_LO,
   Row.LBB_INB_BASE_HI, Row.LBB_IRQ_CFG, Row.LBB_IRQ_EN, Row.LBB_IRQ_EVENT, Row.LBB_EVENT, Row.LBB_EVENT_EN,
   Row.LBB_ERR_INFO, Row.LBB_ERR_ADDR, Row.LBB_ERRORS, Row.LBB_LATE_CPL, Row.LBB_ERR_LOST,
   Row.LBB_PREFETCH_DISCARD, Row.LBB_CLASP_EXPIRED, Row.LBB_TENURE_EXPIRED, Row.LBB_IRQ_MERGED, Row.LBB_CS_CFG,
   Row.LBB_CS_TIMING]

/-- The rows of block CRC. -/
def Rows.CRC : List RegSpec :=
  [Row.CRC_CTRL, Row.CRC_SEED, Row.CRC_DATA8, Row.CRC_DATA16, Row.CRC_DATA32, Row.CRC_RESULT, Row.CRC_COUNT]

/-- The rows of block ILG. -/
def Rows.ILG : List RegSpec :=
  [Row.ILG_CTRL, Row.ILG_STATUS, Row.ILG_REBALANCE, Row.ILG_EVENT, Row.ILG_EVENT_EN, Row.ILG_MGMT_CTRL,
   Row.ILG_MGMT_ADDR, Row.ILG_MGMT_DATA, Row.ILG_MGMT_STATUS, Row.ILG_IMG_ADDR_LO, Row.ILG_IMG_ADDR_HI,
   Row.ILG_IMG_CTRL, Row.ILG_IMG_STATUS, Row.ILG_LATE_MGMT, Row.ILG_PORT_CTRL, Row.ILG_PORT_STATUS,
   Row.ILG_PORT_REACH, Row.ILG_PORT_DELAY, Row.ILG_PEER_ID_LO, Row.ILG_PEER_ID_HI, Row.ILG_REPLAYS,
   Row.ILG_CHECK_ERR, Row.ILG_LINK_DOWNS, Row.ILG_CREDIT, Row.ILG_WORKER_GEN, Row.ILG_WORKER_STATE,
   Row.ILG_WORKER_REPGEN, Row.ILG_WORKER_ID_LO, Row.ILG_WORKER_ID_HI]

/-- The rows of block RED. -/
def Rows.RED : List RegSpec :=
  [Row.RED_CTRL, Row.RED_STATUS, Row.RED_NODE_ID_LO, Row.RED_NODE_ID_HI, Row.RED_CFG_TAG, Row.RED_TIMING,
   Row.RED_CMD, Row.RED_SWAP, Row.RED_SWAP_AUTO, Row.RED_CAUSE, Row.RED_EVENT, Row.RED_EVENT_EN,
   Row.RED_ROLE_AGE, Row.RED_PEER, Row.RED_TAKEOVERS, Row.RED_RESIGNS, Row.RED_HB_LOSS, Row.RED_HB_LATE,
   Row.RED_HB_BAD, Row.RED_CONFLICTS, Row.RED_SWAPS]

/-- The rows of block LKT. -/
def Rows.LKT : List RegSpec :=
  [Row.LKT_CTRL, Row.LKT_STATUS, Row.LKT_PART, Row.LKT_SEQ, Row.LKT_OPSEC, Row.LKT_PCC, Row.LKT_OLDEST,
   Row.LKT_NEWEST, Row.LKT_COUNT, Row.LKT_READ_CTRL, Row.LKT_READ_STATUS, Row.LKT_READ_DATA, Row.LKT_EVENT,
   Row.LKT_EVENT_EN, Row.LKT_LOST, Row.LKT_FLASH_ERRORS, Row.LKT_OVERWRITTEN, Row.LKT_BRAM_DEV, Row.LKT_BRAM]

/-- Every row of the BAR0 register map (R583, R584), with the end offset of its block's region. -/
def regBlocks : List (Nat × List RegSpec) :=
  [(0x10000, Rows.GLB),
   (0x20000, Rows.ROL),
   (0x40000, Rows.HST),
   (0x100000, Rows.RNG),
   (0x140000, Rows.FAB),
   (0x180000, Rows.BUF),
   (0x200000, Rows.MIR),
   (0x300000, Rows.EPT),
   (0x400000, Rows.MST),
   (0x500000, Rows.TPT),
   (0x580000, Rows.TIM),
   (0x600000, Rows.PHS),
   (0x700000, Rows.CAR),
   (0x780000, Rows.SPR),
   (0x800000, Rows.EPO),
   (0xa00000, Rows.FDB),
   (0xc00000, Rows.CAN),
   (0xe00000, Rows.FIL),
   (0xe80000, Rows.SNS),
   (0xf00000, Rows.DRV),
   (0xf40000, Rows.LBB),
   (0xf80000, Rows.CRC),
   (0xfa0000, Rows.ILG),
   (0xfc0000, Rows.RED),
   (0x1000000, Rows.LKT)]

end Sys2Proof.Machine
end

