-- ==== Sys2Proof/Machine/State.lean ====
section
/-! DEFINITION. The state of the block as plain data: the register file, and for each block of the device the state
that no register shows. Registers live in `State.regs`, one home for each (RegMap gives their offsets). -/
namespace Sys2Proof.Machine

/-- The stops of a step. The spec gives every command of the table an effect, so no meaning raises one;
`noMeaning` stands so that the type has a name for a stop (safe: the machine stops). -/
inductive Fault where
  /-- Raised by no command. Safe. -/
  | noMeaning
  deriving DecidableEq, Repr

/-- Why a command has no meaning in the model. -/
inductive Refusal where
  /-- Raised by an arm of exec whose command is not modelled yet, with its mnemonic. Safe. -/
  | notModelled (mnemonic : String)
  deriving DecidableEq, Repr

/-- What the device drives out or sends, newest first in `State.out` (the model's own list, assumption log 3). -/
inductive Out where
  /-- a frame on a port: bytes from the destination address, FCS left out; `bad` = ended with a rejected FCS -/
  | frame (port : Nat) (bytes : List Byte) (bad : Bool)
  /-- a verify frame, or its respond frame, on a trunk line with its source address (R36, R252) -/
  | verify (line src : Nat) (respond : Bool)
  /-- an MSI-X message -/
  | msix (vector : Nat)
  /-- a write to host memory -/
  | hostWrite (addr : Nat) (bytes : List Byte)
  /-- a read of host memory -/
  | hostRead (addr len : Nat)
  /-- a split-read completion on BAR4 -/
  | completion (tag : Nat) (bytes : List Byte)
  /-- an output ball: its name's number (`Pin`) and level -/
  | pin (pin : Nat) (level : Bool)
  /-- a clock output starts with a rising edge and runs with a period in CCLK cycles, or is held low (period 0) -/
  | clock (pin period : Nat)
  /-- flash: program bytes -/
  | flashProgram (addr : Nat) (bytes : List Byte)
  /-- flash: erase a 4 KiB sector -/
  | flashErase (sector : Nat)
  /-- flash: suspend or resume an erase -/
  | flashSuspend (suspend : Bool)
  /-- flash: a command without address or data (R562) -/
  | flashCommand (op : Nat)
  /-- a CAN frame on a channel -/
  | can (ch : Nat) (f : CanFrame)
  /-- an Ilgil unit on a port -/
  | unit (port : Nat) (bytes : List Byte)
  /-- a heartbeat on PEER_HB_OUT -/
  | heartbeat (bytes : List Byte)
  /-- a local bus cycle: write?, chip select, address, LBHE_N low?, data, and LDP as driven (0 without parity) -/
  | localCycle (write : Bool) (cs addr : Nat) (upper : Bool) (data ldp : Nat)
  /-- the answer to a read of the local master, on LD -/
  | localAnswer (data : Nat)
  /-- TDO: the register the TAP selects -/
  | tdo (value : Nat)
  deriving DecidableEq, Repr

/-! ### Roles, unlocking, images (chapter 02) -/

/-- A running comparison of an unlock response (R57, R58). -/
structure Compare where
  due : Nat
  role : Nat
  ok : Bool
  deriving DecidableEq, Repr

/-- What a running image waits for (R71). -/
inductive ImgWait where
  | none
  | poll (addr mask value deadline : Nat)
  | delay (until_ : Nat)
  deriving DecidableEq, Repr

/-- The stage of the boot image (R76, R77). -/
inductive Boot where
  | notYet | waiting | running | ended
  deriving DecidableEq, Repr

/-- The image engine (R70 to R77, R588). -/
structure Image where
  /-- the bytes of the first read -/
  bytes : List Byte
  crc : Nat
  generation : Nat
  hmacOk : Bool
  /-- offset in the body of the record to apply next -/
  pos : Nat
  index : Nat
  /-- the body bytes of the second read so far -/
  second : List Byte
  wait : ImgWait
  abort : Bool
  heldStart : Bool
  boot : Boot
  deriving DecidableEq, Repr

structure Roles where
  nonceAt : Nat
  /-- comparisons that run, by their ends -/
  compare : List Compare
  lockoutEnd : Option Nat
  rotating : Option Nat
  draws : Nat
  deriving DecidableEq, Repr

/-! ### Locket (chapter 18) -/

/-- A slot of the flash log: a record, or bytes programmed to 0x00 after a failure (R535). -/
inductive FlashSlot where
  | record (r : Record)
  | zeroed
  deriving DecidableEq, Repr

/-- The page program in progress: first slot and number of records. -/
structure Page where
  slot : Nat
  count : Nat
  deriving DecidableEq, Repr

structure Locket where
  /-- uncommitted records, oldest first (R534) -/
  staging : List Record
  /-- the holding FIFO, oldest first -/
  holding : List Record
  /-- records lost since the last GAP, by group -/
  lost : List Nat
  heldInFreeze : Nat
  /-- how many of the newest records were made in the cycle `madeAt` (R531) -/
  fresh : Nat
  madeAt : Nat
  frozenAt : Nat
  page : Option Page
  /-- records of the running commit still to program -/
  commitLeft : Nat
  /-- the write point, a slot of the log area -/
  wrSlot : Nat
  log : List (Nat × FlashSlot)
  /-- the sector of the log area being erased, those to erase after it, whether its suspension was asked for and stands -/
  erase : Option Nat
  eraseNext : List Nat
  suspending : Bool
  suspended : Bool
  copy0 : List CounterBlock
  copy1 : List CounterBlock
  nextCopy : Bool
  fetch : Option Nat
  /-- records lost with the staging area at a reset (R536, R558), kept in the island -/
  lostAtReset : Nat
  /-- the island's state stands (R532, R554) -/
  pattern : Bool
  deriving DecidableEq, Repr

/-! ### Power, reset, pins (chapter 19) -/

/-- The start-up step the device has reached (R560). -/
inductive Stage where
  | reset | pll | memory | locket | boot | run
  deriving DecidableEq, Repr

/-- The instructions of the TAP (R559). -/
inductive Tap where
  | bypass | idcode | sample | extest | clamp | highz
  deriving DecidableEq, Repr

structure Power where
  stage : Stage
  main : Bool
  poresetN : Bool
  perstN : Bool
  pll : Bool
  /-- reset reasons seen since the last end of reset: power, PORESET_N, PERST_N, PLL (R557) -/
  sawPower : Bool
  sawPoreset : Bool
  sawPerst : Bool
  sawPll : Bool
  straps : BitVec 13
  /-- CCLK cycles from the last rise of PORESET_N to cycle 0 of the state's count (R18) -/
  sincePor : Nat
  tap : Tap
  boundary : List Bool
  /-- deadlines of the input filters of CPL1 and CPL2 (R545) -/
  cpl1Due : Option Nat
  cpl2Due : Option Nat
  deriving DecidableEq, Repr

/-! ### Host interface and rings (chapter 13) -/

/-- The state of one TX frame or record of a ring (R419). -/
inductive TxFate where
  /-- its data has not been read -/
  | reading
  /-- it waits at its source (R206) or for its egress time -/
  | waiting
  /-- its fate is known: status, reason, and time fields of the write-back -/
  | done (status reason tsNs tsSec : Nat) (tsValid : Bool)
  deriving DecidableEq, Repr

/-- One TX frame or record: its descriptors as posted, with the positions of their slots. -/
structure TxJob where
  id : Nat
  slots : List (Nat × List Byte)
  fate : TxFate
  data : List Byte
  deriving DecidableEq, Repr

/-- What reaches the ring writer: a copy of a frame for port H, or a CAN record for a ring (R422). -/
inductive RxItem where
  | copy (frame out : Nat)
  | can (ring : Nat) (bytes : List Byte)
  deriving DecidableEq, Repr

/-- What an RX ring is writing (R424, R425). -/
structure RxWrite where
  item : RxItem
  /-- bytes still to write -/
  rest : List Byte
  /-- slots used: position and bytes written, 0 for a buffer too small to use -/
  used : List (Nat × Nat)
  deriving DecidableEq, Repr

structure Ring where
  /-- latched at STARTING (R434) -/
  type : Nat
  sizeLog : Nat
  base : Nat
  /-- positions with their generation, 0 to 2S - 1 (R412) -/
  prod : Nat
  cons : Nat
  /-- descriptors fetched, from the consumer position on -/
  fetched : List (List Byte)
  jobs : List TxJob
  /-- a sof descriptor cut the previous frame short, so the next frame is malformed too (R420) -/
  tainted : Bool
  writing : Option RxWrite
  /-- what waits for buffers (R426) -/
  held : List RxItem
  stallEnd : Option Nat
  /-- a stall wait expired and no doorbell has come since (R425) -/
  lateArmed : Bool
  /-- event records lost since the last GAP -/
  lost : Nat
  unannounced : Nat
  firstUnannounced : Nat
  deriving DecidableEq, Repr

def Ring.empty : Ring :=
  { type := 0, sizeLog := 4, base := 0, prod := 0, cons := 0, fetched := [], jobs := [], tainted := false, writing := none,
    held := [], stallEnd := none, lateArmed := false, lost := 0, unannounced := 0, firstUnannounced := 0 }

structure HostIf where
  /-- vectors whose MSI-X mask bit is 0 -/
  unmasked : List Nat
  /-- the pending bit array, in order of pending -/
  pendingMsix : List Nat
  /-- causes of HST_MISC_CAUSE after the last command (R433) -/
  prevCause : Nat
  rings : List (Nat × Ring)
  /-- data of the last host read -/
  lastRead : Word
  /-- deadline of the watchdog, `none` when the count stands still -/
  wdogEnd : Option Nat
  /-- TX frames that wait at port H: (class, ring, job) in order (R206, R421) -/
  waitH : List (Nat × Nat × Nat)
  nextJob : Nat
  /-- the TX ring served last (R421) -/
  lastTx : Nat
  /-- write-backs that wait for Bus Master Enable, with their rings (R410) -/
  heldWrites : List (Nat × Nat × List Byte)
  /-- reads that wait for Bus Master Enable: address, length (R407) -/
  heldReads : List (Nat × Nat)
  /-- doorbells applied ahead of a disable request of their cycle (R414) -/
  bellsAhead : List (Nat × Nat)
  /-- the negotiated maximum payload size and the maximum read request size, in bytes (R406, R407) -/
  maxPayload : Nat
  maxRead : Nat
  deriving DecidableEq, Repr

/-! ### Frames, fabric, buffers (chapters 05, 06) -/

/-- Where a copy stands. -/
inductive CopyStage where
  /-- at its input; the position is the cell it takes next -/
  | input
  /-- all cells across, held by the output -/
  | queued
  /-- with the ring writer of port H -/
  | ring
  deriving DecidableEq, Repr

structure Copy where
  /-- fabric port; 60 and 61 for an orphan of direction 1 and 2 (R148) -/
  out : Nat
  pos : Nat
  stage : CopyStage
  /-- an orphan's reason, or the device targets of a copy for an Ilgil port (R483) -/
  arg : Nat
  /-- the ring of an orphan, named when it is diverted (R159) -/
  ring : Nat
  deriving DecidableEq, Repr

/-- A stored frame: bytes without FCS and without tag (R166), its header (R168), and what it latched (R157, R181). -/
structure Frame where
  data : List Byte
  len : Nat
  inPort : Nat
  cls : Nat
  vid : Nat
  express : Bool
  cutThrough : Bool
  multicast : Bool
  tagged : Bool
  translated : Bool
  tat : Bool
  epoch : Nat
  srcTnn : Nat
  dstTnn : Nat
  hops : Nat
  copies : List Copy
  /-- cells written so far -/
  cells : Nat
  /-- last cell written and FCS checked -/
  complete : Bool
  /-- ended bad after cut-through (R189) -/
  bad : Bool
  headroom : Bool
  inNs : Nat
  inSec : Nat
  inStamp : Nat
  /-- node time of ingress in 2^-16 ns (R274) -/
  inTime : Int
  timeFrame : Bool
  /-- a frame of port S for one trunk line, of Spire, a roster, a HELLO or a Sync; its `inStamp` is the stamp from which what is filled in at its start is measured (R84, R104) -/
  spireFrame : Bool
  orphan : Option Nat
  /-- latched: untag set of the VLAN, train address settings, live epoch at trunk ingress -/
  untag : Nat
  tatBase : Nat
  tatCtrl : Nat
  learnEpoch : Nat
  /-- TX ring and job that wait for the egress time (R279) -/
  tsRing : Option (Nat × Nat)
  oneStep : Bool
  reqNs : Nat
  reqSec : Nat
  /-- line pinned for a trunk direction: aggregation hash bit -/
  hash : Nat
  /-- global port of first admission and destination field of an Ilgil cell (R483, R485) -/
  gIn : Nat
  gDest : Nat
  /-- capture points at which a capture was taken, bit by bit (R226) -/
  caps : Nat
  /-- egress time of a direct frame whose ring asked for it (R281) -/
  txSec : Nat
  txNs : Nat
  /-- counted in EPO_TAT_REWRITES (R154), in TIM_TC_TWOSTEP (R280) -/
  tatSeen : Bool
  twoSeen : Bool
  /-- the indices of its cells in the packet buffer, in order (R166, R167) -/
  chain : List Nat
  deriving DecidableEq, Repr

def Frame.empty : Frame :=
  { data := [], len := 0, inPort := 0, cls := 0, vid := 0, express := false, cutThrough := false, multicast := false,
    tagged := false, translated := false, tat := false, epoch := 0, srcTnn := 0, dstTnn := 0, hops := 0, copies := [],
    cells := 0, complete := false, bad := false, headroom := false, inNs := 0, inSec := 0, inStamp := 0, inTime := 0,
    timeFrame := false, spireFrame := false, orphan := none, untag := 0, tatBase := 0, tatCtrl := 0, learnEpoch := 0,
    tsRing := none, oneStep := false, reqNs := 0, reqSec := 0, hash := 0, gIn := 0, gDest := 0, caps := 0, txSec := 0, txNs := 0,
    tatSeen := false, twoSeen := false, chain := [] }

/-- The live accounts of a ledger row (R213); HELD is counted from the copies present. -/
structure Led where
  adm : Nat
  deliver : Nat
  ret : Nat
  dropSum : Nat
  /-- DROP[k] -/
  drop : List (Nat × Nat)
  /-- a word of the row took an uncorrectable error (R589) -/
  struck : Bool
  deriving DecidableEq, Repr

def Led.zero : Led := { adm := 0, deliver := 0, ret := 0, dropSum := 0, drop := [], struck := false }

/-- The head cell matched in a cell time, to cross in the next (R185). -/
structure Crossing where
  frame : Nat
  out : Nat
  cell : Nat
  deriving DecidableEq, Repr

/-- A preempted frame that waits to continue: its bytes, how many of them have left, and the stored bytes they hold. -/
structure HeldFrame where
  frame : Nat
  bytes : List Byte
  sent : Nat
  taken : Nat
  deriving DecidableEq, Repr

/-- What a MAC is sending. -/
structure Sending where
  frame : Nat
  /-- bytes as they leave, tag and rewrites applied -/
  bytes : List Byte
  express : Bool
  /-- the frame it interrupted (R252) -/
  held : Option HeldFrame
  fragments : Nat
  startAt : Nat
  /-- bytes of the frame that left in earlier fragments -/
  base : Nat
  /-- stored bytes present when the frame started; those of a cut-through frame follow (R188) -/
  taken : Nat
  deriving DecidableEq, Repr

/-- A queued learn (R177): a train entry has its TNN and epoch, a port entry its global port. -/
structure LearnReq where
  mac : Nat
  vid : Nat
  train : Bool
  dest : Nat
  epoch : Nat
  deriving DecidableEq, Repr

/-- What a port is receiving: the frame admitted, the bytes so far as on the line, the learn due at its end. -/
structure Arrival where
  frame : Option Nat
  line : List Byte
  learn : Option LearnReq
  /-- the instant of its first bit, in stamp units since reset (R274, R275) -/
  inAt : Nat
  deriving DecidableEq, Repr

/-- A database command in progress, with the words it took (R179). -/
structure FdbCmd where
  cmd : Nat
  d0 : Nat
  d1 : Nat
  d2 : Nat
  d3 : Nat
  due : Nat
  /-- buckets that a FLUSH has passed (R180) -/
  passed : Nat
  deriving DecidableEq, Repr

/-- What an audit found (R224), shown at 125 µs. -/
structure Audit where
  /-- the fault kinds of BUF_AUDIT_STATUS [8:3] that the snapshot shows -/
  kinds : Nat
  badRows : List Nat
  diff : Nat
  /-- rows that fail, with their difference -/
  deltas : List (Nat × Nat)
  due : Nat
  /-- a condition of R218 had been broken since the last audit that passed -/
  excused : Bool
  /-- cells that no list led to as the walk began, and cells that lay on two (R223) -/
  unmarked : List Nat
  dup : Nat
  deriving DecidableEq, Repr

/-- A capture that waits to be written (R217, R226, R227): its ring, its class, its bytes and its cells. -/
structure Captured where
  ring : Nat
  cls : Nat
  data : List Byte
  chain : List Nat
  deriving DecidableEq, Repr

structure Fabric where
  frames : List (Nat × Frame)
  nextId : Nat
  /-- the frame each port is receiving; key 1000 + 16 × port + tier for the frames reassembled from an Ilgil port (R484) -/
  arriving : List (Nat × Arrival)
  /-- the last cell time of the crossbar -/
  cellAt : Nat
  crossing : List Crossing
  gptr : List (Nat × Nat)
  aptr : List (Nat × Nat)
  /-- input + 1 to which an output is locked at a tier; 0 none -/
  lock : List (Nat × Nat)
  /-- transmit queues: key 16 × port + queue, queue 8 express -/
  txq : List (Nat × List Nat)
  sending : List (Nat × Sending)
  /-- copies at the ring writer, in order of arrival -/
  ringQueue : List RxItem
  /-- captures to write, in order (R226, R227) -/
  captures : List Captured
  /-- rows between their XOFF and XON requests (R210) -/
  xoffRows : List Nat
  /-- matches of each mirror filter since its enable -/
  mirCount : List (Nat × Nat)
  ledger : List (Nat × Led)
  learnQueue : List LearnReq
  /-- the last cell time in which a learn was applied (R177) -/
  learnAt : Nat
  fdbCmd : Option FdbCmd
  sweepDue : Option Nat
  /-- when each trunk line entered UP -/
  upSince : List (Nat × Nat)
  /-- classes moved back per direction while reverting, and when the move began -/
  revert : List (Nat × List Nat)
  revertAt : List (Nat × Nat)
  /-- lines left out of the hash until a revert -/
  awayLines : List Nat
  audit : Option Audit
  prevDeltas : List (Nat × Nat)
  prevKinds : Nat
  excused : Bool
  /-- leaked cells withheld for reclaim, to return after the confirming walk (R225) -/
  withheld : List Nat
  /-- cells that are on no list -/
  lostCells : List Nat
  /-- the colour that the walk gives (R223) -/
  colour : Bool
  /-- what memory errors have added to counts that are not corrected (R589): HELD of a row by its number, cell-state count k
  (FREE, QUEUED, IN_TRANSIT, RESERVED) by 464 + k -/
  skew : List (Nat × Nat)
  tickNo : Nat
  /-- top bits of the counters at the last scan: keys of counters whose top bit was 1 (R259) -/
  topBits : List Nat
  /-- memory words with an uncorrectable error (R589): code, index -/
  badWords : List (Nat × Nat)
  /-- cells held for frames that wait at source F (R206) -/
  waitF : List Frame
  deriving DecidableEq, Repr

/-! ### Port MACs (chapter 07) -/

/-- The half-duplex state of an edge port (R238, R239). -/
structure HalfDuplex where
  carrier : Bool
  carrierEnd : Nat
  /-- collisions of the frame in hand -/
  attempts : Nat
  backoffEnd : Option Nat
  /-- the frame in hand waits for the medium after a back-off (R239) -/
  deferring : Bool
  /-- the frame whose first attempt has deferred, counted once (R258) -/
  deferred : Option Nat
  draws : Nat
  deriving DecidableEq, Repr

def HalfDuplex.idle : HalfDuplex :=
  { carrier := false, carrierEnd := 0, attempts := 0, backoffEnd := none, deferring := false, deferred := none, draws := 0 }

/-- The verify exchange of a trunk line (R252). -/
structure Verify where
  sent : Nat
  due : Nat
  /-- preemption becomes inactive once the frame in progress has ended -/
  restart : Bool
  deriving DecidableEq, Repr

structure Macs where
  /-- ends of running PAUSE (key 16 × port + 8) and PFC times (16 × port + class) -/
  pauseEnd : List (Nat × Nat)
  /-- flow control frames waiting: port, with the classes whose XON caused them -/
  fcWait : List (Nat × Nat)
  lastFc : List (Nat × Nat)
  /-- shaper credit in 1/800 bit, and the cycle it was reckoned at: key 8 × port + queue; none: the full burst (R248) -/
  credit : List (Nat × (Int × Nat))
  half : List (Nat × HalfDuplex)
  verify : List (Nat × Verify)
  /-- start of a running drain per edge port -/
  drainAt : List (Nat × Nat)
  /-- the in-band word of a port with link: speed + 4 × full duplex (R235, R250) -/
  word : List (Nat × Nat)
  deriving DecidableEq, Repr

/-! ### Enable requests (R26, R27): forced stops held during STARTING -/

structure Sequences where
  /-- functions (by number, `Fn.num`) whose forced stop waits for the end of STARTING -/
  forced : List Nat
  deriving DecidableEq, Repr

/-! ### Spire (chapter 03) and epochs (chapter 04) -/

/-- What a COUNT says of the train beyond a direction (R85). -/
structure Summary where
  origin : Nat
  hops : Nat
  maxEpoch : Nat
  delay : Nat
  digest : Nat
  lead : Nat
  overflow : Bool
  deriving DecidableEq, Repr

/-- A trunk line as Spire works on it (R78, R90 to R93, R117). -/
structure SprLine where
  /-- the PHY reports link -/
  link : Bool
  /-- seq of the next BEACON -/
  nextSeq : Nat
  /-- own BEACONs: seq and tx_stamp, newest first; how many of them left since the line last entered PROBING or LOST -/
  sent : List (Nat × Nat)
  recent : Nat
  /-- the last BEACON received: seq, receive stamp, tx_stamp -/
  rx : Option (Nat × Nat × Nat)
  /-- the last two periodic BEACONs received: receive stamp and tx_stamp, newest first -/
  periodic : List (Nat × Nat)
  /-- delay samples, newest first, at most 8 -/
  samples : List Nat
  peer : Option Nat
  /-- epoch and digest of the peer's last BEACON (R150) -/
  said : Nat × Nat
  compatDist : Nat
  /-- deadline of the next BEACON -/
  due : Option Nat
  /-- a deadline fired and no BEACON has come since -/
  late : Bool
  /-- when the next periodic BEACON leaves -/
  nextAt : Option Nat
  /-- an answer BEACON is owed -/
  answer : Bool
  helloSrc : Option Nat
  helloDue : Option Nat
  deriving DecidableEq, Repr

def SprLine.empty : SprLine :=
  { link := false, nextSeq := 0, sent := [], recent := 0, rx := none, periodic := [], samples := [], peer := none, said := (0, 0),
    compatDist := 63,
    due := none, late := false, nextAt := none, answer := false, helloSrc := none, helloDue := none }

/-- A far-roster or own ROSTER entry (R138, R140). -/
structure RosterEntry where
  hops : Nat
  seq : Nat
  origin : Nat
  epoch : Nat
  tnn : Nat
  digest : Nat
  deriving DecidableEq, Repr

/-- A direction of the node: what is held from it and owed to it. -/
structure SprDir where
  /-- the recorded neighbour (R79) -/
  nbr : Option Nat
  /-- the summary held, when a COUNT was accepted since the direction came up -/
  held : Option Summary
  lastSeq : Option Nat
  /-- the last summary sent toward the direction -/
  sent : Option Summary
  /-- seq of the last COUNT sent -/
  seq : Option Nat
  /-- a COUNT is owed -/
  owed : Bool
  restart : Bool
  /-- the latest report of the neighbour: epoch and digest (R150) -/
  report : Nat × Nat
  far : List (Nat × RosterEntry)
  /-- ROSTER entries to send, in order -/
  roster : List RosterEntry
  /-- the direction came up since the node's last switch (R294) -/
  fresh : Bool
  deriving DecidableEq, Repr

def SprDir.empty : SprDir :=
  { nbr := none, held := none, lastSeq := none, sent := none, seq := none, owed := false, restart := false,
    report := (0, 0), far := [], roster := [], fresh := false }

/-- An accepted COMMIT and the switch it leads to (R103 to R106), with the map and roster built for it (R143). -/
structure Accepted where
  newEpoch : Nat
  n : Nat
  tnn : Nat
  reference : Nat
  digest : Nat
  leadConflict : Bool
  /-- direction facing the reference end: 0 none, 1, 2 -/
  refDir : Nat
  path : Nat
  slip : Nat
  /-- the receive instant r, in stamp units since reset (R87) -/
  at_ : Nat
  switchAt : Nat
  late : Bool
  leadMap : Nat
  partial_ : Bool
  /-- EPO_MAP words by old TNN -/
  map : List (Nat × Nat)
  /-- identities by new TNN -/
  ids : List (Nat × Nat)
  deriving DecidableEq, Repr

structure Spire where
  lines : List (Nat × SprLine)
  dirs : List (Nat × SprDir)
  settleEnd : Option Nat
  waitEnd : Option Nat
  backoffEnd : Option Nat
  accepted : Option Accepted
  /-- a COMMIT still to send on (R102, R104) -/
  fwd : Option Accepted
  changePending : Bool
  /-- enter COMPAT once the pending switch is complete (R113) -/
  toCompat : Bool
  /-- SPR_CTRL.compat was written to 0 since the node entered COMPAT (R120) -/
  compatOff : Bool
  /-- direction facing the reference end in the live numbering: 0 none, 1, 2 -/
  refDir : Nat
  prevTnn : Nat
  prevDigest : Nat
  rosterSeq : Nat
  leadRaw : Bool
  leadDue : Option Nat
  graceStart : Nat
  graceEnd : Option Nat
  /-- EPO_TRANSLATED and the orphans LEFT, UNMAPPED, STALE, BLOCKED of the grace in progress -/
  graceCounts : List Nat
  helloSeq : Nat
  helloAt : Nat
  helloFast : Nat
  /-- when the last HELLO came, while compat_dist is 0 for it (R119) -/
  helloLast : Option Nat
  deriving DecidableEq, Repr

def Spire.idle : Spire :=
  { lines := [], dirs := [], settleEnd := none, waitEnd := none, backoffEnd := none, accepted := none, fwd := none,
    changePending := false, toCompat := false, compatOff := false, refDir := 0, prevTnn := 0, prevDigest := 0, rosterSeq := 0,
    leadRaw := false, leadDue := none, graceStart := 0, graceEnd := none, graceCounts := [], helloSeq := 0,
    helloAt := 0, helloFast := 0, helloLast := none }

/-! ### Time (chapter 08) -/

structure TimeEng where
  /-- the servo's integrator I (R285) -/
  integ : Int
  /-- the rate in effect outside a slew, restored after one -/
  base : Int
  /-- a TIM_RATE write held during a slew -/
  held : Option Int
  /-- a slew: the cycle it ends; what was to work off when it began, in time units, and when it began -/
  slewEnd : Option Nat
  slewFrom : Nat
  slewLeft : Int
  /-- the deadline of the next Sync (3 × T) -/
  syncDue : Option Nat
  /-- when the slave direction last delivered a Sync that was not flagged, or was set -/
  lastGood : Nat
  flagIn : Bool
  /-- consecutive Syncs within lock_ns -/
  lockRun : Nat
  /-- sequenceId of the next Sync of each direction -/
  seq1 : Nat
  seq2 : Nat
  nextSync : Nat
  /-- directions owed an extra Sync -/
  extra : List Nat
  grantEnd : Option Nat
  mergeEnd : Option Nat
  lastOff : Int
  waitEnd : Option Nat
  /-- accepted Syncs have been flagged since -/
  flaggedSince : Option Nat
  /-- capture FIFOs of the SYNC pins: seconds and nanoseconds, oldest first -/
  fifos : List (Nat × List (Nat × Nat))
  /-- SYNC pins seen high -/
  pinsIn : List Nat
  /-- SYNC pins driven high -/
  pinsOut : List Nat
  /-- SYNC pins that a Carillon SYNC action drives (mode 5), with the safe level of the last one -/
  pinsCar : List (Nat × Bool)
  ppsEnd : List (Nat × Nat)
  /-- when each PPS pin last rose -/
  ppsAt : List (Nat × Nat)
  /-- the latest changes of the node time or its increment, newest first: the cycle, and both before it -/
  past : List (Nat × (Nat × Nat))
  deriving DecidableEq, Repr

def TimeEng.idle : TimeEng :=
  { integ := 0, base := 0, held := none, slewEnd := none, slewFrom := 0, slewLeft := 0, syncDue := none, lastGood := 0,
    flagIn := false, lockRun := 0, seq1 := 0, seq2 := 0, nextSync := 0, extra := [], grantEnd := none, mergeEnd := none,
    lastOff := 0, waitEnd := none, flaggedSince := none, fifos := [], pinsIn := [], pinsOut := [], pinsCar := [],
    ppsEnd := [], ppsAt := [], past := [] }

/-! ### Phase domains and Carillon (chapter 09) -/

/-- A phase domain (R303, R306 to R311). -/
structure Domain where
  /-- position (C, phase) of a source other than PTP time, or the frozen one of an OFF domain, in 2^-32 phase units -/
  pos : Int
  /-- increment per CCLK cycle in the same units -/
  inc : Int
  /-- the frequency estimate, kept during SLIP -/
  est : Int
  /-- references accepted since enable or HOLD, up to 2 -/
  seen : Nat
  /-- when the last reference was accepted -/
  lastAt : Nat
  /-- phase of the last tachometer edge -/
  lastRef : Nat
  /-- consecutive references that count toward lock -/
  run : Nat
  /-- consecutive references rejected or missed -/
  bad : Nat
  /-- references missed since the last accepted one -/
  missed : Nat
  /-- increment before the first of them -/
  incBefore : Int
  /-- in HOLD: spacings of the latest crossings, newest first, and when the last came -/
  spacings : List Nat
  holdAt : Option Nat
  /-- the domain has been LOCKED since its enable -/
  wasLocked : Bool
  /-- when it last left LOCKED -/
  leftAt : Option Nat
  /-- Carillon's position at the previous cell time (64 bits), `none` before the first reference -/
  prev : Option Nat
  /-- forward corrections since then: position before and length -/
  jumps : List (Nat × Nat)
  /-- the next tachometer edge stands at the index position (R306) -/
  index : Bool
  /-- the latest changes of position or increment, newest first: the cycle, and both before it -/
  past : List (Nat × (Int × Int))
  deriving DecidableEq, Repr

def Domain.zero : Domain :=
  { pos := 0, inc := 0, est := 0, seen := 0, lastAt := 0, lastRef := 0, run := 0, bad := 0, missed := 0, incBefore := 0,
    spacings := [], holdAt := none, wasLocked := false, leftAt := none, prev := none, jumps := [], index := false, past := [] }

/-- A selected action (R315, R317). -/
structure CarAct where
  event : Nat
  dom : Nat
  cycle : Nat
  act : Nat
  w2 : Nat
  w3 : Nat
  late : Bool
  hold : Bool
  safe : Bool
  repeated : Bool
  deferred : Bool
  /-- the start of the cell time after its selection, in which it may be applied (R317) -/
  due : Nat
  deriving DecidableEq, Repr

/-- What an acceptance window has gathered in a management tick (R321). -/
structure WinSum where
  sum : Int
  count : Nat
  deriving DecidableEq, Repr

structure Carillon where
  /-- the entries in use: words 0 to 3 as taken at a write of word 1 (R314) -/
  events : List (Nat × (Nat × Nat × Nat × Nat))
  /-- fired marks (R315) -/
  marks : List (Nat × Nat)
  /-- marks cleared by a long backward correction (R316) -/
  served : List (Nat × Nat)
  queue : List CarAct
  /-- the cell time of the last selection -/
  cellAt : Nat
  windows : List (Nat × WinSum)
  /-- consecutive evaluated ticks beyond limit_ns (R323) -/
  overTicks : Nat
  /-- the stay of PD0 outside LOCKED: since when, `none` once pd0_limit was raised or while LOCKED (R311) -/
  pd0Since : Option Nat
  deriving DecidableEq, Repr

def Carillon.idle : Carillon :=
  { events := [], marks := [], served := [], queue := [], cellAt := 0, windows := [], overTicks := 0, pd0Since := some 0 }

/-! ### Ilgil (chapter 16) -/

/-- A reliable unit kept until it is acknowledged, with the copy whose last cell it carries (R216, R477). -/
structure Replay where
  seq : Nat
  bytes : List Byte
  copy : Option (Nat × Nat)
  deriving DecidableEq, Repr

structure IlgPort where
  /-- the last HELLO received, and whether the one before was the same -/
  hello : List Byte
  txSeq : Nat
  rxSeq : Nat
  replay : List Replay
  /-- the last progress of ack, and the replays since -/
  ackAt : Nat
  replays : Nat
  nak : Bool
  ackOwed : Bool
  /-- credits to return, by class -/
  credits : List Nat
  creditAt : Nat
  /-- the credit pool of the port's row, taken at STARTING (R488) -/
  pool : List Nat
  /-- when the last HELLO, TIME and REACH left -/
  helloAt : Nat
  timeAt : Nat
  reachAt : Nat
  /-- bytes 3 to 5 of the last REACH sent -/
  reachLast : List Byte
  /-- reliable units other than cells that wait for room in the replay buffer: first slot and later slots -/
  waiting : List (List Byte × List Byte)
  nextT : Nat
  sentT : List (Nat × Nat)
  rxT : Option (Nat × Nat × Nat)
  periodic : List (Nat × Nat)
  samples : List Nat
  /-- when STOPPING began (R479) -/
  stopAt : Nat
  deriving DecidableEq, Repr

def IlgPort.empty : IlgPort :=
  { hello := [], txSeq := 0, rxSeq := 0, replay := [], ackAt := 0, replays := 0, nak := false, ackOwed := false,
    credits := [0, 0, 0, 0, 0, 0, 0, 0], creditAt := 0, pool := [0, 0, 0, 0, 0, 0, 0, 0], helloAt := 0,
    timeAt := 0, reachAt := 0, reachLast := [], waiting := [], nextT := 0, sentT := [], rxT := none, periodic := [], samples := [], stopAt := 0 }

structure Ilgil where
  ports : List (Nat × IlgPort)
  /-- the port of the path to each reachable device index -/
  paths : List (Nat × Nat)
  /-- devices and ring as a worker took them -/
  devices : Nat
  ring : Bool
  tag : Nat
  mgmtDue : Option Nat
  /-- the image being sent to a worker: pass, bytes of it sent, bytes read and not yet sent -/
  imgPass : Nat
  imgOff : Nat
  imgBytes : List Byte
  /-- its length, header and body, once the first pass has shown it; 0 before -/
  imgLen : Nat
  /-- at a worker: bytes of the image of the pass being received -/
  rxImage : List Byte
  rxPass : Nat
  /-- and of the second pass -/
  rxSecond : List Byte
  /-- identity, generation and image result were reported since index 0 became reachable -/
  reported : Bool
  /-- indices that a rebalance moves to their shorter path once drained (R482) -/
  moving : List Nat
  deriving DecidableEq, Repr

def Ilgil.idle : Ilgil :=
  { ports := [], paths := [], devices := 0, ring := false, tag := 0, mgmtDue := none, imgPass := 0, imgOff := 0,
    imgBytes := [], imgLen := 0, rxImage := [], rxPass := 0, rxSecond := [], reported := false, moving := [] }

/-! ### CAN channels (chapter 10) -/

/-- Where a frame that a channel sends comes from (R341, R342). -/
inductive CanSrc where
  | fil
  | host (ring job : Nat)
  | mailbox (k : Nat)
  | reference
  deriving DecidableEq, Repr

/-- The frame a channel has on the bus, with the stamp and the cycle of its start-of-frame sample point (R336). -/
structure CanBus where
  src : CanSrc
  frame : CanFrame
  stamp : Nat
  at_ : Nat
  deriving DecidableEq, Repr

structure CanChan where
  /-- CAN_NBT, CAN_DBT and mode as latched at STARTING (R349) -/
  nbt : Word
  dbt : Word
  mode : Nat
  fil : List CanFrame
  host : List (Nat × Nat × CanFrame)
  bus : Option CanBus
  /-- the last frame on the bus was the channel's own: it is the transmitter of the errors that follow it (R344) -/
  sender : Bool
  /-- consecutive acknowledgement errors (R347) -/
  ackErrs : Nat
  lastTry : Nat
  /-- a lonely channel may make one attempt -/
  release : Bool
  /-- in the protocol exception state (R330) -/
  pex : Bool
  deriving DecidableEq, Repr

def CanChan.idle : CanChan :=
  { nbt := 0x1E3E0F01, dbt := 0x9E991C00, mode := 0, fil := [], host := [], bus := none, sender := false, ackErrs := 0, lastTry := 0,
    release := false, pex := false }

/-- An exclusive window: its mailbox, its end, and whether the frame has started (R354). -/
structure TtWindow where
  mailbox : Nat
  endAt : Nat
  started : Bool
  deriving DecidableEq, Repr

structure CanTt where
  /-- the channel as taken at STARTING (R351) -/
  chan : Nat
  /-- the cycle of the sync mark, or of the start while no reference has come -/
  markAt : Nat
  /-- trigger entries below this one are past in this basic cycle -/
  next : Nat
  window : Option TtWindow
  /-- the end of an arbitrating window -/
  arbEnd : Option Nat
  /-- a reference to send, with its cycle count -/
  refDue : Option Nat
  /-- mailboxes whose frame has been received since their last Rx check -/
  seen : List Nat
  /-- causes of S1 and S2 in this basic cycle (R356) -/
  cause1 : Bool
  cause2 : Bool
  deriving DecidableEq, Repr

def CanTt.idle : CanTt :=
  { chan := 0, markAt := 0, next := 0, window := none, arbEnd := none, refDue := none, seen := [], cause1 := false, cause2 := false }

structure Can where
  chans : List (Nat × CanChan)
  tt : CanTt
  /-- CAN records that wait in their rings for room in a host queue (R341): ring, job, channel, frame -/
  waiting : List (Nat × Nat × Nat × CanFrame)
  deriving DecidableEq, Repr

/-! ### Filigree (chapter 11) -/

/-- A source event with its data area (R362, R363). -/
structure FilEvent where
  kind : Nat
  key2 : Nat
  key : Nat
  data : List Byte
  deriving DecidableEq, Repr

structure Filigree where
  /-- waiting source events, oldest first (R377) -/
  events : List FilEvent
  /-- waiting emissions: template, and whether a change caused it -/
  emits : List (Nat × Bool)
  /-- pending templates, and whether their emission waits in the FIFO (R373) -/
  pending : List (Nat × Bool)
  /-- when each template was last emitted -/
  lastEmit : List (Nat × Nat)
  nextStatus : Nat
  deriving DecidableEq, Repr

def Filigree.idle : Filigree := { events := [], emits := [], pending := [], lastEmit := [], nextStatus := 0 }

/-! ### Sense inputs and drive outputs (chapter 12) -/

/-- What a window or a cycle has gathered (R390): the number of samples, their sum, the sum of their squares, the least
and the greatest, and whether one was at a limit. -/
structure Gather where
  n : Nat
  sum : Int
  sq : Nat
  mn : Int
  mx : Int
  clipped : Bool
  deriving DecidableEq, Repr

def Gather.empty : Gather := { n := 0, sum := 0, sq := 0, mn := 0, mx := 0, clipped := false }

/-- A running CONVERT window (R391). -/
structure ConvWindow where
  start : Nat
  byHost : Bool
  left : Nat
  acc : Gather
  deriving DecidableEq, Repr

/-- An open cycle (R392). -/
structure SenseCycle where
  c : Nat
  fresh : Bool
  acc : Gather
  deriving DecidableEq, Repr

structure SenseIn where
  /-- the bits of the bitstream that the filter still reaches, newest first (R388) -/
  bits : List Bool
  /-- samples still to discard (R389) -/
  skip : Nat
  /-- the previous sample and its stamp -/
  prev : Option (Int × Nat)
  armed : Bool
  lastZc : Option Nat
  zcCount : Nat
  conv : Option ConvWindow
  /-- the cycle of the latest start of a window, and whether the host gave it (R391) -/
  lastStart : Option (Nat × Bool)
  convCount : Nat
  cyc : Option SenseCycle
  /-- no cycle has opened since the input was switched on or cycle_en was set -/
  fresh : Bool
  deriving DecidableEq, Repr

def SenseIn.idle : SenseIn :=
  { bits := [], skip := 3, prev := none, armed := false, lastZc := none, zcCount := 0, conv := none, lastStart := none, convCount := 0, cyc := none, fresh := true }

/-- A proving window, open or still to open (R399). -/
structure Prove where
  rising : Bool
  dueAt : Nat
  /-- opened at `dueAt`: samples still to take -/
  left : Option Nat
  input : Nat
  acc : Gather
  deriving DecidableEq, Repr

structure SenseDrive where
  inputs : List (Nat × SenseIn)
  /-- the modulator clocks that run: group, period in CCLK cycles, and the cycle of a rising edge (R385) -/
  mclk : List (Nat × (Nat × Nat))
  /-- crossings that wait for their phase domain: domain, stamp (R393) -/
  refs : List (Nat × Nat)
  /-- DRV_LEVEL as the outputs in HOST mode follow it, from the cycle after a write (R395) -/
  hostLevels : Nat
  /-- levels of the last DRIVE actions (R395) -/
  carLevels : Nat
  /-- the case of R396 in force for an output, 6 where none of 2 to 5 is, and the level at the ball when it began -/
  cases : List (Nat × (Nat × Bool))
  /-- role-gated outputs that wait for a passing or an action after a takeover (R397) -/
  waiting : List Nat
  /-- positions up to which the passings of DRV_PHASE have been taken -/
  passed : List (Nat × Nat)
  /-- outputs whose passing was taken in a cycle: the cycle, and the cycle count C -/
  passAt : List (Nat × (Nat × Nat))
  /-- when the readback comparison of an output starts, and since when it runs (R398) -/
  rbDue : List (Nat × Nat)
  rbSince : List (Nat × Nat)
  prove : List (Nat × Prove)
  verdicts : List (Nat × Nat)
  deriving DecidableEq, Repr

def SenseDrive.idle : SenseDrive :=
  { inputs := [], mclk := [], refs := [], hostLevels := 0, carLevels := 0, cases := [], waiting := [], passed := [], passAt := [], rbDue := [], rbSince := [], prove := [], verdicts := [] }

/-! ### The local bus bridge (chapter 14) -/

/-- What waits for the local bus, in the order accepted (R449, R459): a posted write with the bytes it has still to write
(`none`: byte enable 0) and its FIFO entries, a read by its tag, a read that timed out while its cycle ran, bytes to read ahead, or a Clasp's acquire or release. -/
inductive BusOp where
  | write (addr : Nat) (rest : List (Option Byte)) (entries : Nat)
  | read (tag : Nat)
  | dead
  | ahead (addr left : Nat) (data : List Byte)
  | acquire (maxUs : Nat)
  | release
  deriving DecidableEq, Repr

/-- A read that holds a tag (R450, R451): where it goes on, what it still reads, what it has, its time-out, and its
completion once that is known. -/
structure BusRead where
  tag : Nat
  addr : Nat
  len : Nat
  next : Nat
  rest : List (Option Byte)
  got : List (Option Byte)
  due : Nat
  answer : Option (List Byte)
  deriving DecidableEq, Repr

/-- The cycle in progress or about to start, of the first operation that waits (R445, R446). -/
structure BusCycle where
  write : Bool
  addr : Nat
  /-- bytes passed over before it, and bytes it carries -/
  skip : Nat
  n : Nat
  data : Nat
  startAt : Nat
  /-- the first possible rise of the strobe, and its last with ready -/
  endMin : Nat
  limitAt : Nat
  ready : Bool
  parity : Bool
  /-- cycles from the rise of the strobe until the next cycle may start -/
  after : Nat
  segEnd : Bool
  /-- a 16-bit window -/
  wide : Bool
  deriving DecidableEq, Repr

/-- The prefetch buffer of a chip select (R452): its first address, bytes, which were read, when it was filled. -/
structure Prefetch where
  addr : Nat
  data : List Byte
  seen : List Bool
  filledAt : Nat
  deriving DecidableEq, Repr

structure Bridge where
  work : List BusOp
  /-- reads that hold tags, in the order accepted -/
  reads : List BusRead
  /-- reads that wait for a tag: address and byte enables -/
  unaccepted : List (Nat × List Bool)
  cycle : Option BusCycle
  freeAt : Nat
  prefetch : List (Nat × Prefetch)
  /-- LBREQ_N is low -/
  wanted : Bool
  /-- when LBGNT_N fell, in a tenure -/
  tenure : Option Nat
  /-- a segment is owed to the host before the next grant -/
  owed : Bool
  /-- a Clasp: when it began and when it ends -/
  clasp : Option (Nat × Nat)
  /-- inbound bytes of the block being merged, their entries, and the last rise of LWR_N -/
  block : List (Nat × Byte)
  entries : Nat
  lastWrite : Nat
  /-- inbound blocks that wait for Bus Master Enable -/
  held : List (Nat × List (Nat × Byte))
  /-- a write of the local master that waits for an inbound entry: address, upper byte, data, parity (R455) -/
  waitingIn : Option (Nat × Bool × Nat × Nat)
  /-- the error log: LBB_ERR_INFO word and address -/
  log : List (Nat × Nat)
  deriving DecidableEq, Repr

def Bridge.idle : Bridge :=
  { work := [], reads := [], unaccepted := [], cycle := none, freeAt := 0, prefetch := [], wanted := false, tenure := none,
    owed := false, clasp := none, block := [], entries := 0, lastWrite := 0, held := [], waitingIn := none, log := [] }

/-! ### Redundant pairs (chapter 17) -/

structure Redund where
  /-- the level of RESIGN_IN, and since when it stands -/
  resignIn : Bool
  inSince : Nat
  /-- the rise of RESIGN_IN at a side that was not eligible has been reported (R513) -/
  told : Bool
  /-- the claim of R507 -/
  startAt : Option Nat
  /-- when RESIGN_OUT was pulled low, the end of the claim wait, and the cause of the claim -/
  claimAt : Nat
  waitEnd : Option Nat
  cause : Nat
  /-- the last valid heartbeat and the cycle it ended in; whether its loss was declared -/
  heard : Option (List Byte)
  heardAt : Nat
  lost : Bool
  /-- consecutive valid heartbeats of an ACTIVE peer that differ (R511) -/
  differ : Nat
  seq : Nat
  nextAt : Nat
  /-- extra heartbeats owed -/
  extra : Nat
  /-- the agreed swap: cycle count and phase of PD0 -/
  swap : Option (Nat × Nat)
  /-- LKT_OPSEC when this side became ACTIVE -/
  activeSince : Nat
  /-- swap_overdue was raised since this side last held the role -/
  overdue : Bool
  deriving DecidableEq, Repr

def Redund.idle : Redund :=
  { resignIn := true, inSince := 0, told := false, startAt := none, claimAt := 0, waitEnd := none, cause := 0, heard := none,
    heardAt := 0, lost := false, differ := 0, seq := 0, nextAt := 0, extra := 0, swap := none, activeSince := 0, overdue := false }

/-- What a command leaves to its own end: consequences in other blocks of what it did in one (the model's own). -/
inductive Todo where
  /-- a trunk line left UP, because its PHY reports link down or not -/
  | lineLeft (line : Nat) (phy : Bool)
  /-- a trunk line entered UP -/
  | lineUp (line : Nat)
  /-- a switch instant (R106) -/
  | switched
  /-- a trigger of R516, by its RED_CAUSE bit -/
  | trigger (cause : Nat)
  /-- PD0 left LOCKED (R522) -/
  | pd0Left
  /-- the node time was stepped, by a signed count of time units (R287) -/
  | stepped (by_ : Int)
  /-- the device entered or left QUARANTINE (R497) -/
  | quarantine (entered : Bool)
  /-- an Ilgil link was lost (R495) -/
  | ilgilLost
  deriving DecidableEq, Repr

/-- What the device does by itself at a later cycle, with no command of its own (assumption log 170). -/
inductive Soon where
  /-- the completed state of a function has been shown for one cell time (R26) -/
  | shown (f : Fn)
  /-- the switch of a host's numbering in COMPAT (R118) -/
  | hostSwitch (a : Accepted)
  /-- a write of PHS_CTRL.enable takes effect (R307) -/
  | phase (d : Nat)
  /-- Carillon applies its next action (R317) -/
  | carAct
  /-- outputs in HOST mode follow DRV_LEVEL (R395) -/
  | levels
  /-- a mismatch that the comparison of output o, running since a cycle, has seen for 1 µs stands to the end of its cycle (R398) -/
  | readback (o since : Nat)
  /-- RESIGN_IN has stood for 2 µs: the side looks at it (R513) -/
  | resignLook
  /-- worker i is judged by the ILG_WORKER_GEN written in the cycle before (R496) -/
  | worker (i : Nat)
  /-- LBGNT_N falls, for the tenure that begins at the cycle (R454) -/
  | granted (at_ : Nat)
  /-- FIL_HASH shows the bucket of the hash key, the cycle after the key was written (chapter 11) -/
  | filHash
  deriving DecidableEq, Repr

/-- What fell in the last cycle in which something did, for the meetings that R49 and R50 order: the cycle, the counts that
moved in it with the word before and by how much, and the bits of event registers that were set in it. -/
structure Instant where
  cycle : Nat
  counts : List (Nat × (Nat × Nat))
  bits : List (Nat × Nat)
  deriving DecidableEq, Repr

structure State where
  /-- commands that wait, first in first out -/
  pending : List Instr
  /-- CCLK cycles since the last end of reset -/
  cycle : Nat
  /-- node time in units of 2^-42 ns (R268) -/
  time : Nat
  /-- advance of node time per CCLK cycle, in the same units: 5 × (2^40 + rate), or the addend (R285, R288) -/
  timeInc : Nat
  /-- the phase domains (R303) -/
  doms : List (Nat × Domain)
  /-- the register file: offsets and words that differ from their reset value -/
  regs : List (Nat × Word)
  /-- snapshots of R51: higher words of a value whose lowest word was read -/
  snaps : List (Nat × Word)
  /-- how many open values have been drawn (the model's own) -/
  draws : Nat
  out : List Out
  roles : Roles
  image : Image
  lkt : Locket
  pwr : Power
  host : HostIf
  fab : Fabric
  mac : Macs
  seqs : Sequences
  spr : Spire
  tim : TimeEng
  car : Carillon
  ilg : Ilgil
  can : Can
  fil : Filigree
  sd : SenseDrive
  lbb : Bridge
  red : Redund
  /-- consequences still to apply at the end of the command -/
  todo : List Todo
  /-- what the device does by itself later: the cycle and what, the earliest first -/
  soon : List (Nat × Soon)
  now : Instant
  deriving DecidableEq, Repr

/-- The device right after reset ends (R556, R560): every register at its reset value, no command waiting, main power
present, the reset pins high, the PLL not yet locked. The straps and input balls are the outside's (assumption log 5). -/
def State.reset : State :=
  { pending := [], cycle := 0, time := 0, timeInc := 5 * 2 ^ 40, doms := [], regs := [], snaps := [], draws := 0,
    out := [],
    roles := { nonceAt := 0, compare := [], lockoutEnd := none, rotating := none, draws := 0 },
    image := { bytes := [], crc := 0, generation := 0, hmacOk := false, pos := 0, index := 0, second := [],
               wait := .none, abort := false, heldStart := false, boot := .notYet },
    lkt := { staging := [], holding := [], lost := List.replicate 8 0, heldInFreeze := 0, fresh := 0, madeAt := 0, frozenAt := 0,
             page := none, commitLeft := 0, wrSlot := 0, log := [], erase := none, eraseNext := [], suspending := false, suspended := false, copy0 := [],
             copy1 := [], nextCopy := false, fetch := none, lostAtReset := 0, pattern := false },
    pwr := { stage := .pll, main := true, poresetN := true, perstN := true, pll := false, sawPower := true,
             sawPoreset := false, sawPerst := false, sawPll := false, straps := 0, sincePor := 0, tap := .bypass, boundary := [],
             cpl1Due := none, cpl2Due := none },
    host := { unmasked := [], pendingMsix := [], prevCause := 0, rings := [], lastRead := 0, wdogEnd := none,
              waitH := [], nextJob := 0, lastTx := 63, heldWrites := [],
              heldReads := [], bellsAhead := [], maxPayload := 128, maxRead := 512 },
    fab := { frames := [], nextId := 0, arriving := [], cellAt := 0, crossing := [], gptr := [], aptr := [], lock := [], txq := [],
             sending := [], ringQueue := [], captures := [], xoffRows := [], mirCount := [], ledger := [], learnQueue := [], learnAt := 0,
             fdbCmd := none, sweepDue := some 60000000000, upSince := [], revert := [], revertAt := [], awayLines := [],
             audit := none, prevDeltas := [], prevKinds := 0, excused := false, withheld := [], lostCells := [], colour := false, skew := [],
             tickNo := 0, topBits := [], badWords := [], waitF := [] },
    mac := { pauseEnd := [], fcWait := [], lastFc := [], credit := [], half := [], verify := [], drainAt := [], word := [] },
    seqs := { forced := [] }, spr := Spire.idle, tim := TimeEng.idle, car := Carillon.idle, ilg := Ilgil.idle,
    can := { chans := [], tt := CanTt.idle, waiting := [] }, fil := Filigree.idle,
    sd := SenseDrive.idle, lbb := Bridge.idle, red := Redund.idle, todo := [], soon := [],
    now := { cycle := 0, counts := [], bits := [] } }

end Sys2Proof.Machine
end

