-- ==== Sys2Proof/Machine/Ops.lean ====
section
/-! DEFINITION. The named operations over the state: sparse tables, the register file and its fields, counters,
outputs, time. Everything later is built from these. -/
namespace Sys2Proof.Machine

/-! ### Sparse tables: lists of (key, value) in rising order of key, holding no default value -/

def Sparse.find {α : Type} (l : List (Nat × α)) (k : Nat) : Option α :=
  match l with
  | [] => none
  | (j, v) :: t => if j = k then some v else Sparse.find t k

def Sparse.drop {α : Type} (l : List (Nat × α)) (k : Nat) : List (Nat × α) :=
  l.filter (fun p => p.1 != k)

def Sparse.ins {α : Type} (l : List (Nat × α)) (k : Nat) (v : α) : List (Nat × α) :=
  match l with
  | [] => [(k, v)]
  | (j, w) :: t => if j < k then (j, w) :: Sparse.ins t k v else (k, v) :: (j, w) :: t

def Sparse.get {α : Type} (d : Nat → α) (l : List (Nat × α)) (k : Nat) : α :=
  (Sparse.find l k).getD (d k)

/-- Set key k to v; a value equal to the default leaves no entry. -/
def Sparse.put {α : Type} [DecidableEq α] (d : Nat → α) (l : List (Nat × α)) (k : Nat) (v : α) : List (Nat × α) :=
  if v = d k then Sparse.drop l k else Sparse.ins (Sparse.drop l k) k v

/-- The canonical form: keys strictly rising, no default value listed. -/
def Sparse.wf {α : Type} [DecidableEq α] (d : Nat → α) (l : List (Nat × α)) : Bool :=
  match l with
  | [] => true
  | [(k, v)] => decide (v ≠ d k)
  | (k, v) :: (j, w) :: t => decide (v ≠ d k) && decide (k < j) && Sparse.wf d ((j, w) :: t)

/-! ### Bit fields -/

def fieldOf (w : Word) (lo width : Nat) : Nat := (w.toNat / 2 ^ lo) % 2 ^ width

def putField (w : Word) (lo width v : Nat) : Word :=
  BitVec.ofNat 32 (w.toNat % 2 ^ lo + (v % 2 ^ width) * 2 ^ lo + (w.toNat / 2 ^ (lo + width)) * 2 ^ (lo + width))

/-- A two's complement value of the given width. -/
def signedOf (width v : Nat) : Int :=
  if v % 2 ^ width < 2 ^ (width - 1) then (v % 2 ^ width : Nat) else ((v % 2 ^ width : Nat) : Int) - (2 ^ width : Nat)

/-- The two's complement code of an integer at the given width. -/
def codeOf (width : Nat) (v : Int) : Nat := (v % ((2 ^ width : Nat) : Int)).toNat

/-- Saturate an integer into a signed width. -/
def satSigned (width : Nat) (v : Int) : Int :=
  max (-((2 ^ (width - 1) : Nat) : Int)) (min v (((2 ^ (width - 1) : Nat) : Int) - 1))

def bit (v k : Nat) : Bool := (v / 2 ^ k) % 2 == 1

def b2n (b : Bool) : Nat := if b then 1 else 0

def setBit (v k : Nat) (b : Bool) : Nat := v - (b2n (bit v k)) * 2 ^ k + (b2n b) * 2 ^ k

/-! ### The register map -/

/-- The indices of an offset in a row, if the offset is one of the row's words. -/
def RegSpec.hit (r : RegSpec) (off : Nat) : Option (Nat × Nat) :=
  if off < r.base then none
  else
    let d := off - r.base
    let i := d / r.s1
    let e := d - i * r.s1
    let j := e / r.s2
    if e = j * r.s2 ∧ i < r.n1 ∧ j < r.n2 then some (i, j) else none

def findRow (l : List RegSpec) (off : Nat) : Option RegSpec :=
  l.find? (fun r => (r.hit off).isSome)

/-- The row that holds the word at an offset, `none` where no register lies (R45, R583). -/
def locate (off : Nat) : Option RegSpec :=
  match regBlocks.find? (fun b => off < b.1) with
  | none => none
  | some b => findRow b.2 off

/-- Rows whose words do not all reset to 0. -/
def resetRows : List RegSpec :=
  [Row.GLB_ID, Row.GLB_CAP_PORTS, Row.GLB_CAP_TABLES, Row.GLB_CAP_IO, Row.GLB_TEMP_WARN, Row.SPR_CTRL, Row.SPR_ETYPE,
   Row.SPR_LEAD_FILT, Row.SPR_COMPAT_TIMING, Row.EPO_CTRL, Row.EPO_ETYPE, Row.EPO_GRACE, Row.EPO_TAT_CTRL,
   Row.FAB_CTRL, Row.FAB_HASH, Row.FAB_AGG_CTRL, Row.FAB_AGG_STATE, Row.FAB_CT_MODE, Row.FDB_CTRL, Row.FDB_AGE,
   Row.FDB_PORT, Row.FDB_PCP_MAP, Row.BUF_CTRL, Row.BUF_POOL, Row.BUF_CLASS, Row.BUF_CLASS_PFC, Row.BUF_ROW_CFG,
   Row.MIR_SAMPLE, Row.EPT_CTRL, Row.EPT_MODE, Row.EPT_FC, Row.EPT_GATE, Row.TPT_CTRL, Row.TPT_MODE, Row.TPT_PREEMPT,
   Row.TPT_GATE, Row.TIM_CTRL, Row.TIM_STATUS, Row.TIM_ADDEND_LO, Row.TIM_ADDEND_HI, Row.TIM_SERVO, Row.TIM_SERVO_LIM,
   Row.TIM_BB_CTRL, Row.TIM_MERGE_CFG, Row.TIM_SYNC_CFG, Row.PHS_PERIOD, Row.PHS_LOOP, Row.PHS_SLIP, Row.PHS_PD0_LIM,
   Row.CAR_CTRL, Row.CAR_MERGE, Row.CAR_SILENCE, Row.CAR_GUARD, Row.CAN_CTRL, Row.CAN_NBT, Row.CAN_DBT, Row.CAN_LONELY,
   Row.CAN_RX_CFG, Row.CAN_TT_CFG, Row.CAN_MB_CFG, Row.FIL_CTRL, Row.FIL_STATUS_CFG, Row.SNS_CTRL, Row.SNS_MCLK_CFG,
   Row.SNS_CH_CFG, Row.SNS_ZC_CFG, Row.DRV_CFG, Row.DRV_FLASH, Row.DRV_PROVE_HI, Row.DRV_PROVE_OFF, Row.RNG_CTRL,
   Row.RNG_MOD, Row.HST_WDOG_CTRL, Row.LBB_CTRL, Row.LBB_ARB, Row.LBB_CS_TIMING, Row.ILG_CTRL, Row.RED_TIMING,
   Row.RED_SWAP_AUTO, Row.LKT_CTRL, Row.LKT_PART]

/-- The words whose reset value differs from that of their row: VLAN 1 (R200), PD0 (R325), CRC unit 1 (R472). -/
def resetWords : List (Nat × Nat) :=
  [(Reg.FDB_VLAN_MEMBER_LO 1, 0xFFFFFFFF), (Reg.FDB_VLAN_MEMBER_HI 1, 0x00FFFFFF),
   (Reg.FDB_VLAN_UNTAG_LO 1, 0xFFFFFFFF), (Reg.FDB_VLAN_UNTAG_HI 1, 0x00C0FFFF), (Reg.FDB_VLAN_FLAGS 1, 7),
   (Reg.PHS_CTRL 0, 1), (Reg.CRC_RESULT 1, 0xFFFF)]

/-- The reset value of the word at an offset (R11); a strap's field is 0 here and set when straps are sampled. -/
def regReset (off : Nat) : Word :=
  match Sparse.find resetWords off with
  | some v => BitVec.ofNat 32 v
  | none =>
    match findRow resetRows off with
    | some r => BitVec.ofNat 32 r.reset
    | none => 0

/-! ### Registers of the state -/

def State.reg (s : State) (a : Nat) : Word := Sparse.get regReset s.regs a

def State.setReg (s : State) (a : Nat) (w : Word) : State := { s with regs := Sparse.put regReset s.regs a w }

def State.getF (s : State) (f : Fld) : Nat := fieldOf (s.reg f.reg) f.lo f.width

/-- The field read as a two's complement value. -/
def State.getI (s : State) (f : Fld) : Int := signedOf f.width (s.getF f)

def State.on (s : State) (f : Fld) : Bool := s.getF f != 0

/-- Write a register word. -/
def setR (a : Nat) (v : Nat) (s : State) : State := s.setReg a (BitVec.ofNat 32 v)

/-- Write one field. -/
def setF (f : Fld) (v : Nat) (s : State) : State := s.setReg f.reg (putField (s.reg f.reg) f.lo f.width v)

def setI (f : Fld) (v : Int) (s : State) : State := setF f (codeOf f.width v) s

/-- What has fallen in the present cycle so far. -/
def State.instant (s : State) : Instant := if s.now.cycle = s.cycle then s.now else { cycle := s.cycle, counts := [], bits := [] }

/-- Note that a count moves by n in this cycle. -/
def noteCount (a n : Nat) (s : State) : State :=
  let x := s.instant
  let e := (Sparse.find x.counts a).getD ((s.reg a).toNat, 0)
  { s with now := { x with counts := Sparse.ins (Sparse.drop x.counts a) a (e.1, e.2 + n) } }

/-- Note that bits of an event register are set in this cycle. -/
def noteBits (a v : Nat) (s : State) : State :=
  let x := s.instant
  { s with now := { x with bits := Sparse.ins (Sparse.drop x.bits a) a ((Sparse.find x.bits a).getD 0 ||| v) } }

/-- The bits of an event register that were set in this cycle. -/
def justSet (s : State) (a : Nat) : Word := BitVec.ofNat 32 ((Sparse.find s.instant.bits a).getD 0)

/-- Latch the bits of v in a field. -/
def latchBits (f : Fld) (v : Nat) (s : State) : State :=
  s |> noteBits f.reg (v % 2 ^ f.width * 2 ^ f.lo) |> setF f (s.getF f ||| v)

/-- Latch an event bit. -/
def latch (f : Fld) (s : State) : State := latchBits f (2 ^ f.width - 1) s

/-- Add to a saturating 32-bit count. -/
def countBy (a n : Nat) (s : State) : State := s |> noteCount a n |> setR a (min ((s.reg a).toNat + n) 0xFFFFFFFF)

def count (a : Nat) (s : State) : State := countBy a 1 s

/-- Apply a list of changes in order. -/
def each {α : Type} (l : List α) (f : α → State → State) (s : State) : State := l.foldl (fun t a => f a t) s

def whenT (c : Bool) (f : State → State) (s : State) : State := if c then f s else s

/-- Send something out. -/
def emitOut (o : Out) (s : State) : State := { s with out := o :: s.out }

/-- Draw an open 32-bit value. -/
def drawFree (s : State) : Nat × State := ((Config.free32 s.draws).toNat, { s with draws := s.draws + 1 })

/-! ### Time (R18, R268, R269) -/

def cyclesPerTick : Nat := 8000000
def cyclesPerMs : Nat := 800000
def cyclesPerUs : Nat := 800
def cyclesPerS : Nat := 800000000

/-- Units of `State.time` in a nanosecond. -/
def nsUnits : Nat := 2 ^ 42

/-- The modulus of node time: 48-bit seconds. -/
def timeModulus : Nat := 2 ^ 48 * 1000000000 * nsUnits

def State.nsTotal (s : State) : Nat := s.time / nsUnits
def State.timeSec (s : State) : Nat := s.nsTotal / 1000000000
def State.timeNs (s : State) : Nat := s.nsTotal % 1000000000
/-- The fraction in 2^-16 ns. -/
def State.timeFrac (s : State) : Nat := (s.time % nsUnits) / 2 ^ 26

/-- The stamp counter: 0.125 ns units, 10 in each CCLK cycle, 32 bits (R269). -/
def State.stamp (s : State) : Nat := (10 * s.cycle) % 2 ^ 32

/-- The 48-bit CAN stamp counter at CCLK / 8 (R20). -/
def State.canStamp (s : State) : Nat := (s.cycle / 8) % 2 ^ 48

/-- Let n CCLK cycles pass: node time and the phase domains move on (R268, R303). -/
def advance (n : Nat) (s : State) : State :=
  { s with cycle := s.cycle + n, time := (s.time + n * s.timeInc) % timeModulus,
           doms := s.doms.map (fun p => (p.1, { p.2 with pos := p.2.pos + n * p.2.inc })) }

/-- Move the clock on to a deadline that has not passed. -/
def advanceTo (c : Nat) (s : State) : State := advance (c - s.cycle) s

/-! ### What the device does by itself later -/

/-- Into a list that rises by cycle, behind what falls in the same cycle. -/
def insertSoon (c : Nat) (x : Soon) (l : List (Nat × Soon)) : List (Nat × Soon) :=
  match l with
  | [] => [(c, x)]
  | p :: t => if p.1 ≤ c then p :: insertSoon c x t else (c, x) :: p :: t

/-- x happens n cycles from now. -/
def inCycles (n : Nat) (x : Soon) (s : State) : State := { s with soon := insertSoon (s.cycle + n) x s.soon }

def awaitsSoon (x : Soon) (s : State) : Bool := s.soon.any (fun p => p.2 == x)

def dropSoon (x : Soon) (s : State) : State := { s with soon := s.soon.filter (fun p => p.2 != x) }

/-! ### Bytes -/

def byte (n : Nat) : Byte := BitVec.ofNat 8 n

/-- n bytes of v, least significant first (R7, host memory). -/
def le (n v : Nat) : List Byte :=
  match n with
  | 0 => []
  | n + 1 => byte v :: le n (v / 256)

/-- n bytes of v, most significant first (R7, wire). -/
def be (n v : Nat) : List Byte := (le n v).reverse

def ofBE (l : List Byte) : Nat := l.foldl (fun a b => a * 256 + b.toNat) 0
def ofLE (l : List Byte) : Nat := ofBE l.reverse

/-- Bytes k to k + n - 1, zeros beyond the end. -/
def slice (l : List Byte) (k n : Nat) : List Byte :=
  let t := (l.drop k).take n
  t ++ List.replicate (n - t.length) 0

def beAt (l : List Byte) (k n : Nat) : Nat := ofBE (slice l k n)
def leAt (l : List Byte) (k n : Nat) : Nat := ofLE (slice l k n)

/-- Overwrite bytes from k on. -/
def patch (l : List Byte) (k : Nat) (p : List Byte) : List Byte :=
  l.take k ++ p ++ l.drop (k + p.length)

def zeros (n : Nat) : List Byte := List.replicate n 0

def ceilDiv (a b : Nat) : Nat := (a + b - 1) / b

/-- The next cell boundary, one every 8 CCLK cycles. -/
def nextCell (s : State) (served : Nat) : Nat :=
  let t := ceilDiv s.cycle 8 * 8
  if t = served then t + 8 else t

/-- Serial comparison: a is later than b at the given width. -/
def serialLater (width a b : Nat) : Bool :=
  let d := (a + 2 ^ width - b % 2 ^ width) % 2 ^ width
  decide (0 < d ∧ d < 2 ^ (width - 1))

/-! ### The numbers of pins in `Out.pin` -/

def Pin.resignOut : Nat := 0
def Pin.edgePhyRst (g : Nat) : Nat := 10 + g
def Pin.trunkPhyRst (n : Nat) : Nat := 20 + n
def Pin.sync (n : Nat) : Nat := 30 + n
def Pin.drive (n : Nat) : Nat := 100 + n
def Pin.mclk (g : Nat) : Nat := 40 + g
def Pin.busGrant : Nat := 50
def Pin.busLock : Nat := 51
def Pin.busReady : Nat := 52

/-! ### Who holds what -/

/-- The device is out of reset. -/
def State.alive (s : State) : Bool :=
  match s.pwr.stage with
  | .reset => false
  | _ => true

/-- Start-up has ended: the boot image has ended and functions run (R77, R560). -/
def State.running (s : State) : Bool := s.alive && decide (s.image.boot = .ended)

/-- The side holds the node role (R504): ACTIVE; a worker follows its manager's bit (R487). -/
def State.hasRole (s : State) : Bool :=
  if s.getF Fld.ILG_STATUS_role = 2 then s.on Fld.ILG_STATUS_node_role else s.getF Fld.RED_STATUS_role == 1

/-- The node identity: RED_NODE_ID when shared, else the fused identity (R13, R35). -/
def State.nodeId (s : State) : Nat :=
  if s.on Fld.RED_CTRL_shared_id then (s.reg Reg.RED_NODE_ID_HI).toNat * 2 ^ 32 + (s.reg Reg.RED_NODE_ID_LO).toNat
  else (s.reg Reg.GLB_UID_HI).toNat * 2 ^ 32 + (s.reg Reg.GLB_UID_LO).toNat

/-- The MAC address of fabric port p (R36). -/
def State.macOf (s : State) (p : Nat) : Nat :=
  (s.getF Fld.GLB_MAC_BASE_HI_mac_hi * 2 ^ 32 + (s.reg Reg.GLB_MAC_BASE_LO).toNat + p) % 2 ^ 48

/-- Run f only while the device is out of reset. -/
def whenAlive (f : State → State) (s : State) : State := if s.alive then f s else s

/-- The host reaches the registers: the fuses are loaded and the first samples taken before the link can train (R30). -/
def State.reaches (s : State) : Bool :=
  match s.pwr.stage with
  | .reset | .pll | .memory => false
  | .locket | .boot | .run => true

/-- Run f, an access of the host's, only while the host can reach the device. -/
def whenHost (f : State → State) (s : State) : State := if s.reaches then f s else s

/-- Run f only once functions run. -/
def whenRunning (f : State → State) (s : State) : State := if s.running then f s else s

end Sys2Proof.Machine
end

