-- ==== Sys2Proof/Machine/Flags.lean ====
section
/-! DEFINITION. The flags of the block: the event registers with their enables and the miscellaneous causes they make
(R433), the half-range bits (R259). The block has no arithmetic flags. -/
namespace Sys2Proof.Machine

/-- A word whose reset value is 0. -/
def State.reg0 (s : State) (a : Nat) : Nat := (Sparse.get (fun _ => (0 : Word)) s.regs a).toNat

/-- An event register holds a latched bit whose enable is 1. -/
def raised (s : State) (event enable : Nat) : Bool := s.reg0 event &&& s.reg0 enable != 0

/-- A port's half-range bits (R259). -/
def halfBits (s : State) (p : Nat) : Bool := s.reg0 (Reg.MST_HALF_LO p) != 0 || s.reg0 (Reg.MST_HALF_HI p) != 0

/-- The condition of cause b. -/
def causeOf (s : State) (b : Nat) : Bool :=
  match b with
  | 0 => s.reg0 Reg.GLB_MON_EVENT != 0
  | 1 => raised s Reg.ROL_EVENT Reg.ROL_EVENT_EN
  | 2 => raised s Reg.HST_EVENT Reg.HST_EVENT_EN
  | 3 => raised s Reg.RNG_EVENT Reg.RNG_EVENT_EN
  | 4 => raised s Reg.FAB_EVENT Reg.FAB_EVENT_EN
  | 5 => raised s Reg.FDB_EVENT Reg.FDB_EVENT_EN
  | 6 => raised s Reg.BUF_EVENT Reg.BUF_EVENT_EN
  | 7 => (List.range 48).any (fun p => raised s (Reg.EPT_EVENT p) (Reg.EPT_EVENT_EN p))
  | 8 => (List.range 4).any (fun n => raised s (Reg.TPT_EVENT n) (Reg.TPT_EVENT_EN n))
  | 9 => s.on Fld.MST_CTRL_irq_en && (List.range 52).any (halfBits s)
  | 10 => raised s Reg.TIM_EVENT Reg.TIM_EVENT_EN
  | 11 => raised s Reg.PHS_EVENT Reg.PHS_EVENT_EN
  | 12 => raised s Reg.CAR_EVENT Reg.CAR_EVENT_EN
  | 13 => raised s Reg.SPR_EVENT Reg.SPR_EVENT_EN
  | 14 => raised s Reg.EPO_EVENT Reg.EPO_EVENT_EN
  | 15 => (List.range 16).any (fun c => raised s (Reg.CAN_EVENT c) (Reg.CAN_EVENT_EN c)) || raised s Reg.CAN_TT_EVENT Reg.CAN_TT_EVENT_EN
  | 16 => raised s Reg.FIL_EVENT Reg.FIL_EVENT_EN
  | 17 => raised s Reg.SNS_EVENT Reg.SNS_EVENT_EN
  | 18 => raised s Reg.DRV_EVENT Reg.DRV_EVENT_EN
  | 19 => raised s Reg.LBB_EVENT Reg.LBB_EVENT_EN
  | 20 => raised s Reg.ILG_EVENT Reg.ILG_EVENT_EN
  | 21 => raised s Reg.RED_EVENT Reg.RED_EVENT_EN
  | 22 => raised s Reg.LKT_EVENT Reg.LKT_EVENT_EN
  | _ => false

/-- The word of HST_MISC_CAUSE. -/
def causeWord (s : State) : Nat := (List.range 23).foldl (fun a b => a + b2n (causeOf s b) * 2 ^ b) 0

/-- The vector of cause b: 64 + its field of HST_MISC_VEC. -/
def causeVec (s : State) (b : Nat) : Nat :=
  64 + s.getF ⟨(if b < 10 then Reg.HST_MISC_VEC0 else if b < 20 then Reg.HST_MISC_VEC1 else Reg.HST_MISC_VEC2), 3 * (b % 10), 3⟩

end Sys2Proof.Machine
end

