-- ==== Sys2Proof/Machine/Meeting.lean ====
section
/-! DEFINITION. Meetings in one CCLK cycle (R23, R587): the commands that wait behind the one that runs and arrive in the
same cycle. -/
namespace Sys2Proof.Machine

/-- The CCLK cycles between the command before and this one; `none` for a happening that the device times itself. -/
def arrivalDelay (i : Instr) : Option Nat :=
  match i with
  | .clockFault _ dt | .silenceRelease _ dt | .enableRequest _ _ dt | .sequenceComplete _ dt | .registerWrite _ _ _ dt => some dt
  | .rcRead _ dt | .snapshotRead _ dt | .challenge _ dt | .unlock _ dt | .roleDrop _ dt | .keyRotate _ dt => some dt
  | .rotationFlashDone _ _ dt | .imageStart _ dt | .imageAbort _ dt | .imageCheckDone _ _ dt | .imageRecord _ dt => some dt
  | .imageReadError _ _ dt | .trunkLinkUp _ _ dt | .trunkLinkDown _ dt | .beaconReceive _ _ _ dt | .countReceive _ _ dt => some dt
  | .commitReceive _ _ _ dt | .leadInputChange _ dt | .compatHelloReceive _ _ dt | .topologyReceive _ _ _ dt => some dt
  | .compatCommit _ dt | .rosterReceive _ _ dt | .graceRewrite _ dt | .admissionPoint _ _ _ _ dt | .cellWrite _ _ dt => some dt
  | .frameEnd _ _ _ _ dt | .txFrameStart _ dt | .preemption _ _ dt | .txFrameEnd _ dt | .revertEnable _ dt => some dt
  | .fdbNop _ dt | .fdbLookup _ dt | .fdbInsert _ dt | .fdbDelete _ dt | .fdbFlush _ dt | .fdbRead _ dt => some dt
  | .edgeLinkChange _ _ _ _ dt | .pauseReceive _ _ dt | .collision _ dt | .verifyResponse _ dt => some dt
  | .preemptConfigWrite _ _ dt | .drainRewrite _ _ dt | .mstClear _ dt | .syncReceive _ _ _ dt | .timeAdjust _ dt => some dt
  | .rateWrite _ dt | .permitGrant _ dt | .addendWrite _ dt | .correlationLatch _ dt | .syncPinCapture _ _ dt => some dt
  | .syncCapturePop _ dt | .phaseReference _ _ dt | .phaseOffsetWrite _ _ dt | .eventEntryWrite _ _ dt => some dt
  | .canFrameReceive _ _ _ dt | .canTxRecord _ _ dt | .canArbitration _ _ dt | .canTxAcknowledged _ dt => some dt
  | .canAckError _ _ dt | .canBusError _ _ _ _ dt | .canRecover _ _ dt | .mailboxLoad _ _ dt | .hostWordWrite _ _ dt => some dt
  | .filHold _ dt | .filRelease _ dt | .senseSample _ _ dt | .inputStuck _ _ dt | .hostConvert _ dt => some dt
  | .driveLevelWrite _ dt | .doorbell _ _ dt | .txDescriptorFetch _ _ dt | .txDataRead _ _ dt | .msixUnmask _ dt => some dt
  | .miscAck _ dt | .watchdogKick _ dt | .watchdogConfig _ dt | .hostDmaError _ _ _ _ _ dt | .functionLevelReset dt => some dt
  | .pcieLinkDown dt | .d3hotEntry dt | .busMasterClear dt | .pcieLinkUp _ _ _ _ dt | .bar4Write _ _ dt | .bar4Read _ _ dt => some dt
  | .localCycleEnd _ _ dt | .busRequest dt | .tenureEnd dt | .inboundWrite _ _ _ _ dt | .inboundRead _ dt => some dt
  | .lirqEdge _ _ dt | .claspAcquire _ dt | .claspRelease _ dt | .errorLogPop dt | .crcRestart _ _ dt => some dt
  | .crcSeed _ _ dt | .crcData8 _ _ dt | .crcData16 _ _ dt | .crcData32 _ _ dt | .ilgilBlockLock _ dt => some dt
  | .ilgilHelloReceive _ _ dt | .cellUnitReceive _ _ dt | .creditUnitReceive _ _ dt | .ilgilLinkLoss _ dt => some dt
  | .reachReceive _ _ dt | .rebalance _ dt | .timeUnitReceive _ _ dt | .ilgMgmtRead _ dt | .ilgMgmtWrite _ dt => some dt
  | .mgmtRequestReceive _ _ dt | .mgmtResponseReceive _ _ dt | .workerImageStart _ dt | .workerImageAbort _ dt => some dt
  | .imageUnitReceive _ _ dt | .imageResultReceive _ _ dt | .workerReport _ _ dt | .workerGenWrite _ _ dt => some dt
  | .switchUnitReceive _ _ dt | .heartbeatReceive _ dt | .resignInChange _ dt | .redResignCmd _ dt | .redSwapCmd _ dt => some dt
  | .redClaimCmd _ dt | .pageProgramDone _ _ dt | .eraseDone _ _ dt | .powerFail dt | .powerRestored dt | .freeze _ dt => some dt
  | .unfreeze _ dt | .recordFetch _ dt | .recordFetchDone _ dt | .partitionWrite _ dt | .operatingSecond dt => some dt
  | .mainPowerOn _ dt | .mainPowerLoss _ dt | .resetAssert _ dt | .resetEnd _ dt | .pllLock dt => some dt
  | .memoryStepDone _ _ _ dt | .locketStep _ dt | .phyResetWrite _ dt | .tapBypass dt | .tapIdcode dt => some dt
  | .tapSamplePreload _ _ dt | .tapExtest dt | .tapClamp dt | .tapHighz dt | .poresetRisingEdge _ dt => some dt
  | .rxDescriptorFetch _ _ dt | .busMasterEnable dt | .couplerInputChange _ _ dt | .inputUnstuck _ dt => some dt
  | .protocolExceptionExit _ dt | .carrierSense _ _ dt | .verifyFrameReceive _ dt | .eraseSuspended dt => some dt
  | .workerImageRead _ dt => some dt
  | _ => none

/-- A host access to BAR0 (R59). -/
def bar0Access (i : Instr) : Bool :=
  match i with
  | .canRecover _ _ _ | .silenceRelease _ _ | .enableRequest _ _ _ | .registerWrite _ _ _ _ | .rcRead _ _ | .snapshotRead _ _ => true
  | .challenge _ _ | .unlock _ _ | .roleDrop _ _ | .keyRotate _ _ | .imageStart _ _ | .imageAbort _ _ | .revertEnable _ _ => true
  | .fdbNop _ _ | .fdbLookup _ _ | .fdbInsert _ _ | .fdbDelete _ _ | .fdbFlush _ _ | .fdbRead _ _ | .hostWordWrite _ _ _ => true
  | .filHold _ _ | .filRelease _ _ | .miscAck _ _ | .watchdogKick _ _ | .watchdogConfig _ _ | .rebalance _ _ => true
  | .ilgMgmtRead _ _ | .ilgMgmtWrite _ _ | .workerImageStart _ _ | .workerImageAbort _ _ | .workerGenWrite _ _ _ => true
  | .claspAcquire _ _ | .claspRelease _ _ | .errorLogPop _ | .crcRestart _ _ _ | .crcSeed _ _ _ | .crcData8 _ _ _ => true
  | .crcData16 _ _ _ | .crcData32 _ _ _ | .preemptConfigWrite _ _ _ | .drainRewrite _ _ _ | .mstClear _ _ | .freeze _ _ => true
  | .unfreeze _ _ | .recordFetch _ _ | .partitionWrite _ _ | .phyResetWrite _ _ | .redResignCmd _ _ | .redSwapCmd _ _ => true
  | .redClaimCmd _ _ | .hostConvert _ _ | .driveLevelWrite _ _ | .compatCommit _ _ | .graceRewrite _ _ | .timeAdjust _ _ => true
  | .rateWrite _ _ | .permitGrant _ _ | .addendWrite _ _ | .correlationLatch _ _ | .syncCapturePop _ _ => true
  | .phaseOffsetWrite _ _ _ | .eventEntryWrite _ _ _ => true
  | _ => false

/-- The commands at the front of the queue that arrive in the present cycle. -/
def State.meeting (s : State) : List Instr := s.pending.takeWhile (fun c => arrivalDelay c == some 0)

/-- An arrival that a time-out guards falls in the cycle in which the time-out would fire: it is in time (R23). -/
def inTime (arrival : Instr → Bool) (s : State) : Bool := s.meeting.any arrival

end Sys2Proof.Machine
end

