-- ==== Sys2Proof/Machine/Operands.lean ====
section
/-! DEFINITION. The forms that operands take on the wire: check values (R466), HMAC-SHA-256 (R55), Ethernet, 802.1Q,
IPv4 and IPv6 headers, the Backbone Epoch Tag (R126), train addresses and their checksums (R153 to R155). -/
namespace Sys2Proof.Machine

/-! ### The CRC presets (R466) -/

def repeatN (n : Nat) (f : Nat → Nat) (x : Nat) : Nat :=
  match n with
  | 0 => x
  | n + 1 => repeatN n f (f x)

/-- One bit of a CRC that takes bits most significant first. -/
def crcBitFwd (w poly : Nat) (r : Nat) : Nat :=
  if r / 2 ^ (w - 1) % 2 = 1 then ((r * 2) ^^^ poly) % 2 ^ w else (r * 2) % 2 ^ w

/-- One bit of a reflected CRC, with the reflected polynomial. -/
def crcBitRef (poly : Nat) (r : Nat) : Nat :=
  if r % 2 = 1 then (r / 2) ^^^ poly else r / 2

def crcFwd (w poly : Nat) (r : Nat) (b : Byte) : Nat :=
  repeatN 8 (crcBitFwd w poly) (r ^^^ (b.toNat * 2 ^ (w - 8)))

def crcRef (poly : Nat) (r : Nat) (b : Byte) : Nat := repeatN 8 (crcBitRef poly) (r ^^^ b.toNat)

/-- The width of preset u. -/
def crcWidth (u : Nat) : Nat := if u = 0 then 8 else if u = 1 then 16 else 32

/-- init XOR xorout of preset u: what the result reads after a restart (R469). -/
def crcStart (u : Nat) : Nat := if u = 1 then 0xFFFF else 0

/-- Preset u continued from a result over further bytes (R466, R470). -/
def crcFeed (u r : Nat) (l : List Byte) : Nat :=
  match u with
  | 0 => l.foldl (crcFwd 8 0x07) r
  | 1 => l.foldl (crcFwd 16 0x1021) r
  | 2 => (l.foldl (crcRef 0xEDB88320) (r ^^^ 0xFFFFFFFF)) ^^^ 0xFFFFFFFF
  | _ => (l.foldl (crcRef 0x82F63B78) (r ^^^ 0xFFFFFFFF)) ^^^ 0xFFFFFFFF

def crc16 (l : List Byte) : Nat := crcFeed 1 (crcStart 1) l
def crc32 (l : List Byte) : Nat := crcFeed 2 (crcStart 2) l
def crc32c (l : List Byte) : Nat := crcFeed 3 (crcStart 3) l

/-! ### HMAC-SHA-256 (R55, R56, R70), PRESUMED: the algorithm is named by the spec and taken from FIPS 180-4 and
RFC 2104 (assumption log 4) -/

/-- The bits of the k-th root of n, from bit b - 1 down, below those already found. -/
def rootBits (k n b found : Nat) : Nat :=
  match b with
  | 0 => found
  | b + 1 => rootBits k n b (if (found + 2 ^ b) ^ k ≤ n then found + 2 ^ b else found)

/-- The first 32 bits of the fraction of the k-th root of p. -/
def rootFraction (k p : Nat) : Word := BitVec.ofNat 32 (rootBits k (p * 2 ^ (32 * k)) 37 0)

/-- The first 64 primes. -/
def smallPrimes : List Nat :=
  (List.range 312).filter (fun p => decide (1 < p) && (List.range 18).all (fun d => decide (d < 2) || p == d || p % d != 0))

/-- The three turns of a word joined; the last is a shift where `cut` says so. -/
def mixTurns (cut : Bool) (i j k : Nat) (x : Word) : Word :=
  let last := if cut then x >>> k else x.rotateRight k
  last ^^^ x.rotateRight j ^^^ x.rotateRight i

/-- One step: the chain of eight words takes a constant and the head of the window; the window of sixteen moves on. -/
def digestStep (st : List Word × List Word) (k : Word) : List Word × List Word :=
  let w := fun i => st.2.getD i 0
  let v := fun i => st.1.getD i 0
  let pick := ((v 5 ^^^ v 6) &&& v 4) ^^^ v 6
  let most := (v 0 &&& (v 1 ||| v 2)) ||| (v 1 &&& v 2)
  let fresh := k + w 0 + v 7 + pick + mixTurns false 6 11 25 (v 4)
  let moved := st.1.take 7
  ((fresh + most + mixTurns false 2 13 22 (v 0)) :: (moved.take 3 ++ (fresh + v 3) :: moved.drop 4),
   st.2.drop 1 ++ [mixTurns true 17 19 10 (w 14) + w 9 + mixTurns true 7 18 3 (w 1) + w 0])

/-- A block of 64 bytes joins the chain. -/
def digestBlock (chain : List Word) (block : List Byte) : List Word :=
  let window := (List.range 16).map (fun i => BitVec.ofNat 32 (beAt block (4 * i) 4))
  List.zipWith (· + ·) chain ((smallPrimes.map (rootFraction 3)).foldl digestStep (chain, window)).1

/-- A message with its end mark, zeros to 8 bytes short of a block, and its length in bits. -/
def markEnd (l : List Byte) : List Byte :=
  let open_ := l ++ [byte 128]
  open_ ++ zeros ((64 - (open_.length + 8) % 64) % 64) ++ be 8 (8 * l.length)

def sha256 (l : List Byte) : List Byte :=
  let m := markEnd l
  let blocks := (List.range (m.length / 64)).map (fun i => slice m (64 * i) 64)
  (blocks.foldl digestBlock ((smallPrimes.take 8).map (rootFraction 2))).flatMap (fun w => be 4 w.toNat)

/-- HMAC with a key of at most 64 bytes. -/
def hmacSha256 (key msg : List Byte) : List Byte :=
  let k := key ++ zeros (64 - key.length)
  sha256 (k.map (· ^^^ byte 0x5C) ++ sha256 (k.map (· ^^^ byte 0x36) ++ msg))

/-! ### Ethernet headers -/

def frameDst (l : List Byte) : Nat := beAt l 0 6
def frameSrc (l : List Byte) : Nat := beAt l 6 6
def etherTypeAt (l : List Byte) (k : Nat) : Nat := beAt l k 2

/-- The bit that makes an address a group address. -/
def isGroup (mac : Nat) : Bool := bit mac 40

def broadcastMac : Nat := 0xFFFFFFFFFFFF

/-- An 802.1Q tag stands after the source address (TPID 0x8100). -/
def hasVlanTag (l : List Byte) : Bool := etherTypeAt l 12 == 0x8100
def vlanPcp (l : List Byte) : Nat := beAt l 14 2 / 2 ^ 13
def vlanVid (l : List Byte) : Nat := beAt l 14 2 % 2 ^ 12
def removeVlanTag (l : List Byte) : List Byte := l.take 12 ++ l.drop 16
def insertVlanTag (pcp vid : Nat) (l : List Byte) : List Byte :=
  l.take 12 ++ be 2 0x8100 ++ be 2 (pcp * 2 ^ 13 + vid) ++ l.drop 12

/-- Past the 802.1Q tags that stand at offset k, at most `most` of them. -/
def pastTags (most : Nat) (l : List Byte) (k : Nat) : Nat :=
  match most with
  | 0 => k
  | n + 1 => if etherTypeAt l k = 0x8100 then pastTags n l (k + 4) else k

/-- Offset of the EtherType after the 802.1Q tags. -/
def l3TypeAt (l : List Byte) : Nat := pastTags l.length l 12
def l3At (l : List Byte) : Nat := l3TypeAt l + 2
def etherType (l : List Byte) : Nat := etherTypeAt l (l3TypeAt l)

/-- The Backbone Epoch Tag (R126). -/
structure Bet where
  epoch : Nat
  srcTnn : Nat
  dstTnn : Nat
  cls : Nat
  hops : Nat
  translated : Bool
  tat : Bool
  deriving DecidableEq, Repr

/-- The tag that follows the source address, when the EtherType there is the tag's. -/
def betOf (tagType : Nat) (l : List Byte) : Option Bet :=
  if etherTypeAt l 12 = tagType then
    some { epoch := beAt l 14 1, srcTnn := beAt l 15 1 / 4, dstTnn := beAt l 16 1 / 4, cls := beAt l 17 1 / 32,
           hops := beAt l 18 1 / 4, translated := bit (beAt l 19 1) 7, tat := bit (beAt l 19 1) 6 }
  else none

def removeBet (l : List Byte) : List Byte := l.take 12 ++ l.drop 20

def betBytes (tagType : Nat) (t : Bet) : List Byte :=
  be 2 tagType ++ [byte t.epoch, byte (t.srcTnn * 4), byte (t.dstTnn * 4), byte (t.cls * 32), byte (t.hops * 4),
    byte (b2n t.translated * 128 + b2n t.tat * 64)]

def insertBet (tagType : Nat) (t : Bet) (l : List Byte) : List Byte := l.take 12 ++ betBytes tagType t ++ l.drop 12

/-! ### IP -/

/-- An IPv4 packet whose header length field is at least 5 and within the frame (R156). -/
def isIpv4 (l : List Byte) : Bool :=
  let k := l3At l
  etherType l == 0x0800 && decide (beAt l k 1 % 16 ≥ 5) && decide (k + 4 * (beAt l k 1 % 16) ≤ l.length)

def isIpv6 (l : List Byte) : Bool := etherType l == 0x86DD

/-- Offset of the transport header of an IPv4 packet. -/
def l4At (l : List Byte) : Nat := l3At l + 4 * (beAt l (l3At l) 1 % 16)

def ipv4Proto (l : List Byte) : Nat := beAt l (l3At l + 9) 1

/-- The fragment offset of an IPv4 packet is 0: it is the first or only fragment. -/
def firstFragment (l : List Byte) : Bool := beAt l (l3At l + 6) 2 % 2 ^ 13 == 0

/-- The protocol behind the IPv6 extension headers and where it starts, from a header of type nh at k; none in a fragment
that is not the first. -/
def pastExtensions (most : Nat) (l : List Byte) (nh k : Nat) : Option (Nat × Nat) :=
  match most with
  | 0 => none
  | n + 1 =>
    if nh = 0 ∨ nh = 43 ∨ nh = 60 then pastExtensions n l (beAt l k 1) (k + 8 * (beAt l (k + 1) 1 + 1))
    else if nh = 51 then pastExtensions n l (beAt l k 1) (k + 4 * (beAt l (k + 1) 1 + 2))
    else if nh = 44 then (if beAt l (k + 2) 2 / 8 = 0 then pastExtensions n l (beAt l k 1) (k + 8) else none)
    else some (nh, k)

/-- The UDP header of an IPv4 or IPv6 packet, in a first or only fragment. -/
def udpAt (l : List Byte) : Option Nat :=
  if isIpv4 l then (if firstFragment l ∧ ipv4Proto l = 17 then some (l4At l) else none)
  else if isIpv6 l then
    match pastExtensions 16 l (beAt l (l3At l + 6) 1) (l3At l + 40) with
    | some (17, k) => some k
    | _ => none
  else none

/-- Fold a ones' complement sum into 16 bits. -/
def onesFold (x : Nat) : Nat :=
  let a := x % 2 ^ 16 + x / 2 ^ 16
  a % 2 ^ 16 + a / 2 ^ 16

/-- The incremental update of a checksum for a word that changes (R155). -/
def csumUpdate (hc m m' : Nat) : Nat := 0xFFFF - onesFold ((0xFFFF - hc) + (0xFFFF - m) + m')

/-- The update for a 32-bit value: its two words, the more significant first. -/
def csumUpdate32 (hc a a' : Nat) : Nat :=
  csumUpdate (csumUpdate hc (a / 2 ^ 16) (a' / 2 ^ 16)) (a % 2 ^ 16) (a' % 2 ^ 16)

/-- Replace an IPv4 address at an offset of the frame, with the checksums that cover it (R155). -/
def setIpv4Addr (l : List Byte) (k a' : Nat) : List Byte :=
  let a := beAt l k 4
  let h := l3At l + 10
  let l := patch (patch l k (be 4 a')) h (be 2 (csumUpdate32 (beAt l h 2) a a'))
  let t := l4At l
  if !firstFragment l then l
  else if ipv4Proto l = 6 ∧ t + 18 ≤ l.length then patch l (t + 16) (be 2 (csumUpdate32 (beAt l (t + 16) 2) a a'))
  else if ipv4Proto l = 17 ∧ t + 8 ≤ l.length ∧ beAt l (t + 6) 2 ≠ 0 then
    let c := csumUpdate32 (beAt l (t + 6) 2) a a'
    patch l (t + 6) (be 2 (if c = 0 then 0xFFFF else c))
  else l

/-- The ECN field: bits [1:0] of the IPv4 type of service, or of the IPv6 traffic class (R209). -/
def ecnOf (l : List Byte) : Nat :=
  let k := l3At l
  if etherType l = 0x0800 then beAt l (k + 1) 1 % 4
  else if isIpv6 l then beAt l k 2 / 16 % 4
  else 0

def ecnCapable (l : List Byte) : Bool :=
  (etherType l == 0x0800 || isIpv6 l) && (ecnOf l == 1 || ecnOf l == 2)

/-- Set the ECN field to CE; an IPv4 header checksum is updated (R209). -/
def markCe (l : List Byte) : List Byte :=
  let k := l3At l
  if etherType l = 0x0800 then
    let w := beAt l k 2
    let w' := w ||| 3
    patch (patch l k (be 2 w')) (k + 10) (be 2 (csumUpdate (beAt l (k + 10) 2) w w'))
  else patch l k (be 2 (beAt l k 2 ||| 0x30))

/-- The key of the flow hash (R191). -/
def flowKey (l : List Byte) (vid : Nat) (l4 : Bool) : List Byte :=
  let k := l3At l
  if isIpv4 l then
    let ports := l4 && firstFragment l && (ipv4Proto l == 6 || ipv4Proto l == 17)
    slice l (k + 12) 8 ++ [byte (ipv4Proto l)] ++ (if ports then slice l (l4At l) 4 else zeros 4)
  else if isIpv6 l then
    let nh := beAt l (k + 6) 1
    let ports := l4 && (nh == 6 || nh == 17)
    slice l (k + 8) 32 ++ [byte nh] ++ (if ports then slice l (k + 40) 4 else zeros 4)
  else slice l 0 12 ++ be 2 vid

end Sys2Proof.Machine
end

