-- ==== Sys2Proof/Machine/Locket.lean ====
section
/-! DEFINITION. Locket, the event recorder (chapter 18): making a record, staging and the holding FIFO, commits to
flash, counter copies, freezing, reading. Everything that writes a record calls `record`. -/
namespace Sys2Proof.Machine

/-! ### The record (R527, R528) -/

/-- The 32 bytes of a record. -/
def recordBytes (r : Record) : List Byte :=
  le 4 r.seq ++ le 4 r.opsec ++ le 4 r.pcc ++ le 4 (r.ns % 2 ^ 30 + (r.role % 4) * 2 ^ 30) ++ le 6 r.sec ++
    [byte r.rtype] ++ (r.data ++ zeros 9).take 9

/-- The types of R528. -/
def recordTypes : List Nat :=
  [0x01, 0x02, 0x03, 0x04, 0x05, 0x0F, 0x10, 0x11, 0x12, 0x13, 0x14, 0x15, 0x16, 0x17, 0x20, 0x21, 0x22, 0x23, 0x24,
   0x25, 0x30, 0x31, 0x32, 0x33, 0x34, 0x40, 0x41, 0x42, 0x43, 0x50, 0x51, 0x52, 0x53, 0x60, 0x61, 0x62, 0x70, 0x71,
   0x72, 0x73]

def stagingSize : Nat := 2048
def holdingSize : Nat := 128

/-- LKT_STATUS as the fills stand (R540). -/
def showFills (s : State) : State :=
  s |> setF Fld.LKT_STATUS_uncommitted s.lkt.staging.length |> setF Fld.LKT_STATUS_held s.lkt.holding.length

/-! ### Commits to flash (R534, R535) -/

/-- The first flash byte of a log slot: the partition begins at 0x0080_0000 and its first two sectors hold the
counter copies (R533, R535). -/
def slotAddr (slot : Nat) : Nat := 0x00802000 + 32 * slot

/-- Sectors of the log area (R535). -/
def logSectors (s : State) : Nat := 2 ^ s.getF Fld.LKT_PART_active_log / 4096 - 2

def logSlots (s : State) : Nat := logSectors s * 128

/-- Ask the flash to suspend the erase that runs. -/
def askSuspend (s : State) : State :=
  if s.lkt.suspending then s
  else emitOut (.flashSuspend true) { s with lkt := { s.lkt with suspending := true } }

/-- Start a page program of up to 8 records, oldest first; a page that starts part-way through a flash page continues
that page (R534). An erase in progress elsewhere is suspended first, and one of the target sector is waited for
(R535). While a freeze is pending or in force no program starts (R537). -/
def startPage (s : State) : State :=
  let l := s.lkt
  if l.commitLeft = 0 ∨ l.page ≠ none ∨ s.on Fld.LKT_STATUS_frozen ∨ s.on Fld.LKT_STATUS_pending ∨
      !s.on Fld.LKT_STATUS_flash_ok ∨ l.staging = [] ∨ l.erase = some (l.wrSlot / 128) ∨ l.eraseNext.contains (l.wrSlot / 128) then s
  else if l.erase.isSome ∧ !l.suspended then askSuspend s
  else
    let n := min (min l.commitLeft l.staging.length) (8 - l.wrSlot % 8)
    let s := emitOut (.flashProgram (slotAddr l.wrSlot) ((l.staging.take n).flatMap recordBytes)) s
    { s with lkt := { s.lkt with page := some { slot := l.wrSlot, count := n } } }

/-- Start a commit of every uncommitted record. -/
def startCommit (s : State) : State :=
  startPage { s with lkt := { s.lkt with commitLeft := s.lkt.staging.length } }

/-- Insert a record of a slot in order of sequence numbers. -/
def insertBySeq (p : Nat × Record) (l : List (Nat × Record)) : List (Nat × Record) :=
  match l with
  | [] => [p]
  | q :: t => if q.2.seq < p.2.seq then q :: insertBySeq p t else p :: q :: t

/-- Which records the log holds, in order of their sequence numbers: (slot, record). -/
def logRecords (s : State) : List (Nat × Record) :=
  s.lkt.log.foldl (fun l p => match p.2 with
    | .record r => if p.1 < logSlots s ∧ recordTypes.contains r.rtype then insertBySeq (p.1, r) l else l
    | .zeroed => l) []

/-- LKT_OLDEST, LKT_NEWEST and LKT_COUNT follow the log (R535). -/
def showLog (s : State) : State :=
  let l := logRecords s
  s |> setR Reg.LKT_COUNT l.length
    |> setR Reg.LKT_OLDEST ((l.head?.map (fun p => p.2.seq)).getD 0)
    |> setR Reg.LKT_NEWEST ((l.getLast?.map (fun p => p.2.seq)).getD 0)

/-! ### Making a record (R531, R534, R537) -/

/-- The number in HST_MISC_CAUSE of the block a type belongs to (R433, R531). -/
def recordBlock (t : Nat) : Nat :=
  if t < 0x10 then 22 else if t < 0x20 then 1 else if t < 0x24 then 13 else if t < 0x25 then 14 else if t < 0x30 then 6
  else if t < 0x33 then 10 else if t < 0x34 then 11 else if t < 0x40 then 12 else if t < 0x42 then 0 else if t < 0x50 then 2
  else if t < 0x51 then 15 else if t < 0x52 then 17 else if t < 0x53 then 18 else if t < 0x60 then 19 else if t < 0x70 then 20
  else 21

/-- The instance a record concerns, by which the records of one type and cycle are ordered (R531). -/
def recordInstance (r : Record) : Nat :=
  if r.rtype = 0x14 ∨ r.rtype = 0x15 then leAt r.data 0 3
  else if [0x22, 0x50, 0x51, 0x52, 0x60, 0x62].contains r.rtype then leAt r.data 0 1 else 0

/-- The place of a record among those of its cycle: block, type, instance. Locket's own records keep the order in which
R532, R536 and R537 give them. -/
def recordRank (r : Record) : Nat :=
  recordBlock r.rtype * 2 ^ 40 + (if r.rtype < 0x10 then 0 else r.rtype * 2 ^ 32 + recordInstance r)

/-- Put a record or pair among the records of its cycle, behind those of its own rank. -/
def insertMade (rs : List Record) (rank : Nat) (l : List Record) : List Record :=
  match l with
  | [] => rs
  | e :: t => if e.rtype ≠ 0x0F ∧ rank < recordRank e then rs ++ e :: t else e :: insertMade rs rank t

def renumber (seq : Nat) (l : List Record) : List Record :=
  match l with
  | [] => []
  | e :: t => { e with seq := seq } :: renumber (seq + 1) t

/-- The area with a record or pair added that takes its place among the last `k` records of it; `seq` is the next number. -/
def addMade (rs : List Record) (k seq : Nat) (area : List Record) : List Record :=
  let n := area.length - k
  area.take n ++ renumber (seq - (area.length - n)) (insertMade rs ((rs.head?.map recordRank).getD 0) (area.drop n))

/-- Stage, hold or lose one record or pair. A lost record takes no sequence number (R531); a lost pair counts once, in
the group of its head (R529). Without working flash, staging overwrites its oldest records (R535). -/
def placeRecords (rs : List Record) (s : State) : State :=
  let n := rs.length
  let grp := ((rs.head?.map (fun r => r.rtype)).getD 0) / 16
  let fresh := if s.lkt.madeAt = s.cycle then s.lkt.fresh else 0
  let seq := (s.reg Reg.LKT_SEQ).toNat
  let toHold := s.on Fld.LKT_STATUS_frozen || !s.lkt.holding.isEmpty ||
    (s.on Fld.LKT_STATUS_flash_ok && decide (s.lkt.staging.length + n > stagingSize))
  if toHold then
    if s.lkt.holding.length + n > holdingSize then
      let s := count Reg.LKT_LOST s
      { s with lkt := { s.lkt with lost := s.lkt.lost.modify grp (· + 1) } }
    else
      let s := setR Reg.LKT_SEQ (seq + n) s
      showFills { s with lkt := { s.lkt with holding := addMade rs fresh seq s.lkt.holding, heldInFreeze := s.lkt.heldInFreeze + n,
                                             fresh := fresh + n, madeAt := s.cycle } }
  else
    let s := setR Reg.LKT_SEQ (seq + n) s
    let programmed := (s.lkt.page.map (fun p => p.count)).getD 0
    let area := addMade rs (min fresh (s.lkt.staging.length - programmed)) seq s.lkt.staging
    let excess := area.length - stagingSize
    let s := countBy Reg.LKT_OVERWRITTEN excess s
    let s := showFills { s with lkt := { s.lkt with staging := area.drop excess, fresh := fresh + n, madeAt := s.cycle } }
    if s.lkt.staging.length ≥ 32 ∧ s.lkt.commitLeft = 0 then startCommit s else s

/-- A record made now (R527): the counters, the node time and the role are those of this cycle. -/
def mkRecord (s : State) (role seqOff t : Nat) (d : List Nat) : Record :=
  { seq := (s.reg Reg.LKT_SEQ).toNat + seqOff, opsec := (s.reg Reg.LKT_OPSEC).toNat, pcc := (s.reg Reg.LKT_PCC).toNat,
    ns := s.timeNs, role := role, sec := s.timeSec, rtype := t, data := ((d.map byte) ++ zeros 9).take 9 }

/-- The role field of a record: the host's role. -/
def State.role (s : State) : Nat := s.getF Fld.ROL_STATUS_role

def recordAs (role t : Nat) (d : List Nat) (s : State) : State := placeRecords [mkRecord s role 0 t d] s

/-- Write a record of type t with data bytes d0 to d8. -/
def record (t : Nat) (d : List Nat) (s : State) : State := recordAs s.role t d s

/-- Write a record followed by its CONT (R529). -/
def recordPairAs (role t : Nat) (d c : List Nat) (s : State) : State :=
  placeRecords [mkRecord s role 0 t d, mkRecord s role 1 0x0F c] s

def recordPair (t : Nat) (d c : List Nat) (s : State) : State := recordPairAs s.role t d c s

/-- The bytes of v, least significant first, as record data. -/
def dle (n v : Nat) : List Nat := (le n v).map BitVec.toNat

/-- Two's complement record data. -/
def dleI (n : Nat) (v : Int) : List Nat := dle n (codeOf (8 * n) v)

/-- A GAP record when records were lost, its counts taken and cleared (R528, R534). -/
def gapIfLost (s : State) : State :=
  if s.lkt.lost.all (· == 0) then s
  else
    let d := s.lkt.lost.map (fun n => min n 255)
    let s := { s with lkt := { s.lkt with lost := List.replicate 8 0 } }
    s |> record 0x04 d |> latch Fld.LKT_EVENT_gap

/-- How many of the held records `room` takes, a pair as one (R529). -/
def heldThatFit (room : Nat) (s : State) : Nat :=
  let n := min s.lkt.holding.length room
  if ((s.lkt.holding.drop n).head?.map (·.rtype)) = some 0x0F then n - 1 else n

/-- Held records enter staging in order. Without working flash staging takes them all and overwrites its oldest (R534,
R535). -/
def stageHeld (s : State) : State :=
  let n := if s.on Fld.LKT_STATUS_flash_ok then heldThatFit (stagingSize - s.lkt.staging.length) s else s.lkt.holding.length
  let excess := s.lkt.staging.length + n - stagingSize
  let s := countBy Reg.LKT_OVERWRITTEN excess s
  showFills { s with lkt := { s.lkt with staging := s.lkt.staging.drop excess ++ s.lkt.holding.take n,
                                         holding := s.lkt.holding.drop n } }

/-- The holding FIFO empties into staging when there is room, and a GAP follows if any record was lost (R534). -/
def drainHolding (s : State) : State :=
  if s.lkt.holding.isEmpty || s.on Fld.LKT_STATUS_frozen then s
  else
    let s := stageHeld s
    if s.lkt.holding.isEmpty then gapIfLost s else s

/-! ### Flash: programs and erases -/

/-- Begin to erase a sector of the log area, after the erase that runs. -/
def eraseSector (sec : Nat) (s : State) : State :=
  if s.lkt.erase = some sec ∨ s.lkt.eraseNext.contains sec then s
  else if s.lkt.erase.isSome then { s with lkt := { s.lkt with eraseNext := s.lkt.eraseNext ++ [sec] } }
  else emitOut (.flashErase (sec + 2)) { s with lkt := { s.lkt with erase := some sec, suspending := false, suspended := false } }

/-- The write point enters sector `sec`: the second sector ahead of it is erased (R535). A sector whose own erase failed
holds no record, so the write point goes on to the next one. -/
def enterSector (n sec : Nat) (s : State) : State :=
  let total := max 1 (logSectors s)
  let s := s |> eraseSector ((sec + 2) % total)
  let s := { s with lkt := { s.lkt with wrSlot := 128 * sec } }
  match n with
  | 0 => s
  | n + 1 => if Sparse.find s.lkt.log (128 * sec) = some .zeroed then enterSector n ((sec + 1) % total) s else s

/-- Move the write point on by n slots of its sector. -/
def moveWrite (n : Nat) (s : State) : State :=
  let w := s.lkt.wrSlot + n
  if n ≠ 0 ∧ w % 128 = 0 then enterSector 4 (w / 128 % max 1 (logSectors s)) s
  else { s with lkt := { s.lkt with wrSlot := w } }

/-- A failed program or erase (R535): counted, its slots programmed to 0x00. When that programming fails as well the
flash counts as not working. -/
def flashFailed (first n : Nat) (zeroOk : Bool) (s : State) : State :=
  let s := s |> count Reg.LKT_FLASH_ERRORS |> latch Fld.LKT_EVENT_flash_error
  let s := emitOut (.flashProgram (slotAddr first) (zeros (32 * n))) s
  let s := each (List.range n) (fun k t =>
    { t with lkt := { t.lkt with log := Sparse.ins (Sparse.drop t.lkt.log (first + k)) (first + k) .zeroed } }) s
  whenT (!zeroOk) (setF Fld.LKT_STATUS_flash_ok 0) s

/-- The records of a programmed page leave staging and stand in the log (R534). -/
def pageDone (pg : Page) (s : State) : State :=
  let rs := s.lkt.staging.take pg.count
  let put := fun (log : List (Nat × FlashSlot)) (p : Record × Nat) =>
    Sparse.ins (Sparse.drop log (pg.slot + p.2)) (pg.slot + p.2) (FlashSlot.record p.1)
  let s := { s with lkt := { s.lkt with page := none, staging := s.lkt.staging.drop pg.count,
                                        commitLeft := s.lkt.commitLeft - pg.count,
                                        log := (rs.zip (List.range pg.count)).foldl put s.lkt.log } }
  s |> moveWrite pg.count |> showFills |> showLog

/-- A suspended erase is taken up again once no page is left to program, unless power is failing (R535, R536). -/
def resumeErase (s : State) : State :=
  if s.lkt.suspended ∧ s.lkt.page = none ∧ s.lkt.commitLeft = 0 ∧ !s.on Fld.LKT_STATUS_pfail ∧ !s.on Fld.LKT_STATUS_frozen then
    emitOut (.flashSuspend false) { s with lkt := { s.lkt with suspending := false, suspended := false } }
  else s

/-! ### Counter copies (R532, R533) -/

/-- The 32 bytes of a counter block, with its CRC-32C check (R533). -/
def blockBytes (b : CounterBlock) : List Byte :=
  let h := le 4 0x4B435450 ++ le 4 b.serial ++ le 4 b.opsec ++ le 4 b.pcc ++ le 4 b.keyRot ++ le 1 b.sizeLog ++ zeros 7
  h ++ le 4 (crc32c h)

/-- The valid block of a sector with the highest serial (R533). -/
def newestBlock (l : List CounterBlock) : Option CounterBlock :=
  (l.filter (fun b => b.valid)).foldl (fun a b => match a with
    | none => some b
    | some c => if c.serial < b.serial then some b else some c) none

def nextSerial (s : State) : Nat :=
  ((s.lkt.copy0 ++ s.lkt.copy1).foldl (fun m b => if b.valid then max m b.serial else m) 0) + 1

/-- Write a block into a copy sector: the first erased slot, or slot 0 after an erase when none is left. `ok`: the
program, with any erase it needs, succeeds. -/
def writeBlock (second : Bool) (keyRot : Nat) (ok : Bool) (s : State) : State :=
  let b : CounterBlock :=
    { serial := nextSerial s, opsec := (s.reg Reg.LKT_OPSEC).toNat, pcc := (s.reg Reg.LKT_PCC).toNat,
      keyRot := keyRot, sizeLog := s.getF Fld.LKT_PART_size_log, valid := ok }
  let old := if second then s.lkt.copy1 else s.lkt.copy0
  let full := decide (old.length ≥ 128)
  let s := if full then emitOut (.flashErase (b2n second)) s else s
  let new := if full then [b] else old ++ [b]
  let s := emitOut (.flashProgram (0x00800000 + 4096 * b2n second + 32 * (new.length - 1)) (blockBytes b)) s
  if second then { s with lkt := { s.lkt with copy1 := new } } else { s with lkt := { s.lkt with copy0 := new } }

/-- A routine copy, to the two sectors in turn. -/
def routineCopy (s : State) : State :=
  if !s.on Fld.LKT_STATUS_flash_ok then s
  else
    let s := writeBlock s.lkt.nextCopy (s.reg Reg.ROL_KEY_ROT).toNat true s
    { s with lkt := { s.lkt with nextCopy := !s.lkt.nextCopy } }

/-! ### Freezing (R537) -/

/-- End a freeze: the held records enter staging, FREEZE follows them, then a GAP if any record was lost, and commits
resume. -/
def endFreeze (code : Nat) (s : State) : State :=
  let held := if s.on Fld.LKT_STATUS_frozen then s.lkt.heldInFreeze else 0
  let s := s |> setF Fld.LKT_STATUS_frozen 0 |> setF Fld.LKT_STATUS_pending 0
  let s := stageHeld s
  let s := { s with lkt := { s.lkt with heldInFreeze := 0 } }
  s |> record 0x05 ([code] ++ dle 2 (min held 0xFFFF)) |> gapIfLost |> startCommit

def lapseFreeze (s : State) : State :=
  s |> endFreeze 2 |> setF Fld.LKT_CTRL_freeze 0 |> latch Fld.LKT_EVENT_freeze_lapse

/-- A freeze is requested: FREEZE enters staging, and the page program in progress ends first. -/
def startFreeze (s : State) : State :=
  if s.on Fld.LKT_STATUS_frozen ∨ s.on Fld.LKT_STATUS_pending then s
  else s |> setF Fld.LKT_STATUS_pending 1 |> record 0x05 [0]

/-- The page program has ended, so a pending freeze takes force. -/
def settleFreeze (s : State) : State :=
  if s.on Fld.LKT_STATUS_pending ∧ s.lkt.page = none then
    let s := s |> setF Fld.LKT_STATUS_pending 0 |> setF Fld.LKT_STATUS_frozen 1
    { s with lkt := { s.lkt with frozenAt := s.cycle, heldInFreeze := 0, commitLeft := 0 } }
  else s

end Sys2Proof.Machine
end

