-- ==== Sys2Proof/Machine/Ledger.lean ====
section
/-! DEFINITION. The ledger's accounts (R213 to R215), the port statistics (R258), line rates, and the list of what a
command leaves to its end. -/
namespace Sys2Proof.Machine

/-- Leave a consequence to the end of the command. -/
def later (t : Todo) (s : State) : State := { s with todo := s.todo ++ [t] }

/-- A trigger of R516: its bit in RED_CAUSE is set, and the side resigns at the end of the command when ACTIVE. -/
def trigger (cause : Nat) (s : State) : State :=
  s |> latchBits Fld.RED_CAUSE_cause (2 ^ cause) |> whenT (s.getF Fld.RED_STATUS_role == 1) (later (.trigger cause))

/-! ### Ledger rows: 8 × port + class -/

def ledRow (port cls : Nat) : Nat := 8 * port + cls

def State.led (s : State) (row : Nat) : Led := Sparse.get (fun _ => Led.zero) s.fab.ledger row

def setLed (row : Nat) (l : Led) (s : State) : State :=
  { s with fab := { s.fab with ledger := Sparse.put (fun _ => Led.zero) s.fab.ledger row l } }

def ledAdmit (row n : Nat) (s : State) : State :=
  let l := s.led row
  setLed row { l with adm := (l.adm + n) % 2 ^ 48 } s

def ledDeliver (row n : Nat) (s : State) : State :=
  let l := s.led row
  setLed row { l with deliver := (l.deliver + n) % 2 ^ 48 } s

def ledReturn (row n : Nat) (s : State) : State :=
  let l := s.led row
  setLed row { l with ret := (l.ret + n) % 2 ^ 48 } s

def ledDrop (row reason n : Nat) (s : State) : State :=
  let l := s.led row
  let d := (Sparse.get (fun _ => 0) l.drop reason + n) % 2 ^ 32
  setLed row { l with dropSum := (l.dropSum + n) % 2 ^ 48, drop := Sparse.put (fun _ => 0) l.drop reason d } s

/-- A frame of n copies dropped at the admission point (R214). -/
def ledRefuse (row reason n : Nat) (s : State) : State := s |> ledAdmit row n |> ledDrop row reason n

/-! ### Port statistics (R258, R259): counter k of MAC p -/

/-- The counters of 48 bits. -/
def wideCounter (k : Nat) : Bool := k == 0 || k == 1 || k == 32 || k == 33

def stat (p k n : Nat) (s : State) : State :=
  if wideCounter k then
    let v := (s.reg (Reg.MST_CNT_HI p k)).toNat % 2 ^ 16 * 2 ^ 32 + (s.reg (Reg.MST_CNT_LO p k)).toNat + n
    s |> setR (Reg.MST_CNT_LO p k) (v % 2 ^ 32) |> setR (Reg.MST_CNT_HI p k) (v / 2 ^ 32 % 2 ^ 16)
  else setR (Reg.MST_CNT_LO p k) (((s.reg (Reg.MST_CNT_LO p k)).toNat + n) % 2 ^ 32) s

def stat1 (p k : Nat) (s : State) : State := stat p k 1 s

/-- The size bin of a length with its FCS: 0 to 7. -/
def sizeBin (len : Nat) : Nat :=
  if len ≤ 64 then 0 else if len ≤ 127 then 1 else if len ≤ 255 then 2 else if len ≤ 511 then 3
  else if len ≤ 1023 then 4 else if len ≤ 1518 then 5 else if len ≤ 2047 then 6 else 7

/-- Unicast 0, multicast 1, broadcast 2. -/
def castOf (l : List Byte) : Nat :=
  if frameDst l = broadcastMac then 2 else if isGroup (frameDst l) then 1 else 0

/-- The largest frame a MAC accepts, with its FCS: the set maximum, plus 8 bytes on a trunk line (R127). -/
def maxFrame (s : State) (p : Nat) : Nat :=
  if p < 48 then s.getF (Fld.EPT_MODE_maxfrm p) else 9216 + 8

def tagEtype (s : State) : Nat := s.getF Fld.EPO_ETYPE_tag

/-- Has the frame, as it stands on the line, an 802.1Q tag (after a Backbone Epoch Tag, if any)? -/
def lineVlan (s : State) (l : List Byte) : Bool :=
  hasVlanTag (if (betOf (tagEtype s) l).isSome then removeBet l else l)

/-- Counters of a frame received whole with its FCS checked; l holds the bytes without the FCS. -/
def statRx (p : Nat) (l : List Byte) (fcsOk : Bool) (s : State) : State :=
  let len := l.length + 4
  let s := s |> stat p 0 len |> stat1 p 2
  if len < 64 then stat1 p (if fcsOk then 12 else 13) s
  else if len > maxFrame s p then stat1 p (if fcsOk then 14 else 15) s
  else if fcsOk then
    s |> stat p 1 len |> stat1 p 3 |> stat1 p (4 + castOf l) |> stat1 p (22 + sizeBin len)
      |> whenT (lineVlan s l) (stat1 p 30) |> whenT (decide (48 ≤ p) && (betOf (tagEtype s) l).isSome) (stat1 p 31)
  else stat1 p 10 s

/-- Counters of a frame sent whole. -/
def statTxWhole (p : Nat) (l : List Byte) (s : State) : State :=
  let len := l.length + 4
  s |> stat p 33 len |> stat1 p 34 |> stat1 p (35 + castOf l) |> stat1 p (54 + sizeBin len)
    |> whenT (lineVlan s l) (stat1 p 62) |> whenT (decide (48 ≤ p) && (betOf (tagEtype s) l).isSome) (stat1 p 63)

/-! ### Rates -/

/-- The speed of a trunk line in Mbit/s (R250, R548). -/
def trunkMbps (code : Nat) : Nat := if code = 0 then 10000 else if code = 1 then 5000 else if code = 2 then 2500 else 1000

/-- The speed of an edge port in Mbit/s (R235). -/
def edgeMbps (code : Nat) : Nat := if code = 0 then 10 else if code = 1 then 100 else if code = 2 then 1000 else 2500

/-- The present speed of a MAC. -/
def portMbps (s : State) (p : Nat) : Nat :=
  if p < 48 then edgeMbps (s.getF (Fld.EPT_STATUS_speed p)) else trunkMbps (s.getF (Fld.TPT_STATUS_speed (p - 48)))

/-- CCLK cycles that n bytes take on a line of the given speed: 1.25 ns each. -/
def bytesCycles (mbps n : Nat) : Nat := if mbps = 0 then 0 else ceilDiv (n * 8 * 800) mbps

/-- The port has link. -/
def portLink (s : State) (p : Nat) : Bool :=
  if p < 48 then s.on (Fld.EPT_STATUS_link p) else s.on (Fld.TPT_STATUS_link (p - 48))

/-- The port's STATE (R25): 0 OFF, 1 STARTING, 2 ON, 3 STOPPING. -/
def portState (s : State) (p : Nat) : Nat :=
  if p < 48 then s.getF (Fld.EPT_CTRL_state p) else s.getF (Fld.TPT_CTRL_state (p - 48))

end Sys2Proof.Machine
end

