-- ==== Sys2Proof/Machine/Occupancy.lean ====
section
/-! DEFINITION. What the packet buffer holds and whether it takes more (chapter 06): frames held, occupancy, admission,
flow control requests, captures. A frame is held by its number; its cells, copies and queues are views of the frames
held. -/
namespace Sys2Proof.Machine

def modFab (f : Fabric → Fabric) (s : State) : State := { s with fab := f s.fab }

def portS : Nat := 56
def portH : Nat := 54
def portF : Nat := 55
def portM : Nat := 57

/-! ### Reasons (R212) -/

def Reason.bufLimit : Nat := 1
def Reason.congestion : Nat := 2
def Reason.fcsError : Nat := 3
def Reason.ctAbort : Nat := 4
def Reason.vlanFilter : Nat := 5
def Reason.samePort : Nat := 6
def Reason.unknownDa : Nat := 7
def Reason.noMember : Nat := 8
def Reason.untagged : Nat := 9
def Reason.hopLimit : Nat := 10
def Reason.noRoute : Nat := 11
def Reason.staleNeighbour : Nat := 12
def Reason.orphanRing : Nat := 13
def Reason.linkDown : Nat := 14
def Reason.portStop : Nat := 15
def Reason.excessCollision : Nat := 16
def Reason.lateCollision : Nat := 17
def Reason.fragError : Nat := 18
def Reason.late : Nat := 19
def Reason.ringDiscard : Nat := 20
def Reason.ringDrop : Nat := 21
def Reason.ilgilLink : Nat := 22
def Reason.quarantine : Nat := 23
def Reason.captureFull : Nat := 24
def Reason.uncorrectable : Nat := 25
def Reason.oversize : Nat := 26

/-! ### Frames held -/

def State.frame (s : State) (id : Nat) : Option Frame := Sparse.find s.fab.frames id

/-- The cells that something holds: frames, captures, cells withheld for reclaim, cells on no list. -/
def takenCells (s : State) : List Nat :=
  s.fab.frames.flatMap (fun p => p.2.chain) ++ s.fab.captures.flatMap (fun c => c.chain) ++ s.fab.withheld ++ s.fab.lostCells

/-- The first n free cells. Cells 0 to 115 are the write heads (R203); which free cell is taken next is the model's choice
(assumption log 172). -/
def freshCells (n : Nat) (s : State) : List Nat :=
  let taken := takenCells s
  (((List.range (taken.length + n)).map (· + 116)).filter (fun c => !taken.contains c)).take n

/-- A frame holds one index for each of its cells. -/
def chained (f : Frame) (s : State) : Frame :=
  if f.chain.length < f.cells then { f with chain := f.chain ++ freshCells (f.cells - f.chain.length) s }
  else { f with chain := f.chain.take f.cells }

/-- Cells are written: an error in their data is gone (R589). -/
def wipeCells (l : List Nat) (s : State) : State :=
  modFab (fun x => { x with badWords := x.badWords.filter (fun b => !(b.1 == 0 && l.contains b.2)) }) s

/-- Hold a frame under a number; its new cells are written. -/
def putFrame (id : Nat) (f : Frame) (s : State) : State :=
  let g := chained f s
  let had := ((s.frame id).map (fun x => x.chain)).getD []
  s |> wipeCells (g.chain.filter (fun c => !had.contains c)) |> modFab (fun x => { x with frames := Sparse.ins (Sparse.drop x.frames id) id g })

/-- The data of cell k of a frame has an uncorrectable error (R589). -/
def badCell (s : State) (f : Frame) (k : Nat) : Bool := (f.chain[k]?).any (fun c => s.fab.badWords.contains (0, c))

def modFrame (id : Nat) (g : Frame → Frame) (s : State) : State :=
  match s.frame id with
  | some f => putFrame id (g f) s
  | none => s

def Frame.row (f : Frame) : Nat := ledRow f.inPort f.cls

/-- Hold a new frame under the next number. -/
def holdFrame (f : Frame) (s : State) : State :=
  s |> putFrame s.fab.nextId f |> modFab (fun x => { x with nextId := x.nextId + 1 })

/-! ### Times of frames (R87, R274, R275) -/

def modTim (f : TimeEng → TimeEng) (s : State) : State := { s with tim := f s.tim }

/-- Node time in 2^-16 ns. -/
def State.time16 (s : State) : Int := (s.time / 2 ^ 26 : Nat)

/-- Note the node time and its increment before one of them changes. -/
def noteTime (s : State) : State := modTim (fun x => { x with past := ((s.cycle, (s.time, s.timeInc)) :: x.past).take 64 }) s

/-- Node time, in its own units, a number of stamp units ago: what has changed since is left out. -/
def timeBack (s : State) (back : Nat) : Int :=
  let at_ : Int := ((10 * s.cycle : Nat) : Int) - back
  match (s.tim.past.takeWhile (fun p => decide (at_ ≤ 10 * (p.1 : Int)))).getLast? with
  | some p => (p.2.1 : Int) - (10 * (p.1 : Int) - at_) * p.2.2 / 10
  | none => (s.time : Int) - (back * s.timeInc / 10 : Nat)

def ns16 (t : Int) : Nat := ((t / 65536) % 1000000000).toNat
def sec16 (t : Int) : Nat := (t / 65536000000000 % (2 ^ 48 : Nat)).toNat

/-- The instant at which the first bit of a frame that came `back` units ago crossed the medium side of port p, and at
which one that starts now crosses it: in stamp units since reset (R87, R274, R275). -/
def rxInstant (p back : Nat) (s : State) : Nat := 10 * s.cycle - back - s.getF (Fld.TIM_PORT_LAT_rx p)
def txInstant (p : Nat) (s : State) : Nat := 10 * s.cycle + s.getF (Fld.TIM_PORT_LAT_tx p)

/-- Node time in 2^-16 ns at the medium side of port p, for the instant `at_` of the receive side (R274, R275). -/
def rxTime16 (s : State) (p at_ : Nat) : Int :=
  let lat := s.getF (Fld.TIM_PORT_LAT_rx p)
  timeBack s (10 * s.cycle - at_ - lat) / 2 ^ 26 - (lat * 8192 : Nat)

/-- Cells of a stored frame of len bytes, FCS included (R166). -/
def cellsOf (len : Nat) : Nat := ceilDiv len 128

/-- The stored bytes of a frame with its FCS, once they are all there (R166); the FCS of a frame that ended bad is one that
a receiver rejects. -/
def storedBytes (f : Frame) : List Byte :=
  if f.complete ∨ f.data.length + 4 = f.len then f.data ++ le 4 (if f.bad then 0xFFFFFFFF - crc32 f.data else crc32 f.data)
  else f.data

/-! ### Link words and headers (R167, R168) -/

/-- The link word of cell k of a frame. The next index is undefined in the last cell, and before the next cell is written:
an open value. -/
def Frame.linkWord (f : Frame) (k draw : Nat) : Nat :=
  let last := f.complete && k + 1 == f.cells
  let next := match f.chain[k + 1]? with
    | some c => c
    | none => (Config.free32 draw).toNat % 2 ^ 17
  next + b2n last * 2 ^ 17 + (if last then f.len - 128 * k else 128) * 2 ^ 18 + b2n (last && f.bad) * 2 ^ 26

/-- The frame and the place in it of a cell. -/
def cellOwner (s : State) (i : Nat) : Option (Nat × Nat) :=
  s.fab.frames.findSome? (fun p => (p.2.chain.findIdx? (fun c => c == i)).map (fun k => (p.1, k)))

/-- The dest field of a frame's header: the output of a unicast frame, else its mask of outputs. -/
def Frame.dest (f : Frame) : Nat :=
  let outs := f.copies.map (fun y => if 60 ≤ y.out then portH else y.out)
  if f.multicast then outs.foldl (fun m o => setBit m o true) 0 else outs.headD 0

/-- The frame header (R168). -/
def Frame.header (f : Frame) : Nat :=
  f.inPort * 2 ^ 122 + f.cls * 2 ^ 119 + b2n f.express * 2 ^ 118 + b2n f.cutThrough * 2 ^ 117 + b2n f.multicast * 2 ^ 116 +
    b2n f.tagged * 2 ^ 115 + f.len % 2 ^ 14 * 2 ^ 101 + f.epoch * 2 ^ 93 + f.srcTnn * 2 ^ 87 + f.dstTnn * 2 ^ 81 + f.hops * 2 ^ 75 +
    b2n f.translated * 2 ^ 74 + b2n f.tat * 2 ^ 73 + f.vid * 2 ^ 61 + f.dest

/-! ### Occupancy (R202, R203, R208, R213, R219) -/

def capCells (d : List Byte) : Nat := if d.length ≤ 80 then 1 else 2

/-- Q(p, c): cells held by the row's frames; captures hold theirs at row (57, c). -/
def occupancy (s : State) (row : Nat) : Nat :=
  (s.fab.frames.filter (fun p => p.2.row == row)).foldl (fun n p => n + p.2.cells) 0 +
  (if row / 8 = portM then (s.fab.captures.filter (fun c => c.cls == row % 8)).foldl (fun n c => n + c.chain.length) 0 else 0)

/-- Cells of the row that stand in headroom. -/
def headroomUse (s : State) (row : Nat) : Nat :=
  (s.fab.frames.filter (fun p => p.2.row == row && p.2.headroom)).foldl (fun n p => n + p.2.cells) 0

/-- HELD: copies present for the row. -/
def heldCopies (s : State) (row : Nat) : Nat :=
  (s.fab.frames.filter (fun p => p.2.row == row)).foldl (fun n p => n + p.2.copies.length) 0 +
  (if row / 8 = portM then (s.fab.captures.filter (fun c => c.cls == row % 8)).length else 0)

def modIlg (f : Ilgil → Ilgil) (s : State) : State := { s with ilg := f s.ilg }
def State.ilgPort (s : State) (g : Nat) : IlgPort := Sparse.get (fun _ => IlgPort.empty) s.ilg.ports g
def setIlgPort (g : Nat) (x : IlgPort) (s : State) : State :=
  modIlg (fun i => { i with ports := Sparse.put (fun _ => IlgPort.empty) i.ports g x }) s
def modIlgPort (g : Nat) (f : IlgPort → IlgPort) (s : State) : State := setIlgPort g (f (s.ilgPort g)) s

/-- G(p, c); at an Ilgil port that is not OFF, the value taken at STARTING (R488). -/
def guarantee (s : State) (row : Nat) : Nat :=
  if (row / 8 = 52 ∨ row / 8 = 53) ∧ s.getF (Fld.ILG_PORT_CTRL_state (row / 8 - 52)) ≠ 0 then
    (s.ilgPort (row / 8 - 52)).pool.getD (row % 8) 0
  else s.getF (Fld.BUF_ROW_CFG_min_cells (row / 8) (row % 8))

/-- PFC is on for row (p, c) (R243). -/
def pfcOn (s : State) (row : Nat) : Bool :=
  decide (row / 8 < 48) && (s.getF (Fld.EPT_FC_mode (row / 8)) == 1 || s.getF (Fld.EPT_FC_mode (row / 8)) == 2) &&
    bit (s.getF (Fld.EPT_FC_classes (row / 8))) (row % 8)

def sumBy (l : List Nat) (f : Nat → Nat) : Nat := l.foldl (fun n k => n + f k) 0

/-- The sum of the guarantees, from the rows that differ from the reset guarantee. -/
def totalGuarantee (s : State) : Nat := sumBy (List.range 464) (guarantee s)

/-- Hd. -/
def totalHeadroom (s : State) : Nat :=
  sumBy (List.range 384) (fun r => if pfcOn s r then s.getF (Fld.BUF_CLASS_PFC_headroom (r % 8)) else 0)

/-- The size S of the shared pool (R203). -/
def sharedPool (s : State) : Nat := 98304 - 116 - totalGuarantee s - totalHeadroom s

/-- The rows that hold cells. -/
def usedRows (s : State) : List Nat :=
  ((s.fab.frames.map (fun p => p.2.row)) ++ (s.fab.captures.map (fun c => ledRow portM c.cls))).eraseDups

/-- U: shared cells in use. -/
def sharedUse (s : State) : Nat :=
  (usedRows s).foldl (fun n r => n + (occupancy s r - headroomUse s r - guarantee s r)) 0

/-- D(o, c): cells of class c bound for o that o has not yet taken. -/
def depth (s : State) (o c : Nat) : Nat :=
  s.fab.frames.foldl (fun n p =>
    if p.2.cls = c then
      n + (p.2.copies.filter (fun y => y.out == o && y.stage == .input)).foldl (fun m y => m + (p.2.cells - y.pos)) 0
    else n) 0

/-- The lowest copy position of a frame: cells below it have been taken by every output. -/
def Frame.taken (f : Frame) : Nat := f.copies.foldl (fun m y => min m y.pos) f.cells

def cellsQueued (s : State) : Nat := s.fab.frames.foldl (fun n p => n + (p.2.cells - p.2.taken)) 0
def cellsTransit (s : State) : Nat :=
  s.fab.frames.foldl (fun n p => n + p.2.taken) 0 + s.fab.captures.foldl (fun n c => n + c.chain.length) 0
def cellsReserved (s : State) : Nat := 116 + s.fab.withheld.length
def cellsFree (s : State) : Nat :=
  98304 - cellsQueued s - cellsTransit s - cellsReserved s - s.fab.lostCells.length

/-! ### Admission (R204) -/

/-- How a frame fares at the admission checks. -/
inductive Verdict where
  | take | headroom | refuse
  deriving DecidableEq, Repr

/-- The dynamic threshold passes: Q - G < alpha × (S - U), with alpha = 2^(a - 4). -/
def underThreshold (s : State) (row q : Nat) : Bool :=
  decide ((q - guarantee s row) * 16 < 2 ^ s.getF (Fld.BUF_ROW_CFG_alpha (row / 8) (row % 8)) * (sharedPool s - sharedUse s))

def backPressure (s : State) (c : Nat) : Bool := s.getF (Fld.BUF_CLASS_behaviour c) == 2

def admitCheck (s : State) (row : Nat) : Verdict :=
  let q := occupancy s row
  if q < guarantee s row then .take
  else if underThreshold s row q then .take
  else if backPressure s (row % 8) ∧ pfcOn s row ∧
      headroomUse s row < s.getF (Fld.BUF_CLASS_PFC_headroom (row % 8)) then .headroom
  else .refuse

/-! ### Flow control requests (R210, R245) -/

/-- An edge port with link in half duplex. -/
def isHalf (s : State) (p : Nat) : Bool := decide (p < 48) && s.on (Fld.EPT_STATUS_link p) && !s.on (Fld.EPT_STATUS_duplex p)

/-- The flow control of a port: none on a trunk line and in half duplex (R241, R254). -/
def fcMode (s : State) (p : Nat) : Nat := if p < 48 ∧ !isHalf s p then s.getF (Fld.EPT_FC_mode p) else 0

/-- The classes of a port that flow control covers and whose row is XOFF. -/
def xoffClasses (s : State) (p : Nat) : List Nat :=
  (List.range 8).filter (fun c => bit (s.getF (Fld.EPT_FC_classes p)) c && s.fab.xoffRows.contains (ledRow p c))

/-- Ask the port MAC for a flow control frame: the classes whose XON causes it are kept (R245). No request is sent while the
link is down. -/
def fcRequest (p xonBits : Nat) (s : State) : State :=
  if !portLink s p then s
  else
    let bits := Sparse.get (fun _ => 0) s.mac.fcWait p ||| xonBits
    { s with mac := { s.mac with fcWait := Sparse.ins (Sparse.drop s.mac.fcWait p) p bits } }

/-- A row is asked to be XOFF: in PFC mode each request sends a frame, in PAUSE mode that of the first row (R210, R245). -/
def xoffRequest (row : Nat) (s : State) : State :=
  let p := row / 8
  let first := (xoffClasses s p).isEmpty && bit (s.getF (Fld.EPT_FC_classes p)) (row % 8)
  let s := if s.fab.xoffRows.contains row then s else modFab (fun x => { x with xoffRows := x.xoffRows ++ [row] }) s
  if fcMode s p = 2 ∨ (fcMode s p = 1 ∧ first) then fcRequest p 0 s else s

/-- XON for each row whose occupancy has fallen far enough (R210); in PAUSE mode the last one sends a frame (R245). -/
def xonCheck (s : State) : State :=
  each s.fab.xoffRows (fun row t =>
    let p := row / 8
    let gap := t.getF (Fld.BUF_CLASS_PFC_xon_gap (row % 8))
    if (occupancy t row + gap) * 16 ≤
        guarantee t row * 16 + 2 ^ t.getF (Fld.BUF_ROW_CFG_alpha p (row % 8)) * (sharedPool t - sharedUse t) ∨ !pfcOn t row then
      let t := modFab (fun x => { x with xoffRows := x.xoffRows.filter (· != row) }) t
      if fcMode t p = 2 ∨ (fcMode t p = 1 ∧ (xoffClasses t p).isEmpty) then fcRequest p (2 ^ (row % 8)) t else t
    else t) s

/-! ### Captures (R226, R227) -/

def frameEtype (l : List Byte) : Nat := etherType l

/-- The lowest filter that matches at a point. -/
def matchFilter (s : State) (point port cls etype reason : Nat) : Option Nat :=
  if !s.on Fld.MIR_CTRL_enable then none
  else
    (List.range 16).find? (fun k =>
      let fp := s.getF (Fld.MIR_FILTER_port k)
      let fr := s.getF (Fld.MIR_MATCH_reason k)
      let fe := s.getF (Fld.MIR_MATCH_ethertype k)
      s.on (Fld.MIR_FILTER_enable k) && s.getF (Fld.MIR_FILTER_point k) == point && (fp == port || fp == 63) &&
        bit (s.getF (Fld.MIR_FILTER_class_mask k)) cls && (fe == 0 || fe == etype) &&
        (point != 2 || fr == 0 || fr == reason))

/-- The output that a trailer names: an orphan goes to port H. -/
def shownOut (out : Nat) : Nat := if out = 60 ∨ out = 61 then portH else out

/-- What filter k captures of a frame (R227): its first stored bytes and the trailer. -/
def captureBytes (point k : Nat) (f : Frame) (out reason : Nat) (s : State) : List Byte :=
  let size := if s.on (Fld.MIR_FILTER_len128 k) then 128 else 64
  let sec := if point = 0 then f.inSec else s.timeSec
  let ns := if point = 0 then f.inNs else s.timeNs
  slice (storedBytes f) 0 size ++ le 4 sec ++ le 4 ns ++
    [byte (point * 64 + f.inPort), byte (b2n (decide (1 < s.getF (Fld.MIR_SAMPLE_n k))) * 128 + shownOut out),
      byte (f.cls * 32 + reason), byte (b2n (s.on Fld.BUF_AUDIT_STATUS_fault) * 128 + k)] ++
    le 2 f.len ++ le 2 (min 0xFFFF (heldCopies s f.row))

/-- A copy passes a capture point (R226): the match count of the filter that decides advances, and every n-th match is
captured, at most once for a frame at each point; the capture is admitted at row (57, c) (R217). -/
def captureF (point : Nat) (f : Frame) (out reason : Nat) (s : State) : Frame × State :=
  match matchFilter s point (if point = 1 then out else f.inPort) f.cls (frameEtype f.data) reason with
  | none => (f, s)
  | some k =>
    let n := Sparse.get (fun _ => 0) s.fab.mirCount k + 1
    let s := modFab (fun x => { x with mirCount := Sparse.put (fun _ => 0) x.mirCount k n }) s
    if bit f.caps point ∨ n % max 1 (s.getF (Fld.MIR_SAMPLE_n k)) ≠ 0 then (f, s)
    else
      let row := ledRow portM f.cls
      let s := count (Reg.MIR_HITS k) s
      match admitCheck s row with
      | .refuse => (f, s |> ledRefuse row Reason.bufLimit 1 |> count Reg.MIR_CAPTURE_LOST)
      | _ =>
        let l := captureBytes point k f out reason s
        let chain := freshCells (capCells l) s
        ({ f with caps := setBit f.caps point true }, s |> ledAdmit row 1 |> wipeCells chain |> modFab (fun x =>
          { x with captures := x.captures ++ [{ ring := s.getF (Fld.MIR_FILTER_ring k), cls := f.cls, data := l, chain := chain }] }))

/-- The same for a frame that is not held. -/
def capture (point : Nat) (f : Frame) (out reason : Nat) (s : State) : State := (captureF point f out reason s).2

def captureOnce (point id out reason : Nat) (s : State) : State :=
  match s.frame id with
  | none => s
  | some f =>
    let r := captureF point f out reason s
    if r.1.caps = f.caps then r.2 else putFrame id r.1 r.2

end Sys2Proof.Machine
end

