-- ==== Sys2Proof/Machine/Spire.lean ====
section
/-! DEFINITION. Spire (chapter 03) and the epoch state that a switch changes (chapter 04): lines, BEACONs, summaries,
COUNT and COMMIT frames, switches, aborts, compatibility mode, rosters, the renumbering map, grace. Directions are
numbered 0 and 1 for direction 1 and direction 2; line n is T1A, T1B, T2A, T2B, port 48 + n. -/
namespace Sys2Proof.Machine

/-! ### Codes -/

def Ln.down : Nat := 0
def Ln.probing : Nat := 1
def Ln.up : Nat := 2
def Ln.lost : Nat := 3
def Ln.mismatch : Nat := 4

/-- The states of R112. -/
def Fsm.off : Nat := 0
def Fsm.gather : Nat := 1
def Fsm.settle : Nat := 2
def Fsm.wait : Nat := 3
def Fsm.switch : Nat := 4
def Fsm.stable : Nat := 5
def Fsm.backoff : Nat := 6
def Fsm.compat : Nat := 7

/-- H in CCLK cycles and in stamp units. -/
def hCycles : Nat := 3200
def hStamps : Nat := 32000

/-! ### Access -/

def State.line (s : State) (n : Nat) : SprLine := Sparse.get (fun _ => SprLine.empty) s.spr.lines n
def State.dir (s : State) (d : Nat) : SprDir := Sparse.get (fun _ => SprDir.empty) s.spr.dirs d

def setLine (n : Nat) (l : SprLine) (s : State) : State :=
  { s with spr := { s.spr with lines := Sparse.put (fun _ => SprLine.empty) s.spr.lines n l } }

def setDir (d : Nat) (x : SprDir) (s : State) : State :=
  { s with spr := { s.spr with dirs := Sparse.put (fun _ => SprDir.empty) s.spr.dirs d x } }

def modLine (n : Nat) (f : SprLine → SprLine) (s : State) : State := setLine n (f (s.line n)) s
def modDir (d : Nat) (f : SprDir → SprDir) (s : State) : State := setDir d (f (s.dir d)) s

def lstate (s : State) (n : Nat) : Nat := s.getF (Fld.SPR_LINE_STATUS_lstate n)
def isUp (s : State) (n : Nat) : Bool := lstate s n == Ln.up
def dirOf (n : Nat) : Nat := n / 2
def dirLines (d : Nat) : List Nat := [2 * d, 2 * d + 1]
def upLines (s : State) (d : Nat) : List Nat := (dirLines d).filter (isUp s)
def dirUp (s : State) (d : Nat) : Bool := !(upLines s d).isEmpty
def fsm (s : State) : Nat := s.getF Fld.SPR_STATUS_fsm

/-- Spire runs: its STATE is ON (R114). -/
def spireOn (s : State) : Bool := s.getF Fld.SPR_CTRL_state == 2

def liveEpoch (s : State) : Nat := s.getF Fld.SPR_EPOCH_live
def prevEpoch (s : State) : Nat := s.getF Fld.SPR_EPOCH_previous
def liveTnn (s : State) : Nat := s.getF Fld.SPR_STATUS_tnn
def liveN (s : State) : Nat := s.getF Fld.SPR_STATUS_n
def liveDigest (s : State) : Nat := (s.reg Reg.SPR_DIGEST).toNat
def graceOn (s : State) : Bool := s.on Fld.EPO_STATUS_grace
def leadOn (s : State) : Bool := s.on Fld.SPR_STATUS_lead

/-- Compatibility mode is active (R112, R118). -/
def inCompat (s : State) : Bool := fsm s == Fsm.compat

/-- The line of a direction that entered UP first (R79, R99). -/
def firstUp (s : State) (d : Nat) : Option Nat :=
  let at_ := fun n => Sparse.get (fun _ => 0) s.fab.upSince n
  (upLines s d).foldl (fun o n => match o with
    | none => some n
    | some m => if at_ n < at_ m then some n else some m) none

/-- The link delay of the direction's first UP line, 0 when it has no sample. -/
def dirDelay (s : State) (d : Nat) : Nat :=
  match firstUp s d with
  | some n => s.getF (Fld.SPR_LINK_DELAY_delay n)
  | none => 0

/-! ### Topology digest (R98) -/

def digestOf (id : Nat) : Nat := crcFeed 3 0 (be 8 id)
def digestAdd (r id : Nat) : Nat := crcFeed 3 r (be 8 id)

/-! ### Frames (R82 to R86) -/

/-- Pad a frame to 60 bytes, 64 with its FCS. -/
def pad60 (l : List Byte) : List Byte := l ++ zeros (60 - l.length)

def spireMac : Nat := 0x03594D535000
def rosterMac : Nat := 0x03594D535001

/-- A frame of port S for a trunk line: put to the checks of R204 at row (S, class), then held, to cross in tier X and leave
by the express queue of the line (R82, R183, R206). `mark`: the stamp from which what is filled in at its start is measured. -/
def sendFromS (line cls mark : Nat) (l : List Byte) (s : State) : State :=
  let f : Frame := { Frame.empty with
    data := l, len := l.length + 4, inPort := portS, cls := cls, express := true, cells := cellsOf (l.length + 4), complete := true, spireFrame := true,
    inSec := s.timeSec % 2 ^ 32, inNs := s.timeNs, inStamp := mark % 2 ^ 32, gDest := 0x1FF,
    copies := [{ out := 48 + line, pos := 0, stage := .input, arg := 0, ring := 0 }] }
  match admitCheck s f.row with
  | .refuse => s |> capture 2 f (48 + line) Reason.bufLimit |> ledRefuse f.row Reason.bufLimit 1
  | _ =>
    let c := captureF 0 f 63 0 (ledAdmit f.row 1 s)
    holdFrame c.1 c.2

/-- A frame that port p brings for port S, its first bit at the instant `at_`. -/
def frameToS (p cls at_ : Nat) (l : List Byte) (s : State) : Frame :=
  let t := rxTime16 s p at_
  { Frame.empty with
    data := l, len := l.length + 4, inPort := p, cls := cls, express := true, cells := cellsOf (l.length + 4), complete := true,
    inStamp := at_ % 2 ^ 32, inTime := t, inSec := sec16 t % 2 ^ 32, inNs := ns16 t, timeFrame := decide (cls = 6), gDest := 0x1FF }

/-- The MAC counts a frame for port S, which on a trunk line came express (R183, R258). -/
def sawForS (p : Nat) (l : List Byte) (s : State) : State := s |> statRx p l true |> whenT (decide (48 ≤ p)) (stat1 p 20)

/-- A frame for port S: admitted and delivered at row (p, class), or refused there (R82, R158, R204); whether it was taken. It
reaches S in the cycle in which it is taken: the cell times of its way through tier X are left out (assumption log 171). -/
def takeToS (p cls at_ : Nat) (l : List Byte) (s : State) : Bool × State :=
  let s := sawForS p l s
  let f := frameToS p cls at_ l s
  match admitCheck s f.row with
  | .refuse => (false, s |> capture 2 f portS Reason.bufLimit |> ledRefuse f.row Reason.bufLimit 1)
  | _ =>
    let c := captureF 0 f 63 0 (ledAdmit f.row 1 s)
    (true, c.2 |> capture 1 c.1 portS 0 |> ledDeliver f.row 1)

/-- The 16-byte head of R83. -/
def spireHead (s : State) (line type flags seq : Nat) : List Byte :=
  [byte (0x10 + type), byte flags] ++ be 2 seq ++ be 8 s.nodeId ++ [byte line, byte (liveEpoch s)] ++ zeros 2

def spireFrame (s : State) (line : Nat) (payload : List Byte) : List Byte :=
  pad60 (be 6 spireMac ++ be 6 (s.macOf (48 + line)) ++ be 2 (s.getF Fld.SPR_ETYPE_ethertype) ++ payload)

/-! ### compat_dist (R119) -/

/-- When the hold of the last HELLO ends, in the cycle in which it began plus hold_s. -/
def holdEnd (s : State) : Option Nat := s.spr.helloLast.map (fun t => t + s.getF Fld.SPR_COMPAT_TIMING_hold_s * cyclesPerS)

def compatDist (s : State) : Nat :=
  match s.spr.helloLast with
  | some _ => 0
  | none => ((List.range 4).filter (isUp s)).foldl (fun m n => min m (min 63 ((s.line n).compatDist + 1))) 63

/-! ### Sending BEACONs (R84, R90) -/

/-- Send a BEACON on a line; its stamps are filled in as it starts (`startBeacon`). -/
def sendBeacon (leaving answer : Bool) (n : Nat) (s : State) : State :=
  let l := s.line n
  let flags := b2n l.rx.isSome + 2 * b2n (leadOn s) + 4 * b2n leaving + 8 * b2n answer
  let echo := (l.rx.map (fun r => r.1)).getD 0
  let payload := spireHead s n 1 flags l.nextSeq ++ zeros 4 ++ be 2 echo ++
    [byte (compatDist s), byte (liveTnn s)] ++ zeros 4 ++ be 4 (liveDigest s)
  s |> sendFromS n 7 ((l.rx.map (fun r => r.2.1)).getD 0) (spireFrame s n payload)
    |> modLine n (fun x => { x with nextSeq := (x.nextSeq + 1) % 2 ^ 16 })

/-- A BEACON starts (R84, R87): tx_stamp and turnaround are filled in, and the stamp is kept so that its echo can be told. -/
def startBeacon (n mark : Nat) (l : List Byte) (s : State) : List Byte × State :=
  let tx := txInstant (48 + n) s % 2 ^ 32
  let turn := if bit (beAt l 15 1) 0 then (tx + 2 ^ 32 - mark) % 2 ^ 32 else 0
  (patch (patch l 30 (be 4 tx)) 38 (be 4 turn),
   modLine n (fun x => { x with sent := ((beAt l 16 2, tx) :: x.sent).take 256, recent := min 256 (x.recent + 1) }) s)

/-- A COMMIT starts (R104): what it is later than r + H, beyond 3.2 ns, is added to its slip. -/
def lateCommit (n mark : Nat) (l : List Byte) (s : State) : List Byte :=
  let late := (txInstant (48 + n) s + 2 ^ 32 - mark) % 2 ^ 32
  if late < 26 ∨ 2 ^ 31 ≤ late then l else patch l 50 (be 4 (beAt l 50 4 + late))

/-- What is filled in as a Spire frame starts. -/
def startSpireFrame (n mark : Nat) (l : List Byte) (s : State) : List Byte × State :=
  if frameDst l ≠ spireMac ∨ etherTypeAt l 12 ≠ s.getF Fld.SPR_ETYPE_ethertype then (l, s)
  else match beAt l 14 1 % 16 with
    | 1 => startBeacon n mark l s
    | 3 => (lateCommit n mark l s, s)
    | _ => (l, s)

/-- The link-up BEACON; the periodic ones follow every 80,000 cycles (R90). -/
def linkUpBeacon (n : Nat) (s : State) : State :=
  s |> modLine n (fun l => { l with nextAt := some (s.cycle + 80000) }) |> sendBeacon false false n

/-! ### Currency of the neighbours (R150, R151) -/

def currentBy (s : State) (d : Nat) : Bool :=
  let r := (s.dir d).report
  dirUp s d &&
    ((liveEpoch s != 0 && r.1 == liveEpoch s && r.2 == liveDigest s) ||
     (graceOn s && prevEpoch s != 0 && r.1 == prevEpoch s && r.2 == s.spr.prevDigest) ||
     (match s.spr.accepted with
      | some a => r.1 == a.newEpoch && r.2 == a.digest
      | none => false))

def fldDirCurrent (d : Nat) : Fld :=
  if d = 0 then Fld.EPO_DIR_STATE_dir1_current else Fld.EPO_DIR_STATE_dir2_current

def fldDirEpoch (d : Nat) : Fld := if d = 0 then Fld.EPO_DIR_STATE_dir1_epoch else Fld.EPO_DIR_STATE_dir2_epoch

def isCurrent (s : State) (d : Nat) : Bool := s.on (fldDirCurrent d)

/-- EPO_DIR_STATE follows the reports; an up direction that becomes not current raises stale_neighbour (R151). -/
def judgeDir (d : Nat) (s : State) : State :=
  let was := isCurrent s d
  let now := currentBy s d
  s |> setF (fldDirCurrent d) (b2n now) |> setF (fldDirEpoch d) (s.dir d).report.1
    |> whenT (was && !now && dirUp s d) (latch Fld.EPO_EVENT_stale_neighbour)

def judgeDirs (s : State) : State := s |> judgeDir 0 |> judgeDir 1

def report (d epoch digest : Nat) (s : State) : State :=
  s |> modDir d (fun x => { x with report := (epoch, digest) }) |> judgeDir d

/-! ### Rosters (R138 to R142) -/

def rosterFrame (s : State) (line : Nat) (e : RosterEntry) : List Byte :=
  pad60 (be 6 rosterMac ++ be 6 (s.macOf (48 + line)) ++ be 2 (s.getF Fld.EPO_ETYPE_roster) ++
    [byte 0x11, byte e.hops] ++ be 2 e.seq ++ be 8 e.origin ++ [byte e.epoch, byte e.tnn] ++ zeros 2 ++ be 4 e.digest)

def queueRoster (d : Nat) (l : List RosterEntry) (s : State) : State :=
  modDir d (fun x => { x with roster := x.roster ++ l }) s

/-- The own entry toward a direction (R139); in COMPAT none is sent (R160). Each entry sent takes the next seq, so a switch with
two directions up takes two (DESIGN CHOICE, assumption log 177). -/
def ownEntry (d : Nat) (s : State) : State :=
  if inCompat s ∨ !dirUp s d then s
  else
    let e : RosterEntry := { hops := 1, seq := s.spr.rosterSeq % 2 ^ 16, origin := s.nodeId, epoch := liveEpoch s,
                             tnn := liveTnn s, digest := liveDigest s }
    let s := queueRoster d [e] s
    { s with spr := { s.spr with rosterSeq := s.spr.rosterSeq + 1 } }

/-- Re-send toward a direction that came up every entry held for the opposite one, in hop order (R139). -/
def resendRoster (d : Nat) (s : State) : State :=
  if inCompat s then s
  else queueRoster d (((s.dir (1 - d)).far.filter (fun p => p.1 < 62)).map (fun p => { p.2 with hops := p.1 + 1 })) s

/-- The far roster of an up direction is complete (R142). -/
def rosterComplete (s : State) (d : Nat) : Bool :=
  match (s.dir d).held with
  | none => false
  | some h => (List.range h.hops).all (fun k => (Sparse.find (s.dir d).far (k + 1)).isSome)

/-! ### Summaries and COUNT frames (R95 to R97) -/

/-- The outgoing summary toward direction d (R95). -/
def outgoing (s : State) (d : Nat) : Option Summary :=
  let o := 1 - d
  if !dirUp s o then
    some { origin := s.nodeId, hops := 1, maxEpoch := liveEpoch s, delay := 0, digest := digestOf s.nodeId,
           lead := b2n (leadOn s), overflow := false }
  else
    (s.dir o).held.map (fun h =>
      { origin := h.origin, hops := min 63 (h.hops + 1), maxEpoch := max h.maxEpoch (liveEpoch s),
        delay := (h.delay + dirDelay s o) % 2 ^ 32, digest := digestAdd h.digest s.nodeId,
        lead := (setBit h.lead h.hops (leadOn s)) % 2 ^ 64, overflow := h.overflow || decide (h.hops + 1 ≥ 64) })

/-- Two summaries tell the same; lead_map counts only in bit 0 and only with lead_renumber (R96, R97). -/
def sameSummary (s : State) (a b : Summary) : Bool :=
  decide ({ a with lead := 0 } = { b with lead := 0 }) &&
    !(s.on Fld.SPR_CTRL_lead_renumber && bit a.lead 0 != bit b.lead 0)

/-- Owe a COUNT toward each up direction whose outgoing summary has changed, or that forwards a restart (R96). -/
def oweCount (d : Nat) (s : State) : State :=
  if fsm s = Fsm.off ∨ fsm s = Fsm.backoff ∨ fsm s = Fsm.compat ∨ !dirUp s d then s
  else
    match outgoing s d with
    | none => s
    | some o =>
      let changed := match (s.dir d).sent with
        | none => true
        | some p => !sameSummary s o p
      if changed || (s.dir d).restart then modDir d (fun x => { x with owed := true }) s else s

def oweCounts (s : State) : State := s |> oweCount 0 |> oweCount 1

/-- A COUNT is due toward direction d: owed, with the direction up, and not in BACKOFF or COMPAT (R96, R111). -/
def countDue (s : State) (d : Nat) : Bool :=
  (s.dir d).owed && spireOn s && dirUp s d && !(fsm s == Fsm.off || fsm s == Fsm.backoff || fsm s == Fsm.compat)

/-- The COUNT that is owed to direction d leaves on its UP lines (R96). -/
def sendCount (d : Nat) (s : State) : State :=
  if !countDue s d then s else
  match outgoing s d with
  | none => s
  | some o =>
    let x := s.dir d
    let seq := match x.seq with
      | none => 0
      | some q => (q + 1) % 2 ^ 16
    let body := be 8 o.origin ++ [byte o.hops, byte o.maxEpoch] ++ zeros 2 ++ be 4 o.delay ++ be 4 o.digest ++ be 8 o.lead
    let s := each (upLines s d) (fun n t =>
      sendFromS n 7 0 (spireFrame t n (spireHead t n 2 (b2n x.restart + 2 * b2n o.overflow) seq ++ body)) t) s
    modDir d (fun x => { x with sent := some o, seq := some seq, owed := false, restart := false }) s

/-! ### The view (R99, R100) -/

structure View where
  n : Nat
  tnn : Nat
  /-- direction of the reference end: 0 none (this node), 1, 2 -/
  refDir : Nat
  reference : Nat
  clash : Bool
  overflow : Bool
  leadConflict : Bool
  newEpoch : Nat
  /-- distance to the end away from the reference end -/
  farDist : Nat
  /-- train digest, known at the reference end -/
  digest : Nat
  leadMap : Nat
  deriving DecidableEq, Repr

def heldUp (s : State) (d : Nat) : Option Summary := if dirUp s d then (s.dir d).held else none

/-- The view is complete: each up direction has given a COUNT since it came up. -/
def viewComplete (s : State) : Bool :=
  (!dirUp s 0 || (s.dir 0).held.isSome) && (!dirUp s 1 || (s.dir 1).held.isSome)

/-- LEADs by TNN from a summary: hops from its origin k stands at TNN k + 1 toward the reference end, or at N - k. -/
def spreadLead (map hops : Nat) (tnnOf : Nat → Nat) : Nat :=
  (List.range (min hops 63)).foldl (fun m k =>
    if bit map k ∧ 0 < tnnOf k ∧ tnnOf k < 64 then setBit m (tnnOf k) true else m) 0

/-- The view of the summaries held (R98 to R101). With equal identities and equal LEADs at both ends of a train of more than
one node, direction 1's end counts as the reference end, so the other end of the train may be the one that flags the clash
(DESIGN CHOICE, assumption log 177: R100 orders such ends by nothing). -/
def viewOf (s : State) : Option View :=
  if !viewComplete s then none
  else
    let own := s.nodeId
    let h0 := heldUp s 0
    let h1 := heldUp s 1
    let hops := fun (h : Option Summary) => (h.map (fun x => x.hops)).getD 0
    let endId := fun (h : Option Summary) => (h.map (fun x => x.origin)).getD own
    let endLead := fun (h : Option Summary) => (h.map (fun x => bit x.lead 0)).getD (leadOn s)
    let n := hops h0 + hops h1 + 1
    let pick0 := if endLead h0 != endLead h1 then endLead h0 else decide (endId h0 ≤ endId h1)
    let side := if pick0 then h0 else h1
    let refDir : Nat := if side.isNone then 0 else if pick0 then 1 else 2
    let far := if refDir = 1 then h1 else if refDir = 2 then h0 else if h0.isSome then h0 else h1
    let farDir := if refDir = 1 then 1 else if refDir = 2 then 0 else if h0.isSome then 0 else 1
    let mx := max (liveEpoch s) (max ((h0.map (fun x => x.maxEpoch)).getD 0) ((h1.map (fun x => x.maxEpoch)).getD 0))
    let tnn := (if refDir = 0 then 0 else hops side) + 1
    let lead := spreadLead (b2n (leadOn s)) 1 (fun _ => tnn) |||
      (if refDir = 0 then 0 else spreadLead ((side.map (fun x => x.lead)).getD 0) (hops side) (fun k => k + 1)) |||
      spreadLead ((far.map (fun x => x.lead)).getD 0) (hops far) (fun k => n - k)
    some { n := n, tnn := tnn, refDir := refDir, reference := if refDir = 0 then own else endId side,
           clash := decide (1 < n) && decide (endId h0 = endId h1),
           overflow := decide (63 < n) || ((h0.map (fun x => x.overflow)).getD false) ||
             ((h1.map (fun x => x.overflow)).getD false),
           leadConflict := decide (1 < n) && endLead h0 && endLead h1,
           newEpoch := if mx ≥ 255 then 1 else mx + 1,
           farDist := match far with
             | none => 0
             | some h => (h.delay + dirDelay s farDir) % 2 ^ 32,
           digest := match far with
             | none => digestOf own
             | some h => digestAdd h.digest own,
           leadMap := lead }

/-! ### The state machine (R113) -/

def setFsm (f : Nat) (s : State) : State :=
  let s := s |> setF Fld.SPR_STATUS_fsm f |> setF Fld.SPR_STATUS_compat_active (b2n (f == Fsm.compat))
  { s with spr := { s.spr with settleEnd := none, waitEnd := none, backoffEnd := none } }

/-- SPR_STATUS.end1, end2 and ref as the view stands: ref shows the live numbering's reference end (TNN 1). -/
def showEnds (s : State) : State :=
  s |> setF Fld.SPR_STATUS_end1 (b2n (spireOn s && !dirUp s 0)) |> setF Fld.SPR_STATUS_end2 (b2n (spireOn s && !dirUp s 1))

/-- From GATHER with a complete view: SETTLE at the reference end, WAIT elsewhere (R102, R113). -/
def settleView (s : State) : State :=
  if fsm s ≠ Fsm.gather then s
  else
    match viewOf s with
    | none => s
    | some v =>
      if v.refDir = 0 then
        let s := setFsm Fsm.settle s
        { s with spr := { s.spr with settleEnd := some (s.cycle + s.getF Fld.SPR_CTRL_settle_us * cyclesPerUs) } }
      else
        let s := setFsm Fsm.wait s
        { s with spr := { s.spr with waitEnd := some (s.cycle + 2 * cyclesPerMs) } }

/-- A view change (R97, R108, R113). -/
def viewChange (s : State) : State :=
  let s := s |> latch Fld.SPR_EVENT_view_change |> showEnds
  let f := fsm s
  if f = Fsm.switch then oweCounts { s with spr := { s.spr with changePending := true } }
  else if f = Fsm.gather ∨ f = Fsm.settle ∨ f = Fsm.wait ∨ f = Fsm.stable then
    s |> setFsm Fsm.gather |> oweCounts |> settleView
  else s

/-! ### Line states (R78, R79, R91, R92) -/

/-- Record a change of line state (R125): the event, the SPIRE_LINE record, and fast HELLOs in COMPAT (R116). -/
def putLstate (n st cause : Nat) (s : State) : State :=
  if lstate s n = st then s
  else
    let was := lstate s n
    let s := s |> setF (Fld.SPR_LINE_STATUS_lstate n) st |> latch Fld.SPR_EVENT_line_change |> record 0x22 [n, st, cause]
    let s := setF (Fld.SPR_LINE_STATUS_used n) (b2n (st == Ln.up)) s
    let s := if st = Ln.up then
        later (.lineUp n) { s with fab := { s.fab with upSince := Sparse.put (fun _ => 0) s.fab.upSince n s.cycle } }
      else if was = Ln.up then later (.lineLeft n (st == Ln.down)) s else s
    let fast := s.getF Fld.SPR_COMPAT_TIMING_fast_count
    let at_ := if inCompat s ∧ fast ≠ 0 then s.cycle + s.getF Fld.SPR_COMPAT_TIMING_fast_ms * cyclesPerMs else s.spr.helloAt
    { s with spr := { s.spr with helloFast := fast, helloAt := at_ } }

/-- Entering PROBING or LOST clears the samples; an echo of a BEACON sent before no longer confirms the line (R91, R93). -/
def freshExchange (n : Nat) (s : State) : State :=
  s |> setF (Fld.SPR_LINK_DELAY_samples n) 0 |> setF (Fld.SPR_LINK_DELAY_delay n) 0
    |> modLine n (fun l => { l with recent := 0, samples := [], due := none })

/-- The direction has gone down: what was held from it is forgotten (R97, R140). -/
def forgetDir (d : Nat) (s : State) : State :=
  modDir d (fun x => { x with nbr := none, held := none, lastSeq := none, sent := none, owed := false, report := (0, 0),
                              far := [], roster := [] }) s

/-- A line becomes UP, or MISMATCH when the direction's neighbour is another (R79). A direction that comes up records
its neighbour and what the neighbour's last BEACON said (R150), sends its own ROSTER entry and re-sends what the other direction holds (R139). -/
def lineConfirmed (n : Nat) (s : State) : State :=
  let d := dirOf n
  let peer := (s.line n).peer.getD 0
  let wasUp := dirUp s d
  if wasUp ∧ (s.dir d).nbr ≠ some peer then
    if lstate s n = Ln.mismatch then s
    else s |> putLstate n Ln.mismatch 0 |> latch Fld.SPR_EVENT_mismatch
  else
    let s := putLstate n Ln.up 0 s
    if wasUp then s
    else
      s |> modDir d (fun x => { x with nbr := some peer, fresh := true, report := (s.line n).said }) |> ownEntry d |> resendRoster d
        |> judgeDir d |> viewChange

/-- A line is lost or goes down (R79, R92): when its direction goes down, a MISMATCH line of it becomes UP at once. -/
def dropLine (n st cause : Nat) (s : State) : State :=
  let d := dirOf n
  let wasUp := dirUp s d
  let s := s |> setF (Fld.SPR_LINE_STATUS_cause n) cause |> putLstate n st cause |> freshExchange n
  if wasUp ∧ !dirUp s d then
    let s := s |> forgetDir d |> judgeDir d
    match (dirLines d).filter (fun m => lstate s m == Ln.mismatch) with
    | m :: _ => lineConfirmed m s
    | [] => viewChange s
  else s

/-- Is a line's loss watched: UP or MISMATCH? -/
def watched (s : State) (n : Nat) : Bool := isUp s n || lstate s n == Ln.mismatch

/-! ### Link delay samples (R93) -/

/-- Nearest integer to a/b, for b > 0. -/
def nearest (a : Int) (b : Nat) : Int := (2 * a + b) / (2 * b : Nat)

/-- The mean of a line's samples, in SPR_LINK_DELAY (rounding: assumption log 7). -/
def showDelay (n : Nat) (s : State) : State :=
  let l := (s.line n).samples
  s |> setF (Fld.SPR_LINK_DELAY_samples n) l.length
    |> setF (Fld.SPR_LINK_DELAY_delay n) (if l = [] then 0 else (2 * l.sum + l.length) / (2 * l.length) % 2 ^ 24)

/-- Add the sample of a BEACON that echoes an own one sent at t1, received at t4, with the given turnaround; a negative
one is stored as 0, for which the spec gives no floor (DESIGN CHOICE, assumption log 7). -/
def delaySample (n t1 t4 turn : Nat) (s : State) : State :=
  let span : Nat := (t4 + 2 ^ 32 - t1) % 2 ^ 32
  let d : Int := match (s.line n).periodic with
    | a :: b :: _ =>
      let dr : Nat := (a.1 + 2 ^ 32 - b.1) % 2 ^ 32
      let dt : Nat := (a.2 + 2 ^ 32 - b.2) % 2 ^ 32
      if dt = 0 then nearest ((span : Int) - turn) 2
      else nearest (((span * dt : Nat) : Int) - ((dr * turn : Nat) : Int)) (2 * dt)
    | _ => nearest ((span : Int) - turn) 2
  s |> modLine n (fun l => { l with samples := (d.toNat :: l.samples).take 8 }) |> showDelay n

/-! ### Compatibility mode (R118 to R120) -/

/-- In COMPAT every map entry but entry 0 is NONE (R160). -/
def clearMap (s : State) : State :=
  each (List.range 64) (fun t u => setR (Reg.EPO_MAP t) (if t = 0 then 64 else 0) u) s

/-- Enter COMPAT: a BEACON at once on every UP line, the event and the record (R120). -/
def enterCompat (s : State) : State :=
  let s := s |> setFsm Fsm.compat |> clearMap |> latch Fld.SPR_EVENT_compat_fallback |> record 0x23 [1, compatDist s]
  let at_ := s.cycle + s.getF Fld.SPR_COMPAT_TIMING_slow_ms * cyclesPerMs
  let s := { s with spr := { s.spr with toCompat := false, compatOff := false, helloAt := at_ } }
  each ((List.range 4).filter (isUp s)) (sendBeacon false false) s

/-- Return to GATHER: COUNTs with restart and the own ROSTER entry (R113, R139). -/
def leaveCompat (s : State) : State :=
  let s := s |> setFsm Fsm.gather |> record 0x23 [0, compatDist s]
  s |> modDir 0 (fun x => { x with restart := true }) |> modDir 1 (fun x => { x with restart := true })
    |> oweCounts |> ownEntry 0 |> ownEntry 1 |> settleView

/-- Judge the fallback and return conditions (R120). A pending switch is completed first. -/
def judgeCompat (s : State) : State :=
  let f := fsm s
  if f = Fsm.off ∨ !spireOn s then s
  else if f = Fsm.compat then
    if !s.on Fld.SPR_CTRL_compat ∧ compatDist s = 63 ∧ (s.on Fld.SPR_CTRL_native_return ∨ s.spr.compatOff) then
      leaveCompat s
    else s
  else if s.on Fld.SPR_CTRL_compat ∨ (s.on Fld.SPR_CTRL_auto_fallback ∧ compatDist s < 63) then
    if f = Fsm.switch then { s with spr := { s.spr with toCompat := true } } else enterCompat s
  else s

/-- SPR_CTRL was written: a write of compat to 0 in COMPAT lets the node return, and the conditions of R120 are judged. -/
def sprCtrlWritten (s : State) : State :=
  judgeCompat (if inCompat s ∧ !s.on Fld.SPR_CTRL_compat then { s with spr := { s.spr with compatOff := true } } else s)

end Sys2Proof.Machine
end

