-- ==== Sys2Proof/Machine/Epochs.lean ====
section
/-! DEFINITION. COMMITs, switches and aborts of Spire (chapter 03), with the route fill, the renumbering map, grace and
rosters of chapter 04, and the receipt of Spire, ROSTER and HELLO frames. -/
namespace Sys2Proof.Machine

def modSpr (f : Spire → Spire) (s : State) : State := { s with spr := f s.spr }

/-! ### Orphans and translations counted in the grace in progress (R147) -/

def graceCount (k : Nat) (s : State) : State :=
  if graceOn s then modSpr (fun x => { x with graceCounts := x.graceCounts.modify k (· + 1) }) s else s

/-- Grace ends (R147): the event, and the GRACE_END record of the epoch whose frames were translated. -/
def endGrace (s : State) : State :=
  if !graceOn s then s
  else
    let c := fun k m => min (s.spr.graceCounts.getD k 0) m
    let s := s |> setF Fld.EPO_STATUS_grace 0 |> latch Fld.EPO_EVENT_grace_end
      |> record 0x24 ([prevEpoch s] ++ dle 2 (c 0 65535) ++ dle 2 (c 1 65535) ++ dle 2 (c 2 65535) ++ [c 3 255, c 4 255])
    s |> modSpr (fun x => { x with graceEnd := none }) |> judgeDirs

/-- Grace begins at a switch (R146). -/
def beginGrace (s : State) : State :=
  let s := setF Fld.EPO_STATUS_grace 1 s
  modSpr (fun x => { x with graceStart := s.cycle, graceCounts := [0, 0, 0, 0, 0],
                            graceEnd := some (s.cycle + s.getF Fld.EPO_GRACE_us * cyclesPerUs) }) s

/-- A write of EPO_GRACE during grace applies to the grace in progress, measured from its start (R147). -/
def graceRewritten (s : State) : State :=
  if !graceOn s then s
  else
    let e := s.spr.graceStart + s.getF Fld.EPO_GRACE_us * cyclesPerUs
    if e ≤ s.cycle then endGrace s else modSpr (fun x => { x with graceEnd := some e }) s

/-! ### Route fill (R133) and the renumbering map (R143) -/

def liveBank (s : State) : Nat := s.getF Fld.EPO_STATUS_live_bank

def routeWord (hops lines dir : Nat) : Nat := hops * 2 ^ 8 + lines * 2 ^ 4 + dir * 2 + 1

/-- One entry of the fill: own TNN, node count, direction facing the reference end and the other, as codes 0 to 2. -/
def fillEntry (lines own n rdir odir t : Nat) : Nat :=
  if t = 0 then routeWord 0 lines 3
  else if t = own then routeWord 0 lines 0
  else if t < own then routeWord (own - t) lines rdir
  else if t ≤ n then routeWord (t - own) lines odir
  else 0

def fillRoutes (own n rdir odir : Nat) (s : State) : State :=
  let b := 1 - liveBank s
  let lines := s.getF Fld.EPO_CTRL_line_policy
  let lines := if lines = 3 then 0 else lines
  each (List.range 64) (fun t u => setR (Reg.EPO_ROUTE b t) (fillEntry lines own n rdir odir t) u) s

/-- Some up direction's far roster is not complete (R143). -/
def rosterPartial (s : State) : Bool :=
  (dirUp s 0 && !rosterComplete s 0) || (dirUp s 1 && !rosterComplete s 1)

/-- The entries of the far roster of an up direction with the new TNN of each (R143). -/
def farTnns (s : State) (own refDir d : Nat) : List (RosterEntry × Nat) :=
  if dirUp s d then (s.dir d).far.map (fun p => (p.2, if d + 1 = refDir then own - p.1 else own + p.1)) else []

/-- The renumbering map: fate × 64 + new TNN, by old TNN; a node whose live epoch is 0 maps none (R144). -/
def buildMap (s : State) (own refDir : Nat) : List (Nat × Nat) :=
  let base := (List.range 64).map (fun t =>
    if t = 0 then 64 else if liveEpoch s ≠ 0 ∧ t ≤ liveN s then (if rosterPartial s then 3 * 64 else 2 * 64) else 0)
  let base := if liveTnn s = 0 ∨ liveEpoch s = 0 then base else base.set (liveTnn s) (64 + own)
  let far := farTnns s own refDir 0 ++ farTnns s own refDir 1
  let l := far.foldl (fun m p =>
    if liveEpoch s ≠ 0 ∧ p.1.epoch = liveEpoch s ∧ p.1.digest = liveDigest s ∧ p.1.tnn ≠ 0 then m.set p.1.tnn (64 + p.2 % 64) else m) base
  (List.range 64).zip l

/-- The identity of each new TNN (R143). -/
def buildIds (s : State) (own refDir : Nat) : List (Nat × Nat) :=
  (own, s.nodeId) :: ((farTnns s own refDir 0 ++ farTnns s own refDir 1).map (fun p => (p.2, p.1.origin)))

/-! ### Accepting a COMMIT (R103, R105) and the switch (R106) -/

/-- A node accepts a COMMIT at r, in stamp units since reset, or the reference end commits: the map, the shadow bank, the
instant of the switch, at the first CCLK cycle that is not before it (R105; the direction of that rounding is the model's
choice, assumption log 7). A COMMIT taken after its own instant without being late switches at once. -/
def acceptCommit (v : View) (newEpoch n reference digest : Nat) (lc : Bool) (path slip r : Nat) (s : State) : State :=
  let ahead : Int := ((n - v.tnn) * hStamps + v.farDist : Nat)
  let late := decide (ahead < slip)
  let due := if late then s.cycle + 1 else max s.cycle (ceilDiv ((r : Int) + ahead - slip).toNat 10)
  let a : Accepted :=
    { newEpoch := newEpoch, n := n, tnn := v.tnn, reference := reference, digest := digest, leadConflict := lc,
      refDir := v.refDir, path := path, slip := slip, at_ := r, switchAt := due, late := late,
      leadMap := v.leadMap, partial_ := rosterPartial s, map := buildMap s v.tnn v.refDir,
      ids := buildIds s v.tnn v.refDir }
  let odir := if v.refDir = 0 then (if dirUp s 0 then 1 else 2) else 3 - v.refDir
  let s := whenT (s.on Fld.EPO_CTRL_auto_route) (fillRoutes v.tnn n v.refDir odir) s
  let s := s |> setFsm Fsm.switch |> setF Fld.EPO_STATUS_pending newEpoch |> setF Fld.EPO_STATUS_switch_pending 1
  let s := whenT lc (fun t => t |> setF Fld.SPR_STATUS_lead_conflict 1 |> latch Fld.SPR_EVENT_lead_conflict) s
  s |> modSpr (fun x => { x with accepted := some a, fwd := some a, changePending := false }) |> judgeDirs

def fldDirHops (d : Nat) : Fld := if d = 0 then Fld.SPR_DIR1_hops else Fld.SPR_DIR2_hops
def fldDirDelay (d : Nat) : Fld := if d = 0 then Fld.SPR_DIR1_delay else Fld.SPR_DIR2_delay

/-- SPR_DIR1 and SPR_DIR2: nodes and distance beyond each direction. -/
def showDir (d : Nat) (s : State) : State :=
  match heldUp s d with
  | none => s |> setF (fldDirHops d) 0 |> setF (fldDirDelay d) 0
  | some h => s |> setF (fldDirHops d) h.hops |> setF (fldDirDelay d) ((h.delay + dirDelay s d) % 2 ^ 24)

def showId (lo hi id : Nat) (s : State) : State := s |> setR lo (id % 2 ^ 32) |> setR hi (id / 2 ^ 32 % 2 ^ 32)

/-- The leaving BEACONs of a disable request (R113, R114). -/
def sendLeaving (s : State) : State := each ((List.range 4).filter (isUp s)) (sendBeacon true false) s

/-- The switch (R106): the epoch becomes live, the banks change places, the map and the roster go live, grace begins,
the SPIRE_COMMIT record is written. EPO_EVENT.map_partial is raised here and not when the map is built (DESIGN CHOICE, assumption
log 177: R143 names no instant). -/
def makeSwitch (a : Accepted) (compat : Bool) (s : State) : State :=
  let s := endGrace s
  let was := liveEpoch s
  let s := modSpr (fun x => { x with prevTnn := liveTnn s, prevDigest := liveDigest s, refDir := a.refDir,
                                     accepted := none }) s
  let s := s |> setF Fld.SPR_EPOCH_previous was |> setF Fld.SPR_EPOCH_live a.newEpoch
    |> setR Reg.SPR_DIGEST a.digest |> showId Reg.SPR_REF_ID_LO Reg.SPR_REF_ID_HI a.reference
    |> showId Reg.SPR_LEAD_MAP_LO Reg.SPR_LEAD_MAP_HI a.leadMap
    |> setF Fld.SPR_STATUS_tnn a.tnn |> setF Fld.SPR_STATUS_n a.n |> setF Fld.SPR_STATUS_ref (b2n (a.refDir == 0 && !compat))
    |> setF Fld.SPR_STATUS_lead_conflict (b2n a.leadConflict) |> setF Fld.SPR_STATUS_id_clash 0
    |> setF Fld.SPR_STATUS_overflow 0 |> setF Fld.SPR_STATUS_abort_run 0 |> setF Fld.SPR_STATUS_unstable 0
    |> showEnds |> showDir 0 |> showDir 1
  let s := s |> setF Fld.EPO_STATUS_live_bank (1 - liveBank s) |> setF Fld.EPO_STATUS_pending 0
    |> setF Fld.EPO_STATUS_switch_pending 0 |> setF Fld.EPO_STATUS_map_partial (b2n a.partial_)
    |> whenT a.partial_ (latch Fld.EPO_EVENT_map_partial)
  let s := each a.map (fun p t => setR (Reg.EPO_MAP p.1) p.2 t) s
  let s := each (List.range 64) (fun t u =>
    showId (Reg.EPO_ROSTER_LO t) (Reg.EPO_ROSTER_HI t) (((a.ids.find? (fun p => p.1 == t)).map (fun p => p.2)).getD 0) u) s
  let s := s |> beginGrace |> latch Fld.SPR_EVENT_commit |> count Reg.SPR_COMMITS
    |> record 0x20 ([a.newEpoch, was, a.tnn, a.n] ++ dle 4 a.digest ++
        [b2n (a.refDir == 0 && !compat) + 2 * b2n a.leadConflict + 4 * b2n compat + 8 * b2n a.partial_ + 16 * b2n a.late])
    |> judgeDirs |> later .switched
  if compat then s
  else
    let pend := s.spr.changePending
    let s := modSpr (fun x => { x with changePending := false }) s
    let s := s |> setFsm (if pend then Fsm.gather else Fsm.stable) |> ownEntry 0 |> ownEntry 1
    if s.getF Fld.SPR_CTRL_state = 3 then sendLeaving s else if s.spr.toCompat then enterCompat s else if pend then s |> oweCounts |> settleView else s

/-! ### Aborts (R109, R110) -/

def backoffCycles (id k : Nat) : Nat :=
  let b := (digestOf id / 2 ^ (4 * (k - 1))) % 16
  40 * cyclesPerUs * (1 + b)

def abortCommit (check newEpoch dirCode : Nat) (s : State) : State :=
  let k := min 8 (s.getF Fld.SPR_STATUS_abort_run + 1)
  let s := s |> setFsm Fsm.backoff |> setF Fld.SPR_STATUS_abort_run k |> count Reg.SPR_ABORTS |> latch Fld.SPR_EVENT_abort
    |> record 0x21 [check, k, newEpoch, dirCode]
  let s := whenT (k == 8 && !s.on Fld.SPR_STATUS_unstable)
    (fun t => t |> setF Fld.SPR_STATUS_unstable 1 |> latch Fld.SPR_EVENT_unstable) s
  modSpr (fun x => { x with backoffEnd := some (s.cycle + backoffCycles s.nodeId k) }) s

/-! ### Receiving Spire frames (R88) -/

def isSpireFrame (s : State) (l : List Byte) : Bool :=
  frameDst l == spireMac && etherTypeAt l 12 == s.getF Fld.SPR_ETYPE_ethertype

/-- The line and the bytes of a whole frame that a command brings in on a trunk line with a good FCS. -/
def trunkArrival (s : State) (i : Instr) : Option (Nat × List Byte) :=
  match i with
  | .beaconReceive m l _ _ => some (m.val, l)
  | .countReceive m l _ => some (m.val, l)
  | .commitReceive m l _ _ => some (m.val, l)
  | .compatHelloReceive m l _ => some (m.val, l)
  | .syncReceive m l _ _ => some (m.val, l)
  | .frameEnd p b .good _ _ => if p.val < 48 then none else (Sparse.find s.fab.arriving p.val).map (fun a => (p.val - 48, a.line ++ b))
  | _ => none

/-! ### Timers -/

/-- The settle window expires (R102). -/
def settleExpiry (s : State) : State :=
  match s.spr.settleEnd with
  | none => s
  | some e =>
    if !spireOn s then s else
    let s := s |> advanceTo e |> modSpr (fun x => { x with settleEnd := none })
    match viewOf s with
    | none => s
    | some v =>
      let clash := v.clash || s.on Fld.SPR_STATUS_id_clash
      if v.overflow || clash then
        s |> whenT v.overflow (fun t => t |> setF Fld.SPR_STATUS_overflow 1 |> latch Fld.SPR_EVENT_overflow)
          |> whenT clash (fun t => t |> setF Fld.SPR_STATUS_id_clash 1 |> latch Fld.SPR_EVENT_id_clash)
      else
        let s := acceptCommit v v.newEpoch v.n s.nodeId v.digest v.leadConflict (digestOf s.nodeId) 0 (10 * s.cycle) s
        if v.n = 1 then
          match s.spr.accepted with
          | none => s
          | some a => s |> modSpr (fun x => { x with fwd := none }) |> makeSwitch a false
        else s

/-- A COMMIT that waits behind the command and arrives in the same cycle (R23). -/
def isCommitArrival (s : State) (i : Instr) : Bool :=
  match trunkArrival s i with
  | some (_, l) => isSpireFrame s l && beAt l 14 1 == 0x13
  | none => false

/-- The WAIT time-out (R109): check 9. A COMMIT of that cycle is in time (R23). -/
def waitTimeout (s : State) : State :=
  match s.spr.waitEnd with
  | none => s
  | some e => if !spireOn s then s else if inTime (isCommitArrival s) s then advanceTo e s else s |> advanceTo e |> abortCommit 9 0 0

/-- The back-off expires (R111): COUNTs with restart, and GATHER. -/
def backoffExpiry (s : State) : State :=
  match s.spr.backoffEnd with
  | none => s
  | some e =>
    if !spireOn s then s else
    s |> advanceTo e |> setFsm Fsm.gather |> modDir 0 (fun x => { x with restart := true })
      |> modDir 1 (fun x => { x with restart := true }) |> oweCounts |> settleView

/-- The switch instant (R106). -/
def switchInstant (s : State) : State :=
  match s.spr.accepted with
  | none => s
  | some a =>
    let s := s |> advanceTo a.switchAt |> makeSwitch a false
    -- a disable request waited for the switch (R113)
    if s.getF Fld.SPR_CTRL_state = 3 then each ((List.range 4).filter (isUp s)) (sendBeacon true false) s else s

def graceExpiry (s : State) : State :=
  match s.spr.graceEnd with
  | none => s
  | some e => s |> advanceTo e |> endGrace

/-! ### Sending COMMITs (R86, R102, R104) -/

/-- The direction in which an accepted COMMIT is sent on: away from the reference end. -/
def commitDir (s : State) (a : Accepted) : Nat := if a.refDir = 0 then (if dirUp s 0 then 0 else 1) else 2 - a.refDir

/-- The cycle in which the COMMIT starts, r + H at the medium side of line n (R104). -/
def commitStart (s : State) (a : Accepted) (n : Nat) : Nat :=
  ceilDiv (a.at_ + hStamps - s.getF (Fld.TIM_PORT_LAT_tx (48 + n))) 10

/-- Line n carries an accepted COMMIT that has not started, from the given cycle (R104). -/
def commitDue (s : State) (n : Nat) : Option Nat :=
  match s.spr.fwd with
  | none => none
  | some a => if (upLines s (commitDir s a)).contains n then some (commitStart s a n) else none

def commitFrame (s : State) (a : Accepted) (n : Nat) : List Byte :=
  spireFrame s n (spireHead s n 3 (b2n a.leadConflict) 0 ++ be 8 a.reference ++ [byte a.newEpoch, byte a.n, byte a.tnn] ++ zeros 1 ++
    be 4 a.digest ++ be 4 a.path ++ be 4 a.slip)

/-- The accepted COMMIT goes to every UP line of the direction away from the reference end, to start at r + H; what a
line is late is added to its slip as it starts. -/
def sendCommit (fromRef : Bool) (s : State) : State :=
  match s.spr.fwd with
  | none => s
  | some a =>
    if (a.refDir == 0) != fromRef then s
    else
      let d := commitDir s a
      let l := upLines s d
      let s := s |> advanceTo ((l.map (commitStart s a)).foldl max s.cycle) |> modSpr (fun x => { x with fwd := none })
      let s := each l (fun n t => sendFromS n 7 (a.at_ + hStamps) (commitFrame t a n) t) s
      if dirUp s d then report d a.newEpoch a.digest s else s

def badSpire (s : State) : State := count Reg.SPR_BAD_FRAMES s

/-- The seq of the last BEACON sent on a line. -/
def lastBeacon (s : State) (n : Nat) : Option Nat := ((s.line n).sent.head?).map (fun p => p.1)

/-- A BEACON whose first bit came at the instant `at_`, in stamp units since reset (R79, R90 to R93, R119). -/
def takeBeacon (n at_ : Nat) (l : List Byte) (s : State) : State :=
  let sender := beAt l 18 8
  let d := dirOf n
  let rx := at_ % 2 ^ 32
  let leaving := bit (beAt l 15 1) 2
  let answered := bit (beAt l 15 1) 3
  let echoOk := bit (beAt l 15 1) 0
  let seq := beAt l 16 2
  let tx := beAt l 30 4
  let echo := beAt l 34 2
  let turn := beAt l 38 4
  -- a deadline that has passed is declared first (R24)
  let s := match (s.line n).due with
    | some e => if watched s n ∧ e < s.cycle then
        s |> modLine n (fun x => { x with late := true }) |> dropLine n Ln.lost 2 else s
    | none => s
  let wasLate := (s.line n).late
  let s := s |> whenT wasLate (count Reg.SPR_BEACON_LATE) |> modLine n (fun x => { x with late := false })
  -- a peer that changed on an UP line (R79)
  let s := if isUp s n ∧ (s.line n).peer ≠ some sender then dropLine n Ln.lost 4 s else s
  let s := s |> showId (Reg.SPR_NBR_ID_LO n) (Reg.SPR_NBR_ID_HI n) sender
    |> modLine n (fun x =>
        { x with rx := some (seq, rx, tx), peer := some sender, said := (beAt l 27 1, beAt l 42 4), compatDist := min 63 (beAt l 36 1),
                 periodic := if answered then x.periodic else ((rx, tx) :: x.periodic).take 2 })
  let s := if echoOk then
      match Sparse.find (s.line n).sent echo with
      | some t1 => delaySample n t1 rx turn s
      | none => s
    else s
  let older := match lastBeacon s n with
    | some q => serialLater 16 q echo
    | none => false
  let owes := wasLate || (!answered && (!echoOk || older))
  let s := modLine n (fun x => { x with answer := x.answer || owes }) s
  let confirms := echoOk && (Sparse.find ((s.line n).sent.take (s.line n).recent) echo).isSome
  let s := if leaving then (if watched s n then dropLine n Ln.lost 3 s else s)
    else if s.on Fld.RED_STATUS_withdrawn then s
    else if confirms ∧ (lstate s n = Ln.probing ∨ lstate s n = Ln.lost) then lineConfirmed n s
    else if lstate s n = Ln.mismatch then lineConfirmed n s else s
  let s := modLine n (fun x => { x with due := if watched s n then some (s.cycle + 305 * cyclesPerUs) else none }) s
  (if isUp s n then report d (beAt l 27 1) (beAt l 42 4) s else s) |> judgeCompat

/-- A BEACON on line n that waits behind the command and arrives in the same cycle (R23). -/
def isBeaconArrival (s : State) (n : Nat) (i : Instr) : Bool :=
  match trunkArrival s i with
  | some (m, l) => m == n && isSpireFrame s l && beAt l 14 1 == 0x11
  | none => false

/-- The deadline of a line passes (R92); a BEACON of that cycle is in time (R23). -/
def beaconDeadline (n : Nat) (s : State) : State :=
  match (s.line n).due with
  | none => s
  | some e =>
    if !watched s n then s
    else if inTime (isBeaconArrival s n) s then advanceTo e s
    else s |> advanceTo e |> modLine n (fun x => { x with late := true }) |> dropLine n Ln.lost 2 |> judgeCompat

/-- A COUNT arrives (R97). -/
def takeCount (n : Nat) (l : List Byte) (s : State) : State :=
  let d := dirOf n
  let x := s.dir d
  let seq := beAt l 16 2
  let later_ := match x.lastSeq with
    | none => true
    | some q => serialLater 16 seq q
  if !isUp s n || x.nbr != some (beAt l 18 8) || !later_ then s
  else
    let restart := bit (beAt l 15 1) 0
    let h : Summary := { origin := beAt l 30 8, hops := beAt l 38 1, maxEpoch := beAt l 39 1, delay := beAt l 42 4,
                         digest := beAt l 46 4, lead := beAt l 50 8, overflow := bit (beAt l 15 1) 1 }
    let same := match x.held with
      | none => false
      | some o => sameSummary s o h
    let s := modDir d (fun y => { y with held := some h, lastSeq := some seq, far := y.far.filter (fun p => p.1 ≤ h.hops) }) s
    let s := whenT restart (modDir (1 - d) (fun y => { y with restart := true })) s
    if restart || !same then viewChange s else settleView s

/-- The first check of R103 that a COMMIT fails, 0 when it passes all. -/
def commitCheck (s : State) (n : Nat) (l : List Byte) (o : Option View) : Nat :=
  let d := dirOf n
  if !isUp s n || (s.dir d).nbr != some (beAt l 18 8) then 1
  else
    match o with
    | none => 2
    | some v =>
      if beAt l 30 8 ≠ v.reference then 3
      else if v.refDir ≠ d + 1 then 4
      else if beAt l 39 1 ≠ v.n then 5
      else if beAt l 40 1 + 1 ≠ v.tnn then 6
      else if some (beAt l 46 4) ≠ (heldUp s d).map (fun h => h.digest) then 7
      else if beAt l 38 1 ≠ v.newEpoch then 8
      else 0

/-- A COMMIT arrives, its first bit at the instant `at_` (R103). -/
def takeCommit (n at_ : Nat) (l : List Byte) (s : State) : State :=
  let d := dirOf n
  let ref := beAt l 30 8
  let epoch := beAt l 38 1
  let digest := beAt l 42 4
  let f := fsm s
  let dup := match s.spr.accepted with
    | some a => a.newEpoch == epoch && a.reference == ref && a.digest == digest
    | none => false
  if dup then s
  else if f = Fsm.switch ∨ f = Fsm.backoff then count Reg.SPR_COMMIT_REFUSED s
  else if f = Fsm.off ∨ f = Fsm.compat then s
  else if liveEpoch s ≠ 0 ∧ epoch = liveEpoch s ∧ digest = liveDigest s ∧
      ref = (s.reg Reg.SPR_REF_ID_HI).toNat * 2 ^ 32 + (s.reg Reg.SPR_REF_ID_LO).toNat then s
  else
    let o := viewOf s
    match commitCheck s n l o, o with
    | 0, some v =>
      let s := acceptCommit v epoch v.n ref digest (bit (beAt l 15 1) 0) (digestAdd (beAt l 46 4) s.nodeId) (beAt l 50 4)
        at_ s
      report d epoch digest s
    | c, _ => abortCommit c epoch (d + 1) s

/-- A frame that a trunk line delivers to Spire (R82, R88), its first bit at the instant `at_`: checked, then taken by its
type. A frame whose address or EtherType is not Spire's is none of Spire's, and nothing happens here. -/
def takeSpire (n at_ : Nat) (l : List Byte) (s : State) : State :=
  let r := takeToS (48 + n) 7 at_ l s
  if !r.1 then r.2
  else
    let s := r.2
    let v := beAt l 14 1 / 16
    let t := beAt l 14 1 % 16
    if v ≠ 1 ∨ t = 0 ∨ 3 < t ∨ lstate s n = Ln.down then badSpire s
    else if beAt l 18 8 = s.nodeId then
      s |> badSpire |> setF Fld.SPR_STATUS_id_clash 1 |> latch Fld.SPR_EVENT_id_clash
    else if !spireOn s ∨ portState s (48 + n) ≠ 2 then s
    else if t = 1 then takeBeacon n at_ l s
    else if t = 2 then takeCount n l s
    else takeCommit n at_ l s

/-! ### ROSTER frames (R138 to R140) -/

def isRosterFrame (s : State) (l : List Byte) : Bool :=
  frameDst l == rosterMac && etherTypeAt l 12 == s.getF Fld.EPO_ETYPE_roster

/-- Is a ROSTER frame one that R138 discards? -/
def badRoster (l : List Byte) : Bool := beAt l 14 1 != 0x11 || beAt l 15 1 == 0 || decide (62 < beAt l 15 1)

/-- A ROSTER entry arrives: held, and relayed toward the opposite direction. -/
def takeRoster (n at_ : Nat) (l : List Byte) (s : State) : State :=
  let r := takeToS (48 + n) 7 at_ l s
  if !r.1 then r.2
  else
    let s := r.2
    let hops := beAt l 15 1
    let d := dirOf n
    if badRoster l then badSpire s
    else if !spireOn s ∨ portState s (48 + n) ≠ 2 ∨ inCompat s ∨ !isUp s n ∨ (s.dir d).nbr ≠ (s.line n).peer ∨ (s.dir d).nbr = none then s
    else
      let e : RosterEntry := { hops := hops, seq := beAt l 16 2, origin := beAt l 18 8, epoch := beAt l 26 1,
                               tnn := beAt l 27 1 % 64, digest := beAt l 30 4 }
      let stale := match Sparse.find (s.dir d).far hops with
        | none => false
        | some o => o.origin == e.origin && !serialLater 16 e.seq o.seq
      if stale then s
      else
        let s := modDir d (fun x => { x with far := Sparse.ins (Sparse.drop x.far hops) hops e }) s
        let s := if hops = 1 then report d e.epoch e.digest s else s
        if hops < 62 ∧ dirUp s (1 - d) then queueRoster (1 - d) [{ e with hops := hops + 1 }] s else s

/-- The waiting ROSTER entries of a direction go to each of its UP lines (R139); a waiting Spire frame starts ahead of
them (R141, `expressQueue`). -/
def sendRoster (d : Nat) (s : State) : State :=
  let l := (s.dir d).roster
  let s := modDir d (fun x => { x with roster := [] }) s
  if inCompat s ∨ !spireOn s then s
  else each l (fun e t => each (upLines t d) (fun n u => sendFromS n 7 0 (rosterFrame u n e) u) t) s

/-! ### BEACONs by time (R90) -/

/-- The periodic BEACONs that are due leave on every line with link; a withdrawn side sends none (R519). -/
def beaconPeriod (s : State) : State :=
  let dues := (List.range 4).filterMap (fun n => (s.line n).nextAt)
  match dues with
  | [] => s
  | e :: r =>
    if !spireOn s then s
    else
      let s := advanceTo (r.foldl min e) s
      each (List.range 4) (fun n t =>
        match (t.line n).nextAt with
        | some e => if e ≤ t.cycle then
            t |> modLine n (fun x => { x with nextAt := some (e + 80000) }) |> whenT (!t.on Fld.RED_STATUS_withdrawn) (sendBeacon false false n) else t
        | none => t) s

def answerBeacon (n : Nat) (s : State) : State :=
  if (s.line n).answer ∧ spireOn s ∧ (s.line n).link ∧ !s.on Fld.RED_STATUS_withdrawn then
    s |> modLine n (fun x => { x with answer := false }) |> sendBeacon false true n
  else s

/-! ### Links and Spire's own start and stop -/

/-- A line with link whose trunk port carries frames enters PROBING (R78, R90). -/
def sprLinkUp (n : Nat) (s : State) : State :=
  let s := modLine n (fun x => { x with link := true, rx := none, peer := none, periodic := [], late := false, answer := false }) s
  let s := s |> putLstate n Ln.probing (s.getF (Fld.SPR_LINE_STATUS_cause n)) |> freshExchange n
  if !spireOn s then s
  else if s.on Fld.RED_STATUS_withdrawn then modLine n (fun l => { l with nextAt := some (s.cycle + 80000) }) s
  else linkUpBeacon n s

/-- The line is DOWN: PHY link down (cause 1) or port stopped (cause 5). -/
def sprLinkDown (n cause : Nat) (s : State) : State :=
  let s := modLine n (fun x => { x with link := false, nextAt := none, rx := none, answer := false }) s
  if lstate s n = Ln.down then s else s |> dropLine n Ln.down cause |> judgeCompat

/-- Spire enters GATHER with its view clear (R113, R114). -/
def startSpire (s : State) : State :=
  let s := s |> modDir 0 (fun _ => SprDir.empty) |> modDir 1 (fun _ => SprDir.empty) |> setFsm Fsm.gather
    |> setF Fld.SPR_STATUS_abort_run 0 |> setF Fld.SPR_STATUS_unstable 0 |> setF Fld.SPR_STATUS_id_clash 0
    |> setF Fld.SPR_STATUS_overflow 0 |> setF Fld.SPR_CTRL_state 2 |> showEnds
  let s := each (List.range 4) (fun n t => if (t.line n).link then linkUpBeacon n t else t) s
  s |> settleView |> judgeCompat

/-- Spire's disable request: the leaving BEACONs, unless a switch is pending. -/
def stoppingSpire (s : State) : State := if fsm s = Fsm.switch then s else sendLeaving s

/-- A frame of port S waits to leave on a line of the given set, or is leaving. -/
def waitsFromS (s : State) (lines : List Nat) : Bool :=
  s.fab.frames.any (fun f => f.2.spireFrame && f.2.copies.any (fun y => lines.contains (y.out - 48)))

/-- Spire is OFF (R114): the view and the lines are cleared. -/
def stopSpire (s : State) : State :=
  let s := s |> setF Fld.SPR_CTRL_state 0 |> setFsm Fsm.off |> modSpr (fun x => { x with fwd := none })
  let s := each (List.range 4) (fun n t =>
    let link := (t.line n).link
    t |> putLstate n (if link then Ln.probing else Ln.down) (t.getF (Fld.SPR_LINE_STATUS_cause n)) |> freshExchange n
      |> modLine n (fun x => { x with nextAt := none, rx := none, answer := false, late := false })) s
  s |> modDir 0 (fun _ => SprDir.empty) |> modDir 1 (fun _ => SprDir.empty) |> judgeDirs |> showEnds

/-! ### LEAD (R101) -/

def takeLead (s : State) : State :=
  let s := s |> setF Fld.SPR_STATUS_lead (b2n s.spr.leadRaw) |> modSpr (fun x => { x with leadDue := none })
  if spireOn s ∧ s.on Fld.SPR_CTRL_lead_renumber ∧ (!dirUp s 0 ∨ !dirUp s 1) then viewChange s else s

def leadInput (level : Bool) (s : State) : State :=
  if level = s.spr.leadRaw then s
  else
    let s := s |> setF Fld.GLB_PINS_lead_raw (b2n level)
    let ms := s.getF Fld.SPR_LEAD_FILT_ms
    let due := if level = leadOn s then none else some (s.cycle + ms * cyclesPerMs)
    let s := modSpr (fun x => { x with leadRaw := level, leadDue := due }) s
    if due.isSome ∧ ms = 0 then takeLead s else s

def leadAccept (s : State) : State :=
  match s.spr.leadDue with
  | none => s
  | some e => s |> advanceTo e |> takeLead

/-! ### Compatibility mode: HELLO frames and the host's numbering (R116 to R118) -/

/-- The template's first bytes with the sequence counter and the line-status field filled in; the coding of the
line-status field is IEC 61375-2-5's and not the spec's, so its byte is an open value. -/
def helloBytes (s : State) (status : Nat) : List Byte :=
  let len := s.getF Fld.SPR_COMPAT_CTRL_length
  let l := (List.range 32).flatMap (fun i => le 4 (s.reg (Reg.SPR_COMPAT_HELLO i)).toNat)
  let l := patch l (s.getF Fld.SPR_COMPAT_CTRL_seq_offset) (be 2 s.spr.helloSeq)
  (patch l (s.getF Fld.SPR_COMPAT_CTRL_status_offset) [byte status]).take len

def helloSend (s : State) : State :=
  if !inCompat s then s
  else
    let s := advanceTo s.spr.helloAt s
    let fast := s.spr.helloFast
    let next := if 1 < fast then s.getF Fld.SPR_COMPAT_TIMING_fast_ms else s.getF Fld.SPR_COMPAT_TIMING_slow_ms
    let s := modSpr (fun x => { x with helloFast := fast - 1, helloAt := s.cycle + next * cyclesPerMs }) s
    if s.getF Fld.SPR_COMPAT_CTRL_length = 0 then s
    else
      let s := each ((List.range 4).filter (fun n => (s.line n).link)) (fun n t =>
        let p := drawFree t
        sendFromS n 7 0 (pad60 (helloBytes p.2 p.1)) p.2) s
      modSpr (fun x => { x with helloSeq := (x.helloSeq + 1) % 2 ^ 16 }) s

/-- A frame matches an EtherType and the 32-bit signature at a byte of its payload (R117). -/
def compatMatch (s : State) (etype off : Nat) (l : List Byte) : Bool :=
  etype != 0 && etherTypeAt l 12 == etype && beAt l (14 + off) 4 == (s.reg Reg.SPR_COMPAT_SIG).toNat

def isHello (s : State) (l : List Byte) : Bool :=
  compatMatch s (s.getF Fld.SPR_COMPAT_MATCH_etype) (s.getF Fld.SPR_COMPAT_MATCH_sig_offset) l

def isTopology (s : State) (l : List Byte) : Bool :=
  compatMatch s (s.getF Fld.SPR_COMPAT_TOPO_etype) (s.getF Fld.SPR_COMPAT_TOPO_sig_offset) l

/-- What a HELLO from a line changes (R116, R117, R119). -/
def noteHello (n : Nat) (l : List Byte) (s : State) : State :=
  let seen := s.getF Fld.SPR_COMPAT_STATUS_hello_seen
  let src := frameSrc l
  let due := s.cycle + 3 * s.getF Fld.SPR_COMPAT_TIMING_slow_ms * cyclesPerMs
  let new := !bit seen n || (s.line n).helloSrc != some src
  s |> setF Fld.SPR_COMPAT_STATUS_hello_seen (setBit seen n true) |> whenT new (latch Fld.SPR_EVENT_line_change)
    |> modLine n (fun x => { x with helloSrc := some src, helloDue := some due })
    |> modSpr (fun x => { x with helloLast := some s.cycle }) |> judgeCompat

/-- A HELLO on a line in COMPAT: delivered to S, and noted. -/
def takeHello (n at_ : Nat) (l : List Byte) (s : State) : State :=
  let r := takeToS (48 + n) 7 at_ l s
  if r.1 then noteHello n l r.2 else r.2

/-- A HELLO in native mode: an untagged frame like any other, dropped with UNTAGGED in the class `cls` that an edge port would
give it (R129), after Spire has seen it. -/
def dropHello (n cls at_ : Nat) (l : List Byte) (s : State) : State :=
  s |> statRx (48 + n) l true |> count Reg.EPO_UNTAGGED_DROPS |> capture 2 (frameToS (48 + n) cls at_ l s) 63 Reason.untagged
      |> ledRefuse (ledRow (48 + n) cls) Reason.untagged 1 |> noteHello n l

/-- A HELLO on line n that waits behind the command and arrives in the same cycle (R23). -/
def isHelloArrival (s : State) (lines : List Nat) (i : Instr) : Bool :=
  match trunkArrival s i with
  | some (m, l) => lines.contains m && isHello s l
  | none => false

def helloTimeout (n : Nat) (s : State) : State :=
  match (s.line n).helloDue with
  | none => s
  | some e =>
    if inTime (isHelloArrival s [n]) s then advanceTo e s
    else
      s |> advanceTo e |> modLine n (fun x => { x with helloSrc := none, helloDue := none })
        |> setF Fld.SPR_COMPAT_STATUS_hello_seen (setBit (s.getF Fld.SPR_COMPAT_STATUS_hello_seen) n false)
        |> latch Fld.SPR_EVENT_line_change

def holdExpiry (s : State) : State :=
  match holdEnd s with
  | none => s
  | some e =>
    if inTime (isHelloArrival s [0, 1, 2, 3]) s then advanceTo e s
    else s |> advanceTo e |> modSpr (fun x => { x with helloLast := none }) |> judgeCompat

/-- SPR_COMPAT_TIMING was written: a hold that has passed under the new hold_s ends at once (R119). -/
def holdRewritten (s : State) : State :=
  match holdEnd s with
  | none => s
  | some e => if e ≤ s.cycle then s |> modSpr (fun x => { x with helloLast := none }) |> judgeCompat else s

/-- The host's numbering is to be applied in COMPAT (R118, R160), at the next CCLK cycle. The train digest, the reference
end and the LEAD map of such a numbering are not given by the spec: open values. Nor are SPR_STATUS.ref and lead_conflict,
their bits of the SPIRE_COMMIT record, and the direction facing the reference end: 0 (DESIGN CHOICE, assumption log 36). -/
def compatCommit (v : Nat) (s : State) : State :=
  if !inCompat s ∨ !bit v 31 then s
  else
    let f := drawFree s
    let g := drawFree f.2
    let h := drawFree g.2
    let i := drawFree h.2
    let j := drawFree i.2
    let s := j.2
    let epoch := max 1 (v % 2 ^ 8)
    let tnn := max 1 (v / 2 ^ 8 % 2 ^ 6)
    let n := max 1 (v / 2 ^ 14 % 2 ^ 6)
    let a : Accepted :=
      { newEpoch := epoch, n := n, tnn := tnn, reference := g.1 * 2 ^ 32 + h.1, digest := f.1, leadConflict := false,
        refDir := 0, path := 0, slip := 0, at_ := 10 * s.cycle, switchAt := s.cycle + 1, late := false,
        leadMap := i.1 * 2 ^ 32 + j.1, partial_ := false, map := (List.range 64).map (fun t => (t, if t = 0 then 64 else 0)),
        ids := [(tnn, s.nodeId)] }
    inCycles 1 (.hostSwitch a) s

/-- The switch of the host's numbering, in the cycle after the write (R118). -/
def hostSwitch (a : Accepted) (s : State) : State :=
  if !inCompat s then s else s |> makeSwitch a true |> setF Fld.SPR_COMPAT_STATUS_applied a.newEpoch

end Sys2Proof.Machine
end

