-- ==== Sys2Proof/Machine/Rings.lean ====
section
/-! DEFINITION. The host's side of the rings (chapter 13): MSI-X messages and moderation, positions and doorbells,
write-backs, TX descriptors, EVENT records. -/
namespace Sys2Proof.Machine

def modHost (f : HostIf → HostIf) (s : State) : State := { s with host := f s.host }

/-! ### Requests to host memory (R407) -/

/-- The pieces of a request of n bytes at an address: none longer than the limit, none across a 4 KiB boundary. -/
def pieces (fuel limit addr n : Nat) : List (Nat × Nat) :=
  match fuel with
  | 0 => []
  | fuel + 1 =>
    if n = 0 then []
    else
      let k := min n (min limit (4096 - addr % 4096))
      (addr, k) :: pieces fuel limit (addr + k) (n - k)

/-- Write bytes to host memory. -/
def writeHost (addr : Nat) (l : List Byte) (s : State) : State :=
  each (pieces l.length s.host.maxPayload addr l.length) (fun p t => emitOut (.hostWrite p.1 (slice l (p.1 - addr) p.2)) t) s

/-- The device may send requests. -/
def upstream (s : State) : Bool := s.on Fld.HST_LINK_bme && s.on Fld.HST_LINK_up

/-- Read host memory; while Bus Master Enable is 0 the request waits. -/
def readHost (addr n : Nat) (s : State) : State :=
  if upstream s then each (pieces n s.host.maxRead addr n) (fun p t => emitOut (.hostRead p.1 p.2) t) s
  else modHost (fun h => { h with heldReads := h.heldReads ++ [(addr, n)] }) s

/-! ### MSI-X (R409, R432) -/

/-- A message leaves when the function may send and neither mask holds it; otherwise it is pending. -/
def canSend (s : State) (v : Nat) : Bool :=
  s.on Fld.HST_LINK_up && s.on Fld.HST_LINK_bme && s.on Fld.HST_LINK_msix_en && !s.on Fld.HST_LINK_fn_mask &&
    s.host.unmasked.contains v

def msix (v : Nat) (s : State) : State :=
  if canSend s v then emitOut (.msix v) s
  else modHost (fun h => { h with pendingMsix := if h.pendingMsix.contains v then h.pendingMsix else h.pendingMsix ++ [v] }) s

/-- Send the pending messages that nothing holds back, in the order they became due (R409). -/
def flushMsix (s : State) : State :=
  let l := s.host.pendingMsix
  let s := modHost (fun h => { h with pendingMsix := l.filter (fun v => !canSend s v) }) s
  each (l.filter (canSend s)) (fun v => emitOut (.msix v)) s

/-! ### Rings -/

def State.ring (s : State) (r : Nat) : Ring := Sparse.get (fun _ => Ring.empty) s.host.rings r

def Ring.size (x : Ring) : Nat := 2 ^ x.sizeLog

/-- Store a ring and show its positions (R412, R440). -/
def setRing (r : Nat) (x : Ring) (s : State) : State :=
  let n := x.size
  let s := modHost (fun h => { h with rings := Sparse.put (fun _ => Ring.empty) h.rings r x }) s
  s |> setF (Fld.RNG_CTRL_prod_gen r) (x.prod / n) |> setF (Fld.RNG_CTRL_cons_gen r) (x.cons / n)
    |> setF (Fld.RNG_STATUS_prod r) (x.prod % n) |> setF (Fld.RNG_STATUS_cons r) (x.cons % n)

def modRing (r : Nat) (f : Ring → Ring) (s : State) : State := setRing r (f (s.ring r)) s

def ringState (s : State) (r : Nat) : Nat := s.getF (Fld.RNG_CTRL_state r)

/-- Slots handed over and not taken (R412). -/
def Ring.avail (x : Ring) : Nat := (x.prod + 2 * x.size - x.cons) % (2 * x.size)

/-- With Bus Master Enable 0, RX, EVENT and CAPTURE rings count as having no free slot (R410). -/
def freeSlots (s : State) (r : Nat) : Nat :=
  if upstream s then (s.ring r).avail else 0

/-- The ring is ON with the given type. -/
def ringIs (s : State) (r type : Nat) : Bool := ringState s r == 2 && (s.ring r).type == type

/-- Latch an RNG event for a ring (R440). -/
def ringEvent (f : Fld) (r : Nat) (s : State) : State :=
  s |> latch f |> latchBits (if r < 32 then Fld.RNG_EVENT_RING_LO_ring else Fld.RNG_EVENT_RING_HI_ring) (2 ^ (r % 32))

/-- Take the next n slots. -/
def Ring.take (x : Ring) (n : Nat) : Ring := { x with cons := (x.cons + n) % (2 * x.size), fetched := x.fetched.drop n }

/-- The phase bit of a slot taken at a position: NOT of the consumer generation (R415). -/
def Ring.phase (x : Ring) (pos : Nat) : Nat := 1 - (pos / x.size) % 2

/-- One 32-byte write-back at a position; the phase goes into byte 31 (R416). -/
def writeBack (r pos : Nat) (d : List Byte) (s : State) : State :=
  let x := s.ring r
  let d := patch ((d ++ zeros 32).take 32) 31 [byte (x.phase pos * 128)]
  let addr := x.base + 32 * (pos % x.size)
  if upstream s then emitOut (.hostWrite addr d) s
  else modHost (fun h => { h with heldWrites := h.heldWrites ++ [(r, addr, d)] }) s

/-- Send the message that announces a ring's write-backs. -/
def announce (r : Nat) (s : State) : State := s |> modRing r (fun x => { x with unannounced := 0 }) |> msix r

/-- A frame's write-backs stand: count and timer (R431). -/
def noteWriteback (r : Nat) (s : State) : State :=
  let x := s.ring r
  let n := x.unannounced + 1
  if s.getF (Fld.RNG_MOD_timer_us r) = 0 ∨ n ≥ s.getF (Fld.RNG_MOD_count r) then announce r s
  else modRing r (fun x => { x with unannounced := n, firstUnannounced := if x.unannounced = 0 then s.cycle else x.firstUnannounced }) s

/-- The moderation timer of a ring passes (R431). -/
def moderationTimer (r : Nat) (s : State) : State :=
  let x := s.ring r
  if x.unannounced = 0 then s
  else s |> advanceTo (x.firstUnannounced + s.getF (Fld.RNG_MOD_timer_us r) * cyclesPerUs) |> announce r

/-- RNG_MOD was written: a message may be due under the new count or timer (R431). -/
def moderationWritten (r : Nat) (s : State) : State :=
  let n := (s.ring r).unannounced
  whenT (n != 0 && (s.getF (Fld.RNG_MOD_timer_us r) == 0 || decide (s.getF (Fld.RNG_MOD_count r) ≤ n))) (announce r) s

/-- A buffer of fewer than 64 bytes at the consumer position is written back BAD_DESC and not used (R423). -/
def badBuffer (r : Nat) (s : State) : State :=
  s |> writeBack r (s.ring r).cons (zeros 11 ++ [byte 64]) |> modRing r (fun x => x.take 1) |> noteWriteback r

/-- The short buffers at the front of what is fetched, while no copy is being written. -/
def shedShort (fuel r : Nat) (s : State) : State :=
  match fuel with
  | 0 => s
  | n + 1 =>
    match (s.ring r).writing, (s.ring r).fetched with
    | none, d :: _ => if leAt d 8 2 % 2 ^ 14 < 64 then shedShort n r (badBuffer r s) else s
    | _, _ => s

/-! ### EVENT rings (R428, R429) -/

/-- A record, with its irq bit, goes into the next slot, which is then announced when irq is set. -/
def putEvent (r : Nat) (irq : Bool) (d : List Byte) (s : State) : State :=
  let pos := (s.ring r).cons
  s |> writeBack r pos d |> modRing r (fun x => x.take 1) |> count (Reg.RNG_FRAMES r) |> whenT irq (announce r)

/-- The GAP record after losses, when a slot is at hand (R429). -/
def gapEvent (r : Nat) (s : State) : State :=
  let n := (s.ring r).lost
  if n = 0 ∨ !ringIs s r 2 ∨ freeSlots s r = 0 then s
  else s |> modRing r (fun x => { x with lost := 0 })
    |> putEvent r true ([byte 3, byte 16] ++ zeros 4 ++ le 2 (min n 0xFFFF))

def loseEvent (r : Nat) (s : State) : State :=
  s |> count (Reg.RNG_DROPS r) |> ringEvent Fld.RNG_EVENT_event_lost r |> modRing r (fun x => { x with lost := x.lost + 1 })

/-- Write a bell or capture record into an EVENT ring, or lose it. -/
def eventRecord (r : Nat) (irq : Bool) (d : List Byte) (s : State) : State :=
  let s := gapEvent r s
  if ringIs s r 2 ∧ freeSlots s r ≠ 0 then putEvent r irq d s else loseEvent r s

/-! ### TX descriptors (R417, R419, R420) -/

def Desc.addr (d : List Byte) : Nat := leAt d 0 8
def Desc.len (d : List Byte) : Nat := leAt d 8 2 % 2 ^ 14
def Desc.flag (d : List Byte) (k : Nat) : Bool := bit (leAt d 10 1) k
def Desc.sof (d : List Byte) : Bool := Desc.flag d 0
def Desc.eof (d : List Byte) : Bool := Desc.flag d 1
def Desc.tsReq (d : List Byte) : Bool := Desc.flag d 2
def Desc.oneStep (d : List Byte) : Bool := Desc.flag d 3
def Desc.can (d : List Byte) : Bool := Desc.flag d 4
def Desc.direct (d : List Byte) : Bool := Desc.flag d 5
def Desc.cls (d : List Byte) : Nat := leAt d 11 1 % 8
def Desc.vid (d : List Byte) : Nat := leAt d 12 2 % 2 ^ 12
def Desc.dport (d : List Byte) : Nat := leAt d 14 1 % 64
def Desc.dstTnn (d : List Byte) : Nat := leAt d 15 1 % 64
def Desc.reqNs (d : List Byte) : Nat := leAt d 16 4
def Desc.reqSec (d : List Byte) : Nat := leAt d 20 4

/-- The length of the first closed frame in a list of descriptors, and whether a sof cut it short. -/
def closedFrame (k : Nat) (l : List (List Byte)) : Option (Nat × Bool) :=
  match l with
  | [] => none
  | d :: t =>
    if k ≠ 0 ∧ Desc.sof d then some (k, true)
    else if Desc.eof d then some (k + 1, false)
    else closedFrame (k + 1) t

/-- A TX frame is malformed (R420). -/
def malformed (l : List (List Byte)) : Bool :=
  match l with
  | [] => true
  | d :: _ =>
    !Desc.sof d || l.any (fun e => Desc.len e == 0) || decide (9212 < (l.map Desc.len).sum) ||
      (Desc.direct d && (Desc.dport d == 54 || decide (56 ≤ Desc.dport d))) ||
      (Desc.can d && (decide (l.length ≠ 1) || decide (Desc.len d ≠ 80)))

/-- The write-back of one TX descriptor (R419). -/
def txWriteBack (d : List Byte) (status reason t0 t1 : Nat) (valid : Bool) : List Byte :=
  le 4 t0 ++ le 4 t1 ++ slice d 8 3 ++ [byte (status * 32 + reason)] ++ slice d 12 4 ++ [byte (b2n valid)]

/-- Write back, in slot order, every frame at the head of a TX ring whose fate is known (R416, R419). -/
def flushJobs (r : Nat) (l : List TxJob) (s : State) : State :=
  match l with
  | [] => modRing r (fun x => { x with jobs := [] }) s
  | j :: t =>
    match j.fate with
    | .done status reason t0 t1 valid =>
      let s := each j.slots (fun p => writeBack r p.1 (txWriteBack p.2 status reason t0 t1 valid)) s
      let s := whenT (status == 0) (count (Reg.RNG_FRAMES r)) s
      flushJobs r t (noteWriteback r s)
    | _ => modRing r (fun x => { x with jobs := j :: t }) s

/-- The fate of a TX frame or CAN record is known. -/
def txDone (r id status reason t0 t1 : Nat) (valid : Bool) (s : State) : State :=
  let l := (s.ring r).jobs.map (fun j =>
    if j.id = id then
      (match j.fate with
        | .done _ _ _ _ _ => j
        | _ => { j with fate := .done status reason t0 t1 valid })
    else j)
  flushJobs r l s

/-- The same for a fate without times: bytes 0 to 7 of the write-back are open values (R419 states none). -/
def txDoneOpen (r id status reason : Nat) (s : State) : State :=
  let a := drawFree s
  let b := drawFree a.2
  txDone r id status reason a.1 b.1 false b.2

/-- Form frames of the descriptors fetched (R420): each closed frame becomes a job, a malformed one with its fate. -/
def formJobs (fuel r : Nat) (s : State) : State :=
  match fuel with
  | 0 => s
  | fuel + 1 =>
    let x := s.ring r
    match closedFrame 0 x.fetched with
    | none => s
    | some (n, cut) =>
      let l := x.fetched.take n
      let bad := x.tainted || cut || malformed l
      let a := drawFree s
      let b := drawFree a.2
      let s := if bad then b.2 else s
      let j : TxJob := { id := s.host.nextJob, slots := (List.range n).zip l |>.map (fun p => ((x.cons + p.1) % (2 * x.size), p.2)),
                         fate := if bad then .done 2 0 a.1 b.1 false else .reading, data := [] }
      let s := modHost (fun h => { h with nextJob := h.nextJob + 1 }) s
      let s := modRing r (fun x => { x.take n with jobs := x.jobs ++ [j], tainted := cut }) s
      let s := flushJobs r (s.ring r).jobs s
      formJobs fuel r s

/-- How many descriptors a TX ring may fetch (R421): 8 ahead of the frame it reads. A frame still open at its front is being
read as its descriptors come, so they do not count (DEDUCED, assumption log 175). -/
def prefetchRoom (x : Ring) : Nat :=
  let unread := x.jobs.filter (fun j => j.fate == .reading)
  if unread.isEmpty then 8 else 8 - ((unread.map (fun j => j.slots.length)).sum + x.fetched.length)

/-- Fetched descriptors arrive for a TX ring (R421). -/
def txFetched (r : Nat) (descs : List (List Byte)) (s : State) : State :=
  if !ringIs s r 0 ∨ !s.on Fld.HST_LINK_bme then s
  else
    let x := s.ring r
    let n := min descs.length (min (x.avail - x.fetched.length) (prefetchRoom x))
    let s := modRing r (fun x => { x with fetched := x.fetched ++ (descs.take n).map (fun d => (d ++ zeros 32).take 32) }) s
    formJobs 9 r s

/-- The first frame of a ring whose data has not been read. -/
def nextReading (s : State) (r : Nat) : Option TxJob := (s.ring r).jobs.find? (fun j => j.fate == .reading)

def setFate (r id : Nat) (f : TxFate) (s : State) : State :=
  modRing r (fun x => { x with jobs := x.jobs.map (fun j => if j.id = id then { j with fate := f } else j) }) s

/-! ### Doorbells (R413) -/

/-- The position a doorbell names, if it passes the checks. -/
def doorbellOk (s : State) (r v : Nat) : Option Nat :=
  let x := s.ring r
  let n := x.size
  let index := v % 2 ^ 16
  let pos := (v / 2 ^ 16 % 2) * n + index
  let new := (pos + 2 * n - x.cons) % (2 * n)
  if ringState s r = 2 ∧ index < n ∧ new ≤ n ∧ x.avail ≤ new then some pos else none

/-! ### Failures on the host side (R435) -/

def dmaError (kind ring addr cpl : Nat) (s : State) : State :=
  let first := !s.on Fld.HST_EVENT_dma_error
  let s := s |> latch Fld.HST_EVENT_dma_error |> count Reg.HST_DMA_ERRORS
  let s := whenT first (fun t => t |> setR Reg.HST_ERR_ADDR_LO (addr % 2 ^ 32) |> setR Reg.HST_ERR_ADDR_HI (addr / 2 ^ 32 % 2 ^ 32)
    |> setF Fld.HST_ERR_INFO_cpl cpl |> setF Fld.HST_ERR_INFO_kind kind |> setF Fld.HST_ERR_INFO_ring ring) s
  record 0x43 ([kind, cpl, ring] ++ dle 6 addr) s

/-! ### The watchdog (R436) -/

def wdogLeft (s : State) : Nat :=
  match s.host.wdogEnd with
  | none => 0
  | some e => ceilDiv (e - s.cycle) cyclesPerMs

/-- Load the count with timeout_ms. -/
def wdogLoad (s : State) : State :=
  modHost (fun h => { h with wdogEnd := some (s.cycle + s.getF Fld.HST_WDOG_CTRL_timeout_ms * cyclesPerMs) }) s

def wdogKick (s : State) : State :=
  if s.on Fld.HST_WDOG_CTRL_enable then s |> setF Fld.HST_WDOG_STATUS_expired 0 |> wdogLoad
  else setF Fld.HST_WDOG_STATUS_expired 0 s

/-- A kick of the watchdog (R23). -/
def isKick (i : Instr) : Bool :=
  match i with
  | .watchdogKick _ _ => true
  | _ => false

def wdogExpiry (s : State) : State :=
  match s.host.wdogEnd with
  | none => s
  | some e =>
    let s := advanceTo e s
    if inTime isKick s then s else
    let s := modHost (fun h => { h with wdogEnd := none }) s
    s |> setF Fld.HST_WDOG_STATUS_expired 1 |> latch Fld.HST_EVENT_wdog
      |> record 0x42 (dle 2 (s.getF Fld.HST_WDOG_CTRL_timeout_ms))
      |> whenT (s.on Fld.HST_WDOG_CTRL_resign) (trigger 7)

end Sys2Proof.Machine
end

