-- ==== Sys2Proof/Machine/Buffers.lean ====
section
/-! DEFINITION. Resolving the copies of frames held in the packet buffer (R169, R214, R215), the form in which a frame
leaves a port, the transmit queues. -/
namespace Sys2Proof.Machine

/-! ### Resolving copies (R169, R214, R215) -/

/-- Add to the k-th of a list of counts. -/
def addAt (l : List Nat) (k n : Nat) : List Nat :=
  match l, k with
  | [], _ => []
  | a :: t, 0 => (a + n) :: t
  | a :: t, k + 1 => a :: addAt t k n

/-- The cells of a frame are released; at a G row each gives a credit back (R169, R488). -/
def freeFrame (id : Nat) (f : Frame) (s : State) : State :=
  let s := modFab (fun x => { x with frames := Sparse.drop x.frames id }) s
  if f.inPort = 52 ∨ f.inPort = 53 then
    modIlgPort (f.inPort - 52) (fun x => { x with credits := addAt x.credits f.cls f.cells }) s else s

/-- Take a copy of a frame out of wherever it stands; the cells are freed once no copy is left. -/
def removeCopy (id out : Nat) (s : State) : State :=
  let drop := fun (l : List (Nat × List Nat)) =>
    l.map (fun p => if p.1 / 16 = out then (p.1, p.2.filter (· != id)) else p)
  let s := modFab (fun x => { x with txq := drop x.txq, crossing := x.crossing.filter (fun c => c.frame != id || c.out != out),
                                     ringQueue := x.ringQueue.filter (· != .copy id out) }) s
  match s.frame id with
  | none => s
  | some f =>
    let l := f.copies.filter (fun y => y.out != out)
    if l.isEmpty ∧ f.complete then freeFrame id f s
    else putFrame id { f with copies := l } s

/-- The egress time that a TX frame waits for is known, or the copy is dropped (R279, R419). -/
def tsResolve (f : Frame) (valid : Bool) (s : State) : State :=
  match f.tsRing with
  | none => s
  | some (r, job) => if valid then txDone r job 0 0 f.txNs f.txSec true s else txDoneOpen r job 0 0 s

/-- The tier in which a frame crosses (R183). -/
def tierOf (f : Frame) : Nat := if f.express ∧ !f.multicast then 8 else f.cls

/-- Unlock an output that a copy leaves part-way (R186). -/
def unlock (out tier : Nat) (s : State) : State :=
  modFab (fun x => { x with lock := Sparse.put (fun _ => 0) x.lock (16 * out + tier) 0 }) s

/-- A copy has crossed in part: its output is locked to its input. -/
def crossedInPart (f : Frame) (out : Nat) : Bool := f.copies.any (fun y => y.out == out && y.stage == .input && decide (0 < y.pos))

/-- A copy is dropped for a reason. One that has crossed in part also ends the lock of its output, of which the spec says
nothing (DESIGN CHOICE, assumption log 49). -/
def dropCopy (id out reason : Nat) (s : State) : State :=
  match s.frame id with
  | none => s
  | some f =>
    if !f.copies.any (fun y => y.out == out) then s
    else
      let s := s |> captureOnce 2 id out reason |> whenT (crossedInPart f out) (unlock out (tierOf f))
      let s := s |> ledDrop f.row reason 1 |> removeCopy id out |> tsResolve f false
      whenT (decide (out < 52) && (reason == Reason.linkDown || reason == Reason.portStop || reason == Reason.oversize))
        (stat1 out 53) s

def deliverCopy (id out : Nat) (s : State) : State :=
  match s.frame id with
  | none => s
  | some f => s |> ledDeliver f.row 1 |> removeCopy id out

/-- Drop every copy of a frame, and the frame with them. -/
def dropFrame (id reason : Nat) (s : State) : State :=
  match s.frame id with
  | none => s
  | some f =>
    let s := modFrame id (fun g => { g with complete := true }) s
    let s := each (f.copies.map (fun y => y.out)) (fun o t => dropCopy id o reason t) s
    match s.frame id with
    | none => s
    | some g => freeFrame id g s

/-- Copies dropped at the admission point: output and reason each (R214, R226). -/
def dropEarly (l : List (Nat × Nat)) (f : Frame) (s : State) : Frame × State :=
  l.foldl (fun r x => let c := captureF 2 r.1 x.1 x.2 r.2; (c.1, ledRefuse f.row x.2 1 c.2)) (f, s)

/-- A frame refused whole at its admission point, as one copy or as many as its fan-out held (R214); the drop point is
captured. -/
def refuseFrame (f : Frame) (reason copies : Nat) (out : Nat) (s : State) : State :=
  s |> capture 2 f out reason |> ledRefuse f.row reason copies

/-! ### Leaving a port (R172) -/

/-- The 802.1Q tag of a frame at an output: removed, kept, or added. -/
def vlanForm (f : Frame) (out : Nat) : List Byte :=
  if bit f.untag out then (if hasVlanTag f.data then removeVlanTag f.data else f.data)
  else if hasVlanTag f.data ∨ f.vid = 0 then f.data
  else insertVlanTag f.cls f.vid f.data

/-! ### Trunk lines: choice of line, failover (R190 to R192) -/

def txKey (p q : Nat) : Nat := 16 * p + q
def txQueue (s : State) (p q : Nat) : List Nat := Sparse.get (fun _ => []) s.fab.txq (txKey p q)
def setTxq (p q : Nat) (l : List Nat) (s : State) : State :=
  modFab (fun x => { x with txq := Sparse.put (fun _ => []) x.txq (txKey p q) l }) s

/-- FAB_AGG_STATE follows the line states (R193). -/
def showAgg (d : Nat) (s : State) : State :=
  let a := isUp s (2 * d)
  let b := isUp s (2 * d + 1)
  let v := if a ∧ b then 0 else if a then 1 else if b then 2 else 3
  setF (if d = 0 then Fld.FAB_AGG_STATE_dir1 else Fld.FAB_AGG_STATE_dir2) v s

end Sys2Proof.Machine
end

