-- ==== Sys2Proof/Machine/Time.lean ====
section
/-! DEFINITION. The time engine (chapter 08): time frames, one-step insertion, corrections of the clock, the servo,
native Syncs, merge at a coupling, the correlation latch, SYNC pins and PPS. PTP message layouts are those of IEEE
1588-2019 and 802.1AS-2020, which the spec names (PRESUMED, assumption log 8). -/
namespace Sys2Proof.Machine

/-! ### Units -/

/-- R_MAX: 200 ppm in units of 2^-40 (R285). -/
def rMax : Int := 219902325

def clampRate (r : Int) : Int := max (-rMax) (min r rMax)

/-- Node time in 2^-16 ns when a frame that starts now on port p crosses its medium side (R274, R275). -/
def txTime16 (s : State) (p : Nat) : Int := s.time16 + (s.getF (Fld.TIM_PORT_LAT_tx p) * 8192 : Nat)

def frac16 (t : Int) : Nat := (t % 65536).toNat

/-- The sync interval T in ns: 2^log_sync s (R291). -/
def syncNs (s : State) : Nat := 1000000000 / 2 ^ (s.getI Fld.TIM_BB_CTRL_log_sync).natAbs
def syncCycles (s : State) : Nat := syncNs s * 4 / 5

/-! ### Modes and ownership (R282, R289, R290) -/

/-- Native backbone mode. -/
def timeNative (s : State) : Bool :=
  !s.on Fld.TIM_CTRL_bb_host && !s.on Fld.TIM_CTRL_inc_mode && !inCompat s

def gmActive (s : State) : Bool :=
  s.getF Fld.ILG_STATUS_role != 2 && timeNative s && s.on Fld.TIM_CTRL_gm && !s.on Fld.TIM_STATUS_gm_yielded && s.hasRole

/-- The native servo owns the clock. -/
def servoOwns (s : State) : Bool := timeNative s && !gmActive s

def Servo.free : Nat := 0
def Servo.acquire : Nat := 1
def Servo.slew : Nat := 2
def Servo.locked : Nat := 3
def Servo.holdover : Nat := 4

def servoState (s : State) : Nat := s.getF Fld.TIM_STATUS_servo

/-- The slave direction: 0 none, 1, 2. -/
def slaveDir (s : State) : Nat := s.getF Fld.TIM_STATUS_slave

def permitArmed (s : State) : Bool :=
  s.on Fld.TIM_STATUS_permit_reset || s.on Fld.TIM_STATUS_permit_merge || s.on Fld.TIM_STATUS_permit_grant

def setServo (st : Nat) (s : State) : State := setF Fld.TIM_STATUS_servo st s

/-- gm_active is shown, and a servo that does not own the clock is FREE with no slave direction (R286). -/
def settleTime (s : State) : State :=
  let s := setF Fld.TIM_STATUS_gm_active (b2n (gmActive s)) s
  if servoOwns s then s
  else if servoState s = 0 ∧ slaveDir s = 0 then s
  else s |> setServo Servo.free |> setF Fld.TIM_STATUS_slave 0
    |> modTim (fun x => { x with syncDue := none, lockRun := 0, flagIn := false })

/-- HOLDOVER from ACQUIRE, SLEW or LOCKED; the rate stays (R286). -/
def enterHoldover (s : State) : State :=
  let v := servoState s
  let s := modTim (fun x => { x with syncDue := none }) s
  if v = Servo.acquire ∨ v = Servo.slew ∨ v = Servo.locked then
    s |> setServo Servo.holdover |> latch Fld.TIM_EVENT_holdover
  else s

/-- The slave direction is set or changed: ACQUIRE (R286, R290). -/
def takeSlave (d : Nat) (s : State) : State :=
  s |> setF Fld.TIM_STATUS_slave d |> setServo Servo.acquire
    |> modTim (fun x => { x with lockRun := 0, lastGood := s.cycle, syncDue := some (s.cycle + 3 * syncCycles s) })

/-- The node has no slave direction (R290). -/
def loseSlave (s : State) : State := s |> setF Fld.TIM_STATUS_slave 0 |> enterHoldover

/-- A direction goes down (R290). -/
def timeDirDown (d : Nat) (s : State) : State := if slaveDir s = d + 1 then loseSlave s else s

/-! ### Rate, slews and steps (R283, R285, R287) -/

/-- The rate in effect; in increment mode the addend stays (R288). -/
def useRate (r : Int) (s : State) : State :=
  let s := s |> noteTime |> setI Fld.TIM_RATE_rate r
  if s.on Fld.TIM_CTRL_inc_mode then s else { s with timeInc := (5 * (2 ^ 40 + r)).toNat }

/-- Set the rate outside a slew. -/
def setRate (r : Int) (s : State) : State :=
  let r := clampRate r
  s |> modTim (fun x => { x with base := r }) |> useRate r

/-- The units worked off in a cycle of a slew: 200 ppm of 1.25 ns. -/
def slewPerCycle : Nat := 5 * 219902325

/-- What a running slew has still to work off. -/
def slewRest (s : State) : Int :=
  match s.tim.slewEnd with
  | none => 0
  | some _ =>
    let done : Int := ((s.cycle - s.tim.slewFrom) * slewPerCycle : Nat)
    if 0 < s.tim.slewLeft then max 0 (s.tim.slewLeft - done) else min 0 (s.tim.slewLeft + done)

/-- A slew ends: the rate is restored, or a held write applies (R283, R285). -/
def slewOver (s : State) : State :=
  let r := s.tim.held.getD s.tim.base
  s |> modTim (fun x => { x with slewEnd := none, slewLeft := 0, held := none }) |> setF Fld.TIM_STATUS_slewing 0
    |> setF Fld.TIM_STATUS_rate_held 0 |> setRate r

/-- A request becomes a slew; during a slew it adds to what is left (assumption log 9). -/
def slewStart (o16 : Int) (source : Nat) (s : State) : State :=
  let left := slewRest s + o16 * 2 ^ 26
  let s := s |> count Reg.TIM_SLEWS |> latch Fld.TIM_EVENT_slew
    |> record 0x31 (dle 8 (codeOf 64 (o16 / 65536)) ++ [source])
  if left = 0 then slewOver s
  else
    s |> modTim (fun x => { x with slewFrom := s.cycle, slewLeft := left,
                                   slewEnd := some (s.cycle + ceilDiv left.natAbs slewPerCycle) })
      |> setF Fld.TIM_STATUS_slewing 1 |> useRate (if 0 < left then -rMax else rMax)

def slewEnd (s : State) : State :=
  match s.tim.slewEnd with
  | none => s
  | some e => s |> advanceTo e |> slewOver

/-- A step by -o takes one cycle; the record of the next cycle carries the time after it (R287). -/
def stepTime (o16 : Int) (cause : Nat) (s : State) : State :=
  let d : Int := -o16 * 2 ^ 26
  let ns : Int := -o16 / 65536
  let s := s |> noteTime |> advance 1
  let s := { s with time := (((s.time : Int) + d) % (timeModulus : Int)).toNat }
  s |> setR Reg.TIM_LAST_STEP_LO (codeOf 64 ns % 2 ^ 32) |> setR Reg.TIM_LAST_STEP_HI (codeOf 64 ns / 2 ^ 32)
    |> count Reg.TIM_STEPS |> latch Fld.TIM_EVENT_step |> record 0x30 (dle 8 (codeOf 64 ns) ++ [cause])
    |> modTim (fun x => { x with extra := [0, 1] }) |> later (.stepped d)

/-- Consume every armed permit (R283); TIM_PERMIT.grant reads 1 while the grant is armed (R9, W1S). -/
def usePermits (s : State) : State :=
  s |> setF Fld.TIM_STATUS_permit_reset 0 |> setF Fld.TIM_STATUS_permit_merge 0 |> setF Fld.TIM_STATUS_permit_grant 0
    |> setF Fld.TIM_PERMIT_grant 0
    |> modTim (fun x => { x with grantEnd := none })

/-- Is |o| at least step_ns? -/
def isBig (s : State) (o16 : Int) : Bool := decide (s.getF Fld.TIM_SERVO_step_ns * 65536 ≤ o16.natAbs)

/-- A host request (R282, R283). -/
def hostAdjust (s : State) : State :=
  let o : Int := signedOf 64 ((s.reg Reg.TIM_ADJ_HI).toNat * 2 ^ 32 + (s.reg Reg.TIM_ADJ_LO).toNat)
  if servoOwns s then count Reg.TIM_REFUSED s
  else if s.on Fld.TIM_CTRL_inc_mode then stepTime (o * 65536) 2 s
  else if isBig s (o * 65536) ∧ permitArmed s then s |> usePermits |> stepTime (o * 65536) 1
  else slewStart (o * 65536) 1 s

/-- The servo update (R285); T in ns. -/
def servoUpdate (o16 : Int) (t : Nat) (s : State) : State :=
  let e := o16 * 2 ^ 24 / (t : Int)
  let i := clampRate (s.tim.integ - e / (2 ^ s.getF Fld.TIM_SERVO_ki_shift : Nat))
  s |> modTim (fun x => { x with integ := i }) |> setRate (i - e / (2 ^ s.getF Fld.TIM_SERVO_kp_shift : Nat))

/-- A servo request (R283, R285): whether it stepped. rho is dr/dt; cso is 2 × rate_up. -/
def servoRequest (o16 : Int) (t : Nat) (cso : Int) (dr dt : Nat) (s : State) : Bool × State :=
  if isBig s o16 then
    if permitArmed s then
      let acq := servoState s == Servo.acquire
      let s := s |> usePermits |> stepTime o16 0
      let r := clampRate (nearest ((2 ^ 41 + cso) * (dt : Int)) (2 * dr) - 2 ^ 40)
      (true, if acq ∧ 0 < dr then s |> setRate r |> modTim (fun x => { x with integ := r }) else s)
    else (false, slewStart o16 0 s)
  else (false, servoUpdate o16 t s)

/-- The servo's state after an accepted Sync with offset o (R286): applied tells that a request was made. -/
def servoMove (o16 : Int) (applied : Bool) (s : State) : State :=
  let v := servoState s
  if v = Servo.acquire then
    if applied then s |> setServo Servo.slew |> modTim (fun x => { x with lockRun := 0 }) else s
  else if v = Servo.slew then
    let n := if o16.natAbs ≤ s.getF Fld.TIM_SERVO_LIM_lock_ns * 65536 then s.tim.lockRun + 1 else 0
    let s := modTim (fun x => { x with lockRun := n }) s
    if 4 ≤ n then s |> setServo Servo.locked |> latch Fld.TIM_EVENT_locked |> setF Fld.TIM_STATUS_permit_reset 0 else s
  else if v = Servo.locked ∧ s.getF Fld.TIM_SERVO_LIM_unlock_ns * 65536 < o16.natAbs then
    s |> setServo Servo.slew |> latch Fld.TIM_EVENT_unlock |> modTim (fun x => { x with lockRun := 0 })
  else s

/-- The offset of a sample is shown, and a sample ends HOLDOVER and FREE (the table of servo states of R286). -/
def servoNoted (o16 : Int) (s : State) : State :=
  let s := setI Fld.TIM_OFFSET_offset (satSigned 32 (o16 / 65536)) s
  let v := servoState s
  if v = Servo.holdover then s |> setServo Servo.slew |> modTim (fun x => { x with lockRun := 0 })
  else if v = Servo.free then setServo Servo.acquire s else s

/-- An accepted offset drives the servo (R283 to R286). -/
def servoAccept (o16 : Int) (t : Nat) (cso : Int) (dr dt : Nat) (s : State) : Bool × State :=
  let s := servoNoted o16 s
  if s.tim.slewEnd.isSome then (false, servoMove o16 false s)
  else
    let r := servoRequest o16 t cso dr dt s
    (r.1, servoMove o16 true r.2)

/-! ### Merge at a coupling (R293 to R295) -/

def mergeDir (s : State) : Nat :=
  if s.on Fld.TIM_STATUS_merge_dir1 then 1 else if s.on Fld.TIM_STATUS_merge_dir2 then 2 else 0

/-- Merge mode of a direction code: 0 ends it. -/
def setMergeDir (d : Nat) (s : State) : State :=
  s |> setF Fld.TIM_STATUS_merge_dir1 (b2n (d == 1)) |> setF Fld.TIM_STATUS_merge_dir2 (b2n (d == 2))

/-- Merge mode ends (R295): code 1 done, 2 time-out. -/
def endMerge (code : Nat) (s : State) : State :=
  let d := mergeDir s
  if d = 0 then s
  else
    s |> setMergeDir 0 |> setF Fld.TIM_STATUS_permit_merge 0 |> modTim (fun x => { x with mergeEnd := none })
      |> latch (if code = 1 then Fld.TIM_EVENT_merge_done else Fld.TIM_EVENT_merge_timeout)
      |> record 0x32 ([code, d] ++ dle 4 (codeOf 32 (satSigned 32 s.tim.lastOff)))

def gmResume (s : State) : State :=
  s |> setF Fld.TIM_STATUS_gm_yielded 0 |> latch Fld.TIM_EVENT_gm_resume
    |> modTim (fun x => { x with flaggedSince := none }) |> settleTime

/-- The node is joining at the switch just made (R293). -/
def joining (s : State) : Bool :=
  s.spr.refDir != 0 &&
    (s.on Fld.EPO_STATUS_map_partial || prevEpoch s == 0 ||
      !(List.range 64).any (fun t => t != 0 && (s.reg (Reg.EPO_MAP t)).toNat == 65))

/-- The directions that send Syncs (R290, R294). -/
def masters (s : State) : List Nat :=
  if !timeNative s then []
  else if gmActive s then [0, 1].filter (dirUp s)
  else if slaveDir s = 0 then []
  else [0, 1].filter (fun d => dirUp s d && d + 1 != slaveDir s && !(s.dir d).fresh)

/-- A switch (R294): each direction that becomes master at it owes an extra Sync (R291). -/
def timeSwitched (s : State) : State :=
  let fresh := [0, 1].filter (fun d => (s.dir d).fresh)
  let before := (masters s).filter (fun d => !fresh.contains d)
  let s := s |> modDir 0 (fun x => { x with fresh := false }) |> modDir 1 (fun x => { x with fresh := false })
  if !timeNative s then s
  else
    let s := if joining s ∧ s.on Fld.TIM_CTRL_merge_auto then
        let was := gmActive s
        let s := whenT was (fun t => t |> setF Fld.TIM_STATUS_gm_yielded 1 |> latch Fld.TIM_EVENT_gm_yield) s
        let s := s |> takeSlave s.spr.refDir |> setF Fld.TIM_STATUS_permit_merge 1 |> setMergeDir s.spr.refDir
          |> latch Fld.TIM_EVENT_merge_start |> record 0x32 ([0, s.spr.refDir] ++ dle 4 0)
        modTim (fun x => { x with mergeEnd := some (s.cycle + s.getF Fld.TIM_MERGE_CFG_max_ms * cyclesPerMs), lastOff := 0,
                                  waitEnd := some (s.cycle + s.getF Fld.TIM_MERGE_CFG_wait_ms * cyclesPerMs),
                                  flaggedSince := none }) s
      else s
    let s := settleTime s
    modTim (fun x => { x with extra := x.extra ++ (masters s).filter (fun d => !before.contains d && !x.extra.contains d) }) s

def llTimeMac : Nat := 0x0180C200000E

/-- A frame that is a native Sync of this node's domain. -/
def isNativeSync (s : State) (l : List Byte) : Bool :=
  timeNative s && frameDst l == llTimeMac && etherTypeAt l 12 == 0x88F7 && beAt l 14 1 == 0x10 &&
    beAt l 18 1 == s.getF Fld.TIM_BB_CTRL_domain && !bit (beAt l 20 1) 1 && decide (90 ≤ l.length)

/-- A Sync of the slave direction waits behind the command and arrives in the same cycle (R23). -/
def isSyncArrival (s : State) (i : Instr) : Bool :=
  match trunkArrival s i with
  | some (n, l) => isNativeSync s l && dirOf n + 1 == slaveDir s && firstUp s (dirOf n) == some n
  | none => false

/-- max_ms passes in merge mode (R295); a Sync of that cycle is in time (R23). -/
def mergeTimeout (s : State) : State :=
  match s.tim.mergeEnd with
  | none => s
  | some e => if inTime (isSyncArrival s) s then advanceTo e s else s |> advanceTo e |> endMerge 2

/-- wait_ms passes without a Sync, or with only flagged Syncs (R295). -/
def mergeWaitExpiry (s : State) : State :=
  match s.tim.waitEnd, s.tim.flaggedSince with
  | some e, _ =>
    if inTime (isSyncArrival s) s then advanceTo e s else
    s |> advanceTo e |> modTim (fun x => { x with waitEnd := none }) |> loseSlave
      |> whenT (s.on Fld.TIM_STATUS_gm_yielded) gmResume
  | none, some c =>
    let e := c + s.getF Fld.TIM_MERGE_CFG_wait_ms * cyclesPerMs
    if inTime (isSyncArrival s) s then advanceTo e s
    else if s.on Fld.TIM_STATUS_gm_yielded then
      s |> advanceTo (c + s.getF Fld.TIM_MERGE_CFG_wait_ms * cyclesPerMs) |> gmResume
    else s
  | none, none => s

/-! ### Native Syncs (R291, R292) -/

/-- A native Sync frame; its origin time is filled in as it starts. -/
def syncFrame (s : State) (line seq : Nat) (flagged : Bool) : List Byte :=
  let d := line / 2
  be 6 llTimeMac ++ be 6 (s.macOf (48 + line)) ++ be 2 0x88F7 ++
    [byte 0x10, byte 0x12] ++ be 2 76 ++ [byte (s.getF Fld.TIM_BB_CTRL_domain), byte 0, byte (32 * b2n flagged), byte 0] ++
    zeros 12 ++ be 8 s.nodeId ++ be 2 (d + 1) ++ be 2 seq ++
    [byte 0, byte (codeOf 8 (signedOf 4 (s.getF Fld.TIM_BB_CTRL_log_sync)))] ++ zeros 10 ++
    be 2 3 ++ be 2 28 ++ be 6 0x0080C2000001 ++ be 4 (codeOf 32 (2 * s.getI Fld.TIM_RATE_rate)) ++ zeros 18

/-- A native Sync starts on a line: its origin time, and the fraction in its correctionField (R277). -/
def startSync (n : Nat) (l : List Byte) (s : State) : List Byte :=
  let t := txTime16 s (48 + n)
  patch (patch l 22 (be 8 (frac16 t))) 48 (be 6 (sec16 t) ++ be 4 (ns16 t))

/-- What is filled in as a frame of port S starts: in those of class 6, the Syncs, the time. -/
def startOwnFrame (n : Nat) (f : Frame) (s : State) : List Byte × State :=
  if f.cls = 6 then (startSync n f.data s, s) else startSpireFrame n f.inStamp f.data s

/-- A Sync on every UP line of a direction, from port S at row (56, 6) (R291). -/
def sendSync (d : Nat) (s : State) : State :=
  let flagged := !gmActive s && (servoState s == Servo.holdover || s.tim.flagIn)
  let seq := (if d = 0 then s.tim.seq1 else s.tim.seq2) + 1
  let s := modTim (fun x => if d = 0 then { x with seq1 := seq % 2 ^ 16 } else { x with seq2 := seq % 2 ^ 16 }) s
  each (upLines s d) (fun n t => sendFromS n 6 0 (pad60 (syncFrame t n (seq % 2 ^ 16) flagged)) t) s

/-- SYNC_SEND: the extra Syncs owed, else the periodic ones at their instant (R291). -/
def syncSend (s : State) : State :=
  match s.tim.extra with
  | [] =>
    let s := advanceTo s.tim.nextSync s
    let due := s.tim.nextSync + syncCycles s
    let s := modTim (fun x => { x with nextSync := if due ≤ s.cycle then s.cycle + syncCycles s else due }) s
    each (masters s) sendSync s
  | l =>
    let m := masters s
    s |> modTim (fun x => { x with extra := [] }) |> each (l.filter m.contains) sendSync

/-- rho of a line as dr / dt (R93). -/
def lineRho (s : State) (n : Nat) : Nat × Nat :=
  match (s.line n).periodic with
  | a :: b :: _ =>
    let dr := (a.1 + 2 ^ 32 - b.1) % 2 ^ 32
    let dt := (a.2 + 2 ^ 32 - b.2) % 2 ^ 32
    if dr = 0 ∨ dt = 0 then (1, 1) else (dr, dt)
  | _ => (1, 1)

/-- An accepted Sync with ingress time t2 (R290, R292, R295). -/
def syncAccept (n : Nat) (t2 : Int) (l : List Byte) (s : State) : State :=
  let p := 48 + n
  let d := dirOf n + 1
  let flagged := bit (beAt l 20 1) 5
  let s := if slaveDir s = d then s else takeSlave d s
  let since := if flagged then (match s.tim.flaggedSince with
    | none => some s.cycle
    | o => o) else none
  let s := modTim (fun x => { x with lastGood := if flagged then x.lastGood else s.cycle, flagIn := flagged, waitEnd := none,
                                     flaggedSince := since, syncDue := some (s.cycle + 3 * syncCycles s) }) s
  let t1 : Int := (((beAt l 48 6 * 1000000000 + beAt l 54 4) * 65536 : Nat) : Int) + signedOf 64 (beAt l 22 8)
  let da : Int := ((s.getF (Fld.SPR_LINK_DELAY_delay n) * 8192 : Nat) : Int) + s.getI (Fld.TIM_PORT_ASYM_asym p)
  let o16 := t2 - t1 - da
  let rho := lineRho s n
  let r := servoAccept o16 (syncNs s) (signedOf 32 (beAt l 68 4)) rho.1 rho.2 s
  let s := modTim (fun x => { x with lastOff := o16 / 65536 }) r.2
  if mergeDir s = d ∧ !r.1 ∧ o16.natAbs ≤ 1000 * 65536 then endMerge 1 s else s

/-- A native Sync, its first bit at the instant `at_`: admitted and delivered to S at row (line, 6); accepted on the first UP
line of the slave direction, or of a direction that becomes it (R290, R291). -/
def takeSync (n at_ : Nat) (l : List Byte) (s : State) : State :=
  let r := takeToS (48 + n) 6 at_ l s
  if !r.1 then r.2
  else
    let s := r.2
    let d := dirOf n + 1
    let flagged := bit (beAt l 20 1) 5
    if portState s (48 + n) ≠ 2 ∨ !servoOwns s ∨ firstUp s (dirOf n) ≠ some n then s
    else if slaveDir s = d ∨ slaveDir s = 0 ∨ (!flagged ∧ s.tim.lastGood + 3 * syncCycles s ≤ s.cycle) then syncAccept n (rxTime16 s (48 + n) at_) l s
    else s

/-- 3 × T have passed without a Sync (R286); one of that cycle is in time (R23). -/
def syncTimeout (s : State) : State :=
  match s.tim.syncDue with
  | none => s
  | some e => if inTime (isSyncArrival s) s then advanceTo e s else s |> advanceTo e |> enterHoldover

/-! ### Host writes (R282 to R288) -/

/-- TIM_RATE was written; `old` is the rate shown before. -/
def rateWritten (old : Nat) (s : State) : State :=
  let new := s.getI Fld.TIM_RATE_rate
  if servoOwns s then s |> setR Reg.TIM_RATE old |> count Reg.TIM_REFUSED
  else if s.tim.slewEnd.isSome then
    s |> setR Reg.TIM_RATE old |> modTim (fun x => { x with held := some new }) |> setF Fld.TIM_STATUS_rate_held 1
  else setRate new s

def addend (s : State) : Nat := (s.reg Reg.TIM_ADDEND_HI).toNat * 2 ^ 32 + (s.reg Reg.TIM_ADDEND_LO).toNat

/-- A new addend applies from the cycle after the write of TIM_ADDEND_HI (R288). -/
def addendWritten (s : State) : State :=
  if s.on Fld.TIM_CTRL_inc_mode then { advance 1 (noteTime s) with timeInc := addend s * 2 ^ 10 } else s

/-- inc_mode changed from `old` (R288): the addend is loaded from the rate, or the rate from the addend. -/
def incModeWritten (old : Nat) (s : State) : State :=
  let was := bit old 0
  let now := s.on Fld.TIM_CTRL_inc_mode
  if was = now then s
  else if now then
    let a := s.timeInc / 2 ^ 10
    let s := s |> setR Reg.TIM_ADDEND_LO (a % 2 ^ 32) |> setR Reg.TIM_ADDEND_HI (a / 2 ^ 32)
      |> setF Fld.TIM_STATUS_slewing 0 |> setF Fld.TIM_STATUS_rate_held 0
      |> modTim (fun x => { x with slewEnd := none, slewLeft := 0, held := none })
    { noteTime s with timeInc := a * 2 ^ 10 }
  else setRate (nearest ((addend s * 2 ^ 10 : Nat) : Int) 5 - 2 ^ 40) s

def permitGrant (s : State) : State :=
  s |> setF Fld.TIM_STATUS_permit_grant 1 |> modTim (fun x => { x with grantEnd := some (s.cycle + 10 * cyclesPerS) })

def permitLapse (s : State) : State :=
  match s.tim.grantEnd with
  | none => s
  | some e => s |> advanceTo e |> setF Fld.TIM_STATUS_permit_grant 0 |> setF Fld.TIM_PERMIT_grant 0 |> modTim (fun x => { x with grantEnd := none })

/-- The correlation latch (R296). -/
def correlate (s : State) : State :=
  s |> setR Reg.TIM_CORR_FRAC s.timeFrac |> setR Reg.TIM_CORR_NS s.timeNs |> setR Reg.TIM_CORR_SEC_LO (s.timeSec % 2 ^ 32)
    |> setR Reg.TIM_CORR_SEC_HI (s.timeSec / 2 ^ 32) |> setR Reg.TIM_CORR_STAMP s.stamp
    |> setR Reg.TIM_CORR_CAN_LO (s.canStamp % 2 ^ 32) |> setR Reg.TIM_CORR_CAN_HI (s.canStamp / 2 ^ 32)

/-! ### SYNC pins and PPS (R297, R298) -/

def syncMode (s : State) (n : Nat) : Nat := s.getF (Fld.TIM_SYNC_CFG_mode n)

def syncFifo (s : State) (n : Nat) : List (Nat × Nat) := Sparse.get (fun _ => []) s.tim.fifos n

/-- Store a capture FIFO and show its head and fill. -/
def setFifo (n : Nat) (l : List (Nat × Nat)) (s : State) : State :=
  let h := l.headD (0, 0)
  s |> modTim (fun x => { x with fifos := Sparse.put (fun _ => []) x.fifos n l })
    |> setF (Fld.TIM_SYNC_CFG_fill n) l.length |> setR (Reg.TIM_SYNC_CAP_NS n) h.2 |> setR (Reg.TIM_SYNC_CAP_SEC n) h.1

def syncCapture (n : Nat) (s : State) : State :=
  let l := syncFifo s n
  if 8 ≤ l.length then s |> count (Reg.TIM_SYNC_LOST n) |> latch Fld.TIM_EVENT_sync_overflow
  else s |> setFifo n (l ++ [(s.timeSec % 2 ^ 32, s.timeNs)]) |> latch Fld.TIM_EVENT_sync_cap

def capturesEdge (mode : Nat) (rising : Bool) : Bool :=
  if rising then mode == 1 || mode == 3 || mode == 6 else mode == 2 || mode == 3

/-- A SYNC ball takes a level (R297). -/
def syncPinIn (n : Nat) (level : Bool) (s : State) : State :=
  let was := s.tim.pinsIn.contains n
  let s := modTim (fun x => { x with pinsIn := if level then (if was then x.pinsIn else n :: x.pinsIn) else x.pinsIn.filter (· != n) }) s
  if was != level && capturesEdge (syncMode s n) level then syncCapture n s else s

/-- A read of TIM_SYNC_CAP_NS pops the head; its seconds stay for the read that follows (R51). -/
def syncPop (n : Nat) (s : State) : State :=
  let l := syncFifo s n
  let h := l.headD (0, 0)
  let a := Reg.TIM_SYNC_CAP_SEC n
  let s := { s with snaps := Sparse.ins (Sparse.drop s.snaps a) a (BitVec.ofNat 32 h.1) }
  let s := setFifo n l.tail s
  { s with host := { s.host with lastRead := BitVec.ofNat 32 h.2 } }

/-- Drive a SYNC ball. -/
def driveSync (n : Nat) (level : Bool) (s : State) : State :=
  if s.tim.pinsOut.contains n = level then s
  else
    s |> modTim (fun x => { x with pinsOut := if level then n :: x.pinsOut else x.pinsOut.filter (· != n) })
      |> emitOut (.pin (Pin.sync n) level)

/-- Units of node time in a second. -/
def secUnits : Nat := 1000000000 * nsUnits

/-- PPS_PULSE: the next instant of a whole second plus the offset; one reached in this very cycle and not yet served
counts (R298). -/
def ppsPulse (n : Nat) (s : State) : State :=
  if syncMode s n ≠ 4 then s
  else
    let t : Int := (s.time : Int) - s.getI (Fld.TIM_SYNC_OFFSET_offset n) * (nsUnits : Int)
    let past : Nat := (t % (secUnits : Int)).toNat
    let now := decide (past < s.timeInc) && Sparse.find s.tim.ppsAt n != some s.cycle
    let s := if now then s else advance (ceilDiv (secUnits - past) s.timeInc) s
    s |> driveSync n (!s.on (Fld.TIM_SYNC_CFG_polarity n))
      |> modTim (fun x => { x with
           ppsAt := Sparse.ins (Sparse.drop x.ppsAt n) n s.cycle,
           ppsEnd := Sparse.ins (Sparse.drop x.ppsEnd n) n (s.cycle + s.getF (Fld.TIM_SYNC_CFG_width_us n) * cyclesPerUs) })

def ppsEnd (n : Nat) (s : State) : State :=
  match Sparse.find s.tim.ppsEnd n with
  | none => s
  | some e =>
    s |> advanceTo e |> modTim (fun x => { x with ppsEnd := Sparse.drop x.ppsEnd n }) |> driveSync n (s.on (Fld.TIM_SYNC_CFG_polarity n))

/-- TIM_SYNC_CFG was written: a pin in PPS mode rests at its inactive level, others are released. -/
def syncCfgWritten (n : Nat) (old : Nat) (s : State) : State :=
  let mode := syncMode s n
  let s := if old % 8 ≠ mode then modTim (fun x => { x with ppsEnd := Sparse.drop x.ppsEnd n, pinsCar := x.pinsCar.filter (fun p => p.1 != n) }) s else s
  if mode = 4 ∧ (Sparse.find s.tim.ppsEnd n).isNone then driveSync n (s.on (Fld.TIM_SYNC_CFG_polarity n)) s
  else if mode ≠ 4 ∧ mode ≠ 5 then modTim (fun x => { x with pinsOut := x.pinsOut.filter (· != n) }) s
  else s

/-! ### Time frames on their way (R272, R276 to R280) -/

/-- The offset of the PTP header of a frame without Backbone Epoch Tag (R272). -/
def ptpAt (l : List Byte) : Option Nat :=
  if etherType l = 0x88F7 then some (l3At l)
  else
    match udpAt l with
    | some u => if beAt l (u + 2) 2 = 319 ∨ beAt l (u + 2) 2 = 320 then some (u + 8) else none
    | none => none

def isTimeFrame (l : List Byte) : Bool := (ptpAt l).isSome

def ptpType (l : List Byte) (k : Nat) : Nat := beAt l k 1 % 16

/-- Write bytes at an even offset of the PTP message and keep the UDP checksum valid (R278): over IPv4 a checksum that is not 0
becomes 0, over IPv6 the last two bytes of the payload make up for what changed. -/
def ptpPatch (l : List Byte) (k : Nat) (p : List Byte) : List Byte :=
  let m := patch l k p
  match udpAt l with
  | none => m
  | some u =>
    if isIpv4 l then (if beAt m (u + 6) 2 = 0 then m else patch m (u + 6) (zeros 2))
    else
      let add : Nat := (List.range (p.length / 2)).foldl (fun a i =>
        onesFold (a + beAt l (k + 2 * i) 2 + (0xFFFF - beAt m (k + 2 * i) 2))) 0
      let len := beAt l (u + 4) 2
      let z := u + len - 2
      let swap := fun x => x % 256 * 256 + x / 256
      let x := beAt l z 2
      let y := if len % 2 = 0 then onesFold (x + add) else swap (onesFold (swap x + add))
      patch m z (be 2 y)

/-- Add to the correctionField of a message at k, in scaled nanoseconds. -/
def addCorrection (l : List Byte) (k : Nat) (c : Int) : List Byte :=
  ptpPatch l (k + 8) (be 8 (codeOf 64 (signedOf 64 (beAt l (k + 8) 8) + c)))

/-- asym_apply works at the port: host mode, which edge ports are always in (R276, R289). -/
def asymApplies (s : State) (p : Nat) : Bool :=
  s.on (Fld.TIM_PORT_CFG_asym_apply p) && (decide (p < 48) || !timeNative s)

/-- A received Sync loses the asymmetry of its port (R276). -/
def asymIn (s : State) (p : Nat) (l : List Byte) : List Byte :=
  match ptpAt l with
  | none => l
  | some k => if ptpType l k = 0 ∧ asymApplies s p then addCorrection l k (-s.getI (Fld.TIM_PORT_ASYM_asym p)) else l

/-- A two-step Sync that a transparent clock forwards unchanged and counts (R280). -/
def tcTwoStep (s : State) (f : Frame) (l : List Byte) : Bool :=
  match ptpAt l with
  | none => false
  | some k => s.on Fld.TIM_CTRL_tc && decide (f.inPort < 52) && ptpType l k == 0 && bit (beAt l (k + 6) 1) 1

/-- The time fields of a frame as it leaves port p: one-step insertion, transparent clock correction, asymmetry. -/
def timeOut (s : State) (f : Frame) (p : Nat) (l : List Byte) : List Byte :=
  match ptpAt l with
  | none => l
  | some k =>
    let t := txTime16 s p
    let ty := ptpType l k
    let l := if f.oneStep ∧ f.inPort = portH then
        if ty ≤ 1 then addCorrection (ptpPatch l (k + 34) (be 6 (sec16 t) ++ be 4 (ns16 t))) k (frac16 t)
        else if ty = 3 then addCorrection l k (t - ((f.reqSec * 1000000000 + f.reqNs) * 65536 : Nat))
        else l
      else l
    let l := if s.on Fld.TIM_CTRL_tc ∧ f.inPort < 52 ∧ ty ≤ 3 ∧ !(ty == 0 && bit (beAt l (k + 6) 1) 1) then
        let d : Nat := (s.stamp + s.getF (Fld.TIM_PORT_LAT_tx p) + 2 ^ 32 - f.inStamp) % 2 ^ 32
        let res : Int := ((d * 8192 : Nat) : Int) * (2 ^ 40 + s.getI Fld.TIM_RATE_rate) / 2 ^ 40
        let p2p : Int := if ty = 0 ∧ s.on (Fld.TIM_PORT_CFG_p2p f.inPort) then ((s.reg (Reg.TIM_PORT_DELAY f.inPort)).toNat : Int) else 0
        addCorrection l k (res + p2p)
      else l
    if ty = 1 ∧ asymApplies s p then addCorrection l k (s.getI (Fld.TIM_PORT_ASYM_asym p)) else l

end Sys2Proof.Machine
end

