-- ==== Sys2Proof/Machine/Phase.lean ====
section
/-! DEFINITION. Phase domains (chapter 09): positions, the PLL of references, lock states, corrections. -/
namespace Sys2Proof.Machine

def State.dom (s : State) (d : Nat) : Domain := Sparse.get (fun _ => Domain.zero) s.doms d
def setDom (d : Nat) (x : Domain) (s : State) : State := { s with doms := Sparse.put (fun _ => Domain.zero) s.doms d x }
/-- Change a domain; a change of position or increment is noted, so that an earlier position can still be told. -/
def modDom (d : Nat) (f : Domain → Domain) (s : State) : State :=
  let x := s.dom d
  let y := f x
  setDom d (if y.pos = x.pos ∧ y.inc = x.inc then y else { y with past := ((s.cycle, (x.pos, x.inc)) :: x.past).take 64 }) s
def modCar (f : Carillon → Carillon) (s : State) : State := { s with car := f s.car }

/-! ### Codes (R304, R307) -/

def Src.ptp : Nat := 0
def Src.mains : Nat := 1
def Src.tach : Nat := 2
def Src.sync : Nat := 3

def Lk.off : Nat := 0
def Lk.acquire : Nat := 1
def Lk.locked : Nat := 2
def Lk.hold : Nat := 3
def Lk.slip : Nat := 4

def phsSource (s : State) (d : Nat) : Nat := s.getF (Fld.PHS_CTRL_source d)
def lockState (s : State) (d : Nat) : Nat := s.getF (Fld.PHS_STATUS_lstate d)
def domParam (s : State) (d : Nat) : Nat := max 1 (s.reg (Reg.PHS_PERIOD d)).toNat
def domOffset (s : State) (d : Nat) : Nat := (s.reg (Reg.PHS_OFFSET d)).toNat

/-! ### Positions (R303, R305) -/

/-- The position of a PTP domain at t whole nanoseconds, with period and offset. -/
def ptpPosition (t : Int) (period off : Nat) : Nat :=
  let x := t - off
  (x / (period : Int) % (2 ^ 32 : Nat)).toNat * 2 ^ 32 + (x % (period : Int)).toNat * 2 ^ 32 / period

/-- The position of a running domain: 64 bits, C and phase. -/
def movingPosition (s : State) (d : Nat) : Nat :=
  if phsSource s d = Src.ptp then ptpPosition s.nsTotal (domParam s d) (domOffset s d)
  else ((s.dom d).pos / (2 ^ 32 : Nat) % (2 ^ 64 : Nat)).toNat

def position (s : State) (d : Nat) : Nat :=
  if lockState s d = Lk.off then ((s.dom d).pos / (2 ^ 32 : Nat) % (2 ^ 64 : Nat)).toNat else movingPosition s d

def phaseNow (s : State) (d : Nat) : Nat := position s d % 2 ^ 32
def cycleNow (s : State) (d : Nat) : Nat := position s d / 2 ^ 32

/-- The increment in 2^-32 phase units per CCLK cycle. -/
def domInc (s : State) (d : Nat) : Int :=
  if phsSource s d = Src.ptp then ((s.timeInc * 2 ^ 64 / (domParam s d * nsUnits) : Nat) : Int) else (s.dom d).inc

/-- PHS_FREQ in mHz. -/
def domFreq (s : State) (d : Nat) : Nat :=
  if lockState s d = Lk.off then 0
  else if phsSource s d = Src.ptp then 10 ^ 12 / domParam s d
  else (s.dom d).inc.natAbs * 800000000000 / 2 ^ 64

/-- Milliseconds since the domain last left LOCKED (R326). -/
def holdMs (s : State) (d : Nat) : Nat :=
  match (s.dom d).leftAt with
  | none => 0
  | some c => min ((s.cycle - c) / cyclesPerMs) 0xFFFF

/-! ### Corrections (R316) -/

/-- A correction moved the position of a domain from one value to another: a forward one is a jump; a backward one
of more than a cycle clears the domain's marks. -/
def corrected (d old new : Nat) (s : State) : State :=
  let s := count (Reg.PHS_CORRECT d) s
  match (s.dom d).prev with
  | none => s
  | some _ =>
    let fwd := (new + 2 ^ 64 - old) % 2 ^ 64
    if fwd = 0 then s
    else if fwd < 2 ^ 63 then modDom d (fun x => { x with jumps := x.jumps ++ [(old, fwd)] }) s
    else if 2 ^ 64 - fwd > 2 ^ 32 then
      let mine := fun k => match Sparse.find s.car.events k with
        | some e => e.2.1 / 2 ^ 28 % 8 == d
        | none => false
      let gone := s.car.marks.filter (fun p => mine p.1)
      s |> modCar (fun x => { x with marks := x.marks.filter (fun p => !mine p.1),
                                     served := gone ++ x.served.filter (fun p => !gone.any (fun q => q.1 == p.1)) })
        |> modDom d (fun x => { x with prev := some new, jumps := [] })
    else s

/-- The node time was stepped by a count of time units: every PTP domain that runs moves with it (R305). -/
def phaseStepped (by_ : Int) (s : State) : State :=
  let before : Int := ((s.time : Int) - by_) / (nsUnits : Int)
  each (List.range 8) (fun d t =>
    if lockState t d ≠ Lk.off ∧ phsSource t d = Src.ptp then
      corrected d (ptpPosition before (domParam t d) (domOffset t d)) (position t d) t
    else t) s

/-! ### Lock states (R307, R308) -/

/-- A domain moves to a lock state: its event, PD0's record and hold limit. -/
def moveLock (d st : Nat) (s : State) : State :=
  let was := lockState s d
  if was = st then s
  else
    let held := if was = Lk.locked then 0 else holdMs s d
    let s := setF (Fld.PHS_STATUS_lstate d) st s
    let s := if st = Lk.locked then
        s |> latchBits Fld.PHS_EVENT_locked (2 ^ d) |> modDom d (fun x => { x with wasLocked := true, leftAt := none })
      else whenT (was == Lk.locked) (modDom d (fun x => { x with leftAt := some s.cycle })) s
    let s := whenT (st == Lk.hold) (latchBits Fld.PHS_EVENT_hold (2 ^ d)) s
    let s := whenT (st == Lk.slip) (latchBits Fld.PHS_EVENT_slip (2 ^ d)) s
    if d ≠ 0 then s
    else
      let s := whenT (st == Lk.hold || was == Lk.hold)
        (record 0x33 ([if st = Lk.hold then 0 else 1, st] ++ dle 2 held)) s
      if st = Lk.locked then modCar (fun x => { x with pd0Since := none }) s
      else if was = Lk.locked then s |> modCar (fun x => { x with pd0Since := some s.cycle }) |> later .pd0Left
      else s

/-- The next reference will be the first (R306). -/
def firstAgain (now : Nat) (x : Domain) : Domain :=
  { x with seen := 0, lastAt := now, run := 0, bad := 0, missed := 0, spacings := [], holdAt := none, index := false, prev := none, jumps := [] }

/-- A domain enters ACQUIRE anew at a change of source, input or param (R307). None of its events fires before its first
reference (R315). -/
def reacquire (d : Nat) (s : State) : State :=
  if lockState s d = Lk.off then s
  else s |> modDom d (firstAgain s.cycle) |> moveLock d Lk.acquire

/-- The lock state of a PTP domain follows the time servo (R308); one that leaves HOLD passes through ACQUIRE and counts a
correction (R309). -/
def judgePtp (d : Nat) (s : State) : State :=
  if lockState s d = Lk.off ∨ phsSource s d ≠ Src.ptp then s
  else
    let v := servoState s
    if v = Servo.locked ∨ gmActive s ∨ (!timeNative s ∧ s.on (Fld.PHS_CTRL_host_lock d)) then
      s |> whenT (lockState s d == Lk.hold) (fun t => t |> count (Reg.PHS_CORRECT d) |> moveLock d Lk.acquire) |> moveLock d Lk.locked
    else if v = Servo.holdover ∨ (v = Servo.free ∧ (s.dom d).wasLocked) ∨ lockState s d = Lk.hold then moveLock d Lk.hold s
    else moveLock d Lk.acquire s

/-- PHS_CTRL.enable takes effect: a domain starts in ACQUIRE, or is OFF with its position frozen (R307). -/
def judgeEnable (d : Nat) (s : State) : State :=
  let on := s.on (Fld.PHS_CTRL_enable d)
  if on ∧ lockState s d = Lk.off then
    s |> modDom d (fun x => { firstAgain s.cycle x with wasLocked := false }) |> moveLock d Lk.acquire
  else if !on ∧ lockState s d ≠ Lk.off then
    let p : Int := (position s d * 2 ^ 32 : Nat)
    s |> modDom d (fun x => { x with pos := p, inc := 0, prev := none, jumps := [] }) |> moveLock d Lk.off
  else s

/-- An enable that has changed takes effect in the next cell time (R307). -/
def enableLater (d : Nat) (s : State) : State :=
  if s.on (Fld.PHS_CTRL_enable d) = decide (lockState s d ≠ Lk.off) ∨ awaitsSoon (.phase d) s then s
  else inCycles (8 - s.cycle % 8) (.phase d) s

/-- The lock states as the time engine and the enables stand. -/
def settlePhase (s : State) : State := each (List.range 8) (fun d t => t |> enableLater d |> judgePtp d) s

/-! ### The PLL (R306, R309, R310) -/

/-- The increment of a nominal frequency in mHz. -/
def incOfMhz (mhz : Nat) : Int := (mhz * 2 ^ 64 / 800000000000 : Nat)

/-- The limits of the increment; a tachometer has none. -/
def incClamp (s : State) (d : Nat) (v : Int) : Int :=
  if phsSource s d = Src.mains then max (incOfMhz 15000) (min v (incOfMhz 65000))
  else if phsSource s d = Src.sync then max (incOfMhz 1000) (min v (incOfMhz 100000000))
  else v

/-- Replace the phase, keeping C. -/
def putPhase (ref : Nat) (p : Int) : Int :=
  (p / (2 ^ 64 : Nat)) * (2 ^ 64 : Nat) + ((ref % 2 ^ 32) * 2 ^ 32 : Nat)

/-- Cycles of one reference period at an increment: a cycle, or one edge spacing. -/
def refPeriod (inc : Int) (perRev : Nat) : Nat := if inc = 0 then 0 else 2 ^ 64 / (inc.natAbs * perRev)

/-- The position of a running domain some cycles ago, as it was then: what has changed it since is left out. -/
def positionAgo (s : State) (d ago : Nat) : Nat :=
  if phsSource s d = Src.ptp then ptpPosition (timeBack s (10 * ago) / (nsUnits : Int)) (domParam s d) (domOffset s d)
  else
    let x := s.dom d
    let p : Int := match (x.past.takeWhile (fun p => decide (s.cycle ≤ p.1 + ago))).getLast? with
      | some e => e.2.1 - ((e.1 + ago - s.cycle : Nat) : Int) * e.2.2
      | none => x.pos - ago * x.inc
    (p / (2 ^ 32 : Nat) % (2 ^ 64 : Nat)).toNat

/-- The signed phase error of a reference stamped some cycles ago. -/
def phaseErrorAgo (s : State) (d ref ago : Nat) : Int := signedOf 32 (ref + 2 ^ 32 - positionAgo s d ago % 2 ^ 32)

def phaseError (s : State) (d ref : Nat) : Int := phaseErrorAgo s d ref 0

/-- The first reference after enable or HOLD: the phase is set and the increment taken from param. A tachometer's
param names no frequency, so its increment is an open value (assumption log 10). -/
def firstRef (d ref ago : Nat) (s : State) : State :=
  let src := phsSource s d
  let p := drawFree s
  let s := if src = Src.tach then p.2 else s
  let inc : Int := if src = Src.tach then ((p.1 : Nat) : Int) else incOfMhz (domParam s d)
  let s := modDom d (fun x => { x with pos := putPhase ref x.pos + ago * inc, inc := inc, est := inc, seen := 1, lastAt := s.cycle - ago,
                                       lastRef := ref, index := false, run := 0, bad := 0, missed := 0, spacings := [], holdAt := none }) s
  modDom d (fun x => { x with prev := match x.prev with
    | none => some (position s d)
    | o => o }) s

/-- φ and inc after an accepted reference with error e after delta cycles, stamped `ago` cycles ago; `fwd`: the source
runs forward. -/
def pllStep (d : Nat) (e : Int) (delta perRev ago : Nat) (fwd : Bool) (s : State) : State :=
  let kp := s.getF (Fld.PHS_LOOP_kp_shift d)
  let ki := s.getF (Fld.PHS_LOOP_ki_shift d)
  modDom d (fun x =>
    let first : Int := (2 ^ 64 / (max 1 delta * perRev) : Nat)
    let inc : Int := if x.seen = 1 then (if fwd then first else -first)
      else incClamp s d (x.inc + e * (2 ^ 32 : Nat) / ((max 1 delta : Nat) : Int) / (2 ^ ki : Nat))
    { x with pos := x.pos + e / (2 ^ kp : Nat) * (2 ^ 32 : Nat), inc := inc, est := inc, seen := 2, lastAt := s.cycle - ago, bad := 0, missed := 0 }) s

/-- One more reference rejected or missed (R308). -/
def refLost (d : Nat) (s : State) : State :=
  let x := s.dom d
  let s := modDom d (fun x => { x with incBefore := if x.bad = 0 then x.inc else x.incBefore, bad := x.bad + 1, run := 0 }) s
  if s.getF (Fld.PHS_LOOP_miss_limit d) ≤ x.bad + 1 then
    s |> modDom d (fun y => { y with inc := y.incBefore, est := y.incBefore, spacings := [], holdAt := none }) |> moveLock d Lk.hold
  else s

/-- The spacings agree with one another. -/
def spacingsAgree (l : List Nat) (tol : Nat) : Bool :=
  match l with
  | [] => true
  | a :: t => decide (t.foldl max a - t.foldl min a ≤ tol)

/-- The longest run of the newest spacings that agree with one another. -/
def agreeing (l : List Nat) (tol : Nat) : List Nat :=
  l.take (((List.range (l.length + 1)).reverse.find? (fun k => spacingsAgree (l.take k) tol)).getD 0)

/-- A crossing or SYNC edge in HOLD (R308, R309). -/
def holdRef (d ref ago : Nat) (s : State) : State :=
  let x := s.dom d
  let n := s.getF (Fld.PHS_LOOP_lock_count d)
  let l := match x.holdAt with
    | none => []
    | some c => (((s.cycle - ago - c) * x.inc.natAbs / 2 ^ 32) :: x.spacings).take (n - 1)
  let tol := s.getF (Fld.PHS_LOOP_reject_window d) * 2 ^ 24
  let l := agreeing l tol
  let s := modDom d (fun y => { y with spacings := l, holdAt := some (s.cycle - ago) }) s
  if n ≤ l.length + 1 then
    let old := position s d
    let s := firstRef d ref ago s
    s |> corrected d old (position s d) |> moveLock d Lk.acquire
  else s

/-- A rising mains crossing or SYNC edge stamped `ago` cycles ago (R306, R308). -/
def cyclicRef (d ago : Nat) (s : State) : State :=
  let x := s.dom d
  let ref := domOffset s d
  if lockState s d = Lk.hold then holdRef d ref ago s
  else if x.seen = 0 then firstRef d ref ago s
  else
    let e := phaseErrorAgo s d ref ago
    let delta := s.cycle - ago - x.lastAt
    let early := decide (2 * delta < refPeriod x.inc 1)
    let far := decide (s.getF (Fld.PHS_LOOP_reject_window d) * 2 ^ 24 < e.natAbs)
    if early ∨ far then s |> count (Reg.PHS_REJECTS d) |> refLost d
    else
      let s := pllStep d e delta 1 ago true s
      let run := if e.natAbs ≤ s.getF (Fld.PHS_LOOP_lock_window d) * 2 ^ 16 then x.run + 1 else 0
      let s := modDom d (fun y => { y with run := run }) s
      if lockState s d = Lk.acquire ∧ s.getF (Fld.PHS_LOOP_lock_count d) ≤ run then moveLock d Lk.locked s else s

/-- An increment with the sign of the direction. -/
def signed (fwd : Bool) (inc : Int) : Int := if fwd then (inc.natAbs : Int) else -(inc.natAbs : Int)

/-- A quadrature edge (R306, R308 to R310); the one at the index position stands for the offset. A change of direction is no slip: the position runs the other way. -/
def tachEdge (d : Nat) (forward : Bool) (s : State) : State :=
  let x := s.dom d
  let per := domParam s d
  let fwd := forward != s.on (Fld.PHS_CTRL_reverse d)
  let ref := (if x.index then domOffset s d else if fwd then x.lastRef + 2 ^ 32 / per else x.lastRef + 2 ^ 32 - 2 ^ 32 / per) % 2 ^ 32
  if lockState s d = Lk.hold then
    let old := position s d
    let s := firstRef d ref 0 s
    s |> corrected d old (position s d) |> moveLock d Lk.acquire
  else if x.seen = 0 then firstRef d ref 0 s
  else
    let e := phaseError s d ref
    let delta := s.cycle - x.lastAt
    let want := refPeriod x.est per
    let inBand := decide (x.seen = 1) ||
      decide ((max delta want - min delta want) * 100 ≤ want * s.getF (Fld.PHS_SLIP_slip_pct d))
    let run := if inBand then x.run + 1 else 0
    let lockNow := s.getF (Fld.PHS_LOOP_lock_count d) ≤ run
    let turned := decide (1 < x.seen) && fwd != decide (0 ≤ x.inc)
    let s := modDom d (fun y => { y with run := run, lastRef := ref, index := false, inc := if 1 < y.seen then signed fwd y.inc else y.inc,
                                         est := if 1 < y.seen then signed fwd y.est else y.est }) s
    if lockState s d = Lk.slip ∨ (!inBand ∧ !turned) then
      let old := position s d
      let speed : Int := (2 ^ 64 : Nat) / ((max 1 delta) * per : Nat)
      let s := modDom d (fun y => { y with pos := y.pos + e * (2 ^ 32 : Nat), lastAt := s.cycle, inc := if fwd then speed else -speed }) s
      let s := corrected d old (position s d) s
      if lockState s d = Lk.slip ∧ lockNow then s |> modDom d (fun y => { y with inc := y.est }) |> moveLock d Lk.locked
      else moveLock d Lk.slip s
    else
      let s := pllStep d e delta per 0 fwd s
      if lockState s d = Lk.acquire ∧ lockNow then moveLock d Lk.locked s else s

/-- The index position of a tachometer: the quadrature edge of this cycle stands at it, or the next one (R306). -/
def indexSeen (d : Nat) (s : State) : State :=
  modDom d (fun x => if x.seen ≠ 0 ∧ x.lastAt = s.cycle then { x with lastRef := domOffset s d } else { x with index := true }) s

/-- PHASE_REFERENCE: a reference of the kind the domain's source takes; a mains reference is a crossing that the
domain's sense input reported (R393). -/
def phaseReference (d : Nat) (kind : RefEdge) (s : State) : State :=
  if lockState s d = Lk.off then s
  else
    match kind with
    | .mains =>
      match s.sd.refs.find? (fun p => p.1 == d) with
      | none => s
      | some p =>
        let s := { s with sd := { s.sd with refs := s.sd.refs.erase p } }
        if phsSource s d = Src.mains then cyclicRef d (s.cycle - p.2) s else s
    | .sync => if phsSource s d = Src.sync ∧ syncMode s (s.getF (Fld.PHS_CTRL_input d) % 4) = 6 then cyclicRef d 0 s else s
    | .tach forward => if phsSource s d = Src.tach then tachEdge d forward s else s
    | .index => if phsSource s d = Src.tach then indexSeen d s else s

/-- A quadrature edge of domain d waits behind the command and falls in the same cycle (R23). -/
def isTachEdge (d : Nat) (i : Instr) : Bool :=
  match i with
  | .phaseReference e (.tach _) _ => e.val == d
  | _ => false

/-- A crossing or SYNC edge of domain d waits behind the command and falls in the same cycle (R23). -/
def isCyclicEdge (d : Nat) (i : Instr) : Bool :=
  match i with
  | .phaseReference e .mains _ => e.val == d
  | .phaseReference e .sync _ => e.val == d
  | _ => false

/-- REFERENCE_MISS: 1.5 periods since the last accepted reference, and a period more for each miss since (R308). -/
def referenceMiss (d : Nat) (s : State) : State :=
  let x := s.dom d
  let st := lockState s d
  if (st = Lk.acquire ∨ st = Lk.locked) ∧ x.seen ≠ 0 ∧ (phsSource s d = Src.mains ∨ phsSource s d = Src.sync) then
    let p := refPeriod x.inc 1
    let s := advanceTo (x.lastAt + (2 * x.missed + 3) * p / 2) s
    if inTime (isCyclicEdge d) s then s
    else s |> count (Reg.PHS_MISSES d) |> modDom d (fun y => { y with missed := y.missed + 1 }) |> refLost d
  else s

/-- TACH_STILL: no edge for still_ms; the position stays at the phase of the last edge (R308, R309). -/
def tachStill (d : Nat) (s : State) : State :=
  let x := s.dom d
  if phsSource s d = Src.tach ∧ lockState s d ≠ Lk.off ∧ lockState s d ≠ Lk.hold then
    let s := advanceTo (x.lastAt + s.getF (Fld.PHS_SLIP_still_ms d) * cyclesPerMs) s
    if inTime (isTachEdge d) s then s
    else if x.seen = 0 then s |> modDom d (fun y => { y with inc := 0 }) |> moveLock d Lk.hold
    else
    s |> modDom d (fun y => { y with pos := y.pos + signedOf 32 (y.lastRef + 2 ^ 32 - phaseNow s d) * (2 ^ 32 : Nat), inc := 0 })
      |> moveLock d Lk.hold
  else s

/-- PD0_LIMIT (R311). -/
def pd0Limit (s : State) : State :=
  match s.car.pd0Since with
  | none => s
  | some c =>
    s |> advanceTo (c + s.getF Fld.PHS_PD0_LIM_hold_ms * cyclesPerMs) |> modCar (fun x => { x with pd0Since := none })
      |> latch Fld.PHS_EVENT_pd0_limit |> trigger 5

/-- PHS_OFFSET was written over `old`: a correction (R316). -/
def offsetWritten (d old : Nat) (s : State) : State :=
  if lockState s d = Lk.off then s
  else if phsSource s d = Src.ptp then
    corrected d (ptpPosition s.nsTotal (domParam s d) old) (position s d) s
  else
    let was := position s d
    let s := modDom d (fun x => { x with pos := x.pos + signedOf 32 (domOffset s d + 2 ^ 32 - old) * (2 ^ 32 : Nat) }) s
    corrected d was (position s d) s

/-- When a position is next reached: CCLK cycles from now, if the domain moves forward (R319). -/
def cyclesTo (s : State) (d pos : Nat) : Option Nat :=
  let gap := (pos + 2 ^ 64 - position s d) % 2 ^ 64
  let inc := domInc s d
  if lockState s d = Lk.off ∨ inc ≤ 0 ∨ 2 ^ 63 ≤ gap then none else some (ceilDiv (gap * 2 ^ 32) inc.toNat)

end Sys2Proof.Machine
end

