-- ==== Sys2Proof/Machine/Fdb.lean ====
section
/-! DEFINITION. The forwarding database (R173 to R181): entries, lookups, learning, ageing, commands. An entry lives in
its FDB_ENTRY words. -/
namespace Sys2Proof.Machine

/-- A word of a table memory has an uncorrectable error (R589): memory code and BAR0 offset. -/
def badWord (s : State) (code off : Nat) : Bool := s.fab.badWords.contains (code, off)

/-! ### Entries (R173, R174) -/

def fdbBucket (mac vid : Nat) : Nat := crc16 (be 6 mac ++ be 2 vid) % 2 ^ 11

def fdbValid (s : State) (i : Nat) : Bool :=
  s.on (Fld.FDB_ENTRY2_valid i) && !badWord s 4 (Reg.FDB_ENTRY0 i) && !badWord s 4 (Reg.FDB_ENTRY1 i) &&
    !badWord s 4 (Reg.FDB_ENTRY2 i)

def fdbMac (s : State) (i : Nat) : Nat :=
  s.getF (Fld.FDB_ENTRY1_mac_hi i) * 2 ^ 32 + (s.reg (Reg.FDB_ENTRY0 i)).toNat

def fdbHas (s : State) (mac vid i : Nat) : Bool :=
  fdbValid s i && fdbMac s i == mac && s.getF (Fld.FDB_ENTRY1_vid i) == vid

/-- The index of the entry with a key. -/
def fdbFind (s : State) (mac vid : Nat) : Option Nat :=
  let b := 4 * fdbBucket mac vid
  [b, b + 1, b + 2, b + 3].find? (fdbHas s mac vid)

def fdbFreeWay (s : State) (mac vid : Nat) : Option Nat :=
  let b := 4 * fdbBucket mac vid
  [b, b + 1, b + 2, b + 3].find? (fun i => !s.on (Fld.FDB_ENTRY2_valid i))

/-- Words 1 and 2 of an entry. -/
def entryWord1 (mac vid : Nat) : Nat := vid * 2 ^ 16 + mac / 2 ^ 32
def entryWord2 (static : Bool) (kind epoch : Nat) (hit : Bool) (age dest : Nat) : Nat :=
  2 ^ 31 + b2n static * 2 ^ 30 + kind * 2 ^ 28 + epoch % 2 ^ 8 * 2 ^ 16 + b2n hit * 2 ^ 15 + age * 2 ^ 12 + dest % 2 ^ 10

def showUsed (n : Int) (s : State) : State :=
  setF Fld.FDB_STATUS_used ((s.getF Fld.FDB_STATUS_used : Int) + n).toNat s

/-- Write an entry; the words of a slot lose any error (R589). -/
def fdbPut (i w0 w1 w2 : Nat) (s : State) : State :=
  let was := s.on (Fld.FDB_ENTRY2_valid i)
  let s := modFab (fun x => { x with badWords := x.badWords.filter (fun p => p.1 != 4 || p.2 / 16 != Reg.FDB_ENTRY0 i / 16) }) s
  s |> setR (Reg.FDB_ENTRY0 i) w0 |> setR (Reg.FDB_ENTRY1 i) w1 |> setR (Reg.FDB_ENTRY2 i) w2
    |> showUsed ((b2n (bit w2 31) : Int) - b2n was)

def fdbRemove (i : Nat) (s : State) : State := fdbPut i 0 0 0 s

/-! ### A FLUSH under way (R179, R180) -/

/-- The indices of the entries in use, from the register file. -/
def fdbUsed (s : State) : List Nat :=
  s.regs.filterMap (fun p =>
    if Reg.FDB_ENTRY2 0 ≤ p.1 ∧ p.1 ≤ Reg.FDB_ENTRY2 8191 ∧ (p.1 - Reg.FDB_ENTRY2 0) % 16 = 0 then
      some ((p.1 - Reg.FDB_ENTRY2 0) / 16) else none)

/-- Does entry i pass the filters of a FLUSH? -/
def flushes (s : State) (c : FdbCmd) (i : Nat) : Bool :=
  let kind := s.getF (Fld.FDB_ENTRY2_kind i)
  fdbValid s i && (bit c.cmd 5 || !s.on (Fld.FDB_ENTRY2_static i)) &&
    (!bit c.cmd 3 || ((kind == 0 || kind == 3) && s.getF (Fld.FDB_ENTRY2_dest i) == c.cmd / 2 ^ 8 % 64)) &&
    (!bit c.cmd 4 || s.getF (Fld.FDB_ENTRY1_vid i) == c.d1 / 2 ^ 16 % 2 ^ 12) && (!bit c.cmd 6 || kind == 1)

/-- A FLUSH passes the 2,048 buckets in order, four CCLK cycles each: it removes from those it has passed by a cycle. -/
def flushAt (at_ : Nat) (s : State) : State :=
  match s.fab.fdbCmd with
  | none => s
  | some c =>
    if c.cmd % 8 ≠ 4 then s
    else
      let k := max c.passed (min 2048 ((at_ + 8192 - c.due) / 4))
      s |> each ((fdbUsed s).filter (fun i => decide (c.passed ≤ i / 4) && decide (i / 4 < k) && flushes s c i)) fdbRemove
        |> modFab (fun x => { x with fdbCmd := some { c with passed := k } })

/-- What a FLUSH has removed by now. -/
def flushPassed (s : State) : State := flushAt s.cycle s

/-- What it has removed before this cycle: a learn or ageing step goes ahead of a command in one cycle (R180). -/
def flushBefore (s : State) : State := flushAt (s.cycle - 1) s

/-! ### Lookup (R175, R176) -/

inductive Look where
  | port (dest : Nat)
  | train (tnn : Nat)
  | group (g : Nat)
  | miss
  deriving DecidableEq, Repr

/-- A lookup sets the hit bit, and judges a dynamic train entry by its epoch. -/
def fdbLookup (mac vid : Nat) (s : State) : Look × State :=
  let s := flushPassed s
  match fdbFind s mac vid with
  | none => (.miss, s)
  | some i =>
    let s := setF (Fld.FDB_ENTRY2_hit i) 1 s
    let dest := s.getF (Fld.FDB_ENTRY2_dest i)
    let kind := s.getF (Fld.FDB_ENTRY2_kind i)
    if kind = 2 then (.group dest, s)
    else if kind ≠ 1 then (.port dest, s)
    else if s.on (Fld.FDB_ENTRY2_static i) then (.train dest, s)
    else
      let e := s.getF (Fld.FDB_ENTRY2_epoch i)
      let m := (s.reg (Reg.EPO_MAP (dest % 64))).toNat
      if e = liveEpoch s then (.train dest, s)
      else if e = prevEpoch s ∧ m / 64 % 4 = 1 ∧ !badWord s 4 (Reg.EPO_MAP (dest % 64)) then
        (.train (m % 64), s |> setF (Fld.FDB_ENTRY2_dest i) (m % 64) |> setF (Fld.FDB_ENTRY2_epoch i) (liveEpoch s))
      else (.miss, s |> fdbRemove i |> count Reg.FDB_TRAIN_STALE)

/-! ### Learning (R177) -/

def learnNow (l : LearnReq) (s : State) : State :=
  let s := flushBefore s
  let kind := b2n l.train
  let dest := l.dest
  match fdbFind s l.mac l.vid with
  | some i =>
    if s.on (Fld.FDB_ENTRY2_static i) then s
    else
      let s := s |> setF (Fld.FDB_ENTRY2_hit i) 1 |> setF (Fld.FDB_ENTRY2_age i) 0
      if s.getF (Fld.FDB_ENTRY2_kind i) = kind ∧ s.getF (Fld.FDB_ENTRY2_dest i) = dest ∧
          s.getF (Fld.FDB_ENTRY2_epoch i) = l.epoch then s
      else
        s |> setF (Fld.FDB_ENTRY2_kind i) kind |> setF (Fld.FDB_ENTRY2_dest i) dest |> setF (Fld.FDB_ENTRY2_epoch i) l.epoch
          |> count Reg.FDB_MOVED
  | none =>
    match fdbFreeWay s l.mac l.vid with
    | some i =>
      s |> fdbPut i (l.mac % 2 ^ 32) (entryWord1 l.mac l.vid) (entryWord2 false kind l.epoch true 0 dest)
        |> count Reg.FDB_LEARNED
    | none => s |> count Reg.FDB_LEARN_FULL |> latch Fld.FDB_EVENT_learn_full

/-- A learn enters the queue of 64, or is lost. -/
def queueLearn (l : LearnReq) (s : State) : State :=
  if 64 ≤ s.fab.learnQueue.length then count Reg.FDB_LEARN_LOST s
  else modFab (fun x => { x with learnQueue := x.learnQueue ++ [l] }) s

/-- LEARN: the head of the queue is applied, one in a cell time. -/
def learnStep (s : State) : State :=
  match s.fab.learnQueue with
  | [] => s
  | l :: t =>
    let s := advanceTo (nextCell s s.fab.learnAt) s
    s |> modFab (fun x => { x with learnQueue := t, learnAt := s.cycle }) |> learnNow l

/-- A learn falls in this cycle. -/
def learnFalls (s : State) : Bool := !s.fab.learnQueue.isEmpty && nextCell s s.fab.learnAt == s.cycle

/-! ### Ageing (R178) -/

def ageEntry (i : Nat) (s : State) : State :=
  if !fdbValid s i ∨ s.on (Fld.FDB_ENTRY2_static i) then s
  else if s.on (Fld.FDB_ENTRY2_hit i) then s |> setF (Fld.FDB_ENTRY2_hit i) 0 |> setF (Fld.FDB_ENTRY2_age i) 0
  else if 2 ≤ s.getF (Fld.FDB_ENTRY2_age i) then s |> fdbRemove i |> count Reg.FDB_AGED
  else setF (Fld.FDB_ENTRY2_age i) (s.getF (Fld.FDB_ENTRY2_age i) + 1) s

def sweepInterval (s : State) : Nat := s.getF Fld.FDB_AGE_seconds * cyclesPerS / 4

/-- AGEING_SWEEP: the sweep that is due. -/
def ageingSweep (s : State) : State :=
  match s.fab.sweepDue with
  | none => s
  | some e =>
    let s := s |> advanceTo e |> flushBefore
    let s := modFab (fun x => { x with sweepDue := some (e + sweepInterval s) }) s
    each (fdbUsed s) ageEntry s

/-- FDB_CTRL was written over `old`: setting age schedules the first sweep; clearing it ends the sweeps. -/
def fdbCtrlWritten (old : Nat) (s : State) : State :=
  if s.on Fld.FDB_CTRL_age then
    if bit old 1 then s else modFab (fun x => { x with sweepDue := some (s.cycle + sweepInterval s) }) s
  else modFab (fun x => { x with sweepDue := none }) s

/-! ### Commands (R179, R180) -/

def fdbCmdOp (v : Nat) : Nat := if 6 ≤ v % 8 then 0 else v % 8

/-- FDB_CMD is written: the command takes its words and runs, unless one is running. -/
def fdbCommand (v : Nat) (s : State) : State :=
  if s.fab.fdbCmd.isSome then s
  else
    let w := fun a => (s.reg a).toNat
    let op := fdbCmdOp v
    let c : FdbCmd := { cmd := v - v % 8 + op, d0 := w Reg.FDB_DATA0, d1 := w Reg.FDB_DATA1, d2 := w Reg.FDB_DATA2,
                        d3 := w Reg.FDB_DATA3, due := s.cycle + (if op = 4 then 8192 else 32), passed := 0 }
    if op = 0 then s
    else s |> modFab (fun x => { x with fdbCmd := some c }) |> setF Fld.FDB_CMD_STATUS_busy 1

/-- A port entry names a port that can hold a station (R179, R485). -/
def stationPort (s : State) (dest : Nat) : Bool :=
  let l := dest % 64
  let okLocal := decide (l ≤ 47) || (decide (52 ≤ l) && decide (l ≤ 57))
  if s.getF Fld.ILG_STATUS_role = 0 then decide (dest < 64) && okLocal
  else okLocal && decide (dest / 64 < (if s.getF Fld.ILG_STATUS_role = 1 then s.getF Fld.ILG_CTRL_devices else s.ilg.devices))

def badEntry (s : State) (kind dest : Nat) : Bool :=
  if kind = 1 then decide (dest = 0) || decide (63 < dest) else if kind = 2 then false else !stationPort s dest

def showEntry (i : Nat) (s : State) : State :=
  s |> setR Reg.FDB_DATA0 (s.reg (Reg.FDB_ENTRY0 i)).toNat |> setR Reg.FDB_DATA1 (s.reg (Reg.FDB_ENTRY1 i)).toNat
    |> setR Reg.FDB_DATA2 (s.reg (Reg.FDB_ENTRY2 i)).toNat |> setR Reg.FDB_DATA3 0

def fdbResult (index result : Nat) (s : State) : State :=
  s |> setF Fld.FDB_CMD_STATUS_index index |> setF Fld.FDB_CMD_STATUS_result result

/-- A static train entry holds epoch 0 (R174). -/
def insertWord2 (kind w : Nat) : Nat :=
  w % 2 ^ 10 + w / 2 ^ 12 % 4 * 2 ^ 12 + w / 2 ^ 15 % 2 * 2 ^ 15 +
    (if kind = 1 ∧ bit w 30 then 0 else w / 2 ^ 16 % 2 ^ 8 * 2 ^ 16) + kind * 2 ^ 28 + w / 2 ^ 30 * 2 ^ 30

/-- The work of a command; LOOKUP only finds: it is none of the lookups that set hit or judge an entry by its epoch (DESIGN
CHOICE, assumption log 49: R174 and R176 do not say). Results 0 done, 1 not found, 2 bucket full, 3 bad entry. -/
def fdbRun (c : FdbCmd) (s : State) : State :=
  let mac := c.d1 % 2 ^ 16 * 2 ^ 32 + c.d0
  let vid := c.d1 / 2 ^ 16 % 2 ^ 12
  let op := c.cmd % 8
  if op = 1 then
    match fdbFind s mac vid with
    | some i => s |> showEntry i |> fdbResult i 0
    | none => s |> setR Reg.FDB_DATA3 0 |> setF Fld.FDB_CMD_STATUS_result 1
  else if op = 2 then
    let kind := if c.d2 / 2 ^ 28 % 4 = 3 then 0 else c.d2 / 2 ^ 28 % 4
    let w2 := insertWord2 kind c.d2
    if badEntry s kind (c.d2 % 2 ^ 10) then setF Fld.FDB_CMD_STATUS_result 3 s
    else
      match (fdbFind s mac vid).or (fdbFreeWay s mac vid) with
      | some i => s |> fdbPut i c.d0 (entryWord1 mac vid) w2 |> fdbResult i 0
      | none => setF Fld.FDB_CMD_STATUS_result 2 s
  else if op = 3 then
    match fdbFind s mac vid with
    | some i => s |> fdbRemove i |> fdbResult i 0
    | none => setF Fld.FDB_CMD_STATUS_result 1 s
  else if op = 4 then setF Fld.FDB_CMD_STATUS_result 0 s
  else s |> showEntry (c.d3 % 2 ^ 13) |> fdbResult (c.d3 % 2 ^ 13) 0

/-- FDB_COMMAND_DONE; a learn or an ageing sweep of the same cycle goes first (R180). -/
def fdbDone (s : State) : State :=
  match s.fab.fdbCmd with
  | none => s
  | some c =>
    let s := advanceTo c.due s
    let s := whenT (s.fab.sweepDue == some s.cycle) ageingSweep s
    let s := whenT (learnFalls s) learnStep s
    s |> flushPassed |> modFab (fun x => { x with fdbCmd := none }) |> fdbRun c |> setF Fld.FDB_CMD_STATUS_busy 0
      |> latch Fld.FDB_EVENT_cmd_done

end Sys2Proof.Machine
end

