-- ==== Sys2Proof/Machine/Forward.lean ====
section
/-! DEFINITION. Where a frame goes: class and VLAN (R170, R171), acceptance windows and gates (R319 to R321), train
addresses and translation (R145, R153 to R157), routes and line choice (R131 to R135, R190, R191), Ilgil targets
(R482 to R486), fan-outs (R175). -/
namespace Sys2Proof.Machine

/-! ### Devices of a hierarchy -/

def isWorker (s : State) : Bool := s.getF Fld.ILG_STATUS_role == 2
def ownIndex (s : State) : Nat := s.getF Fld.ILG_STATUS_index

/-- The global number of a local port (R17); a standalone device uses the local number. -/
def globalPort (s : State) (p : Nat) : Nat := if s.getF Fld.ILG_STATUS_role = 0 then p else ownIndex s * 64 + p

/-- The port (52 or 53) of the path to a device index (R482). -/
def pathPort (s : State) (d : Nat) : Option Nat := (Sparse.find s.ilg.paths d).map (fun n => 52 + n)

def quarantined (s : State) (d : Nat) : Bool := bit (s.getF Fld.ILG_STATUS_quarantined) d

/-! ### Class and VLAN (R170, R171) -/

def pcpClass (s : State) (p k : Nat) : Nat := fieldOf (s.reg (Reg.FDB_PCP_MAP p)) (3 * k) 3

/-- Class and VID as an edge port gives them. -/
def edgeClass (s : State) (p : Nat) (l : List Byte) : Nat :=
  if isTimeFrame l then 6 else if hasVlanTag l then pcpClass s p (vlanPcp l) else s.getF (Fld.FDB_PORT_default_class p)

def edgeVid (s : State) (p : Nat) (l : List Byte) : Nat :=
  if hasVlanTag l ∧ vlanVid l ≠ 0 then vlanVid l else s.getF (Fld.FDB_PORT_pvid p)

/-- The entry of a VID is valid; one with a bad word acts as though it were not (R200, R589). -/
def vlanValid (s : State) (v : Nat) : Bool :=
  s.on (Fld.FDB_VLAN_FLAGS_valid v) && !(List.range 5).any (fun i => badWord s 4 (Reg.FDB_VLAN_MEMBER_LO v + 4 * i))

def vlanMembers (s : State) (v : Nat) : Nat :=
  (s.reg (Reg.FDB_VLAN_MEMBER_HI v)).toNat % 2 ^ 26 * 2 ^ 32 + (s.reg (Reg.FDB_VLAN_MEMBER_LO v)).toNat

def vlanUntag (s : State) (v : Nat) : Nat :=
  (s.reg (Reg.FDB_VLAN_UNTAG_HI v)).toNat % 2 ^ 26 * 2 ^ 32 + (s.reg (Reg.FDB_VLAN_UNTAG_LO v)).toNat

/-- R171: the frame is dropped with VLAN_FILTER. -/
def vlanRefuses (s : State) (p vid : Nat) (l : List Byte) : Bool :=
  let form := hasVlanTag l && vlanVid l != 0
  let acc := s.getF (Fld.FDB_PORT_accept p)
  !isTimeFrame l && (!vlanValid s vid || !bit (vlanMembers s vid) p || (acc == 1 && !form) || (acc == 2 && form))

/-! ### Merge mode, acceptance windows, gates (R319 to R321) -/

/-- Merge mode runs on the direction of a trunk port (R320). -/
def merging (s : State) (p : Nat) : Bool := decide (48 ≤ p) && decide (p < 52) && mergeDir s == dirOf (p - 48) + 1

def scheduled (s : State) (c : Nat) : Bool := bit (s.getF Fld.CAR_MERGE_sched_classes) c

/-- Phase units of a time in a domain, by its period: P of a PTP source, else that of the present increment. -/
def phaseOfNs (s : State) (d ns : Nat) : Nat :=
  if phsSource s d = Src.ptp then ns * 2 ^ 32 / domParam s d else (((ns * 4 : Nat) : Int) * domInc s d).toNat / 5 / 2 ^ 32

/-- A phase difference in ns, by the domain's period (R321). -/
def nsOfPhase (s : State) (d : Nat) (off : Int) : Int :=
  if phsSource s d = Src.ptp then off * domParam s d / (2 ^ 32 : Nat) else off * (2 ^ 32 : Nat) * 5 / (max 1 (domInc s d) * 4)

/-- The phase in a domain of an instant, given as node time in 2^-16 ns and as cycles ago. -/
def phaseAt (s : State) (d : Nat) (t : Int) (ago : Nat) : Nat :=
  if phsSource s d = Src.ptp then ptpPosition (t / 65536) (domParam s d) (domOffset s d) % 2 ^ 32 else positionAgo s d ago % 2 ^ 32

/-- The windows that a frame's port and class match. -/
def windowsFor (s : State) (p c : Nat) : List Nat :=
  (List.range 64).filter (fun w =>
    s.on (Fld.CAR_WIN_CFG_valid w) && s.getF (Fld.CAR_WIN_CFG_port w) == p && s.getF (Fld.CAR_WIN_CFG_class w) == c &&
      !(List.range 4).any (fun i => badWord s 6 (Reg.CAR_WIN_OPEN w + 4 * i)))

/-- A phase lies within a window widened by its guard, and by extra_ns in merge mode. -/
def inWindow (s : State) (p w phase : Nat) : Bool :=
  let d := s.getF (Fld.CAR_WIN_CFG_domain w)
  let g := phaseOfNs s d (s.getF (Fld.CAR_WIN_CFG_guard_ns w) + if merging s p then s.getF Fld.CAR_MERGE_extra_ns else 0)
  let a := (s.reg (Reg.CAR_WIN_OPEN w)).toNat
  let b := (s.reg (Reg.CAR_WIN_CLOSE w)).toNat
  let len := (b + 2 ^ 32 - a) % 2 ^ 32 + 2 * g
  decide (2 ^ 32 ≤ len) || decide ((phase + 2 ^ 32 + g - a) % 2 ^ 32 ≤ len)

/-- The check of R321 for a frame with ingress time t, some cycles ago: accepted, with the offset gathered, or late in every
window. -/
def windowCheck (p c : Nat) (t : Int) (ago : Nat) (s : State) : Bool × State :=
  let ws := windowsFor s p c
  match ws with
  | [] => (true, s)
  | _ =>
    let ph := fun w => phaseAt s (s.getF (Fld.CAR_WIN_CFG_domain w)) t ago
    match ws.find? (fun w => inWindow s p w (ph w)) with
    | some w =>
      let d := s.getF (Fld.CAR_WIN_CFG_domain w)
      let off := signedOf 32 (ph w + 2 ^ 32 - (s.reg (Reg.CAR_WIN_EXPECT w)).toNat)
      let ns := nsOfPhase s d off
      let z := Sparse.get (fun _ => { sum := 0, count := 0 }) s.car.windows w
      (true, modCar (fun x => { x with windows := Sparse.ins (Sparse.drop x.windows w) w { sum := z.sum + ns, count := z.count + 1 } }) s)
    | none =>
      let s := s |> count Reg.CAR_LATE_FRAMES |> latch Fld.CAR_EVENT_late_frame
      (false, each ws (fun w t => count (Reg.CAR_WIN_LATE w) t) s)

/-- The gate of a queue (R249). -/
def gateReg (s : State) (p : Nat) : Nat := if p < 48 then s.getF (Fld.EPT_GATE_gate p) else s.getF (Fld.TPT_GATE_gate (p - 48))

def setGate (p v : Nat) (s : State) : State :=
  if p < 48 then setF (Fld.EPT_GATE_gate p) v s else setF (Fld.TPT_GATE_gate (p - 48)) v s

/-- The next position of an event after a position: its phase in a cycle c with c mod (every + 1) = offset. -/
def nextPos (w0 w1 pos : Nat) : Nat :=
  let n := w1 / 2 ^ 8 % 2 ^ 8 + 1
  let off := w1 % 2 ^ 8
  let c0 := if pos % 2 ^ 32 < w0 then pos / 2 ^ 32 else pos / 2 ^ 32 + 1
  let c := c0 + (off + n - c0 % n) % n
  (if c < 2 ^ 32 then c else off) * 2 ^ 32 + w0

def gatePorts (w2 : Nat) : List Nat := if w2 % 64 ≤ 51 then [w2 % 64] else [48, 49, 50, 51]

/-- The positions at which GATE events next close a queue, each with its domain, where that is within a cycle of it. -/
def closes (s : State) (p q : Nat) : List (Nat × Nat) :=
  s.car.events.filterMap (fun e =>
    let w1 := e.2.2.1
    let w2 := e.2.2.2.1
    let d := w1 / 2 ^ 28 % 8
    let pos := position s d
    let nxt := nextPos e.2.1 w1 pos
    if w1 / 2 ^ 24 % 16 = 1 ∧ (gatePorts w2).contains p ∧ bit w2 (8 + q) ∧ !bit w2 (16 + q) ∧
        !(List.range 4).any (fun i => badWord s 6 (Reg.CAR_EVT0 e.1 + 4 * i)) ∧ (nxt + 2 ^ 64 - pos) % 2 ^ 64 ≤ 2 ^ 32 then some (d, nxt)
    else none)

/-- w + guard ≤ t_close − now, for n bytes and their overhead at the port's rate and a guard in ns (R319). For a PTP domain
t_close is the first whole ns with the phase, else the phase distance divided by the present increment. -/
def closesLater (s : State) (mbps n guard d nxt : Nat) : Bool :=
  let need := n * 8000 + guard * mbps
  if lockState s d = Lk.off then true
  else if phsSource s d = Src.ptp then
    let ns := domOffset s d + nxt / 2 ^ 32 * domParam s d + ceilDiv (nxt % 2 ^ 32 * domParam s d) (2 ^ 32)
    let span := 2 ^ 32 * domParam s d * nsUnits
    let left := (ns * nsUnits + (s.time / span + 1) * span - s.time) % span
    decide (need * nsUnits ≤ left * mbps)
  else if domInc s d ≤ 0 then true
  else decide (need * (domInc s d).toNat * 4 ≤ (nxt + 2 ^ 64 - position s d) % 2 ^ 64 * 2 ^ 32 * 5 * mbps)

/-- The gate and guard-band rule for a frame of `bytes` on the line (R319, R320). -/
def gateAllows (s : State) (p q bytes : Nat) : Bool :=
  let held := merging s p && !scheduled s q
  let guard := s.getF (Fld.CAR_GUARD_guard_ns p) + if merging s p ∧ scheduled s q then s.getF Fld.CAR_MERGE_extra_ns else 0
  (held || bit (gateReg s p) q) &&
    (s.getF Fld.CAR_CTRL_state != 2 || held || (closes s p q).all (fun c => closesLater s (portMbps s p) (bytes + 20) guard c.1 c.2))

/-! ### Train addresses (R153 to R157) -/

structure Tat where
  enable : Bool
  base : Nat
  plen : Nat
  lsb : Nat
  loc : Nat

/-- The settings a frame latched at its first cell (R157). -/
def tatOf (f : Frame) : Tat :=
  { enable := bit f.tatCtrl Fld.EPO_TAT_CTRL_enable.lo, base := f.tatBase,
    plen := fieldOf (BitVec.ofNat 32 f.tatCtrl) Fld.EPO_TAT_CTRL_prefix_len.lo Fld.EPO_TAT_CTRL_prefix_len.width,
    lsb := fieldOf (BitVec.ofNat 32 f.tatCtrl) Fld.EPO_TAT_CTRL_tnn_lsb.lo Fld.EPO_TAT_CTRL_tnn_lsb.width,
    loc := fieldOf (BitVec.ofNat 32 f.tatCtrl) Fld.EPO_TAT_CTRL_local_field.lo Fld.EPO_TAT_CTRL_local_field.width }

/-- Rewrite the TNN field of the address at offset k, if it lies in the block and f gives another field. -/
def tatAddr (t : Tat) (k : Nat) (g : Nat → Option Nat) (l : List Byte) : List Byte :=
  let a := beAt l k 4
  if a / 2 ^ (32 - t.plen) ≠ t.base / 2 ^ (32 - t.plen) then l
  else
    let f := a / 2 ^ t.lsb % 64
    match g f with
    | none => l
    | some f' => if f' % 64 = f then l else setIpv4Addr l k (a - f * 2 ^ t.lsb + f' % 64 * 2 ^ t.lsb)

/-- Rewrite source and destination. -/
def tatRewrite (t : Tat) (src dst : Nat → Option Nat) (l : List Byte) : List Byte :=
  if !t.enable ∨ !isIpv4 l then l
  else
    let k := l3At l
    tatAddr t (k + 16) dst (tatAddr t (k + 12) src l)

def noField (_ : Nat) : Option Nat := none

/-- Case 1: trunk egress of a frame from E, H or F of this device; across an Ilgil link the spec names no device that applies it,
and none does (DESIGN CHOICE, assumption log 51). -/
def tatOut (f : Frame) (l : List Byte) (s : State) : List Byte :=
  if s.hasRole ∧ (f.inPort < 48 ∨ f.inPort = portH ∨ f.inPort = portF) then
    tatRewrite (tatOf f) (fun x => if x = (tatOf f).loc ∧ liveTnn s ≠ 0 then some (liveTnn s) else none) noField l
  else l

/-- Case 2: egress to E, H or F of a frame from a trunk line of this device (the same choice). -/
def tatIn (f : Frame) (out : Nat) (l : List Byte) (s : State) : List Byte :=
  if s.hasRole ∧ 48 ≤ f.inPort ∧ f.inPort < 52 ∧ (out < 48 ∨ out = portH ∨ out = portF) then
    tatRewrite (tatOf f) noField (fun x => if (liveTnn s ≠ 0 ∧ x = liveTnn s) ∨ (graceOn s ∧ s.spr.prevTnn ≠ 0 ∧ x = s.spr.prevTnn)
      then some (tatOf f).loc else none) l
  else l

/-- EPO_TAT_REWRITES counts a frame once, whatever number of copies, attempts and cases change it (R154). -/
def countTat (changed : Bool) (f : Frame) (s : State) : Frame × State :=
  if changed ∧ !f.tatSeen then ({ f with tatSeen := true }, count Reg.EPO_TAT_REWRITES s) else (f, s)

/-! ### Translation (R145) -/

def mapFate (s : State) (t : Nat) : Nat := if badWord s 4 (Reg.EPO_MAP t) then 0 else (s.reg (Reg.EPO_MAP t)).toNat / 64 % 4
def mapNew (s : State) (t : Nat) : Nat := (s.reg (Reg.EPO_MAP t)).toNat % 64

def Orphan.left : Nat := 0
def Orphan.unmapped : Nat := 1
def Orphan.stale : Nat := 2
def Orphan.blocked : Nat := 3

/-- The frame through the live map: an orphan's reason, or the frame translated. -/
def translate (f : Frame) (s : State) : Option Nat × Frame × State :=
  let fate := mapFate s f.dstTnn
  if fate = 2 then (some Orphan.left, f, s)
  else if fate ≠ 1 then (some Orphan.unmapped, f, s)
  else
    let src := if mapFate s f.srcTnn = 1 then mapNew s f.srcTnn else 0
    let g := fun x => if mapFate s x = 1 then some (mapNew s x) else none
    let l := tatRewrite (tatOf f) g g f.data
    let r := countTat (l != f.data) f s
    let f := { r.1 with srcTnn := src, dstTnn := mapNew s f.dstTnn, epoch := liveEpoch s, translated := true, data := l,
                        tat := f.tat || l != f.data }
    (none, f, r.2 |> count Reg.EPO_TRANSLATED |> graceCount 0)

/-! ### Line choice (R190, R191, R193) -/

def flowHash (s : State) (l : List Byte) (vid : Nat) : Nat :=
  crcFeed 1 (s.getF Fld.FAB_HASH_seed) (flowKey l vid (s.on Fld.FAB_HASH_l4)) % 2

/-- The line of a direction for a class and hash, and whether the other than the named line was taken. -/
def lineFor (s : State) (d cls lines hash : Nat) : Option (Nat × Bool) :=
  let a := 2 * d
  let b := 2 * d + 1
  match isUp s a, isUp s b with
  | false, false => none
  | true, false => some (a, lines == 2)
  | false, true => some (b, lines == 1)
  | true, true =>
    if lines = 1 then some (a, false)
    else if lines = 2 then some (b, false)
    else
      let h := if hash = 1 then b else a
      let moved := (Sparse.get (fun _ => []) s.fab.revert d).contains cls
      if moved then some (h, false)
      else if s.fab.awayLines.contains a then some (b, false)
      else if s.fab.awayLines.contains b then some (a, false)
      else some (h, false)

/-! ### Fan-outs -/

/-- A fan-out: outputs with their argument, an orphan (direction and reason), reasons of copies dropped by lookup. -/
structure Fan where
  outs : List (Nat × Nat)
  orphan : Option (Nat × Nat)
  drops : List Nat
  gDest : Nat
  deriving DecidableEq, Repr

def Fan.none : Fan := { outs := [], orphan := .none, drops := [], gDest := 0x1FF }

def Fan.join (a b : Fan) : Fan :=
  { outs := a.outs ++ b.outs.filter (fun p => !a.outs.any (fun q => q.1 == p.1)), orphan := a.orphan.or b.orphan,
    drops := a.drops ++ b.drops, gDest := a.gDest }

def Fan.drop (reason : Nat) : Fan := { Fan.none with drops := [reason] }

/-- The route word of a TNN for a tag epoch: the shadow bank for the pending epoch (R131, R136). -/
def routeOf (s : State) (epoch tnn : Nat) : Nat :=
  let pendingEpoch := match s.spr.accepted with
    | some a => a.newEpoch == epoch && epoch != liveEpoch s
    | .none => false
  let b := if pendingEpoch then 1 - liveBank s else liveBank s
  let a := Reg.EPO_ROUTE b (tnn % 64)
  if badWord s 4 a then 0 else (s.reg a).toNat

/-- The neighbour of a direction is current; in COMPAT the epochs are not judged (R151, R160). -/
def passable (s : State) (d : Nat) : Bool := inCompat s || isCurrent s d

/-- The direction a frame arrived from: 0 none, 1, 2. -/
def Frame.arrival (f : Frame) : Nat := if 48 ≤ f.inPort ∧ f.inPort < 52 then dirOf (f.inPort - 48) + 1 else 0

/-- Queue for one direction: the copy, or nothing when it is not up or not current. -/
def dirCopy (s : State) (f : Frame) (d lines : Nat) : List (Nat × Nat) × Nat :=
  if !dirUp s d ∨ !passable s d then ([], 0)
  else
    match lineFor s d f.cls lines f.hash with
    | some (n, way) => ([(48 + n, 0)], b2n way)
    | .none => ([], 0)

/-- The route of a backbone frame (R135): arrival direction 0 none, 1, 2; whether it is delivered locally, its copies,
and how many went to the line that was not named. -/
def routeFan (s : State) (f : Frame) (arr : Nat) : Bool × Fan × Nat :=
  let e := routeOf s f.epoch f.dstTnn
  let dir := e / 2 % 4
  let lines := e / 16 % 4
  if !bit e 0 ∨ (1 ≤ dir ∧ dir ≤ 2 ∧ dir = arr ∧ f.dstTnn ≠ 0) then (false, Fan.drop Reason.noRoute, 0)
  else if dir = 0 then (true, Fan.none, 0)
  else if dir = 3 then
    let a := if arr = 1 then ([], 0) else dirCopy s f 0 lines
    let b := if arr = 2 then ([], 0) else dirCopy s f 1 lines
    (arr != 0, { Fan.none with outs := a.1 ++ b.1 }, a.2 + b.2)
  else
    let d := dir - 1
    if !dirUp s d then (false, { Fan.none with orphan := some (d, Orphan.left) }, 0)
    else if !passable s d then (false, { Fan.none with orphan := some (d, Orphan.blocked) }, 0)
    else
      let a := dirCopy s f d lines
      (false, { Fan.none with outs := a.1 }, a.2)

/-- Count what a route did. -/
def noteRoute (r : Bool × Fan × Nat) (s : State) : State :=
  s |> countBy Reg.FAB_AGG_FAILOVER r.2.2
    |> whenT (r.2.1.drops.contains Reason.noRoute) (count Reg.EPO_NO_ROUTE_DROPS)

/-- The targets of a flooded copy on an Ilgil port: reachable indices whose path is the port (R484). -/
def floodTargets (s : State) (p : Nat) : Nat :=
  s.ilg.paths.foldl (fun m q => if 52 + q.2 = p then setBit m q.1 true else m) 0

/-- Outputs of a member mask: Ilgil ports with their targets; a port without targets is left out, and so is bit 57, port M,
which takes no frame of a fan-out (DESIGN CHOICE, assumption log 49: R175 does not say what it means there). -/
def maskOuts (s : State) (mask inPort : Nat) : List (Nat × Nat) :=
  (List.range 57).filterMap (fun o =>
    if !bit mask o ∨ o = inPort ∨ (48 ≤ o ∧ o ≤ 51) then Option.none
    else if o = 52 ∨ o = 53 then
      (if (inPort = 52 ∨ inPort = 53) ∨ floodTargets s o = 0 then Option.none else some (o, floodTargets s o))
    else some (o, 0))

/-- A unicast destination: a local port, or the path to another device. -/
def unicastFan (s : State) (dest : Nat) : Fan :=
  if s.getF Fld.ILG_STATUS_role = 0 then { Fan.none with outs := [(dest % 64, 0)], gDest := dest }
  else if dest / 64 = ownIndex s then { Fan.none with outs := [(dest % 64, 0)], gDest := dest }
  else if quarantined s (dest / 64) then Fan.drop Reason.quarantine
  else
    match pathPort s (dest / 64) with
    | some p => { Fan.none with outs := [(p, 2 ^ (dest / 64))], gDest := dest }
    | .none => Fan.none

/-- The tag of a frame that enters the backbone here (R127). -/
def tagNew (s : State) (tnn : Nat) (f : Frame) : Frame :=
  { f with epoch := liveEpoch s, srcTnn := liveTnn s, dstTnn := tnn % 64, hops := 0, translated := false, tat := false }

/-- To the backbone with a TNN: through the routes, or at a worker to the manager (R486); whether the route delivers the frame
locally, its copies, and how many went to the line that was not named. -/
def backboneFan (s : State) (tnn : Nat) (f : Frame) : Frame × Bool × Fan × Nat :=
  let f := tagNew s tnn f
  if isWorker s then
    match pathPort s 0 with
    | some p => (f, false, { Fan.none with outs := [(p, 1)], gDest := 0x1FE }, 0)
    | .none => (f, false, Fan.none, 0)
  else (f, routeFan s f f.arrival)

/-- The ports of a group; a bad word is not used (R589). -/
def groupPorts (s : State) (g : Nat) : Nat :=
  (if badWord s 7 (Reg.FAB_MCAST_HI g) then 0 else (s.reg (Reg.FAB_MCAST_HI g)).toNat % 2 ^ 26 * 2 ^ 32) +
    (if badWord s 7 (Reg.FAB_MCAST_LO g) then 0 else (s.reg (Reg.FAB_MCAST_LO g)).toNat)

/-- The fan-out of the forwarding database (R175); `trunk`: a trunk frame delivered locally. -/
def fdbFan (trunk : Bool) (f : Frame) (s : State) : Frame × Fan × State :=
  let r := fdbLookup (frameDst f.data) f.vid s
  let s := r.2
  let members := vlanMembers s f.vid
  let bb := fun (mask : Nat) (u : State) =>
    let local_ := { Fan.none with outs := maskOuts u mask f.inPort }
    if trunk ∨ isWorker u ∨ mask / 2 ^ 48 % 16 = 0 then (f, local_, u)
    else
      let b := backboneFan u 0 f
      (b.1, local_.join b.2.2.1, noteRoute b.2 u)
  let flood := fun (u : State) =>
    if isGroup (frameDst f.data) ∨ u.on (Fld.FDB_VLAN_FLAGS_flood_unknown f.vid) then bb members u
    else (f, Fan.drop Reason.unknownDa, u)
  match r.1 with
  | .port dest => if dest = f.gIn then (f, Fan.drop Reason.samePort, s) else (f, unicastFan s dest, s)
  | .group g => bb (groupPorts s g &&& members) s
  | .train tnn =>
    if trunk then bb members s
    else if tnn = liveTnn s then bb members s
    else
      -- a route that ends here delivers the frame to the local members, as for one from a trunk line (R135)
      let b := backboneFan s tnn f
      (b.1, if b.2.1 then { Fan.none with outs := maskOuts s members f.inPort }.join b.2.2.1 else b.2.2.1, noteRoute b.2 s)
  | .miss => flood s

/-- A VLAN flag of R175: unknown unicast on a trunk frame delivered locally is flooded like any other. -/
def localFan (f : Frame) (s : State) : Frame × Fan × State := fdbFan true f s

end Sys2Proof.Machine
end

