-- ==== Sys2Proof/Machine/Units.lean ====
section
/-! DEFINITION. Ilgil units (R475 to R477, R483): their bytes and check, the sender's sequence, replay buffer and
credits. -/
namespace Sys2Proof.Machine

def Unit.cell : Nat := 0x2D
def Unit.credit : Nat := 0x33
def Unit.hello : Nat := 0x55
def Unit.time : Nat := 0x66
def Unit.mgmt : Nat := 0x78
def Unit.image : Nat := 0x87
def Unit.switch : Nat := 0x96
def Unit.reach : Nat := 0xA5

/-- The slots of a unit by its type; 0 for a type that is none. -/
def unitSlots (t : Nat) : Nat :=
  if t = Unit.cell ∨ t = Unit.image then 5
  else if t = Unit.hello then 2
  else if t = Unit.switch then 3
  else if t = 0x1E ∨ t = Unit.credit ∨ t = Unit.time ∨ t = Unit.mgmt ∨ t = Unit.reach then 1
  else 0

def unitReliable (t : Nat) : Bool := t == Unit.cell || t == Unit.mgmt || t == Unit.image || t == Unit.switch

/-- The check of a unit: CRC-32C over every byte but bytes 28 to 31 (R475). -/
def unitCheck (l : List Byte) : Nat := crc32c (l.take 28 ++ l.drop 32)

/-- A unit from its first 28 bytes and the slots after the first. -/
def unitBytes (head rest : List Byte) : List Byte :=
  let h := slice head 0 28
  h ++ be 4 (unitCheck (h ++ zeros 4 ++ rest)) ++ rest

def unitType (l : List Byte) : Nat := beAt l 0 1

/-- A unit with a good check and the length of its type. -/
def unitOk (l : List Byte) : Bool :=
  unitSlots (unitType l) != 0 && l.length == 32 * unitSlots (unitType l) && beAt l 28 4 == unitCheck l

/-! ### Links -/

def Lk.ilgLock : Nat := 1
def Lk.ilgHello : Nat := 2
def Lk.ilgUp : Nat := 3
def Lk.ilgRefused : Nat := 4

def ilgState (s : State) (g : Nat) : Nat := s.getF (Fld.ILG_PORT_STATUS_lstate g)
def ilgUp (s : State) (g : Nat) : Bool := ilgState s g == Lk.ilgUp
def ilgPortState (s : State) (g : Nat) : Nat := s.getF (Fld.ILG_PORT_CTRL_state g)

def sendUnit (g : Nat) (l : List Byte) (s : State) : State := emitOut (.unit g l) s

/-- A reliable unit may start: the link is UP, the port ON, the replay buffer not full (R477, R479). -/
def canStart (s : State) (g : Nat) : Bool :=
  ilgUp s g && ilgPortState s g == 2 && decide ((s.ilgPort g).replay.length < 256)

/-- Start a reliable unit: its sequence number goes into bytes 1 and 2, and the replay buffer keeps it. -/
def sendReliable (g : Nat) (head rest : List Byte) (copy : Option (Nat × Nat)) (s : State) : State :=
  let x := s.ilgPort g
  let l := unitBytes (patch (slice head 0 28) 1 (be 2 x.txSeq)) rest
  s |> setIlgPort g { x with txSeq := (x.txSeq + 1) % 2 ^ 12, replay := x.replay ++ [{ seq := x.txSeq, bytes := l, copy := copy }],
                             ackAt := if x.replay.isEmpty then s.cycle else x.ackAt }
    |> sendUnit g l

/-! ### Cells (R483, R488) -/

/-- The header slot of a CELL unit: cell k of a frame for an output. -/
def cellHead (f : Frame) (targets k : Nat) (last : Bool) : List Byte :=
  let n := if last then f.len - 128 * k else 128
  [byte Unit.cell, 0, 0, byte (f.cls * 32 + b2n (k == 0) * 16 + b2n last * 8 + b2n f.express * 4 + b2n f.tagged * 2 + b2n f.translated)] ++
    be 2 f.gIn ++ be 2 f.gDest ++ [byte targets, byte n, byte f.epoch, byte f.srcTnn, byte f.dstTnn, byte (f.hops + b2n f.tat * 64)] ++
    be 2 f.vid ++ (if k = 0 then be 2 f.len ++ be 4 f.inNs ++ be 4 f.inSec else zeros 10)

/-- Spend a credit of a class. -/
def spendCredit (g c : Nat) (s : State) : State :=
  s |> setF (Fld.ILG_CREDIT_avail g c) (s.getF (Fld.ILG_CREDIT_avail g c) - 1)
    |> setF (Fld.ILG_CREDIT_out g c) (s.getF (Fld.ILG_CREDIT_out g c) + 1)

/-- Send cell k of a copy on a G port. -/
def sendCell (g id : Nat) (f : Frame) (targets k : Nat) (last : Bool) (s : State) : State :=
  s |> spendCredit g f.cls
    |> sendReliable g (cellHead f targets k last) (slice (storedBytes f) (128 * k) 128) (if last then some (id, 52 + g) else none)

end Sys2Proof.Machine
end

