-- ==== Sys2Proof/Machine/Fabric.lean ====
section
/-! DEFINITION. Admission of frames (R204 to R211, R214), trunk ingress (R128, R129, R136, R151), orphans (R148), and the
crossbar: matching, crossing, multicast (R182 to R189, R256). -/
namespace Sys2Proof.Machine

/-! ### Admission -/

/-- How a frame left its admission point. -/
inductive Adm where
  | taken (id : Nat)
  | dropped (reason : Nat)
  | waits
  deriving DecidableEq, Repr

def preemptActive (s : State) (n : Nat) : Bool := s.on (Fld.TPT_STATUS_preempt_active n)

/-- A frame leaves a trunk line without Backbone Epoch Tag (R82, R118, R127). -/
def bareOnTrunk (s : State) (f : Frame) : Bool := f.spireFrame || inCompat s || (f.timeFrame && frameDst f.data == llTimeMac)

/-- Length on the line at an output, FCS included. -/
def outLen (s : State) (f : Frame) (out : Nat) : Nat :=
  (vlanForm f out).length + 4 + (if 48 ≤ out ∧ !bareOnTrunk s f then 8 else 0)

def isExpress (s : State) (f : Frame) (outs : List Nat) : Bool :=
  f.timeFrame || (f.cls == 7 && decide (f.len ≤ 256) && s.on Fld.FAB_CTRL_c7_express && outs.any (fun o => 48 ≤ o ∧ o < 52))

/-- The link rate of a port in Mbit/s; Ilgil 100 Gbit/s (R188). -/
def linkRate (s : State) (p : Nat) : Nat := if p < 52 then portMbps s p else 100000

def ctWanted (s : State) (f : Frame) : Bool := decide (f.inPort < 54) && bit (s.getF (Fld.FAB_CT_MODE_classes f.inPort)) f.cls

/-- The conditions of R188 for a frame and its outputs. -/
def ctAllowed (s : State) (f : Frame) (outs : List Nat) : Bool :=
  !f.express && outs.all (fun o =>
    decide (o < 54) && decide (linkRate s o ≤ linkRate s f.inPort) &&
      !(decide (48 ≤ f.inPort ∧ f.inPort < 52 ∧ 48 ≤ o ∧ o < 52) && linkRate s o == linkRate s f.inPort && !preemptActive s (o - 48)))

/-- D(o, c) has reached the class threshold (R208). -/
def congested (s : State) (c o : Nat) : Bool :=
  let th := s.getF (Fld.BUF_CLASS_threshold c)
  th != 16383 && decide (th ≤ depth s o c)

/-- R497: a copy for a local port of a quarantined worker, or from its own H, F, S or M out of it. -/
def quarantineDrops (s : State) (f : Frame) (o : Nat) : Bool :=
  s.on Fld.ILG_STATUS_quarantine && isWorker s && (!(o == 52 || o == 53) || decide (54 ≤ f.inPort))

/-- A frame of the host or of Filigree in a back-pressure class waits at its source (R206). -/
def waitsAtSource (s : State) (f : Frame) : Bool := (f.inPort == portH || f.inPort == portF) && backPressure s f.cls

/-- A copy diverted as an orphan is counted by its reason (R148). -/
def orphanNote (reason : Nat) (s : State) : State :=
  s |> count (Reg.EPO_ORPHAN_LEFT + 4 * reason) |> latch Fld.EPO_EVENT_orphan |> graceCount (1 + reason)

/-- ECN marking at the admission point (R208, R209). -/
def ecnMark (outs : List Nat) (f : Frame) (s : State) : Frame × State :=
  if s.getF (Fld.BUF_CLASS_behaviour f.cls) = 1 ∧ outs.any (congested s f.cls) ∧ ecnCapable f.data then
    ({ f with data := markCe f.data }, count Reg.BUF_ECN_MARKED s)
  else (f, s)

/-- Copies that the class behaviour drops (R208, R210); a headroom frame when `head`. -/
def congestionDrops (s : State) (f : Frame) (head : Bool) (outs : List (Nat × Nat)) : List (Nat × Nat) :=
  let b := s.getF (Fld.BUF_CLASS_behaviour f.cls)
  if f.timeFrame ∨ !(b == 0 || (b == 2 && (!pfcOn s f.row || head))) then []
  else outs.filter (fun o => congested s f.cls o.1)

/-- The frame takes its cells: header fields that depend on the outputs, copies, ledger, ingress capture. -/
def storeFrame (f : Frame) (outs : List (Nat × Nat)) (orphan : Option (Nat × Nat)) (head : Bool) (s : State) : Adm × State :=
  let names := outs.map (·.1)
  let f := { f with express := isExpress s f names, multicast := decide (1 < names.length), headroom := head }
  let ct := ctWanted s f && ctAllowed s f names && orphan.isNone
  let s := whenT (ctWanted s f && !ct) (count Reg.FAB_CT_FALLBACK) s
  let copies := outs.map (fun o => { out := o.1, pos := 0, stage := CopyStage.input, arg := o.2, ring := 0 : Copy }) ++
    (match orphan with
     | none => []
     | some (d, r) => [{ out := 60 + d, pos := 0, stage := .input, arg := r, ring := s.getF Fld.EPO_ORPHAN_ring : Copy }])
  let f := { f with cutThrough := ct, copies := copies, cells := max f.cells 1 }
  let s := match orphan with
    | none => s
    | some (_, r) => orphanNote r s
  let s := ledAdmit f.row copies.length s
  let c := captureF 0 f 63 0 s
  (.taken s.fab.nextId, holdFrame c.1 c.2)

/-- The admission point (R204, R206, R208, R210, R214): what the lookup dropped, the checks, congestion. `known`: the
length is known, so that copies too long for their output are dropped here. -/
def dispatch (f : Frame) (fan : Fan) (known : Bool) (s : State) : Adm × State :=
  let f := { f with gDest := fan.gDest }
  let quar := fan.outs.filter (fun o => quarantineDrops s f o.1)
  let rest := fan.outs.filter (fun o => !quarantineDrops s f o.1)
  let tooLong := fun (o : Nat × Nat) => known && decide (o.1 < 52) && decide (maxFrame s o.1 < outLen s f o.1)
  let outs := rest.filter (fun o => !tooLong o)
  let early := fan.drops.map (fun r => (63, r)) ++ quar.map (fun o => (o.1, Reason.quarantine)) ++
    (rest.filter tooLong).map (fun o => (o.1, Reason.oversize))
  let n := outs.length + b2n fan.orphan.isSome
  if n = 0 then
    match early with
    | [] => (.dropped Reason.noMember, refuseFrame f Reason.noMember 1 63 s)
    | (_, r) :: _ => (.dropped r, (dropEarly early f s).2)
  else
    match admitCheck s f.row with
    | .refuse =>
      if waitsAtSource s f then (.waits, s)
      else
        let refused := (outs.map (·.1) ++ fan.orphan.toList.map (fun (o : Nat × Nat) => 60 + o.1)).map (fun o => (o, Reason.bufLimit))
        (.dropped Reason.bufLimit, (dropEarly (early ++ refused) f s).2)
    | v =>
      let head := decide (v = .headroom)
      let s := whenT head (xoffRequest f.row) s
      let r := dropEarly early f s
      let cong := congestionDrops r.2 r.1 head outs
      let e := ecnMark (outs.map (·.1)) r.1 r.2
      let e := if r.1.timeFrame then r else e
      let q := dropEarly (cong.map (fun o => (o.1, Reason.congestion))) e.1 e.2
      let keep := outs.filter (fun o => !cong.contains o)
      if keep.isEmpty ∧ fan.orphan.isNone then (.dropped Reason.congestion, q.2)
      else storeFrame q.1 keep fan.orphan head q.2

/-! ### Ingress on ports 0 to 51 -/

/-- A frame as it stands at its first cell, its first bit at the instant `at_`, with what it latches (R157, R181, R275). -/
def newFrame (p cls vid len at_ : Nat) (l : List Byte) (s : State) : Frame :=
  let t := rxTime16 s p at_
  { Frame.empty with data := l, len := len, inPort := p, cls := cls, vid := vid, cells := max 1 (l.length / 128),
                     inNs := ns16 t, inSec := sec16 t % 2 ^ 32, inTime := t, timeFrame := isTimeFrame l,
                     inStamp := at_ % 2 ^ 32, untag := vlanUntag s vid,
                     tatBase := (s.reg Reg.EPO_TAT_BLOCK).toNat, tatCtrl := (s.reg Reg.EPO_TAT_CTRL).toNat,
                     learnEpoch := liveEpoch s, hash := flowHash s l vid, gIn := globalPort s p }

/-- The learn due at the end of a frame (R177). -/
def learnOf (s : State) (p vid : Nat) (l : List Byte) (train : Bool) (dest epoch : Nat) : Option LearnReq :=
  if s.on Fld.FDB_CTRL_learn ∧ s.on (Fld.FDB_PORT_learn p) ∧ s.on (Fld.FDB_VLAN_FLAGS_learn vid) ∧ !isGroup (frameSrc l) then
    some { mac := frameSrc l, vid := vid, train := train, dest := dest, epoch := epoch }
  else none

/-- A time frame that goes to the host's ring instead of being forwarded (R273). -/
def timeToHost (s : State) (p : Nat) (l : List Byte) : Bool :=
  isTimeFrame l && (frameDst l == llTimeMac || s.on (Fld.TIM_PORT_CFG_to_host p))

def toHost : Fan := { Fan.none with outs := [(portH, 0)] }

/-- The acceptance windows at a frame's ingress, its first bit at the instant `at_` (R321). -/
def checkWindows (p cls at_ : Nat) (s : State) : Bool × State := windowCheck p cls (rxTime16 s p at_) (s.cycle - at_ / 10) s

/-- A frame at an edge port, or on a trunk line in COMPAT. -/
def ingressEdge (p len at_ : Nat) (l : List Byte) (s : State) : Adm × Option LearnReq × State :=
  let vid := edgeVid s p l
  let f := newFrame p (edgeClass s p l) vid len at_ l s
  if vlanRefuses s p vid l then (.dropped Reason.vlanFilter, none, refuseFrame f Reason.vlanFilter 1 63 s)
  else
    let learn := learnOf s p vid l false (globalPort s p) 0
    let w := checkWindows p f.cls at_ s
    if !w.1 then (.dropped Reason.late, learn, refuseFrame f Reason.late 1 63 w.2)
    else
      let s := w.2
      let r := if timeToHost s p l ∨ (48 ≤ p ∧ isTopology s l) then (f, toHost, s) else fdbFan false f s
      let a := dispatch r.1 r.2.1 false r.2.2
      (a.1, learn, a.2)

/-- Where a backbone frame goes at a node: the route, and the forwarding database when delivered locally (R135). -/
def backboneOuts (f : Frame) (arr : Nat) (s : State) : Frame × Fan × State :=
  let r := routeFan s f arr
  let s := noteRoute r s
  if !r.1 then (f, r.2.1, s)
  else
    let d := localFan f s
    (d.1, { r.2.1.join d.2.1 with gDest := d.2.1.gDest }, d.2.2)

/-- A tagged frame judged by its epoch (R136), then routed. -/
def judgeEpoch (f : Frame) (toHostRing : Bool) (arr : Nat) (s : State) : Frame × Fan × State :=
  let go := fun (f : Frame) (s : State) => if toHostRing then (f, toHost, s) else backboneOuts f arr s
  let pendingEpoch : Bool := match s.spr.accepted with
    | some a => a.newEpoch == f.epoch
    | none => false
  if f.epoch = liveEpoch s ∨ pendingEpoch = true then go f s
  else if f.epoch = prevEpoch s ∧ graceOn s then
    let t := translate f s
    match t.1 with
    | some r => (f, { Fan.none with orphan := some (0, r) }, t.2.2)
    | none => go t.2.1 t.2.2
  else (f, { Fan.none with orphan := some (0, Orphan.stale) }, s)

/-- A frame on a trunk line in native mode (R128, R129, R136, R151, R171, R321). -/
def ingressTrunk (n len at_ : Nat) (l : List Byte) (s : State) : Adm × Option LearnReq × State :=
  let p := 48 + n
  match betOf (tagEtype s) l with
  | none =>
    let f := newFrame p (edgeClass s p l) (edgeVid s p l) len at_ l s
    if isTimeFrame l ∧ frameDst l = llTimeMac then
      let w := checkWindows p f.cls at_ s
      if !w.1 then (.dropped Reason.late, none, refuseFrame f Reason.late 1 63 w.2)
      else
        let a := dispatch f toHost false w.2
        (a.1, none, a.2)
    else (.dropped Reason.untagged, none, s |> count Reg.EPO_UNTAGGED_DROPS |> refuseFrame f Reason.untagged 1 63)
  | some t =>
    let l := removeBet l
    let vid := edgeVid s p l
    let cls := if isTimeFrame l then 6 else t.cls
    let f := { newFrame p cls vid (len - 8) at_ l s with
                 tagged := true, epoch := t.epoch, srcTnn := t.srcTnn, dstTnn := t.dstTnn, hops := t.hops,
                 translated := t.translated, tat := t.tat }
    let refuse := fun r s => (Adm.dropped r, (none : Option LearnReq), refuseFrame f r 1 63 s)
    if t.hops = 63 then refuse Reason.hopLimit (s |> count Reg.EPO_HOP_DROPS |> latch Fld.EPO_EVENT_hop_limit)
    else if !isUp s n ∨ !isCurrent s (dirOf n) then refuse Reason.staleNeighbour (count Reg.EPO_STALE_NBR_DROPS s)
    else if vlanRefuses s p vid l then refuse Reason.vlanFilter s
    else
      let w := checkWindows p f.cls at_ s
      -- a frame that comes late is judged all the same for what it teaches (R177), and changes nothing else
      let r := judgeEpoch f (timeToHost s p l) (dirOf n + 1) w.2
      let learn := if r.2.1.orphan.isSome ∧ r.1.epoch ≠ liveEpoch s ∨ r.1.srcTnn = 0 then none
        else learnOf s p vid l true r.1.srcTnn (liveEpoch s)
      if !w.1 then (.dropped Reason.late, learn, refuseFrame f Reason.late 1 63 w.2)
      else
        let a := dispatch r.1 r.2.1 false r.2.2
        (a.1, learn, a.2)

/-- A port receives: ON, with link. -/
def receives (s : State) (p : Nat) : Bool := portState s p == 2 && portLink s p

/-- A frame that the MAC or port S takes once it is whole: MAC control, a frame under 64 bytes, a Spire or ROSTER frame,
a HELLO frame or a native Sync on a trunk line. -/
def takenWhole (s : State) (p len : Nat) (l : List Byte) : Bool :=
  decide (len < 64) || etherTypeAt l 12 == 0x8808 || isSpireFrame s l || isRosterFrame s l ||
    (decide (48 ≤ p) && (isNativeSync s l || isHello s l))

/-- A frame for port S that came in time goes to what takes it; one outside its acceptance windows is dropped (R321). -/
def intoS (p cls at_ : Nat) (l : List Byte) (take : Nat → List Byte → State → State) (s : State) : State :=
  let w := checkWindows p cls at_ s
  if w.1 then take at_ l w.2
  else w.2 |> sawForS p l |> refuseFrame (frameToS p cls at_ l w.2) Reason.late 1 63

/-- A trunk line takes a frame whose first bit came at the instant `at_`: while ON, and in STOPPING one that was coming in
when it began (R255). -/
def stillTakes (s : State) (n at_ : Nat) : Bool :=
  portState s (48 + n) == 2 || (portState s (48 + n) == 3 && decide (at_ ≤ 10 * Sparse.get (fun _ => 0) s.mac.drainAt (48 + n)))

/-- A whole Spire frame on trunk line n, its first bit at the instant `at_` (R88, R321). -/
def spireIn (n at_ : Nat) (l : List Byte) (s : State) : State :=
  if !isSpireFrame s l ∨ !stillTakes s n at_ then s else intoS (48 + n) 7 at_ l (takeSpire n) s

/-- A whole ROSTER frame on a trunk line (R138). -/
def rosterIn (n at_ : Nat) (l : List Byte) (s : State) : State :=
  if !isRosterFrame s l ∨ !stillTakes s n at_ then s else intoS (48 + n) 7 at_ l (takeRoster n) s

/-- A whole native Sync on a trunk line (R292). -/
def syncIn (n at_ : Nat) (l : List Byte) (s : State) : State :=
  if !isNativeSync s l ∨ !stillTakes s n at_ then s else intoS (48 + n) 6 at_ l (takeSync n) s

/-- A whole HELLO on a trunk line; in native mode it is an untagged frame, dropped before any window (R117, R129). -/
def helloIn (n at_ : Nat) (l : List Byte) (s : State) : State :=
  let cls := edgeClass s (48 + n) l
  if !isHello s l ∨ portState s (48 + n) ≠ 2 then s
  else if inCompat s then intoS (48 + n) 7 at_ l (takeHello n) s else dropHello n cls at_ l s

/-- A whole Spire or ROSTER frame at an edge port: it goes to S like any other, where Spire discards and counts its own
(R88); a ROSTER frame changes nothing there, of which the spec says nothing (DESIGN CHOICE, assumption log 44). -/
def spireAtEdge (p at_ : Nat) (l : List Byte) (s : State) : State :=
  intoS p 7 at_ l (fun a l t =>
    let r := takeToS p 7 a l t
    if r.1 ∧ (isSpireFrame t l ∨ badRoster l) then badSpire r.2 else r.2) s

/-- What a command brings in as a whole frame `back` stamp units after its first bit. -/
def receiveSpire (n : Nat) (l : List Byte) (back : Nat) (s : State) : State := spireIn n (rxInstant (48 + n) back s) l s
def receiveSync (n : Nat) (l : List Byte) (back : Nat) (s : State) : State := syncIn n (rxInstant (48 + n) back s) l s
def receiveRoster (n : Nat) (l : List Byte) (s : State) : State := rosterIn n (rxInstant (48 + n) 0 s) l s
def receiveHello (n : Nat) (l : List Byte) (s : State) : State := helloIn n (rxInstant (48 + n) 0 s) l s

def setArrival (p : Nat) (a : Arrival) (s : State) : State :=
  modFab (fun x => { x with arriving := Sparse.ins (Sparse.drop x.arriving p) p a }) s
def endArrival (p : Nat) (s : State) : State := modFab (fun x => { x with arriving := Sparse.drop x.arriving p }) s

/-- ADMISSION_POINT: the first cell of a frame at a port, its length on the line with the FCS, and how long ago its first
bit came, in stamp units. -/
def admissionPoint (p : Nat) (l : List Byte) (len back : Nat) (s : State) : State :=
  let at_ := rxInstant p back s
  if !receives s p ∨ (Sparse.find s.fab.arriving p).isSome then s
  else if takenWhole s p len l then setArrival p { frame := none, line := l, learn := none, inAt := at_ } s
  else
    let r := if 48 ≤ p ∧ !inCompat s then ingressTrunk (p - 48) len at_ l s else ingressEdge p len at_ l s
    let id := match r.1 with
      | .taken id => some id
      | _ => none
    setArrival p { frame := id, line := l, learn := r.2.1, inAt := at_ } r.2.2

/-! ### Orphans on the way (R137, R192) -/

/-- Take a copy out of its transmit queue. -/
def unqueue (id out : Nat) (s : State) : State :=
  modFab (fun x => { x with txq := (x.txq.map (fun p => if p.1 / 16 = out then (p.1, p.2.filter (· != id)) else p)).filter (fun p => !p.2.isEmpty) }) s

def modCopy (id out : Nat) (g : Copy → Copy) (s : State) : State :=
  modFrame id (fun f => { f with copies := f.copies.map (fun y => if y.out = out then g y else y) }) s

/-- A queued copy is diverted as an orphan; it reaches the ring writer once the frame is whole. -/
def divertCopy (id out reason : Nat) (s : State) : State :=
  match s.frame id with
  | none => s
  | some f =>
    let o := 60 + dirOf (out - 48)
    let ring := s.getF Fld.EPO_ORPHAN_ring
    let s := s |> unqueue id out |> unlock out (tierOf f) |> orphanNote reason
      |> modCopy id out (fun y => { y with out := o, stage := if f.complete then .ring else .input, arg := reason, ring := ring })
    whenT f.complete (modFab (fun x => { x with ringQueue := x.ringQueue ++ [.copy id o] })) s

/-- A copy moves to the other line of its direction (R192). -/
def moveLine (id out : Nat) (s : State) : State :=
  match s.frame id with
  | none => s
  | some f =>
    let o := 48 + (2 * dirOf (out - 48) + 1 - (out - 48) % 2)
    let q := if f.express then 8 else f.cls
    let was := (txQueue s out q).contains id
    s |> unqueue id out |> unlock out (tierOf f) |> modCopy id out (fun y => { y with out := o })
      |> whenT was (fun t => setTxq o q (txQueue t o q ++ [id]) t) |> count Reg.FAB_AGG_FAILOVER

def otherLine (out : Nat) : Nat := 2 * dirOf (out - 48) + 1 - (out - 48) % 2

/-! ### What an output holds (R184) -/

/-- Bytes of the current frame present for its MAC: those of a cut-through frame grow with it. -/
def presentBytes (s : State) (x : Sending) : Nat :=
  x.bytes.length + (match s.frame x.frame with
    | some f => f.data.length - x.taken
    | none => 0)

/-- Bytes of the current frame that have left a MAC. -/
def sentBytes (s : State) (p : Nat) (x : Sending) : Nat := min (presentBytes s x) ((s.cycle - x.startAt) * portMbps s p / 6400)

/-- Cells of a frame that have left through a MAC. -/
def cellsSent (s : State) (p id : Nat) : Nat :=
  match Sparse.find s.fab.sending p with
  | none => 0
  | some x =>
    if x.frame = id then sentBytes s p x / 128
    else match x.held with
      | some h => if h.frame = id then h.sent / 128 else 0
      | none => 0

/-- Cells of a tier between the crossbar and an output's MAC. -/
def heldAt (s : State) (o t : Nat) : Nat :=
  s.fab.frames.foldl (fun n p =>
    if tierOf p.2 = t then n + (p.2.copies.filter (fun y => y.out == o)).foldl (fun m y => m + (y.pos - cellsSent s o p.1)) 0
    else n) 0

/-- Cells of copies that the ring writer's stage holds (R427). -/
def ringCells (s : State) : Nat :=
  s.fab.frames.foldl (fun n p => n + (p.2.copies.filter (fun y => y.out == portH || 60 ≤ y.out)).foldl (fun m y => m + y.pos) 0) 0

/-- Port F reads the frame at its head as it comes while no whole one stands before it and the source FIFO takes it: such
cells do not stay in the 32 that it holds (DESIGN CHOICE, assumption log 49). -/
def readsAsItComes (s : State) : Bool :=
  (txQueue s portF 0).isEmpty && (s.getF Fld.FIL_CTRL_state == 0 || decide (s.fil.events.length < 256))

/-- An output has room for a cell of a tier; `started`: of a copy it has begun to take. -/
def hasRoom (s : State) (o t c : Nat) (started : Bool) : Bool :=
  if o < 52 then portState s o != 1 && decide (heldAt s o t < 32)
  else if o < 54 then canStart s (o - 52) && decide (0 < s.getF (Fld.ILG_CREDIT_avail (o - 52) c))
  else if o = portH then decide (ringCells s < 8192)
  else if o = portF then decide (heldAt s o t < 32) || (started && readsAsItComes s)
  else true

/-! ### Matching (R182 to R187) -/

/-- A request of an input for an output at a tier: the head frame of a queue and the cell its copy takes next. -/
structure Req where
  inp : Nat
  out : Nat
  tier : Nat
  mc : Bool
  cls : Nat
  frame : Nat
  cell : Nat
  deriving DecidableEq, Repr

/-- A copy that still has to take cells. -/
def unfinished (f : Frame) (y : Copy) : Bool := y.stage == .input && decide (y.out < 60) && !(f.complete && decide (f.cells ≤ y.pos))

/-- The input queue a copy stands in. -/
def queueKey (f : Frame) (y : Copy) : Nat :=
  if f.multicast then (f.inPort * 16 + f.cls) * 4 + 2
  else if f.express then (f.inPort * 64 + y.out) * 4 + 1
  else ((f.inPort * 64 + y.out) * 16 + f.cls) * 4

/-- Port S's own frames of the two kinds that R141 orders. -/
def ownRoster (f : Frame) : Bool := f.spireFrame && frameDst f.data == rosterMac
def ownSpire (f : Frame) : Bool := f.spireFrame && frameDst f.data == spireMac

/-- The frames in the order of their queues: that of admission, but a Spire frame goes ahead of ROSTER frames (R141). -/
def inOrder (l : List (Nat × Frame)) : List (Nat × Frame) := l.filter (fun p => !ownRoster p.2) ++ l.filter (fun p => ownRoster p.2)

/-- The ready heads of the queues, from the frames in order. -/
def headReqs (seen : List Nat) (l : List (Nat × Frame)) : List Req :=
  match l with
  | [] => []
  | (id, f) :: t =>
    let ys := f.copies.filter (unfinished f)
    let ready := (f.complete && !f.bad) || f.cutThrough
    ((ys.filter (fun y => !seen.contains (queueKey f y) && ready && decide (y.pos < f.cells))).map (fun y =>
      { inp := f.inPort, out := y.out, tier := tierOf f, mc := f.multicast, cls := f.cls, frame := id, cell := y.pos : Req })) ++
      headReqs (ys.map (queueKey f) ++ seen) t

/-- Of the requests of one input for one output at one tier: the copy begun, else the unicast one. -/
def oneEach (l : List Req) : List Req :=
  l.filter (fun r =>
    let same := l.filter (fun q => q.inp == r.inp && q.out == r.out && q.tier == r.tier)
    match same.find? (fun q => decide (0 < q.cell)) with
    | some q => q == r
    | none => same.find? (fun q => !q.mc) == some r || (r.mc && same.all (fun q => q.mc)))

/-- A copy of another frame of that input has crossed to that output and tier in part: the lock is its own (R186). -/
def lockedOut (s : State) (r : Req) : Bool :=
  s.fab.frames.any (fun p => p.1 != r.frame && p.2.inPort == r.inp && tierOf p.2 == r.tier && crossedInPart p.2 r.out)

def requests (s : State) : List Req :=
  oneEach ((headReqs [] (inOrder s.fab.frames)).filter (fun r =>
    hasRoom s r.out r.tier r.cls (decide (0 < r.cell)) && !(r.cell == 0 && lockedOut s r)))

structure Match where
  acc : List Req
  gptr : List (Nat × Nat)
  aptr : List (Nat × Nat)
  deriving DecidableEq, Repr

/-- The element with the least key. -/
def leastBy (key : Req → Nat) (l : List Req) : Option Req :=
  l.foldl (fun m r => match m with
    | none => some r
    | some q => if key r < key q then some r else m) none

def ptrOf (l : List (Nat × Nat)) (k : Nat) : Nat := Sparse.get (fun _ => 0) l k

def lockOf (s : State) (o t : Nat) : Nat := Sparse.get (fun _ => 0) s.fab.lock (16 * o + t)

/-- The grant of an output. -/
def grantOf (s : State) (m : Match) (rs : List Req) (o : Nat) : Option Req :=
  let l := rs.filter (fun r => r.out == o && (lockOf s o r.tier == 0 || lockOf s o r.tier == r.inp + 1))
  let t := l.foldl (fun a r => max a r.tier) 0
  leastBy (fun r => (r.inp + 58 - ptrOf m.gptr (16 * o + t)) % 58) (l.filter (fun r => r.tier == t))

/-- What an input accepts of its grants, and the pointer that follows: its tier and the new value. -/
def acceptOf (m : Match) (gs : List Req) (i : Nat) : List Req × Nat × Nat :=
  let l := gs.filter (fun r => r.inp == i)
  let t := l.foldl (fun a r => max a r.tier) 0
  let l := l.filter (fun r => r.tier == t)
  let w := fun (r : Req) => if r.mc then 58 else r.out
  match leastBy (fun r => (w r + 59 - ptrOf m.aptr (16 * i + t)) % 59) l with
  | none => ([], t, 0)
  | some r =>
    if !r.mc then ([r], t, (r.out + 1) % 59)
    else
      let g := l.filter (fun q => q.mc)
      let p := g.foldl (fun a q => min a q.cell) r.cell
      (g.filter (fun q => q.cell == p), t, 0)

def matchRound (s : State) (first : Bool) (reqs : List Req) (m : Match) : Match :=
  let rs := reqs.filter (fun r => !m.acc.any (fun a => a.inp == r.inp) && !m.acc.any (fun a => a.out == r.out))
  let gs := (rs.map (·.out)).eraseDups.filterMap (grantOf s m rs)
  (gs.map (·.inp)).eraseDups.foldl (fun m i =>
    let a := acceptOf m gs i
    let m := { m with acc := m.acc ++ a.1 }
    if !first then m
    else { m with
      aptr := Sparse.put (fun _ => 0) m.aptr (16 * i + a.2.1) a.2.2,
      gptr := a.1.foldl (fun g r => Sparse.put (fun _ => 0) g (16 * r.out + r.tier) ((i + 1) % 58)) m.gptr }) m

def matchRounds (n : Nat) (s : State) (first : Bool) (reqs : List Req) (m : Match) : Match :=
  match n with
  | 0 => m
  | n + 1 => matchRounds n s false reqs (matchRound s first reqs m)

/-! ### Crossing -/

/-- A frame of port S leaves on its own line in whatever state that line is, as long as it has link: the spec gives it no other
line (DESIGN CHOICE, assumption log 171). -/
def lineOpen (s : State) (out : Nat) : Bool := portLink s out && (portState s out == 2 || portState s out == 3)

/-- A trunk copy whose line is not UP moves to the other line, or is dropped or diverted (R192, R256); an edge copy is
dropped when its output is off, past its drain or without link. Answers the output that takes the first cell. -/
def takeFirst (id out : Nat) (s : State) : Option Nat × State :=
  if 52 ≤ out then (some out, s)
  else if ((s.frame id).map (fun f => f.spireFrame)).getD false then
    if lineOpen s out then (some out, s) else (none, dropCopy id out Reason.linkDown s)
  else if 48 ≤ out then
    if isUp s (out - 48) ∧ portState s out = 2 then (some out, s)
    else if isUp s (otherLine out) ∧ portState s (48 + otherLine out) = 2 then (some (48 + otherLine out), moveLine id out s)
    else if portState s out = 0 ∨ portState s out = 3 then (none, dropCopy id out Reason.portStop s)
    else if !portLink s out then (none, dropCopy id out Reason.linkDown s)
    else (none, divertCopy id out Orphan.left s)
  else if portState s out = 0 ∨ (portState s out = 3 ∧ (Sparse.find s.mac.drainAt out).isNone) then
    (none, dropCopy id out Reason.portStop s)
  else if !portLink s out then (none, dropCopy id out Reason.linkDown s)
  else (some out, s)

/-- The MAC's queue of a frame: 8 is the express queue of a trunk line (R183). -/
def macQueue (f : Frame) (out : Nat) : Nat := if f.express ∧ 48 ≤ out ∧ out < 52 then 8 else f.cls

/-- A frame joins a transmit queue at its end; in the express queue a Spire frame goes ahead of the ROSTER frames (R141). -/
def enqueue (out q id : Nat) (f : Frame) (s : State) : State :=
  let l := txQueue s out q
  let roster := fun (i : Nat) => ((s.frame i).map ownRoster).getD false
  setTxq out q (if ownSpire f then l.takeWhile (fun i => !roster i) ++ id :: l.dropWhile (fun i => !roster i) else l ++ [id]) s

/-- An output has taken the last cell of a copy. -/
def tookLast (id out : Nat) (s : State) : State :=
  if out = portH then
    s |> modCopy id out (fun y => { y with stage := .ring }) |> modFab (fun x => { x with ringQueue := x.ringQueue ++ [.copy id out] })
  else if out = portF then
    s |> modCopy id out (fun y => { y with stage := .queued }) |> setTxq portF 0 (txQueue s portF 0 ++ [id])
  else if 56 ≤ out then deliverCopy id out s
  else modCopy id out (fun y => { y with stage := .queued }) s

/-- One cell crosses; one that cannot be read ends its frame (R589). -/
def crossOne (x : Crossing) (s : State) : State :=
  match s.frame x.frame with
  | none => s
  | some f =>
    if !f.copies.any (fun y => y.out == x.out && y.pos == x.cell && y.stage == .input) then s
    else if badCell s f x.cell then dropFrame x.frame Reason.uncorrectable s
    else
      let a := if x.cell = 0 then takeFirst x.frame x.out s else (some x.out, s)
      match a.1 with
      | none => a.2
      | some out =>
        let s := a.2
        let last := f.complete && decide (x.cell + 1 = f.cells)
        let arg := ((f.copies.find? (fun y => y.out == x.out)).map (fun y => y.arg)).getD 0
        let s := if x.cell = 0 then
            let s := captureOnce 1 x.frame out 0 s
            whenT (decide (out < 52)) (enqueue out (macQueue f out) x.frame f) s
          else s
        let s := modCopy x.frame out (fun y => { y with pos := y.pos + 1 }) s
        let s := modFab (fun z => { z with lock := Sparse.put (fun _ => 0) z.lock (16 * out + tierOf f) (if last then 0 else f.inPort + 1) }) s
        let s := whenT (out == 52 || out == 53) (sendCell (out - 52) x.frame f arg x.cell last) s
        whenT last (tookLast x.frame out) s

/-- Multicast cells that reach only part of the copies waiting for them (R187). -/
def countSplit (l : List Crossing) (s : State) : State :=
  each ((l.map (fun c => (c.frame, c.cell))).eraseDups) (fun p t =>
    match s.frame p.1 with
    | none => t
    | some f =>
      let waiting := (f.copies.filter (fun y => unfinished f y && decide (y.pos ≤ p.2))).length
      whenT (f.multicast && decide ((l.filter (fun c => c.frame == p.1 && c.cell == p.2)).length < waiting)) (count Reg.FAB_MC_SPLIT) t) s

/-- CELL_TIME: the cells matched in the cell time before cross, and a matching is computed. -/
def cellTime (s : State) : State :=
  let s := advanceTo (nextCell s s.fab.cellAt) s
  let l := s.fab.crossing
  let s := modFab (fun x => { x with crossing := [], cellAt := s.cycle }) s
  let s := s |> countSplit l |> each l crossOne
  let reqs := requests s
  let m := matchRounds (s.getF Fld.FAB_CTRL_iterations) s true reqs { acc := [], gptr := s.fab.gptr, aptr := s.fab.aptr }
  modFab (fun x => { x with crossing := m.acc.map (fun r => { frame := r.frame, out := r.out, cell := r.cell }),
                            gptr := m.gptr, aptr := m.aptr }) s

end Sys2Proof.Machine
end

