-- ==== Sys2Proof/Machine/Macs.lean ====
section
/-! DEFINITION. The port MACs (chapter 07): links, transmit queues and shapers, starting and ending frames, half duplex,
flow control, preemption and its verify exchange, frames received, failover and revert of trunk lines (R192, R193). -/
namespace Sys2Proof.Machine

def modMac (f : Macs → Macs) (s : State) : State := { s with mac := f s.mac }

def State.half (s : State) (p : Nat) : HalfDuplex := Sparse.get (fun _ => HalfDuplex.idle) s.mac.half p
def setHalf (p : Nat) (h : HalfDuplex) (s : State) : State :=
  modMac (fun m => { m with half := Sparse.put (fun _ => HalfDuplex.idle) m.half p h }) s

def sendingAt (s : State) (p : Nat) : Option Sending := Sparse.find s.fab.sending p
def setSending (p : Nat) (x : Sending) (s : State) : State :=
  modFab (fun y => { y with sending := Sparse.ins (Sparse.drop y.sending p) p x }) s
def clearSending (p : Nat) (s : State) : State := modFab (fun y => { y with sending := Sparse.drop y.sending p }) s

/-- The frame in hand is on the line: not deferring and not in back-off (R239). -/
def onAir (s : State) (p : Nat) : Bool := (sendingAt s p).isSome && !(s.half p).deferring && (s.half p).backoffEnd.isNone

/-! ### Shapers (R248) -/

def shapeRate (s : State) (p q : Nat) : Nat := if p < 48 then s.getF (Fld.EPT_SHAPE_rate p q) else s.getF (Fld.TPT_SHAPE_rate (p - 48) q)
def shapeBurst (s : State) (p q : Nat) : Nat := if p < 48 then s.getF (Fld.EPT_SHAPE_burst p q) else s.getF (Fld.TPT_SHAPE_burst (p - 48) q)

/-- The credit of a queue now, in 1/800 bit; 0 with the shaper off. -/
def creditNow (s : State) (p q : Nat) : Int :=
  let rate := shapeRate s p q
  let top : Int := (shapeBurst s p q * 512 * 800 : Nat)
  if rate = 0 then 0
  else match Sparse.find s.mac.credit (8 * p + q) with
    | none => top
    | some (c, t) => min top (c + ((s.cycle - t) * rate : Nat))

/-- A frame of n bytes starts: credit falls by n + 20 bytes. -/
def spendShaper (p q n : Nat) (s : State) : State :=
  if shapeRate s p q = 0 then s
  else
    let c := creditNow s p q - ((n + 20) * 8 * 800 : Nat)
    modMac (fun m => { m with credit := Sparse.ins (Sparse.drop m.credit (8 * p + q)) (8 * p + q) (c, s.cycle) }) s

/-- A write of rate or burst sets the credit to burst. -/
def shapeWritten (p q : Nat) (s : State) : State := modMac (fun m => { m with credit := Sparse.drop m.credit (8 * p + q) }) s

/-! ### PAUSE and PFC (R242 to R246) -/

def quantaCycles (s : State) (p n : Nat) : Nat := n * 512 * 800 / max 1 (portMbps s p)

/-- EPT_STATUS shows the times that run. -/
def showPause (p : Nat) (s : State) : State :=
  let runs := fun k => (Sparse.find s.mac.pauseEnd (16 * p + k)).isSome
  s |> setF (Fld.EPT_STATUS_paused p) (b2n (runs 8))
    |> setF (Fld.EPT_STATUS_pfc_paused p) ((List.range 8).foldl (fun m c => setBit m c (runs c)) 0)

/-- Start, replace or end a pause time: key 0 to 7 a priority, 8 PAUSE. -/
def setPause (p k quanta : Nat) (s : State) : State :=
  let e := s.cycle + quantaCycles s p quanta
  modMac (fun m =>
    let l := Sparse.drop m.pauseEnd (16 * p + k)
    { m with pauseEnd := if quanta = 0 then l else Sparse.ins l (16 * p + k) e }) s

/-- When a time ends; one that does not run, now. -/
def pauseUntil (s : State) (p k : Nat) : Nat := max s.cycle ((Sparse.find s.mac.pauseEnd (16 * p + k)).getD 0)

/-- Link loss or port stop clears every running time. -/
def clearPauses (p : Nat) (s : State) : State :=
  s |> modMac (fun m => { m with pauseEnd := m.pauseEnd.filter (fun x => x.1 / 16 != p), fcWait := Sparse.drop m.fcWait p }) |> showPause p

def queuePaused (s : State) (p q : Nat) : Bool :=
  (Sparse.find s.mac.pauseEnd (16 * p + 8)).isSome || (Sparse.find s.mac.pauseEnd (16 * p + q)).isSome

/-- A MAC control frame arrived with a good FCS: counted, and obeyed where R242 says so. -/
def takeControl (p : Nat) (l : List Byte) (s : State) : State :=
  let op := beAt l 14 2
  let s := s |> statRx p l true |> stat1 p (if op = 0x0001 then 7 else if op = 0x0101 then 8 else 9)
  let ks := if op = 1 ∧ fcMode s p = 1 then [(8, beAt l 16 2)]
    else if op = 0x0101 ∧ fcMode s p = 2 then ((List.range 8).filter (bit (beAt l 16 2))).map (fun c => (c, beAt l (18 + 2 * c) 2))
    else []
  if ks.isEmpty then s
  else
    let t := each ks (fun k => setPause p k.1 k.2) s
    t |> whenT (ks.any (fun k => decide (pauseUntil s p k.1 < pauseUntil t p k.1))) (stat1 p 50) |> showPause p

/-- PAUSE_RECEIVE. -/
def pauseReceive (p : Nat) (l : List Byte) (s : State) : State :=
  if receives s p ∨ (portState s p = 3 ∧ portLink s p) then
    if etherTypeAt l 12 = 0x8808 ∧ 60 ≤ l.length then takeControl p l s else s
  else s

/-- A MAC control frame for port p waits behind the command and arrives in the same cycle (R23, R244). -/
def isPauseArrival (p : Nat) (i : Instr) : Bool :=
  match i with
  | .pauseReceive m _ _ => m.val == p
  | _ => false

/-- A time runs out; a control frame of that cycle reloads it first (R244). -/
def pauseExpiry (p k : Nat) (s : State) : State :=
  match Sparse.find s.mac.pauseEnd (16 * p + k) with
  | none => s
  | some e => if inTime (isPauseArrival p) s then advanceTo e s else s |> advanceTo e |> setPause p k 0 |> showPause p

def fcFrame (s : State) (p xonBits : Nat) : List Byte :=
  let off := xoffClasses s p
  let quanta := s.getF (Fld.EPT_FC_quanta p)
  let head := be 6 0x0180C2000001 ++ be 6 (s.macOf p) ++ be 2 0x8808
  if fcMode s p = 2 then
    let en := (List.range 8).foldl (fun m c => setBit m c (off.contains c || bit xonBits c)) 0
    pad60 (head ++ be 2 0x0101 ++ be 2 en ++ (List.range 8).flatMap (fun c => be 2 (if off.contains c then quanta else 0)))
  else pad60 (head ++ be 2 1 ++ be 2 (if off.isEmpty then 0 else quanta))

/-- FLOW_CONTROL_FRAME: at a frame boundary the merged requests leave in one frame (R245). -/
def flowControlFrame (p : Nat) (s : State) : State :=
  match Sparse.find s.mac.fcWait p with
  | none => s
  | some bits =>
    if onAir s p ∨ !portLink s p ∨ fcMode s p = 0 then s
    else
      let l := fcFrame s p bits
      let pfc := fcMode s p == 2
      s |> modMac (fun m => { m with fcWait := Sparse.drop m.fcWait p, lastFc := Sparse.ins (Sparse.drop m.lastFc p) p s.cycle })
        |> emitOut (.frame p l false) |> stat p 32 (l.length + 4) |> statTxWhole p l |> stat1 p (if pfc then 39 else 38)

/-- FC_REFRESH: half the quanta time has passed since the last frame while a row is XOFF. -/
def fcRefresh (p : Nat) (s : State) : State :=
  match Sparse.find s.mac.lastFc p with
  | none => s
  | some t =>
    if (xoffClasses s p).isEmpty ∨ fcMode s p = 0 then s
    else
      let s := advanceTo (t + quantaCycles s p (s.getF (Fld.EPT_FC_quanta p)) / 2) s
      let bits := Sparse.get (fun _ => 0) s.mac.fcWait p
      modMac (fun m => { m with fcWait := Sparse.ins (Sparse.drop m.fcWait p) p bits }) s

/-- EPT_FC was written: with mode none nothing is sent any more (R242). -/
def fcWritten (p : Nat) (s : State) : State :=
  if fcMode s p = 0 then modMac (fun m => { m with fcWait := Sparse.drop m.fcWait p }) s else s

/-- The link is up: a port with rows that are XOFF sends its first refresh half a quanta time later (R245; where no frame has
gone before, the instant from which that counts is the model's choice, assumption log 82). A port in half duplex has no flow
control (R241). -/
def fcLinkUp (p : Nat) (s : State) : State :=
  let s := if isHalf s p then s |> setF (Fld.EPT_FC_mode p) 0 |> fcWritten p else s
  if (xoffClasses s p).isEmpty then s
  else modMac (fun m => { m with lastFc := Sparse.ins (Sparse.drop m.lastFc p) p s.cycle }) s

/-! ### A frame as it leaves (R127, R154, R172, R277, R418) -/

def betFor (f : Frame) : Bet :=
  { epoch := f.epoch, srcTnn := f.srcTnn, dstTnn := f.dstTnn, cls := f.cls, hops := f.hops + 1, translated := f.translated, tat := f.tat }

/-- The bytes of a frame on the line of port p, with the frame as it then counts (R154, R280). -/
def lineBytes (f : Frame) (p : Nat) (s : State) : List Byte × Frame × State :=
  if f.spireFrame then
    let r := startOwnFrame (p - 48) f s
    (r.1, f, r.2)
  else
    let l := vlanForm f p
    let m := if p < 48 then tatIn f p l s else tatOut f l s
    let c := countTat (m != l) f s
    let two := tcTwoStep c.2 c.1 m
    let s := whenT (two && !f.twoSeen) (count Reg.TIM_TC_TWOSTEP) c.2
    let m := timeOut s f p m
    let m := if p < 48 ∨ bareOnTrunk s f then m else insertBet (tagEtype s) (betFor f) m
    (if f.cutThrough then m else pad60 m, { c.1 with twoSeen := f.twoSeen || two }, s)

/-! ### Judging a frame about to start on a trunk line (R137) -/

inductive Start where
  | go (f : Frame)
  | wait
  | orphan (f : Frame) (reason : Nat)
  deriving DecidableEq, Repr

def judgeStart (f : Frame) (p : Nat) (s : State) : Start × State :=
  let d := dirOf (p - 48)
  let pendingEpoch : Bool := match s.spr.accepted with
    | some a => a.newEpoch == f.epoch
    | none => false
  if bareOnTrunk s f then (.go f, s)
  else if !isCurrent s d then (.orphan f Orphan.blocked, s)
  else if f.epoch = liveEpoch s then (.go f, s)
  else if pendingEpoch then (.wait, s)
  else if f.epoch = prevEpoch s ∧ graceOn s then
    let t := translate f s
    match t.1 with
    | some r => (.orphan f r, t.2.2)
    | none =>
      -- translated already when its route is found to leave this direction
      let e := routeOf s t.2.1.epoch t.2.1.dstTnn
      if bit e 0 ∧ (e / 2 % 4 = d + 1 ∨ e / 2 % 4 = 3) then (.go t.2.1, t.2.2) else (.orphan t.2.1 Orphan.unmapped, t.2.2)
  else (.orphan f Orphan.stale, s)

/-! ### Starting (R247, R248, R319) -/

/-- The head of a queue may start: no pause stops it, its gate and its credit allow it; the express queue has neither. -/
def eligible (s : State) (p q : Nat) (f : Frame) : Bool :=
  q == 8 || (!queuePaused s p q && gateAllows s p q (outLen s f p) && decide (0 ≤ creditNow s p q))

/-- On a line that is to carry a COMMIT no frame starts that would still be there, with the gap after it, when the COMMIT
starts (R104). -/
def clearsCommit (s : State) (p : Nat) (f : Frame) : Bool :=
  if p < 48 then true
  else match commitDue s (p - 48) with
    | none => true
    | some c => decide (s.cycle + bytesCycles (portMbps s p) (outLen s f p + 20) ≤ c)

/-- What a translation has made of a frame stays with it (R145). -/
def retag (g h : Frame) : Frame :=
  { h with epoch := g.epoch, srcTnn := g.srcTnn, dstTnn := g.dstTnn, translated := g.translated, tat := g.tat, data := g.data,
           tatSeen := g.tatSeen }

/-- The frame of a queue that starts, if one may: copies too long for the output are dropped (R236), and on a trunk
line orphans are diverted until a frame may start. -/
def startFrom (fuel p q : Nat) (s : State) : Option (Nat × Frame) × State :=
  match fuel with
  | 0 => (none, s)
  | n + 1 =>
    match txQueue s p q with
    | [] => (none, s)
    | id :: _ =>
      match s.frame id with
      | none => startFrom n p q (setTxq p q ((txQueue s p q).drop 1) s)
      | some f =>
        if !eligible s p q f ∨ !clearsCommit s p f then (none, s)
        else if maxFrame s p < outLen s f p then startFrom n p q (dropCopy id p Reason.oversize s)
        else if p < 48 then (some (id, f), s)
        else
          let j := judgeStart f p s
          match j.1 with
          | .go g => (some (id, g), j.2)
          | .wait => (none, s)
          | .orphan g r => startFrom n p q (j.2 |> modFrame id (retag g) |> divertCopy id p r)

/-- The queue that is served: the express queue of a trunk line, then 7 down to 0. -/
def pickStart (p : Nat) (qs : List Nat) (s : State) : Option (Nat × Nat × Frame) × State :=
  match qs with
  | [] => (none, s)
  | q :: t =>
    let r := startFrom ((txQueue s p q).length + 1) p q s
    match r.1 with
    | some (id, f) => (some (q, id, f), r.2)
    | none => pickStart p t r.2

def queuesOf (p : Nat) : List Nat := if 48 ≤ p then [8, 7, 6, 5, 4, 3, 2, 1, 0] else [7, 6, 5, 4, 3, 2, 1, 0]

/-- Put a frame on the line now: its bytes, its egress time; `first`: its first attempt, which is counted and charged. -/
def putOnLine (p q id : Nat) (f : Frame) (held : Option HeldFrame) (fragments : Nat) (first : Bool) (s : State) : State :=
  let b := lineBytes f p s
  let s := b.2.2
  let t := txTime16 s p
  let s := whenT first (fun u => u |> stat p 32 (outLen u f p) |> whenT (q != 8) (spendShaper p q (outLen u f p))) s
  let s := s |> modFrame id (fun g => { g with txSec := sec16 t % 2 ^ 32, txNs := ns16 t, tatSeen := g.tatSeen || b.2.1.tatSeen, twoSeen := g.twoSeen || b.2.1.twoSeen })
    |> setTxq p q ((txQueue s p q).filter (· != id))
  setSending p { frame := id, bytes := b.1, express := q == 8, held := held, fragments := fragments, startAt := s.cycle, base := 0, taken := f.data.length } s

/-- The head frame of the highest eligible queue starts (R247). -/
def startHead (p : Nat) (s : State) : State :=
  let r := pickStart p (queuesOf p) s
  match r.1 with
  | none => r.2
  | some (q, id, f) =>
    r.2 |> whenT (isHalf s p) (setHalf p { s.half p with attempts := 0, deferring := false, deferred := none, backoffEnd := none })
      |> putOnLine p q id f none 1 true

/-- The end of the interframe gap after carrier (R238). -/
def gapEnd (s : State) (p : Nat) : Nat :=
  let h := s.half p
  if h.carrierEnd = 0 then s.cycle else h.carrierEnd + bytesCycles (portMbps s p) 12

/-- In half duplex: with carrier present the frame whose turn it is defers, counted once; else it starts after the gap, judged
then by its gate and shaper (R239, R319). A retry is no start of a frame and is judged by neither (DEDUCED from R247,
assumption log 82). -/
def startHalf (p : Nat) (s : State) : State :=
  let h := s.half p
  let r := pickStart p (queuesOf p) s
  match r.1 with
  | none => r.2
  | some (_, id, _) =>
    if h.carrier then
      if h.deferred = some id then r.2 else r.2 |> setHalf p { h with deferred := some id } |> stat1 p 44
    else r.2 |> advanceTo (gapEnd r.2 p) |> startHead p

/-- TX_FRAME_START: at a frame boundary the head frame of the highest eligible queue starts. In half duplex it defers
to carrier, and starts once the gap has passed (R238, R239). -/
def txFrameStart (p : Nat) (s : State) : State :=
  let h := s.half p
  if !portLink s p ∨ !(portState s p == 2 || portState s p == 3) ∨ (Sparse.find s.mac.fcWait p).isSome then s
  else
    match sendingAt s p with
    | some x =>
      -- only a frame that defers after a back-off may start again
      if !h.deferring ∨ h.carrier then s
      else
        match s.frame x.frame with
        | none => s |> clearSending p |> setHalf p { h with deferring := false }
        | some f => s |> advanceTo (gapEnd s p) |> setHalf p { h with deferring := false } |> putOnLine p f.cls x.frame f none 1 false
    | none => if isHalf s p then startHalf p s else startHead p s

/-! ### Ending (R215, R189, R279) -/

/-- A MAC ends the frame on the line with an FCS that the receiver rejects, and drops the copy. -/
def cutFrame (p reason : Nat) (s : State) : State :=
  match sendingAt s p with
  | none => s
  | some x =>
    let s := s |> whenT (onAir s p) (fun t => t |> emitOut (.frame p (x.bytes.take (sentBytes s p x)) true) |> stat1 p 49) |> clearSending p
      |> dropCopy x.frame p reason
    match x.held with
    | none => s
    | some h => s |> emitOut (.frame p (h.bytes.take h.sent) true) |> stat1 p 49 |> dropCopy h.frame p reason

/-- The preempted frame goes on, or the next express frame does. -/
def afterExpress (p : Nat) (h : HeldFrame) (fragments : Nat) (s : State) : State :=
  let r := startFrom ((txQueue s p 8).length + 1) p 8 s
  match r.1 with
  | some (id, f) => putOnLine p 8 id f (some h) fragments true r.2
  | none =>
    setSending p { frame := h.frame, bytes := h.bytes, express := false, held := none, fragments := fragments,
                   startAt := s.cycle - ceilDiv (h.sent * 6400) (max 1 (portMbps s p)), base := h.sent, taken := h.taken } r.2

/-- TX_FRAME_END: the last byte, FCS included, has left. -/
def txFrameEnd (p : Nat) (s : State) : State :=
  match sendingAt s p with
  | none => s
  | some x =>
    match s.frame x.frame with
    | none => clearSending p s
    | some f =>
      let whole := f.complete && f.copies.any (fun y => y.out == p && decide (f.cells ≤ y.pos))
      if !onAir s p ∨ !whole then s
      else
        let l := x.bytes ++ f.data.drop x.taken
        let s := advanceTo (x.startAt + bytesCycles (portMbps s p) (l.length + 4)) s
        let n := (s.half p).attempts
        let s := if f.bad then
            s |> emitOut (.frame p l true) |> stat1 p 49 |> clearSending p |> dropCopy x.frame p Reason.ctAbort
          else
            s |> emitOut (.frame p l false) |> statTxWhole p l |> whenT x.express (stat1 p 48)
              |> whenT (decide (1 < x.fragments) && !x.express) (fun t => t |> stat1 p 46 |> stat1 p 47)
              |> whenT (decide (n = 1)) (stat1 p 40) |> whenT (decide (1 < n)) (stat1 p 41)
              |> clearSending p |> tsResolve f true |> deliverCopy x.frame p
        let s := setHalf p { s.half p with attempts := 0, deferring := false, deferred := none, backoffEnd := none } s
        match x.held with
        | none => s
        | some h => afterExpress p h x.fragments s

/-! ### Half duplex (R238 to R240) -/

/-- The frame in hand is dropped after collisions. -/
def giveUp (p reason : Nat) (s : State) : State :=
  match sendingAt s p with
  | none => s
  | some x =>
    s |> clearSending p |> setHalf p { s.half p with attempts := 0, deferring := false, backoffEnd := none } |> dropCopy x.frame p reason

def collision (p : Nat) (s : State) : State :=
  match sendingAt s p with
  | none => s
  | some x =>
    if !isHalf s p ∨ !onAir s p then s
    else
      let mbps := portMbps s p
      let h := s.half p
      let n := h.attempts + 1
      let s := stat1 p 45 s
      if bytesCycles mbps 64 < s.cycle - x.startAt then
        s |> latch (Fld.EPT_EVENT_late_coll p) |> stat1 p 43 |> giveUp p Reason.lateCollision
      else if 16 ≤ n then s |> latch (Fld.EPT_EVENT_excess_coll p) |> stat1 p 42 |> giveUp p Reason.excessCollision
      else
        let r := (Config.backoff Config.fusedUid p h.draws).toNat % 2 ^ min n 10
        setHalf p { h with attempts := n, draws := h.draws + 1, deferring := false,
                           backoffEnd := some (s.cycle + bytesCycles mbps 4 + r * bytesCycles mbps 64) } s

/-- HD_BACKOFF_EXPIRY: the port defers while carrier is present, else it retries. -/
def backoffDone (p : Nat) (s : State) : State :=
  let h := s.half p
  match h.backoffEnd, sendingAt s p with
  | some e, some x =>
    let s := advanceTo e s
    if h.carrier then setHalf p { h with backoffEnd := none, deferring := true } s
    else
      match s.frame x.frame with
      | none => s |> clearSending p |> setHalf p { h with backoffEnd := none, attempts := 0 }
      | some f =>
        s |> advanceTo (gapEnd s p) |> setHalf p { h with backoffEnd := none }
          |> putOnLine p f.cls x.frame f none 1 false
  | _, _ => s

def carrierSense (p : Nat) (carrier : Bool) (s : State) : State :=
  if !isHalf s p then s
  else
    let h := s.half p
    setHalf p { h with carrier := carrier, carrierEnd := if h.carrier && !carrier then s.cycle else h.carrierEnd } s

/-! ### Frames received (R184, R189, R236, R237, R253) -/

/-- Counters of the preemptable fragments a frame came in (R258). -/
def statFrags (p frags : Nat) (good : Bool) (s : State) : State :=
  s |> stat p 18 frags |> whenT (good && decide (2 ≤ frags)) (stat1 p 19)

/-- Counters of a frame that has ended, by how it ended (R258). -/
def statEnd (p : Nat) (l : List Byte) (err : FrameErr) (frags : Nat) (s : State) : State :=
  let bytes := fun (t : State) => t |> stat p 0 (l.length + 4) |> stat1 p 2
  let s := statFrags p frags (err == .good) s
  match err with
    | .good => statRx p l true s
    | .bad => statRx p l false s
    | .frag => s |> bytes |> stat1 p 17
    | .code => s |> bytes |> stat1 p 16
    | .align => s |> bytes |> stat1 p 11
    | .overrun => s |> bytes |> stat1 p 21

/-- A frame taken whole by the MAC or port S, its first bit at the instant `at_`. -/
def takeWhole (p at_ : Nat) (l : List Byte) (err : FrameErr) (frags : Nat) (s : State) : State :=
  let n := p - 48
  let control := etherTypeAt l 12 == 0x8808
  let s := if l.length + 4 < 64 ∨ err ≠ .good then statEnd p l err frags s else statFrags p frags true s
  if l.length + 4 < 64 then s
  else if err ≠ .good then
    let frag := err == .frag
    let cls := if isNativeSync s l then 6 else if 48 ≤ p ∧ !inCompat s ∧ !isSpireFrame s l ∧ !isRosterFrame s l then edgeClass s p l else 7
    let f := { frameToS p cls at_ l s with bad := true }
    s |> whenT (!control && frag && decide (48 ≤ p)) (latch (Fld.TPT_EVENT_frag_error n))
      |> whenT (!control) (refuseFrame f (if frag then Reason.fragError else Reason.fcsError) 1 63)
  else if control then takeControl p l s
  else if p < 48 then spireAtEdge p at_ l s
  else if isSpireFrame s l then spireIn n at_ l s
  else if isRosterFrame s l then rosterIn n at_ l s
  else if isNativeSync s l then syncIn n at_ l s
  else helloIn n at_ l s

/-- Free cells for n more are lacking: the frame is cut short (R205). -/
def lacksCells (s : State) (f : Frame) (cells : Nat) : Bool := decide (cellsFree s < cells - f.cells)

/-- Every MAC that sends a frame ends it, and its copies are dropped. -/
def abortFrame (id reason : Nat) (s : State) : State :=
  match s.frame id with
  | none => s
  | some f =>
    let s := each ((f.copies.filter (fun y => decide (y.out < 52))).map (·.out)) (fun o t =>
      match sendingAt t o with
      | some x => if x.frame = id then cutFrame o reason t else t
      | none => t) s
    dropFrame id reason s

/-- What is stored of a frame with more bytes: one longer than the port takes is cut at one byte more, of which a receiver
sees the last four as a bad FCS (R236). -/
def storedPart (s : State) (p : Nat) (f : Frame) (bytes : List Byte) : List Byte :=
  (f.data ++ bytes).take (maxFrame s p - (if f.tagged then 8 else 0) + 1 - 4)

/-- A trunk MAC with active preemption that has sent all there is of a cut-through frame has closed its fragment; the frame
goes on with the cells that now arrive (R189). -/
def closeFragments (id : Nat) (s : State) : State :=
  each (List.range 4) (fun n t =>
    let p := 48 + n
    match sendingAt t p with
    | none => t
    | some x =>
      let all := presentBytes t x
      if x.frame ≠ id ∨ x.express = true ∨ !preemptActive t n ∨ sentBytes t p x < all then t
      else t |> setSending p { x with fragments := x.fragments + 1, base := all, startAt := t.cycle - ceilDiv (all * 6400) (max 1 (portMbps t p)) }
        |> stat1 p 47) s

/-- CELL_WRITE: a later cell of the frame being received. -/
def cellWrite (p : Nat) (bytes : List Byte) (s : State) : State :=
  match Sparse.find s.fab.arriving p with
  | none => s
  | some a =>
    let s := setArrival p { a with line := a.line ++ bytes } s
    match a.frame with
    | none => s
    | some id =>
      match s.frame id with
      | none => s
      | some f =>
        let d := storedPart s p f bytes
        let cells := max 1 (d.length / 128)
        let s := closeFragments id s
        if lacksCells s f cells then
          s |> abortFrame id Reason.bufLimit |> count Reg.BUF_TRUNCATED |> setArrival p { a with line := a.line ++ bytes, frame := none }
        else modFrame id (fun g => { g with data := d, cells := cells }) s

/-- A frame has ended in error: dropped, or ended bad where it has begun to leave cut-through: a copy that has begun is then
a CT_ABORT whatever the error (R189), one that has not takes the error's reason (DESIGN CHOICE, assumption log 49). -/
def endBad (p id : Nat) (f : Frame) (frag : Bool) (s : State) : State :=
  let reason := if frag then Reason.fragError else if f.cutThrough then Reason.ctAbort else Reason.fcsError
  let s := whenT (frag && decide (48 ≤ p)) (latch (Fld.TPT_EVENT_frag_error (p - 48))) s
  if f.cutThrough ∧ f.copies.any (fun y => decide (0 < y.pos)) then
    let s := s |> count Reg.FAB_CT_ABORT |> latch Fld.FAB_EVENT_ct_abort |> modFrame id (fun g => { g with complete := true, bad := true })
    each ((f.copies.filter (fun y => y.pos == 0)).map (·.out)) (fun o t => dropCopy id o reason t) s
  else s |> modFrame id (fun g => { g with bad := true }) |> dropFrame id reason

/-- A frame has ended good: it is ready; orphans go to the ring writer. -/
def endGood (p id : Nat) (s : State) : State :=
  let s := modFrame id (fun g => { g with complete := true, data := if p < 52 then asymIn s p g.data else g.data }) s
  match s.frame id with
  | none => s
  | some f =>
    each ((f.copies.filter (fun y => decide (60 ≤ y.out))).map (·.out)) (fun o t =>
      t |> modCopy id o (fun y => { y with stage := .ring }) |> modFab (fun x => { x with ringQueue := x.ringQueue ++ [.copy id o] })) s

/-- The peer sent the frame as express (R183, R258). -/
def cameExpress (s : State) (p : Nat) (l : List Byte) : Bool :=
  decide (48 ≤ p) && (match betOf (tagEtype s) l with
    | none => isTimeFrame l
    | some t => isTimeFrame (removeBet l) || (t.cls == 7 && decide (l.length + 4 ≤ 264) && s.on Fld.FAB_CTRL_c7_express))

/-- FRAME_END: the last bytes of the frame, how it ended and in how many preemptable fragments it came. A frame without
ADMISSION_POINT is one that the MAC rejected before its first cell: it is only counted (R237, R253). -/
def frameEnd (p : Nat) (bytes : List Byte) (err : FrameErr) (frags : Nat) (s : State) : State :=
  match Sparse.find s.fab.arriving p with
  | none => if receives s p ∧ (err ≠ .good ∨ bytes.length + 4 < 64) then statEnd p bytes err frags s else s
  | some a =>
    let s := endArrival p s
    let line := a.line ++ bytes
    let long := decide (maxFrame s p < line.length + 4)
    let good := err == .good && !long
    let frag := err == .frag
    if takenWhole s p (line.length + 4) line then takeWhole p a.inAt line err frags s
    else
      let s := statEnd p line err frags s
      let s := whenT (good && frags == 0 && cameExpress s p line) (stat1 p 20) s
      let s := match a.learn with
        | some r => whenT good (queueLearn r) s
        | none => s
      match a.frame with
      | none => s
      | some id =>
        match s.frame id with
        | none => s
        | some f =>
          let d := storedPart s p f bytes
          let cells := cellsOf (d.length + 4)
          let s := closeFragments id s
          if lacksCells s f cells then s |> abortFrame id Reason.bufLimit |> count Reg.BUF_TRUNCATED
          else
            let s := modFrame id (fun g => { g with data := d, cells := cells, len := d.length + 4 }) s
            if good then endGood p id s else endBad p id f frag s

/-- A frame being received when the link is lost ends in error. -/
def cutArrival (p : Nat) (s : State) : State := frameEnd p [] .bad 0 s

/-! ### Edge links (R235, R244) -/

/-- Copies in the transmit queues of an output are discarded. -/
def discardQueued (p reason : Nat) (s : State) : State :=
  each (queuesOf p) (fun q t => each (txQueue t p q) (fun id u => dropCopy id p reason u) t) s

def setWord (p : Nat) (w : Option Nat) (s : State) : State :=
  modMac (fun m => { m with word := match w with
    | none => Sparse.drop m.word p
    | some w => Sparse.ins (Sparse.drop m.word p) p w }) s

def edgeDown (p : Nat) (s : State) : State :=
  let was := s.on (Fld.EPT_STATUS_link p)
  let s := s |> setWord p none |> cutArrival p |> cutFrame p Reason.linkDown |> discardQueued p Reason.linkDown |> clearPauses p
    |> setHalf p { HalfDuplex.idle with draws := (s.half p).draws }
  s |> setF (Fld.EPT_STATUS_link p) 0 |> setF (Fld.EPT_STATUS_speed p) 0 |> setF (Fld.EPT_STATUS_duplex p) 0 |> setF (Fld.EPT_STATUS_an_done p) 0
    |> whenT was (latch (Fld.EPT_EVENT_link_change p))

/-- A partner word of half duplex at 1000 Mbit/s leaves the link down (R235); the word has been received (R262). -/
def badMode (p : Nat) (s : State) : State :=
  edgeDown p s |> setWord p (some 2) |> setF (Fld.EPT_STATUS_an_done p) 1 |> setF (Fld.EPT_STATUS_bad_mode p) 1
    |> latch (Fld.EPT_EVENT_bad_mode p)

/-- EDGE_LINK_CHANGE: what the in-band word or the PCS reports. -/
def edgeLink (p : Nat) (up : Bool) (speed : Nat) (full : Bool) (s : State) : State :=
  if !(portState s p == 2 || portState s p == 3) then s
  else
    let an := s.on (Fld.EPT_MODE_an p)
    let sgmii := !s.on (Fld.EPT_MODE_iface p)
    let bad := up && an && sgmii && !full && speed == 2
    if bad then badMode p s
    else if !up then edgeDown p s
    else
      let sp := if !sgmii then 3 else if an then speed % 4 else s.getF (Fld.EPT_MODE_speed p)
      let du := !sgmii || (if an then full else s.on (Fld.EPT_MODE_duplex p))
      let was := s.on (Fld.EPT_STATUS_link p)
      s |> setWord p (some (speed % 4 + 4 * b2n full)) |> setF (Fld.EPT_STATUS_link p) 1 |> setF (Fld.EPT_STATUS_speed p) sp |> setF (Fld.EPT_STATUS_duplex p) (b2n du)
        |> setF (Fld.EPT_STATUS_an_done p) (b2n an) |> setF (Fld.EPT_STATUS_bad_mode p) 0
        |> whenT (!was) (latch (Fld.EPT_EVENT_link_change p)) |> fcLinkUp p

/-! ### Preemption and its verify exchange (R252) -/

def Vf.disabled : Nat := 0
def Vf.initial : Nat := 1
def Vf.verifying : Nat := 2
def Vf.succeeded : Nat := 3
def Vf.failed : Nat := 4

def setVerify (n : Nat) (v : Option Verify) (s : State) : State :=
  modMac (fun m => { m with verify := match v with
    | none => Sparse.drop m.verify n
    | some v => Sparse.ins (Sparse.drop m.verify n) n v }) s

/-- Preemption starts again on a line with link: verify from INITIAL, or active at once. -/
def startPreemption (n : Nat) (s : State) : State :=
  let s := s |> setVerify n none |> setF (Fld.TPT_STATUS_preempt_active n) 0 |> setF (Fld.TPT_STATUS_verify n) Vf.disabled
  if !s.on (Fld.TPT_PREEMPT_enable n) then s
  else if s.on (Fld.TPT_PREEMPT_verify n) then
    s |> setF (Fld.TPT_STATUS_verify n) Vf.initial |> setVerify n (some { sent := 0, due := s.cycle, restart := false })
  else setF (Fld.TPT_STATUS_preempt_active n) 1 s

/-- No frame, with all its fragments, is in progress: a restart that waited is done. -/
def settlePreemption (n : Nat) (s : State) : State :=
  match Sparse.find s.mac.verify n with
  | some v => if v.restart ∧ (sendingAt s (48 + n)).isNone then startPreemption n s else s
  | none => s

/-- A verify or respond frame leaves, from the port's own address (R36, R252). -/
def verifyOut (n : Nat) (respond : Bool) (s : State) : State := s |> emitOut (.verify n (s.macOf (48 + n)) respond) |> stat1 (48 + n) 51

/-- A respond frame on trunk line n (R23). -/
def isVerifyResponse (n : Nat) (i : Instr) : Bool :=
  match i with
  | .verifyResponse m _ => m.val == n
  | _ => false

/-- VERIFY_SEND: the next verify frame, or the failure after the last. -/
def verifySend (n : Nat) (s : State) : State :=
  match Sparse.find s.mac.verify n with
  | none => s
  | some v =>
    if v.restart then s
    else
      let s := advanceTo v.due s
      if inTime (isVerifyResponse n) s then s
      else if v.sent < s.getF (Fld.TPT_PREEMPT_verify_limit n) then
        s |> verifyOut n false |> setF (Fld.TPT_STATUS_verify n) Vf.verifying
          |> setVerify n (some { v with sent := v.sent + 1, due := s.cycle + s.getF (Fld.TPT_PREEMPT_verify_ms n) * cyclesPerMs })
      else s |> setF (Fld.TPT_STATUS_verify n) Vf.failed |> setVerify n none |> latch (Fld.TPT_EVENT_verify_fail n)

def verifyResponse (n : Nat) (s : State) : State :=
  if !receives s (48 + n) then s
  else
    let s := stat1 (48 + n) 52 s
    let waits := ((Sparse.find s.mac.verify n).map (fun v => v.restart)).getD false
    if !waits ∧ s.getF (Fld.TPT_STATUS_verify n) = Vf.verifying then
      s |> setF (Fld.TPT_STATUS_verify n) Vf.succeeded |> setVerify n none |> setF (Fld.TPT_STATUS_preempt_active n) 1
    else s

def verifyReceive (n : Nat) (s : State) : State := if !receives s (48 + n) then s else s |> stat1 (48 + n) 52 |> verifyOut n true

/-- TPT_PREEMPT was written; `old` is the word before. A change of add_frag alone restarts nothing. -/
def preemptWritten (n old : Nat) (s : State) : State :=
  let strip := fun (w : Nat) => w - w / 16 % 4 * 16
  if !s.on (Fld.TPT_STATUS_link n) ∨ strip old = strip (s.reg (Reg.TPT_PREEMPT n)).toNat then s
  else s |> setVerify n (some { sent := 0, due := s.cycle, restart := true }) |> settlePreemption n

/-- PREEMPTION: an express frame ready during a preemptable frame interrupts it once `sent` bytes of the fragment in
progress have left and at least 64 bytes of the frame remain. -/
def preempt (n sent : Nat) (s : State) : State :=
  let p := 48 + n
  match sendingAt s p with
  | none => s
  | some x =>
    let least := 64 * (1 + s.getF (Fld.TPT_PREEMPT_add_frag n)) - 4
    let total := x.base + sent
    if !preemptActive s n ∨ x.express = true ∨ sent < least ∨ presentBytes s x + 4 < total + 64 then s
    else
      let r := startFrom ((txQueue s p 8).length + 1) p 8 s
      match r.1 with
      | none => s
      | some (id, f) =>
        putOnLine p 8 id f (some { frame := x.frame, bytes := x.bytes, sent := total, taken := x.taken }) (x.fragments + 1) true r.2 |> stat1 p 47

/-! ### A COMMIT on its line (R104) -/

/-- A preemptable frame in progress is interrupted so that the line, the gap included, is free now. -/
def clearLine (n : Nat) (s : State) : State :=
  match sendingAt s (48 + n) with
  | none => txFrameStart (48 + n) s
  | some x => preempt n (min (sentBytes s (48 + n) x - 16) (presentBytes s x + 4 - 64) - x.base) s

/-- A COMMIT that is due stands at the head of its line's express queue, and starts where the line is free or can be
preempted. That it has crossed by then is the model's choice (assumption log 171). -/
def commitOnLine (id : Nat) (f : Frame) (s : State) : State :=
  each (f.copies.map (fun y => y.out)) (fun o t =>
    if !lineOpen t o then dropCopy id o Reason.linkDown t
    else t |> captureOnce 1 id o 0 |> modCopy id o (fun y => { y with pos := f.cells, stage := .queued }) |> setTxq o 8 (id :: txQueue t o 8)
      |> clearLine (o - 48)) s

/-- COMMIT_SEND and COMMIT_FORWARD. -/
def commitOut (fromRef : Bool) (s : State) : State :=
  let t := sendCommit fromRef s
  each (t.fab.frames.filter (fun p => decide (s.fab.nextId ≤ p.1))) (fun p => commitOnLine p.1 p.2) t

/-! ### Trunk links, failover and revert (R90, R192, R193, R250) -/

def trunkLinkUp (n speed : Nat) (s : State) : State :=
  let p := 48 + n
  if portState s p ≠ 2 ∨ s.on (Fld.TPT_STATUS_link n) then s
  else
    let sp := if s.on (Fld.TPT_MODE_an n) then speed % 4 else s.getF (Fld.TPT_MODE_speed n)
    s |> setWord p (some (speed % 4 + 4)) |> setF (Fld.TPT_STATUS_link n) 1 |> setF (Fld.TPT_STATUS_speed n) sp |> latch (Fld.TPT_EVENT_link_change n)
      |> startPreemption n |> sprLinkUp n

/-- The frames of port S that wait for a line go with its link; no other line can carry them (assumption log 171). -/
def dropOwn (p : Nat) (s : State) : State :=
  each (s.fab.frames.filter (fun f => f.2.spireFrame && f.2.copies.any (fun y => y.out == p))) (fun f => dropCopy f.1 p Reason.linkDown) s

/-- The PHY reports link down: the line is DOWN, and the frame in progress is cut. The line of a stopping port keeps cause 5
(R255). -/
def trunkLinkDown (n cause : Nat) (s : State) : State :=
  if !s.on (Fld.TPT_STATUS_link n) then s
  else
    let s := s |> cutArrival (48 + n) |> cutFrame (48 + n) Reason.linkDown |> dropOwn (48 + n)
      |> sprLinkDown n (if portState s (48 + n) = 3 then 5 else cause)
    s |> setWord (48 + n) none |> setVerify n none |> setF (Fld.TPT_STATUS_preempt_active n) 0 |> setF (Fld.TPT_STATUS_verify n) Vf.disabled
      |> setF (Fld.TPT_STATUS_link n) 0 |> setF (Fld.TPT_STATUS_speed n) 0 |> latch (Fld.TPT_EVENT_link_change n)

def fldReverting (d : Nat) : Fld := if d = 0 then Fld.FAB_AGG_STATE_dir1_reverting else Fld.FAB_AGG_STATE_dir2_reverting

/-- No move back is in progress in a direction. -/
def endRevert (d : Nat) (s : State) : State :=
  s |> modFab (fun x => { x with revert := Sparse.drop x.revert d, revertAt := Sparse.drop x.revertAt d }) |> setF (fldReverting d) 0

/-- A line has left UP (R192): its waiting frames move to the other line, or are diverted as orphans. -/
def lineLost (n : Nat) (phyDown : Bool) (s : State) : State :=
  let p := 48 + n
  let d := dirOf n
  let s := s |> latch Fld.FAB_EVENT_failover |> showAgg d |> endRevert d
  let s := whenT phyDown (cutFrame p Reason.linkDown) s
  let up := isUp s (otherLine p)
  let s := modFab (fun x => { x with awayLines := n :: x.awayLines.filter (fun m => m != n) }) s
  let own := fun (t : State) (id : Nat) => ((t.frame id).map (fun f => f.spireFrame)).getD false
  each [8, 7, 6, 5, 4, 3, 2, 1, 0] (fun q t =>
    each ((txQueue t p q).filter (fun id => !own t id)) (fun id u => if up then moveLine id p u else divertCopy id p Orphan.left u) t) s

/-- A line enters UP (R193): where it is its direction's only one, every flow uses it and none is away from it. -/
def lineBack (n : Nat) (s : State) : State :=
  s |> showAgg (dirOf n) |> whenT (!isUp s (2 * dirOf n + 1 - n % 2)) (modFab (fun x => { x with awayLines := x.awayLines.filter (fun m => m != n) }))

/-- Classes whose queue on the surviving line has drained move back; the move ends with the last (R193). -/
def revertCheck (d : Nat) (s : State) : State :=
  match Sparse.find s.fab.revert d with
  | none => s
  | some moved =>
    let other := ((dirLines d).filter (fun n => !s.fab.awayLines.contains n)).headD (2 * d)
    let idle := fun q => (txQueue s (48 + other) q).isEmpty
    let moved := (List.range 8).filter (fun c => moved.contains c || idle c)
    if moved.length = 8 then
      s |> endRevert d |> modFab (fun x => { x with awayLines := x.awayLines.filter (fun n => dirOf n != d) })
    else modFab (fun x => { x with revert := Sparse.ins (Sparse.drop x.revert d) d moved }) s

/-- The returned line of a direction: away, and UP again. -/
def returned (s : State) (d : Nat) : Option Nat := s.fab.awayLines.find? (fun n => dirOf n == d && isUp s n)

def revertDue (s : State) (n : Nat) : Nat :=
  Sparse.get (fun _ => 0) s.fab.upSince n + s.getF Fld.FAB_AGG_CTRL_revert_ms * cyclesPerMs

def beginRevert (d : Nat) (s : State) : State :=
  s |> modFab (fun x => { x with revert := Sparse.ins (Sparse.drop x.revert d) d [], revertAt := Sparse.ins (Sparse.drop x.revertAt d) d s.cycle })
    |> setF (fldReverting d) 1 |> revertCheck d

/-- REVERT_START. -/
def revertStart (d : Nat) (s : State) : State :=
  match returned s d with
  | none => s
  | some n =>
    if !s.on Fld.FAB_AGG_CTRL_revert ∨ (Sparse.find s.fab.revert d).isSome then s
    else s |> advanceTo (revertDue s n) |> beginRevert d

/-- A write that sets revert: the move back starts at once where the line has been UP for revert_ms. -/
def revertWritten (s : State) : State :=
  each [0, 1] (fun d t =>
    match returned t d with
    | none => t
    | some n =>
      if t.on Fld.FAB_AGG_CTRL_revert ∧ (Sparse.find t.fab.revert d).isNone ∧ revertDue t n ≤ t.cycle then beginRevert d t else t) s

/-- REVERT_DRAIN_MAX: a class whose queue has not drained is moved all the same. -/
def revertForce (d c : Nat) (s : State) : State :=
  match Sparse.find s.fab.revert d, Sparse.find s.fab.revertAt d with
  | some _, some t0 =>
    let s := s |> advanceTo (t0 + s.getF Fld.FAB_AGG_CTRL_drain_max_ms * cyclesPerMs) |> revertCheck d
    match Sparse.find s.fab.revert d with
    | none => s
    | some moved =>
      if moved.contains c then s
      else s |> latch Fld.FAB_EVENT_revert_forced |> count Reg.FAB_AGG_FORCED
        |> modFab (fun x => { x with revert := Sparse.ins (Sparse.drop x.revert d) d (c :: moved) }) |> revertCheck d
  | _, _ => s

/-! ### Drains and the statistics' clear (R255, R257, R260) -/

/-- The drain of a stopping edge port has ended: copies not being sent are dropped. -/
def drainOver (p : Nat) (s : State) : State :=
  let s := modMac (fun m => { m with drainAt := Sparse.drop m.drainAt p }) s
  let busy := (sendingAt s p).map (fun x => x.frame)
  let left := (s.fab.frames.filter (fun f => f.2.copies.any (fun y => y.out == p) && busy != some f.1)).map (·.1)
  each left (fun id t => dropCopy id p Reason.portStop t) s

def drainExpiry (p : Nat) (s : State) : State :=
  match Sparse.find s.mac.drainAt p with
  | none => s
  | some t => s |> advanceTo (t + s.getF (Fld.EPT_CTRL_drain_us p) * cyclesPerUs) |> drainOver p

/-- EPT_CTRL was written: a drain in progress is measured from its start. -/
def drainWritten (p : Nat) (s : State) : State :=
  match Sparse.find s.mac.drainAt p with
  | none => s
  | some t => if t + s.getF (Fld.EPT_CTRL_drain_us p) * cyclesPerUs ≤ s.cycle then drainOver p s else s

/-- MST_CLEAR: every counter of the named port, and its half-range bits. -/
def mstClear (v : Nat) (s : State) : State :=
  if !bit v 31 then s
  else
    let p := min 51 (v % 64)
    let s := each (List.range 64) (fun k t => t |> setR (Reg.MST_CNT_LO p k) 0 |> setR (Reg.MST_CNT_HI p k) 0) s
    s |> setR (Reg.MST_HALF_LO p) 0 |> setR (Reg.MST_HALF_HI p) 0

end Sys2Proof.Machine
end

