-- ==== Sys2Proof/Machine/RingWriter.lean ====
section
/-! DEFINITION. The ring writer of port H (R422 to R427), captures (R217, R430), and port H's sending side: TX data,
admission, waiting at the source (R206, R418 to R421). -/
namespace Sys2Proof.Machine

/-! ### What goes to which ring (R422) -/

def classRing (s : State) (c : Nat) : Nat :=
  fieldOf (s.reg (if c < 4 then Reg.HST_RX_MAP_LO else Reg.HST_RX_MAP_HI)) (8 * (c % 4)) 6

/-- The ring of a copy for port H; `out` 60 and above is an orphan. -/
def ringOfCopy (s : State) (f : Frame) (out : Nat) : Nat :=
  if 60 ≤ out then ((f.copies.find? (fun y => y.out == out)).map (fun y => y.ring)).getD 0
  else if f.timeFrame ∧ f.inPort < 52 then s.getF Fld.TIM_CTRL_host_ring
  else if inCompat s ∧ 48 ≤ f.inPort ∧ f.inPort < 52 ∧ isTopology s f.data then s.getF Fld.SPR_COMPAT_CTRL_topo_ring
  else classRing s f.cls

def ringOfItem (s : State) (i : RxItem) : Nat :=
  match i with
  | .can r _ => r
  | .copy id out => match s.frame id with
    | some f => ringOfCopy s f out
    | none => 0

/-- Cells that an item keeps while it waits; a CAN record counts as one (R426). -/
def itemCells (s : State) (i : RxItem) : Nat :=
  match i with
  | .can _ _ => 1
  | .copy id _ => ((s.frame id).map (fun f => f.cells)).getD 0

/-- A frame's address has been rewritten on its way out: counted once for the frame (R154). -/
def noteTat (id : Nat) (changed : Bool) (s : State) : State :=
  match s.frame id with
  | none => s
  | some f => if changed ∧ !f.tatSeen then s |> count Reg.EPO_TAT_REWRITES |> modFrame id (fun g => { g with tatSeen := true }) else s

/-- The bytes written for an item; counts a rewritten address (R154 case 2, R172, R424). -/
def itemData (i : RxItem) (s : State) : List Byte × State :=
  match i with
  | .can _ l => (l, s)
  | .copy id out =>
    match s.frame id with
    | none => ([], s)
    | some f =>
      let l := vlanForm f portH
      let m := tatIn f portH l s
      if 60 ≤ out then (insertBet (tagEtype s) { betFor f with hops := f.hops } l, s) else (m, noteTat id (m != l) s)

/-- An item is lost to its ring: RING_DROP or RING_DISCARD, for an orphan always ORPHAN_RING (R149, R215), or a lost CAN record
(R340). -/
def loseItem (i : RxItem) (reason : Nat) (s : State) : State :=
  match i with
  | .can _ l =>
    let ch := beAt l 6 1 % 16
    s |> count (Reg.CAN_RX_LOST ch) |> latch (Fld.CAN_EVENT_rx_lost ch)
  | .copy id out => dropCopy id out (if 60 ≤ out then Reason.orphanRing else reason) s

/-- An item has been written: DELIVER, or RETURN for an orphan (R158, R215). -/
def itemWritten (i : RxItem) (s : State) : State :=
  match i with
  | .can _ _ => s
  | .copy id out =>
    if out < 60 then deliverCopy id out s
    else match s.frame id with
      | none => s
      | some f => s |> ledReturn f.row 1 |> removeCopy id out

/-- Bytes 0 to 30 of an RX write-back (R424). -/
def rxWriteBack (s : State) (i : RxItem) (tagged : Bool) (n length status : Nat) (sof eof : Bool) : List Byte :=
  match i with
  | .can _ _ =>
    zeros 8 ++ le 2 n ++ [byte (b2n sof + 2 * b2n eof + 4), byte (status * 32), 63, 0] ++ zeros 2 ++ le 2 (if eof then length else 0) ++ zeros 13
  | .copy id out =>
    match s.frame id with
    | none => zeros 31
    | some f =>
      let orphan := decide (60 ≤ out)
      let reason := if orphan then ((f.copies.find? (fun y => y.out == out)).map (fun y => y.arg)).getD 0 else 0
      let bet := f.tagged || orphan
      le 4 f.inNs ++ le 4 f.inSec ++ le 2 n ++
        [byte (b2n sof + 2 * b2n eof + 8 * b2n orphan + 16 * b2n bet + 32 * b2n f.translated + 64), byte (status * 32), byte f.inPort,
         byte (f.cls + 16 * reason)] ++ le 2 (f.vid + b2n tagged * 2 ^ 12) ++ le 2 (if eof then length else 0) ++
        (if bet then [byte f.epoch, byte f.srcTnn, byte f.dstTnn, byte (f.hops + b2n f.tat * 64)] else zeros 4) ++ zeros 2 ++
        le 4 f.inStamp ++ zeros 3

/-- Does the data of an item carry an 802.1Q tag? -/
def itemTagged (s : State) (i : RxItem) : Bool :=
  match i with
  | .can _ _ => false
  | .copy id _ => match s.frame id with
    | some f => hasVlanTag (vlanForm f portH)
    | none => false

/-! ### Writing (R423 to R426) -/

/-- Write back the buffers an item used, in slot order; too small a buffer is BAD_DESC. `length` 0 for a discard. -/
def writeBacks (r : Nat) (i : RxItem) (used : List (Nat × Nat)) (length status : Nat) (s : State) : State :=
  let tagged := itemTagged s i
  let good := used.filter (fun u => u.2 != 0)
  let firstPos := (good.head?).map (·.1)
  let lastPos := (good.getLast?).map (·.1)
  each used (fun u t =>
    if u.2 = 0 then writeBack r u.1 (zeros 11 ++ [byte 64]) t
    else writeBack r u.1 (rxWriteBack t i tagged u.2 length status (firstPos == some u.1) (lastPos == some u.1)) t) s

/-- The copy in progress is discarded (R425). -/
def discardWriting (r : Nat) (s : State) : State :=
  match (s.ring r).writing with
  | none => s
  | some w =>
    s |> writeBacks r w.item w.used 0 1
      |> modRing r (fun x => { x.take w.used.length with writing := none, stallEnd := none, lateArmed := true })
      |> count (Reg.RNG_DISCARDS r) |> ringEvent Fld.RNG_EVENT_discard r |> noteWriteback r |> loseItem w.item Reason.ringDiscard

/-- Fill buffers as far as descriptors are at hand; the copy ends, stalls, or waits for a fetch. -/
def progress (fuel r : Nat) (s : State) : State :=
  match fuel with
  | 0 => s
  | n + 1 =>
    let x := s.ring r
    match x.writing with
    | none => shedShort x.fetched.length r s
    | some w =>
      if w.rest.isEmpty then
        let length := (w.used.map (·.2)).sum
        s |> writeBacks r w.item w.used length 0 |> modRing r (fun y => { y.take w.used.length with writing := none, stallEnd := none })
          |> count (Reg.RNG_FRAMES r) |> noteWriteback r |> itemWritten w.item |> progress n r
      else if freeSlots s r ≤ w.used.length then
        if x.stallEnd.isSome then s
        else
          let us := s.getF (Fld.RNG_STALL_WAIT_us r)
          if us = 0 then discardWriting r s else modRing r (fun y => { y with stallEnd := some (s.cycle + us * cyclesPerUs) }) s
      else
        match x.fetched.drop w.used.length with
        | [] => s
        | d :: _ =>
          let pos := (x.cons + w.used.length) % (2 * x.size)
          let k := if Desc.len d < 64 then 0 else min (Desc.len d) w.rest.length
          if k = 0 ∧ w.used.isEmpty then
            s |> badBuffer r |> progress n r
          else
            s |> whenT (k != 0) (writeHost (Desc.addr d) (w.rest.take k))
              |> modRing r (fun y => { y with writing := some { w with rest := w.rest.drop k, used := w.used ++ [(pos, k)] }, stallEnd := none })
              |> progress n r

/-- The most descriptors one copy can take. -/
def writeFuel (s : State) (r : Nat) : Nat := (s.ring r).fetched.length + 3

/-- Begin a copy on a ring with a slot. -/
def beginWrite (r : Nat) (i : RxItem) (s : State) : State :=
  let d := itemData i s
  let s := modRing r (fun x => { x with writing := some { item := i, rest := d.1, used := [] } }) d.2
  progress (writeFuel s r) r s

/-- Copies that wait for buffers are written in order of arrival. -/
def drainHeld (fuel r : Nat) (s : State) : State :=
  match fuel with
  | 0 => s
  | n + 1 =>
    match (s.ring r).writing, (s.ring r).held with
    | none, i :: t =>
      if freeSlots s r = 0 then s else s |> modRing r (fun x => { x with held := t }) |> beginWrite r i |> drainHeld n r
    | _, _ => s

/-- A ring has new slots, or new descriptors, or may write again: a GAP record owed comes first (R429), then the copy in
progress, then the copies that wait. -/
def goOn (r : Nat) (s : State) : State :=
  let s := gapEvent r s
  let s := progress (writeFuel s r) r s
  drainHeld ((s.ring r).held.length + 1) r s

/-- A copy or record for a ring that cannot take it, or that is no enabled RX ring, is lost (R422, R426, R434). RNG_DROPS
counts the RING_DROP copies, which an orphan and a CAN record are not (R149, R340). -/
def dropForRing (r : Nat) (i : RxItem) (s : State) : State :=
  let dropped := match i with
    | .copy _ out => decide (out < 60)
    | .can _ _ => false
  s |> whenT dropped (fun t => t |> count (Reg.RNG_DROPS r) |> ringEvent Fld.RNG_EVENT_drop r) |> loseItem i Reason.ringDrop

/-- The policy of a ring without a slot (R426). -/
def policyFate (r : Nat) (i : RxItem) (s : State) : State :=
  let x := s.ring r
  let cells := (x.held.map (itemCells s)).sum + itemCells s i
  if s.getF (Fld.RNG_CFG_policy r) = 1 ∧ cells ≤ s.getF (Fld.RNG_CFG_min_cells r) then modRing r (fun y => { y with held := y.held ++ [i] }) s
  else dropForRing r i s

/-- RING_WRITE: the next copy for port H, or CAN record, reaches the ring writer. A copy whose ring is writing another
and has slots left waits its turn. -/
def ringWrite (s : State) : State :=
  let busy := fun (i : RxItem) =>
    let r := ringOfItem s i
    let x := s.ring r
    match x.writing with
    | some w => ringIs s r 1 && decide (w.used.length < freeSlots s r)
    | none => false
  match s.fab.ringQueue.find? (fun i => !busy i) with
  | none => s
  | some i =>
    let s := modFab (fun x => { x with ringQueue := x.ringQueue.erase i }) s
    let r := ringOfItem s i
    let x := s.ring r
    let taken := match x.writing with
      | some w => w.used.length
      | none => 0
    if !ringIs s r 1 then dropForRing r i s
    else if x.writing.isSome ∨ !x.held.isEmpty ∨ freeSlots s r ≤ taken then policyFate r i s
    else beginWrite r i s

/-- A doorbell that gives ring r new slots (R23). -/
def isDoorbell (s : State) (r : Nat) (i : Instr) : Bool :=
  match i with
  | .doorbell q v _ => q.val == r && (doorbellOk s r v.toNat).any (fun p => p != (s.ring r).prod)
  | _ => false

/-- STALL_WAIT_EXPIRY. -/
def stallExpiry (r : Nat) (s : State) : State :=
  match (s.ring r).stallEnd with
  | none => s
  | some e =>
    let s := advanceTo e s
    if inTime (isDoorbell s r) s then s else
    let s := discardWriting r s
    drainHeld ((s.ring r).held.length + 1) r s

/-- Fetched descriptors arrive for an RX or CAPTURE ring. -/
def rxFetched (r : Nat) (descs : List (List Byte)) (s : State) : State :=
  let x := s.ring r
  if !(ringIs s r 1 || ringIs s r 3 || (ringState s r == 3 && x.writing.isSome)) ∨ !s.on Fld.HST_LINK_bme then s
  else
    let l := (descs.take (x.avail - x.fetched.length)).map (fun d => (d ++ zeros 32).take 32)
    s |> modRing r (fun y => { y with fetched := y.fetched ++ l }) |> goOn r

/-- DOORBELL (R413, R425). -/
def doorbell (r v : Nat) (s : State) : State :=
  match doorbellOk s r v with
  | none => s |> count (Reg.RNG_BAD_DOORBELL r) |> ringEvent Fld.RNG_EVENT_bad_doorbell r
  | some pos =>
    let x := s.ring r
    let new := pos != x.prod
    let late := x.lateArmed && new
    s |> modRing r (fun y => { y with prod := pos, stallEnd := if new then none else y.stallEnd, lateArmed := y.lateArmed && !new })
      |> whenT late (count (Reg.RNG_LATE_DOORBELL r)) |> goOn r

/-- DOORBELL, unless it was applied ahead of a disable request of its cycle (R414). -/
def doorbellArrives (r v : Nat) (s : State) : State :=
  if s.host.bellsAhead.contains (r, v) then modHost (fun h => { h with bellsAhead := h.bellsAhead.erase (r, v) }) s
  else doorbell r v s

/-- The doorbells for ring r among commands. -/
def bellsOf (r : Nat) (l : List Instr) : List Nat :=
  l.filterMap (fun i => match i with
    | .doorbell q v _ => if q.val = r then some v.toNat else none
    | _ => none)

/-- A disable request of ring r: the doorbells of its cycle are applied first (R414). -/
def bellsFirst (r : Nat) (s : State) : State :=
  each (bellsOf r s.meeting) (fun v t => t |> doorbell r v |> modHost (fun h => { h with bellsAhead := h.bellsAhead ++ [(r, v)] })) s

/-! ### Captures (R217, R430) -/

/-- CAPTURE_WRITE: the next capture goes into a buffer of its ring, or is dropped, also where its cells cannot be read (R589). -/
def captureWrite (s : State) : State :=
  match s.fab.captures with
  | [] => s
  | c :: t =>
    let r := c.ring
    let d := c.data
    let row := ledRow portM c.cls
    let gone := modFab (fun x => { x with captures := t })
    let full := fun (u : State) => u |> gone |> ledDrop row Reason.captureFull 1 |> count Reg.MIR_CAPTURE_LOST
    if c.chain.any (fun i => s.fab.badWords.contains (0, i)) then
      s |> gone |> ledDrop row Reason.uncorrectable 1
    else if !ringIs s r 3 ∨ freeSlots s r = 0 then s |> count (Reg.RNG_DROPS r) |> full
    else
      match (s.ring r).fetched with
      | [] => s
      | b :: _ =>
        let pos := (s.ring r).cons
        if Desc.len b < 64 then badBuffer r s
        else if Desc.len b < d.length then
          s |> writeBack r pos (zeros 10 ++ [byte 0x80, byte 96]) |> modRing r (fun x => x.take 1) |> count (Reg.RNG_DROPS r) |> noteWriteback r |> full
        else
          s |> writeHost (Desc.addr b) d |> writeBack r pos (zeros 8 ++ le 2 d.length ++ [byte 0x83])
            |> modRing r (fun x => x.take 1) |> count (Reg.RNG_FRAMES r) |> noteWriteback r |> gone |> ledDeliver row 1
            |> count Reg.MIR_CAPTURES

/-! ### Sending from the host (R206, R418 to R421) -/

/-- A frame of the host as its descriptor gives it. -/
def hostFrame (d l : List Byte) (r job : Nat) (s : State) : Frame :=
  let l := pad60 l
  let vid := Desc.vid d
  let direct := Desc.direct d && decide (Desc.dport d < 52)
  { Frame.empty with data := l, len := l.length + 4, inPort := portH, cls := if isTimeFrame l then 6 else Desc.cls d, vid := vid,
                     cells := cellsOf (l.length + 4), complete := true, inNs := s.timeNs, inSec := s.timeSec % 2 ^ 32, inStamp := s.stamp,
                     inTime := s.time16, timeFrame := isTimeFrame l, untag := vlanUntag s vid,
                     tatBase := (s.reg Reg.EPO_TAT_BLOCK).toNat, tatCtrl := (s.reg Reg.EPO_TAT_CTRL).toNat, learnEpoch := liveEpoch s,
                     hash := flowHash s l vid, gIn := globalPort s portH, oneStep := Desc.oneStep d, reqNs := Desc.reqNs d,
                     reqSec := Desc.reqSec d, tsRing := if direct ∧ Desc.tsReq d then some (r, job) else none }

/-- Its fan-out: the named port when direct, else the forwarding database's (R418). -/
def hostFan (d : List Byte) (f : Frame) (s : State) : Frame × Fan × State :=
  if !Desc.direct d then fdbFan false f s
  else
    let p := Desc.dport d
    let f := if 48 ≤ p ∧ p < 52 then tagNew s (Desc.dstTnn d) f else f
    let arg := if p = 52 ∨ p = 53 then floodTargets s p else 0
    (f, { Fan.none with outs := [(p, arg)] }, s)

/-- Admit a host frame whose data is at hand; a frame that waits goes to (or stays in) the queue of its class. -/
def hostAdmit (r : Nat) (j : TxJob) (l : List Byte) (s : State) : State :=
  let d := (j.slots.head?.map (·.2)).getD (zeros 32)
  let f := hostFrame d l r j.id s
  let g := hostFan d f s
  let a := dispatch g.1 g.2.1 true g.2.2
  match a.1 with
  | .waits =>
    let s := if s.host.waitH.any (fun w => w.2.2 == j.id) then s else modHost (fun h => { h with waitH := h.waitH ++ [(f.cls, r, j.id)] }) s
    modRing r (fun x => { x with jobs := x.jobs.map (fun k => if k.id = j.id then { k with fate := .waiting, data := l } else k) }) s
  | .dropped reason => txDoneOpen r j.id 1 reason a.2
  | .taken _ => if f.tsRing.isSome then setFate r j.id .waiting a.2 else txDoneOpen r j.id 0 0 a.2

/-- A TX ring with a frame to read whose own frame does not wait at port H, nor its CAN record for a host queue. -/
def hasTxWork (s : State) (r : Nat) : Bool :=
  ringIs s r 0 && (nextReading s r).isSome && !s.host.waitH.any (fun w => w.2.1 == r) &&
    !s.can.waiting.any (fun w => w.1 == r)

/-- The TX ring that is served next: the highest prio, round robin after the ring served last (R421). -/
def txServed (s : State) : Option Nat :=
  let l := (List.range 64).filter (hasTxWork s)
  let top := l.foldl (fun m r => max m (s.getF (Fld.RNG_CFG_prio r))) 0
  let l := l.filter (fun r => s.getF (Fld.RNG_CFG_prio r) == top)
  (l.find? (fun r => decide (s.host.lastTx < r))).or l.head?

/-- TX_DATA_READ: the data of the next frame of the ring that is served arrives. Behind a waiting frame of its class it
waits too (R206). -/
def txDataRead (r : Nat) (l : List Byte) (s : State) : State :=
  if txServed s ≠ some r ∨ !s.on Fld.HST_LINK_bme then s
  else
    match nextReading s r with
    | none => s
    | some j =>
      let d := (j.slots.head?.map (·.2)).getD (zeros 32)
      if Desc.can d then s
      else
        let l := slice l 0 (j.slots.map (fun p => Desc.len p.2)).sum
        let s := modHost (fun h => { h with lastTx := r }) s
        let cls := (hostFrame d l r j.id s).cls
        if s.host.waitH.any (fun w => w.1 == cls) then
          s |> modHost (fun h => { h with waitH := h.waitH ++ [(cls, r, j.id)] })
            |> modRing r (fun x => { x with jobs := x.jobs.map (fun k => if k.id = j.id then { k with fate := .waiting, data := l } else k) })
        else hostAdmit r j l s

/-- The first frame of each class that waits at port H is tried again, until one is refused (R206). -/
def retryClass (fuel c : Nat) (s : State) : State :=
  match fuel with
  | 0 => s
  | n + 1 =>
    match s.host.waitH.find? (fun w => w.1 == c) with
    | none => s
    | some w =>
      match (s.ring w.2.1).jobs.find? (fun j => j.id == w.2.2), admitCheck s (ledRow portH c) with
      | none, _ => s |> modHost (fun h => { h with waitH := h.waitH.erase w }) |> retryClass n c
      | some _, .refuse => s
      | some j, _ => s |> modHost (fun h => { h with waitH := h.waitH.erase w }) |> hostAdmit w.2.1 j j.data |> retryClass n c

def retryHost (s : State) : State :=
  if s.host.waitH.isEmpty then s else each (List.range 8) (fun c t => retryClass (t.host.waitH.length + 1) c t) s

/-! ### Failures of host reads (R435) -/

/-- A TX data read fails before the frame's first cell. -/
def txReadError (r : Nat) (s : State) : State :=
  match nextReading s r with
  | none => s
  | some j => txDoneOpen r j.id 3 0 s

end Sys2Proof.Machine
end

