-- ==== Sys2Proof/Machine/Can.lean ====
section
/-! DEFINITION. The CAN channels (chapter 10): bit timing, receiving, the transmit queues, error counters, LONELY,
bus-off and recovery, and time-triggered operation with its mailboxes. -/
namespace Sys2Proof.Machine

def State.chan (s : State) (c : Nat) : CanChan := Sparse.get (fun _ => CanChan.idle) s.can.chans c
def setChan (c : Nat) (x : CanChan) (s : State) : State :=
  { s with can := { s.can with chans := Sparse.put (fun _ => CanChan.idle) s.can.chans c x } }
def modChan (c : Nat) (f : CanChan → CanChan) (s : State) : State := setChan c (f (s.chan c)) s
def modTt (f : CanTt → CanTt) (s : State) : State := { s with can := { s.can with tt := f s.can.tt } }

/-! ### Bit timing (R333), in CCLK cycles: a CAN clock is ten -/

def nbtQuantum (w : Word) : Nat := 10 * (fieldOf w 0 8 + 1)
def nbtSeg1 (w : Word) : Nat := fieldOf w 16 9 + 1
def nbtSeg2 (w : Word) : Nat := fieldOf w 8 7 + 1
def nominalBit (w : Word) : Nat := (1 + nbtSeg1 w + nbtSeg2 w) * nbtQuantum w
def nominalSample (w : Word) : Nat := (1 + nbtSeg1 w) * nbtQuantum w
def dataBit (w : Word) : Nat := (1 + (fieldOf w 8 5 + 1) + (fieldOf w 16 4 + 1)) * (10 * (fieldOf w 0 5 + 1))

/-- The CAN stamp counter at a cycle (R20). -/
def canStampAt (c : Nat) : Nat := (c / 8) % 2 ^ 48

/-! ### Frames -/

/-- The data bytes of a length code (R339). -/
def dlcBytes (fdf : Bool) (d : Nat) : Nat :=
  if d ≤ 8 then d
  else if !fdf then 8
  else if d = 9 then 12 else if d = 10 then 16 else if d = 11 then 20 else if d = 12 then 24
  else if d = 13 then 32 else if d = 14 then 48 else 64

/-- The data a frame carries: none in a remote frame. -/
def CanFrame.bytes (f : CanFrame) : List Byte := if f.rtr && !f.fdf then [] else slice f.data 0 (dlcBytes f.fdf f.dlc.val)

/-- The identifier: a base identifier is 11 bits. -/
def CanFrame.ident (f : CanFrame) : Nat := if f.ide then f.id.toNat else f.id.toNat % 2 ^ 11

/-- The arbitration field as a number; the lower one wins (R342). -/
def arbKey (f : CanFrame) : Nat :=
  let r := b2n (f.rtr && !f.fdf)
  if f.ide then (f.id.toNat / 2 ^ 18) * 2 ^ 21 + 2 ^ 20 + 2 ^ 19 + (f.id.toNat % 2 ^ 18) * 2 + r
  else (f.id.toNat % 2 ^ 11) * 2 ^ 21 + r * 2 ^ 20

/-- The longest possible length of a frame with worst-case stuffing, in CCLK cycles (R354; bit counts PRESUMED from ISO
11898-1, assumption log 60). -/
def worstLength (x : CanChan) (f : CanFrame) : Nat :=
  let n := (CanFrame.bytes f).length
  let nb := nominalBit x.nbt
  if !f.fdf then
    let stuffed := (if f.ide then 54 else 34) + 8 * n
    (stuffed + 10 + (stuffed - 1) / 4) * nb
  else
    let a := if f.ide then 36 else 17
    let d := 5 + 8 * n
    let crc := if n ≤ 16 then 17 + 4 + 6 else 21 + 4 + 7
    let sa := (a - 1) / 4
    let sd := (a + d - 1) / 4 - sa
    (a + sa + 11) * nb + (d + sd + crc) * (if f.brs then dataBit x.dbt else nb)

/-- The 80 bytes of a CAN record (R339). -/
def canRecord (ch stamp index : Nat) (f : CanFrame) : List Byte :=
  le 6 stamp ++ [byte ch, byte (b2n f.ide + 2 * b2n f.fdf + 4 * b2n (f.brs && f.fdf) + 8 * b2n f.esi + 16 * b2n (f.rtr && !f.fdf))] ++
    le 4 (CanFrame.ident f) ++ [byte f.dlc.val, byte index, 0, 0] ++ slice (CanFrame.bytes f) 0 64

/-- The frame of a TX record (R339, R341): a brs bit counts only in a CAN FD frame. -/
def recordFrame (l : List Byte) : CanFrame :=
  let w := beAt l 7 1
  let fdf := bit w 1
  { ide := bit w 0, fdf := fdf, brs := bit w 2 && fdf, esi := false, rtr := bit w 4 && !fdf, id := BitVec.ofNat 29 (leAt l 8 4),
    dlc := Fin.ofNat 16 (beAt l 12 1), data := slice l 16 64 }

/-! ### Channel state (R344, R350) -/

def Es.active : Nat := 0
def Es.passive : Nat := 1
def Es.busOff : Nat := 2

def chanState (s : State) (c : Nat) : Nat := s.getF (Fld.CAN_CTRL_state c)
def estate (s : State) (c : Nat) : Nat := s.getF (Fld.CAN_STATUS_estate c)

/-- The channel takes part in the bus. -/
def onBus (s : State) (c : Nat) : Bool :=
  (chanState s c == 2 || chanState s c == 3) && estate s c != Es.busOff && !(s.chan c).pex

/-! ### Levels of time-triggered operation (R356) -/

def ttState (s : State) : Nat := s.getF Fld.CAN_TT_STATUS_tstate

/-- The channel is the time-triggered one and runs. -/
def isTt (s : State) (c : Nat) : Bool := s.getF Fld.CAN_TT_CTRL_state == 2 && s.can.tt.chan == c

/-- Time-triggered operation at S3 bars its channel: no mailbox, reference or queued frame is sent on it (R356), from its
STARTING on. -/
def ttBars (s : State) (c : Nat) : Bool :=
  ttState s == 3 && s.getF Fld.CAN_TT_CTRL_state != 0 && s.can.tt.chan == c

/-- A cause of level n arises. -/
def ttCause (n : Nat) (s : State) : State :=
  let s := modTt (fun t => { t with cause1 := t.cause1 || n == 1, cause2 := t.cause2 || n == 2 }) s
  if n ≤ s.getF Fld.CAN_TT_STATUS_level then s
  else
    let s := s |> setF Fld.CAN_TT_STATUS_level n |> latch Fld.CAN_TT_EVENT_level
    if n < 3 then s
    else
      let c := s.can.tt.chan
      let tec := s.getF (Fld.CAN_STATUS_tec c)
      s |> setF Fld.CAN_TT_STATUS_tstate 3 |> modTt (fun t => { t with window := none, arbEnd := none, refDue := none })
        |> record 0x50 ([c, 1] ++ dle 2 tec ++ [s.getF (Fld.CAN_STATUS_rec c)])

/-! ### Error counters (R344, R346, R348) -/

/-- Store the counters and what follows from them: warning, error-passive, error-active. Bus-off is `busOff`. -/
def putErrs (c tec rec_ : Nat) (s : State) : State :=
  let warn := decide (96 ≤ tec) || decide (96 ≤ rec_)
  let wasWarn := s.on (Fld.CAN_STATUS_warning c)
  let passive := decide (128 ≤ tec) || decide (128 ≤ rec_)
  let was := estate s c
  s |> setF (Fld.CAN_STATUS_tec c) (min tec 511) |> setF (Fld.CAN_STATUS_rec c) (min rec_ 255)
    |> setF (Fld.CAN_STATUS_warning c) (b2n warn) |> whenT (warn && !wasWarn) (latch (Fld.CAN_EVENT_warning c))
    |> setF (Fld.CAN_STATUS_estate c) (if passive then Es.passive else Es.active)
    |> whenT (passive && was == Es.active) (latch (Fld.CAN_EVENT_passive c))
    |> whenT (passive && isTt s c) (ttCause 2)

/-- The transmit error counter has passed 255 (R348). -/
def busOff (c : Nat) (s : State) : State :=
  let x := s.chan c
  let s := s |> setF (Fld.CAN_STATUS_estate c) Es.busOff |> latch (Fld.CAN_EVENT_bus_off c) |> count (Reg.CAN_BUS_OFF_COUNT c)
    |> record 0x50 ([c, 0] ++ dle 2 (s.getF (Fld.CAN_STATUS_tec c)) ++ [s.getF (Fld.CAN_STATUS_rec c)])
    |> countBy (Reg.CAN_TX_DROPPED c) x.fil.length |> setChan c { x with fil := [], bus := none }
  s |> whenT (s.on (Fld.CAN_CTRL_auto_recover c)) (setF (Fld.CAN_STATUS_recovering c) 1) |> whenT (isTt s c) (ttCause 3)

/-- Add to the counters; none move in listen-only mode (R350). -/
def addErrs (c dt dr : Nat) (s : State) : State :=
  if (s.chan c).mode = 1 then s
  else
    let tec := s.getF (Fld.CAN_STATUS_tec c) + dt
    let s := putErrs c tec (s.getF (Fld.CAN_STATUS_rec c) + dr) s
    whenT (decide (255 < tec)) (busOff c) s

/-- A frame was received without error: the receive counter falls by 1, and from above 127 to a value from 119 to 127
that ISO 11898-1 leaves open (R344). -/
def receivedWell (c : Nat) (s : State) : State :=
  if (s.chan c).mode = 1 then s
  else
    let tec := s.getF (Fld.CAN_STATUS_tec c)
    let r := s.getF (Fld.CAN_STATUS_rec c)
    if 127 < r then
      let a := drawFree s
      putErrs c tec (119 + a.1 % 9) a.2
    else putErrs c tec (r - 1) s

/-- Consecutive acknowledgement errors end (R347). -/
def notLonely (c : Nat) (s : State) : State :=
  s |> modChan c (fun x => { x with ackErrs := 0 }) |> setF (Fld.CAN_STATUS_lonely c) 0

/-! ### Time-triggered cycles (R352 to R355) -/

def ntu (s : State) : Nat := nominalBit (s.chan s.can.tt.chan).nbt

/-- The cycle time in NTU. -/
def ttTime (s : State) : Nat := min 65535 ((s.cycle - s.can.tt.markAt) / ntu s)

def ttCycle (s : State) : Nat := s.getF Fld.CAN_TT_STATUS_cycle

/-- 2 to the power cycles_log: the basic cycles of the matrix. -/
def ttCycles (s : State) : Nat := 2 ^ s.getF Fld.CAN_TT_CFG_cycles_log

/-- The frame is a reference message (R352). -/
def isReference (s : State) (f : CanFrame) : Bool :=
  !f.fdf && !f.rtr && !f.ide && f.dlc.val != 0 && CanFrame.ident f / 8 == s.getF Fld.CAN_TT_CFG_ref_id / 8

/-- A valid reference with its cycle count, whose SOF sample point lay at `at_` with the given stamp: the basic cycle
ends and a new one begins (R352, R356). -/
def newCycle (cyc stamp at_ : Nat) (own : Bool) (s : State) : State :=
  let t := s.can.tt
  let passive := estate s t.chan != Es.active
  let level := s.getF Fld.CAN_TT_STATUS_level
  let level := if (level = 1 ∧ !t.cause1) ∨ (level = 2 ∧ !t.cause1 ∧ !t.cause2 ∧ !passive) then 0 else level
  let wrong := decide (ttState s = 2) && decide (cyc ≠ (ttCycle s + 1) % ttCycles s)
  s |> setF Fld.CAN_TT_STATUS_level level |> setF Fld.CAN_TT_STATUS_cycle cyc |> setF Fld.CAN_TT_STATUS_master_now (b2n own)
    |> setF Fld.CAN_TT_STATUS_tstate 2 |> setR Reg.CAN_TT_SYNC_LO (stamp % 2 ^ 32) |> setR Reg.CAN_TT_SYNC_HI (stamp / 2 ^ 32)
    |> modTt (fun t => { t with markAt := at_, next := 0, arbEnd := none, refDue := none, cause1 := false, cause2 := passive })
    |> whenT wrong (ttCause 1)

/-! ### Receiving (R338 to R340, R352) -/

/-- A filter matches (R338 step 2); one with a bad word is not used (R589). -/
def filterHits (s : State) (c k : Nat) (f : CanFrame) : Bool :=
  !badWord s 7 (Reg.CAN_FILT_ID c k) && !badWord s 7 (Reg.CAN_FILT_MASK c k) &&
  s.on (Fld.CAN_FILT_ID_valid c k) && s.on (Fld.CAN_FILT_ID_ide c k) == f.ide &&
    ((CanFrame.ident f ^^^ s.getF (Fld.CAN_FILT_ID_id c k)) &&& s.getF (Fld.CAN_FILT_MASK_mask c k)) == 0

/-- A source event arrives at Filigree (R377, R379); only port F waits for room. -/
def filEvent (e : FilEvent) (s : State) : State :=
  if s.getF Fld.FIL_CTRL_state = 0 then s
  else if 256 ≤ s.fil.events.length then s |> count Reg.FIL_SRC_LOST |> latch Fld.FIL_EVENT_src_lost
  else { s with fil := { s.fil with events := s.fil.events ++ [e] } }

/-- The handling of R338, and the record for the host (R339, R340). -/
def takeCan (c stamp : Nat) (f : CanFrame) (s : State) : State :=
  let s := count (Reg.CAN_RX_FRAMES c) s
  let s := whenT (s.on (Fld.CAN_RX_CFG_fil c) && (f.fdf || !f.rtr))
    (filEvent { kind := 0, key2 := b2n f.ide * 16 + c, key := CanFrame.ident f, data := CanFrame.bytes f }) s
  let hit := (List.range 32).find? (fun k => filterHits s c k f)
  let toHost := match hit with
    | some k => s.on (Fld.CAN_FILT_ID_to_host c k)
    | none => s.on (Fld.CAN_RX_CFG_default_host c)
  if toHost then
    let item := RxItem.can (s.getF (Fld.CAN_RX_CFG_ring c)) (canRecord c stamp (hit.getD 127) f)
    modFab (fun x => { x with ringQueue := x.ringQueue ++ [item] }) s
  else s

/-- Mailboxes whose identifier, IDE and FDF a frame has (R354, type Rx). -/
def mailboxHits (s : State) (f : CanFrame) : List Nat :=
  (List.range 64).filter (fun k => s.on (Fld.CAN_MB_ID_fdf k) == f.fdf && s.on (Fld.CAN_MB_ID_ide k) == f.ide &&
    (if f.ide then s.getF (Fld.CAN_MB_ID_id k) else s.getF (Fld.CAN_MB_ID_id k) % 2 ^ 11) == CanFrame.ident f)

/-- The time-triggered side of a frame received. -/
def ttReceive (stamp at_ : Nat) (f : CanFrame) (s : State) : State :=
  let hits := mailboxHits s f
  let s := modTt (fun t => { t with seen := hits ++ t.seen.filter (fun k => !hits.contains k) }) s
  if isReference s f ∧ ttState s ≠ 3 then newCycle (beAt f.data 0 1 % 64) stamp at_ false s else s

/-- The frame on the bus lost arbitration or was cut: it keeps its place (R343). -/
def offBus (c : Nat) (s : State) : State :=
  match (s.chan c).bus with
  | none => s
  | some b =>
    s |> modChan c (fun x => { x with bus := none })
      |> whenT (match b.src with
        | .mailbox _ => true
        | _ => false) (modTt (fun t => { t with window := t.window.map (fun w => { w with started := false }) }))

/-- CAN_FRAME_RECEIVE: a frame whose SOF edge came `len` cycles ago ends without error. -/
def canReceive (c : Nat) (f : CanFrame) (len : Nat) (s : State) : State :=
  if !onBus s c then s
  else
    let s := s |> offBus c |> modChan c (fun x => { x with sender := false })
    if f.fdf ∧ !s.on (Fld.CAN_CTRL_fd c) then
      s |> count (Reg.CAN_PEX c) |> latch (Fld.CAN_EVENT_pex c) |> modChan c (fun x => { x with pex := true })
    else
      let at_ := s.cycle - len + nominalSample (s.chan c).nbt
      let stamp := canStampAt at_
      s |> receivedWell c |> notLonely c |> takeCan c stamp f |> whenT (isTt s c) (ttReceive stamp at_ f)

/-- PROTOCOL_EXCEPTION_EXIT. -/
def pexExit (c : Nat) (s : State) : State := modChan c (fun x => { x with pex := false }) s

/-! ### The host queue (R341, R421) -/

def putHost (c r job : Nat) (f : CanFrame) (s : State) : State := modChan c (fun x => { x with host := x.host ++ [(r, job, f)] }) s

/-- Records that wait in their rings enter their channel's host queue as there is room, in order. -/
def retryCan (s : State) : State :=
  each s.can.waiting (fun w t =>
    if (t.chan w.2.2.1).host.length < 16 ∧ !(t.can.waiting.takeWhile (· != w)).any (fun v => v.2.2.1 == w.2.2.1) then
      { t with can := { t.can with waiting := t.can.waiting.erase w } } |> putHost w.2.2.1 w.1 w.2.1 w.2.2.2
    else t) s

/-- The CAN record that the ring served reads next: its job, when the ring may be served (R421). -/
def canJob (s : State) (r : Nat) : Option TxJob :=
  if txServed s ≠ some r ∨ !s.on Fld.HST_LINK_bme then none
  else
    match nextReading s r with
    | none => none
    | some j => if Desc.can ((j.slots.head?.map (·.2)).getD (zeros 32)) then some j else none

/-- The index of a TX record. -/
def recordIndex (l : List Byte) : Nat := beAt l 13 1 % 128

/-- CAN_TX_RECORD: a record with index 0 enters its channel's host queue, waits for room, or is not sent. -/
def canTxRecord (r : Nat) (l : List Byte) (s : State) : State :=
  match canJob s r with
  | none => s
  | some j =>
    if recordIndex l ≠ 0 then s
    else
      let c := beAt l 6 1 % 16
      let f := recordFrame l
      let s := modHost (fun h => { h with lastTx := r }) s
      if f.fdf ∧ !s.on (Fld.CAN_CTRL_fd c) then s |> count (Reg.CAN_TX_DROPPED c) |> txDoneOpen r j.id 5 0
      else
        let s := setFate r j.id .waiting s
        if (s.chan c).host.length < 16 then putHost c r j.id f s
        else { s with can := { s.can with waiting := s.can.waiting ++ [(r, j.id, c, f)] } }

/-- MAILBOX_LOAD: a record with index 1 to 64 loads a mailbox (R357). An index above 64 names no mailbox: the record is not
sent. -/
def mailboxLoad (r : Nat) (l : List Byte) (s : State) : State :=
  match canJob s r with
  | none => s
  | some j =>
    let k := recordIndex l
    if k = 0 then s
    else
      let s := modHost (fun h => { h with lastTx := r }) s
      if 64 < k then txDoneOpen r j.id 5 0 s
      else
        s |> each (List.range 16) (fun i t => setR (Reg.CAN_MB_DATA (k - 1) i) (leAt l (16 + 4 * i) 4) t)
          |> setF (Fld.CAN_MB_STATE_loaded (k - 1)) 1 |> txDoneOpen r j.id 0 0

/-! ### Sending (R342, R343, R347, R353 to R358) -/

/-- The frame of mailbox k with its age byte (R358). -/
def mailboxFrame (s : State) (k : Nat) : CanFrame :=
  let fdf := s.on (Fld.CAN_MB_ID_fdf k)
  let dlc := s.getF (Fld.CAN_MB_CFG_dlc k)
  let n := dlcBytes fdf dlc
  let d := slice ((List.range 16).flatMap (fun i => le 4 (s.reg (Reg.CAN_MB_DATA k i)).toNat)) 0 n
  let o := s.getF (Fld.CAN_MB_CFG_age_offset k)
  { ide := s.on (Fld.CAN_MB_ID_ide k), fdf := fdf, brs := s.on (Fld.CAN_MB_ID_brs k) && fdf, esi := false, rtr := false,
    id := BitVec.ofNat 29 (s.getF (Fld.CAN_MB_ID_id k)), dlc := Fin.ofNat 16 dlc,
    data := if o < n then patch d o [byte (s.getF (Fld.CAN_MB_STATE_age k))] else d }

/-- The reference message with a cycle count (R352, R353). -/
def referenceFrame (s : State) (cyc : Nat) : CanFrame :=
  { ide := false, fdf := false, brs := false, esi := false, rtr := false,
    id := BitVec.ofNat 29 (s.getF Fld.CAN_TT_CFG_ref_id / 8 * 8 + s.getF Fld.CAN_TT_CFG_prio), dlc := 1, data := [byte (cyc % 64)] }

/-- The better of the queue heads that pass a test; on equal arbitration fields the Filigree frame (R342). -/
def queueChoice (x : CanChan) (ok : CanFrame → Bool) : Option (CanSrc × CanFrame) :=
  let a := match x.fil with
    | f :: _ => if ok f then some (CanSrc.fil, f) else none
    | [] => none
  let b := match x.host with
    | (r, j, f) :: _ => if ok f then some (CanSrc.host r j, f) else none
    | [] => none
  match a, b with
  | some p, some q => if arbKey q.2 < arbKey p.2 then some q else some p
  | some p, none => some p
  | none, q => q

/-- The node is a potential time master that may send (R353). -/
def ttMaster (s : State) : Bool := s.on Fld.CAN_TT_CFG_master && s.hasRole

/-- The exclusive window that is open: it lasts tx_enable NTU, whatever other triggers fire in it (R354). -/
def openWindow (s : State) : Option TtWindow :=
  match s.can.tt.window with
  | some w => if s.cycle < w.endAt then some w else none
  | none => none

/-- What may start on a channel now. A reference owed in an exclusive window starts after it: only the window's mailbox may
start in it (R354, R355). -/
def canChoice (s : State) (c : Nat) : Option (CanSrc × CanFrame) :=
  let x := s.chan c
  if ttBars s c then none
  else if !isTt s c then queueChoice x (fun _ => true)
  else
    let t := s.can.tt
    match openWindow s, t.refDue with
    | some w, _ =>
      let f := mailboxFrame s w.mailbox
      if !w.started ∧ s.hasRole ∧ (f.fdf → s.on (Fld.CAN_CTRL_fd c)) then some (.mailbox w.mailbox, f) else none
    | none, some n => if ttMaster s then some (.reference, referenceFrame s n) else none
    | none, none =>
      match t.arbEnd with
      | none => none
      | some e => queueChoice x (fun f => decide (s.cycle + worstLength x f < e))

/-- A lonely channel pauses (R347). -/
def lonelyPaused (s : State) (c : Nat) : Bool :=
  s.on (Fld.CAN_STATUS_lonely c) && s.on (Fld.CAN_CTRL_lonely_pause c) && !(s.chan c).release

/-- CAN_ARBITRATION: at a chance to start a frame, the channel starts the one that R342 names; tdcv is the delay it
measures in a CAN FD frame (R334). -/
def canArbitrate (c tdcv : Nat) (s : State) : State :=
  let x := s.chan c
  if !onBus s c ∨ chanState s c ≠ 2 ∨ x.bus.isSome ∨ x.mode = 1 ∨ lonelyPaused s c then s
  else
    match canChoice s c with
    | none => s
    | some (src, f) =>
      let f := { f with esi := estate s c == Es.passive }
      let at_ := s.cycle + nominalSample x.nbt
      let s := setChan c { x with bus := some { src := src, frame := f, stamp := canStampAt at_, at_ := at_ }, sender := true, lastTry := s.cycle, release := false } s
      s |> whenT (match src with
          | .mailbox _ => true
          | _ => false) (modTt (fun t => { t with window := t.window.map (fun w => { w with started := true }) }))
        |> whenT (f.fdf && bit x.dbt.toNat 31) (setF (Fld.CAN_STATUS_tdcv c) tdcv)
        |> whenT (x.mode != 2) (emitOut (.can c { f with data := CanFrame.bytes f }))

/-- CAN_TX_ACKNOWLEDGED (R345, R347, R419). In loopback the frame is received as well (R350). -/
def canAcked (c : Nat) (s : State) : State :=
  match (s.chan c).bus with
  | none => s
  | some b =>
    let s := s |> modChan c (fun x => { x with bus := none }) |> count (Reg.CAN_TX_FRAMES c) |> notLonely c
    let s := if estate s c = Es.busOff then s else putErrs c (s.getF (Fld.CAN_STATUS_tec c) - 1) (s.getF (Fld.CAN_STATUS_rec c)) s
    let s := match b.src with
      | .fil => modChan c (fun x => { x with fil := x.fil.drop 1 }) s
      | .host r j => s |> modChan c (fun x => { x with host := x.host.drop 1 }) |> txDone r j 0 0 (b.stamp % 2 ^ 32) (b.stamp / 2 ^ 32) false
      | .mailbox k => s |> setR (Reg.CAN_MB_STAMP_LO k) (b.stamp % 2 ^ 32) |> setR (Reg.CAN_MB_STAMP_HI k) (b.stamp / 2 ^ 32)
      | .reference => newCycle (beAt b.frame.data 0 1 % 64) b.stamp b.at_ true s
    s |> whenT ((s.chan c).mode == 2) (takeCan c b.stamp b.frame) |> retryCan

/-- CAN_ACK_ERROR (R345 to R347): `dominant` when a passive error flag meets a dominant bit. -/
def canAckError (c : Nat) (dominant : Bool) (s : State) : State :=
  match (s.chan c).bus with
  | none => s
  | some _ =>
    let n := (s.chan c).ackErrs + 1
    let s := s |> offBus c |> count (Reg.CAN_ACK_ERR c) |> modChan c (fun x => { x with ackErrs := n })
    s |> whenT (n == s.getF (Fld.CAN_LONELY_count c)) (fun t => t |> setF (Fld.CAN_STATUS_lonely c) 1 |> latch (Fld.CAN_EVENT_lonely c))
      |> whenT (estate s c == Es.active || dominant) (addErrs c 8 0)

/-- LONELY_RETRY: retry_ms has passed since the last attempt, so one more is allowed. -/
def lonelyRetry (c : Nat) (s : State) : State :=
  if !lonelyPaused s c then s
  else s |> advanceTo ((s.chan c).lastTry + s.getF (Fld.CAN_LONELY_retry_ms c) * cyclesPerMs) |> modChan c (fun x => { x with release := true })

/-- The steps of the two counters for an error (R344; the increments are those of ISO 11898-1, PRESUMED, assumption log 118).
A transmitter adds 8, except for a stuff error within arbitration (`flag`). A receiver adds 1, and 8 more when a dominant bit
came first after its error flag (`flag`). A bit error in an active error or overload flag, and each run of dominant bits after
a flag, adds 8 on either side. -/
def errSteps (k : BusError) (transmitting flag : Bool) : Nat × Nat :=
  match k, transmitting with
  | .flagBit, true | .dominantRun, true => (8, 0)
  | .flagBit, false | .dominantRun, false => (0, 8)
  | .stuff, true => (if flag then 0 else 8, 0)
  | _, true => (8, 0)
  | _, false => (0, if flag then 9 else 1)

/-- The counter of an error; a run of dominant bits after a flag is none of the four kinds. -/
def errCounter (k : BusError) (c : Nat) : Option Nat :=
  match k with
  | .bit | .flagBit => some (Reg.CAN_BIT_ERR c)
  | .stuff => some (Reg.CAN_STUFF_ERR c)
  | .form => some (Reg.CAN_FORM_ERR c)
  | .crc => some (Reg.CAN_CRC_ERR c)
  | .dominantRun => none

/-- CAN_BUS_ERROR (R344). A channel is the transmitter from the start of its own frame until another frame or an error as a
receiver comes; in listen-only mode it sends nothing and so has no error in what it sends (R350). -/
def canBusError (c : Nat) (k : BusError) (transmitting flag : Bool) (s : State) : State :=
  let x := s.chan c
  let sending := transmitting || k == .flagBit || k == .dominantRun
  if !onBus s c ∨ (transmitting ∧ !x.sender) ∨ (sending ∧ x.mode = 1) then s
  else
    let d := errSteps k transmitting flag
    let s := s |> offBus c |> modChan c (fun x => { x with sender := transmitting })
    let s := match errCounter k c with
      | some a => count a s
      | none => s
    addErrs c d.1 d.2 s

/-! ### Recovery, start and stop (R348, R349) -/

/-- A write of CAN_CTRL at a channel that is bus-off: recover, or auto_recover turned on, starts the recovery (R348).
CAN_CTRL.recover (W1S, R9) reads 1 until the recovery ends; a write that starts none leaves 0 (DESIGN CHOICE, assumption
log 174). -/
def canRecover (c : Nat) (s : State) : State :=
  let off := estate s c == Es.busOff && (chanState s c == 2 || chanState s c == 3)
  if off then whenT (s.on (Fld.CAN_CTRL_recover c) || s.on (Fld.CAN_CTRL_auto_recover c)) (setF (Fld.CAN_STATUS_recovering c) 1) s
  else setF (Fld.CAN_CTRL_recover c) 0 s

/-- Recovery ends (R348). -/
def canRecovered (c : Nat) (s : State) : State :=
  if !s.on (Fld.CAN_STATUS_recovering c) then s
  else s |> setF (Fld.CAN_STATUS_recovering c) 0 |> setF (Fld.CAN_CTRL_recover c) 0 |> putErrs c 0 0 |> latch (Fld.CAN_EVENT_recovered c)

/-- STARTING begins: the bit timing and the mode are latched. -/
def canStarting (c : Nat) (s : State) : State :=
  s |> modChan c (fun x => { x with nbt := s.reg (Reg.CAN_NBT c), dbt := s.reg (Reg.CAN_DBT c), mode := s.getF (Fld.CAN_CTRL_mode c), pex := false })
    |> whenT (estate s c == Es.busOff) (setF (Fld.CAN_STATUS_recovering c) 1)

/-- STARTING ends: integration, or the recovery that stands for it. -/
def canStarted (c : Nat) (s : State) : State := canRecovered c s

/-- STOPPING ends: the Filigree queue is discarded, and the host queue written back as not sent. -/
def canStopped (c : Nat) (s : State) : State :=
  let s := offBus c s
  let x := s.chan c
  s |> countBy (Reg.CAN_TX_DROPPED c) x.fil.length |> setChan c { x with fil := [], host := [], pex := false }
    |> setF (Fld.CAN_STATUS_recovering c) 0 |> setF (Fld.CAN_CTRL_recover c) 0 |> each x.host (fun h t => txDoneOpen h.1 h.2.1 5 0 t) |> retryCan

/-- A ring stops: its records not on the bus are withdrawn (R434). -/
def canWithdraw (r : Nat) (s : State) : State :=
  let s := each (List.range 16) (fun c t =>
    let x := t.chan c
    let onIt := fun (h : Nat × Nat × CanFrame) => match x.bus with
      | some b => b.src == .host h.1 h.2.1
      | none => false
    let gone := x.host.filter (fun h => h.1 == r && !onIt h)
    if gone.isEmpty then t
    else t |> setChan c { x with host := x.host.filter (fun h => !(h.1 == r && !onIt h)) } |> each gone (fun h u => txDoneOpen h.1 h.2.1 5 0 u)) s
  let gone := s.can.waiting.filter (fun w => w.1 == r)
  { s with can := { s.can with waiting := s.can.waiting.filter (fun w => w.1 != r) } } |> each gone (fun w u => txDoneOpen w.1 w.2.1 5 0 u)
    |> retryCan

/-- A Filigree frame for a channel (R341, R348, R375). -/
def canEmit (c : Nat) (f : CanFrame) (s : State) : State :=
  let x := s.chan c
  if chanState s c ≠ 2 ∨ estate s c = Es.busOff ∨ (f.fdf ∧ !s.on (Fld.CAN_CTRL_fd c)) ∨ 8 ≤ x.fil.length then count (Reg.CAN_TX_DROPPED c) s
  else setChan c { x with fil := x.fil ++ [f] } s

/-! ### The trigger table (R354) -/

def trigType (s : State) (j : Nat) : Nat := s.getF (Fld.CAN_TT_TRIG_B_type j)
def trigMark (s : State) (j : Nat) : Nat := s.getF (Fld.CAN_TT_TRIG_A_time_mark j)

/-- The entries of the table up to its Watch entry, `none` without one. -/
def trigTable (s : State) : Option (List Nat) :=
  match (List.range 64).find? (fun j => trigType s j == 5) with
  | none => none
  | some w => some ((List.range (w + 1)).filter (fun j => trigType s j != 0))

def rising (l : List Nat) : Bool :=
  match l with
  | [] => true
  | [_] => true
  | a :: b :: t => decide (a < b) && rising (b :: t)

def tableValid (s : State) : Bool :=
  match trigTable s with
  | none => false
  | some l =>
    (l.filter (fun j => trigType s j == 4)).length == 1 && rising (l.map (trigMark s)) &&
      l.all (fun j => decide (s.getF (Fld.CAN_TT_TRIG_B_base j) < 2 ^ s.getF (Fld.CAN_TT_TRIG_B_repeat_log j)))

/-- The entry fires in the current basic cycle; before the first reference only the Watch entry is reached. An entry with a
bad word is not used (R589). -/
def fires (s : State) (j : Nat) : Bool :=
  !badWord s 7 (Reg.CAN_TT_TRIG_A j) && !badWord s 7 (Reg.CAN_TT_TRIG_B j) &&
  ttCycle s % 2 ^ s.getF (Fld.CAN_TT_TRIG_B_repeat_log j) == s.getF (Fld.CAN_TT_TRIG_B_base j) && (ttState s == 2 || trigType s j == 5)

/-- The next entry to fire at or after an index. -/
def nextTrig (s : State) (k : Nat) : Option Nat := ((trigTable s).getD []).find? (fun j => decide (k ≤ j) && fires s j)

/-- The cycle of an entry's time mark. -/
def trigAt (s : State) (j : Nat) : Nat := s.can.tt.markAt + trigMark s j * ntu s

/-- The exclusive window ends (R354, R357): unstarted, it is a scheduling error, or a suppressed frame without the node role. -/
def endWindow (s : State) : State :=
  match s.can.tt.window with
  | none => s
  | some w =>
    let s := modTt (fun t => { t with window := none }) s
    if w.started then s
    else if !s.hasRole then count Reg.CAN_TT_SUPPRESSED s
    else s |> count Reg.CAN_TT_SCHED_ERR |> ttCause 1

/-- TT_WINDOW_END. -/
def ttWindowEnd (s : State) : State :=
  match s.can.tt.window with
  | none => s
  | some w => s |> advanceTo w.endAt |> endWindow

/-- An exclusive window whose end has come by a cycle ends first (R355). -/
def endPast (at_ : Nat) (s : State) : State :=
  match s.can.tt.window with
  | some w => if w.endAt ≤ at_ then s |> advanceTo w.endAt |> endWindow else s
  | none => s

/-- Entry j of the given type is the next to fire. -/
def trigNext (s : State) (type j : Nat) : Bool :=
  s.getF Fld.CAN_TT_CTRL_state == 2 && ttState s != 3 && nextTrig s s.can.tt.next == some j && trigType s j == type

/-- Entry j of the given type fires at its time mark. An exclusive window lasts its tx_enable NTU: only a further Tx entry,
which opens its own window, ends it early (DEDUCED, assumption log 114). -/
def trigger1 (type j : Nat) (f : State → State) (s : State) : State :=
  if !trigNext s type j then s
  else
    let at_ := trigAt s j
    s |> endPast at_ |> advanceTo at_ |> whenT (type == 1) endWindow |> modTt (fun t => { t with next := j + 1, arbEnd := none }) |> f

/-- TT_TX_TRIGGER: the mailbox's age, then its window (R354, R357, R358). -/
def ttTx (j : Nat) (s : State) : State :=
  trigger1 1 j (fun s =>
    let k := s.getF (Fld.CAN_TT_TRIG_B_mailbox j)
    let age := if s.on (Fld.CAN_MB_STATE_loaded k) then 0 else min (s.getF (Fld.CAN_MB_STATE_age k) + 1) 255
    let s := s |> setF (Fld.CAN_MB_STATE_age k) age |> setF (Fld.CAN_MB_STATE_loaded k) 0
    if s.getF (Fld.CAN_MB_CFG_age_limit k) < age ∧ s.on (Fld.CAN_MB_CFG_stale_action k) then
      s |> count Reg.CAN_TT_STALE |> latch Fld.CAN_TT_EVENT_stale
    else if !s.hasRole then count Reg.CAN_TT_SUPPRESSED s
    else modTt (fun t => { t with window := some { mailbox := k, endAt := s.cycle + s.getF Fld.CAN_TT_CFG_tx_enable * ntu s, started := false } }) s) s

/-- TT_RX_TRIGGER. -/
def ttRx (j : Nat) (s : State) : State :=
  trigger1 2 j (fun s =>
    let k := s.getF (Fld.CAN_TT_TRIG_B_mailbox j)
    if s.can.tt.seen.contains k then modTt (fun t => { t with seen := t.seen.filter (· != k) }) s
    else s |> count Reg.CAN_TT_MISSED |> latch Fld.CAN_TT_EVENT_missed) s

/-- TT_ARB_TRIGGER: queued frames may start until the next entry's mark. -/
def ttArb (j : Nat) (s : State) : State :=
  trigger1 3 j (fun s => modTt (fun t => { t with arbEnd := (nextTrig s (j + 1)).map (trigAt s) }) s) s

/-- A potential master owes a reference with the next cycle count (0 before the first one). -/
def oweReference (s : State) : State :=
  if !ttMaster s then s
  else modTt (fun t => { t with refDue := some (if ttState s = 2 then (ttCycle s + 1) % ttCycles s else 0) }) s

/-- TT_REF_TRIGGER. -/
def ttRef (j : Nat) (s : State) : State := trigger1 4 j oweReference s

/-- A valid reference received later whose SOF sample point fell no later than a cycle, found among the arrivals queued, of
which the first comes at the given cycle plus its delay (R355). -/
def refQueued (s : State) (mark : Nat) : Nat → List Instr → Bool
  | _, [] => false
  | now, i :: l =>
    match i, arrivalDelay i with
    | .canFrameReceive c f len dt, _ =>
      (c.val == s.can.tt.chan && isReference s f && decide (now + dt - len + nominalSample (s.chan c).nbt ≤ mark)) || refQueued s mark (now + dt) l
    | _, some dt => refQueued s mark (now + dt) l
    | _, none => false

/-- A reference is in time for a Watch trigger (R23, R355): the channel's own on the bus, or one received, with its SOF sample
point no later than the mark. -/
def refInTime (s : State) (mark : Nat) : Bool :=
  (match (s.chan s.can.tt.chan).bus with
    | some b => b.src == .reference && decide (b.at_ ≤ mark)
    | none => false) || refQueued s mark (max s.cycle mark) s.pending

/-- TT_WATCH_TRIGGER: at the mark, unless a reference is in time. -/
def ttWatch (j : Nat) (s : State) : State :=
  if refInTime s (trigAt s j) then s
  else trigger1 5 j (fun s => s |> count Reg.CAN_TT_WATCH |> ttCause 2 |> oweReference) s

/-! ### Start and stop of time-triggered operation (R351) -/

/-- STARTING begins: the channel is taken and the table checked. -/
def ttStarting (s : State) : State :=
  let s := modTt (fun _ => { CanTt.idle with chan := s.getF Fld.CAN_TT_CTRL_channel }) s
  let s := s |> setF Fld.CAN_TT_STATUS_level 0 |> setF Fld.CAN_TT_STATUS_tstate 1 |> setF Fld.CAN_TT_STATUS_cycle 0
    |> setF Fld.CAN_TT_STATUS_master_now 0
  whenT (!tableValid s) (ttCause 3) s

/-- STARTING ends once the channel is ON; cycle time counts from here until a reference comes. A channel already bus-off or
error-passive is a cause of S3 or S2 (R356). -/
def ttStarted (s : State) : State :=
  let e := estate s s.can.tt.chan
  s |> modTt (fun t => { t with markAt := s.cycle, next := 0 }) |> whenT (e == Es.passive) (ttCause 2) |> whenT (e == Es.busOff) (ttCause 3)

/-- OFF again. The level stays as it is until the next STARTING: S3 is cleared only when TT is enabled again (R356). -/
def ttStopped (s : State) : State :=
  s |> modTt (fun t => { CanTt.idle with chan := t.chan }) |> setF Fld.CAN_TT_STATUS_tstate 0
    |> setF Fld.CAN_TT_STATUS_master_now 0

end Sys2Proof.Machine
end

