-- ==== Sys2Proof/Machine/Filigree.lean ====
section
/-! DEFINITION. Filigree (chapter 11): bit fields of data areas, matching a source, refreshing signals, templates,
emissions, frames at port F, and the queues of jobs. -/
namespace Sys2Proof.Machine

def modFil (f : Filigree → Filigree) (s : State) : State := { s with fil := f s.fil }

/-! ### Bit fields (R368) -/

/-- The bit numbers of a big-endian field, most significant first. -/
def bigBits (n pos : Nat) : List Nat :=
  match n with
  | 0 => []
  | n + 1 => pos :: bigBits n (if pos % 8 = 0 then pos + 15 else pos - 1)

/-- The bit numbers of a field, most significant first. -/
def fieldBits (big : Bool) (len start : Nat) : List Nat :=
  if big then bigBits len start else ((List.range len).map (fun n => start + n)).reverse

def areaBit (l : List Byte) (k : Nat) : Nat := ((l.getD (k / 8) 0).toNat / 2 ^ (k % 8)) % 2

/-- The value of a field of an area; none when a bit lies beyond it. -/
def readField (l : List Byte) (big : Bool) (len start : Nat) : Option Nat :=
  let bs := fieldBits big len start
  if bs.any (fun k => decide (8 * l.length ≤ k)) then none else some (bs.foldl (fun x k => 2 * x + areaBit l k) 0)

/-! ### Templates (R370) -/

def tplValid (s : State) (t : Nat) : Bool := s.on (Fld.FIL_TPL0_valid t)
def tplLength (s : State) (t : Nat) : Nat := s.getF (Fld.FIL_TPL0_length t)

/-- Some word of a template's control block or data has an uncorrectable error (R589). -/
def tplBadWord (s : State) (t : Nat) : Bool :=
  (List.range 8).any (fun i => badWord s 5 (Reg.FIL_TPL0 t + 4 * i)) || (List.range 64).any (fun i => badWord s 5 (Reg.FIL_TPL_DATA t i))

def tplBit (s : State) (t k : Nat) : Nat := ((s.reg (Reg.FIL_TPL_DATA t (k / 32))).toNat / 2 ^ (k % 32)) % 2

def setTplBit (t k v : Nat) (s : State) : State := setF ⟨Reg.FIL_TPL_DATA t (k / 32), k % 32, 1⟩ v s

def tplByte (s : State) (t i : Nat) : Byte := byte (fieldOf (s.reg (Reg.FIL_TPL_DATA t (i / 4))) (8 * (i % 4)) 8)

def setTplByte (t i v : Nat) (s : State) : State := setF ⟨Reg.FIL_TPL_DATA t (i / 4), 8 * (i % 4), 8⟩ v s

def tplData (s : State) (t : Nat) : List Byte := (List.range (tplLength s t)).map (tplByte s t)

def setTplBytes (t k : Nat) (l : List Byte) (s : State) : State :=
  each ((List.range l.length).zip l) (fun p u => setTplByte t (k + p.1) p.2.toNat u) s

/-- FIL_TPL_BAD rises. -/
def tplBad (s : State) : State := s |> count Reg.FIL_TPL_BAD |> latch Fld.FIL_EVENT_tpl_bad

/-! ### Rescaling (R369) -/

/-- Saturate to a destination range. -/
def satDst (signed : Bool) (len : Nat) (y : Int) : Int :=
  if signed then satSigned len y else max 0 (min y ((2 ^ len : Nat) - 1))

/-- The packed value of signal j for the field x, and whether any saturation or limit changed it. -/
def rescale (s : State) (j x : Nat) : Nat × Bool :=
  let len := s.getF (Fld.FIL_SIG0_src_len j) + 1
  let dlen := s.getF (Fld.FIL_SIG5_dst_len j) + 1
  let xs : Int := if s.on (Fld.FIL_SIG0_src_signed j) then signedOf len x else x
  if s.on (Fld.FIL_SIG0_raw j) then (codeOf dlen xs, false)
  else
    let sh := s.getF (Fld.FIL_SIG0_shift j)
    let p0 := xs * s.getI (Fld.FIL_SIG1_m j)
    let p1 := satSigned 64 p0
    let p2 := if s.on (Fld.FIL_SIG0_round j) ∧ sh ≠ 0 then p1 + (2 ^ (sh - 1) : Nat) else p1
    let p3 := satSigned 64 p2
    let q0 := p3 / (2 ^ sh : Nat) + s.getI (Fld.FIL_SIG2_b j)
    let q1 := satSigned 64 q0
    let lo := s.getI (Fld.FIL_SIG3_lo j)
    let hi := s.getI (Fld.FIL_SIG4_hi j)
    let y0 := if hi < lo then lo else min (max q1 lo) hi
    let y1 := satDst (s.on (Fld.FIL_SIG5_dst_signed j)) dlen y0
    (codeOf dlen y1, p1 != p0 || p3 != p2 || q1 != q0 || y0 != q1 || y1 != y0)

/-- The default of signal j under the destination saturation. -/
def packedDefault (s : State) (j : Nat) : Nat :=
  let dlen := s.getF (Fld.FIL_SIG5_dst_len j) + 1
  codeOf dlen (satDst (s.on (Fld.FIL_SIG5_dst_signed j)) dlen (s.getI (Fld.FIL_SIG6_default j)))

/-- The bits that signal j writes in its template. -/
def sigBits (s : State) (j : Nat) : List Nat :=
  fieldBits (s.on (Fld.FIL_SIG5_dst_big j)) (s.getF (Fld.FIL_SIG5_dst_len j) + 1) (s.getF (Fld.FIL_SIG5_dst_start j))

/-- Write a packed value into the field of signal j; answers whether a bit changed (R368). -/
def packInto (j v : Nat) (s : State) : Bool × State :=
  let t := s.getF (Fld.FIL_SIG5_template j)
  let bs := sigBits s j
  if tplBadWord s t then (false, s)
  else if bs.any (fun k => decide (8 * tplLength s t ≤ k)) then (false, tplBad s)
  else
    let vals := (List.range bs.length).map (fun i => (v / 2 ^ (bs.length - 1 - i)) % 2)
    let pairs := bs.zip vals
    (pairs.any (fun p => tplBit s t p.1 != p.2), each pairs (fun p u => setTplBit t p.1 p.2 u) s)

def sigBadWord (s : State) (j : Nat) : Bool := (List.range 8).any (fun i => badWord s 5 (Reg.FIL_SIG0 j + 4 * i))

/-! ### Emissions waiting (R373, R374, R377) -/

/-- A change makes a template pending. -/
def makePending (t : Nat) (s : State) : State :=
  if s.fil.pending.any (fun p => p.1 == t) then s else modFil (fun x => { x with pending := x.pending ++ [(t, false)] }) s

/-- Nothing pends for a template any more; a change emission of it that waits is cleared with it. -/
def clearPending (t : Nat) (s : State) : State :=
  modFil (fun x => { x with pending := x.pending.filter (fun p => p.1 != t), emits := x.emits.filter (fun p => p != (t, true)) }) s

/-- An emission enters the FIFO, or is lost. -/
def queueEmission (t : Nat) (change : Bool) (s : State) : State :=
  if 64 ≤ s.fil.emits.length then
    s |> count Reg.FIL_EMIT_LOST |> latch Fld.FIL_EVENT_emit_lost |> whenT change (clearPending t)
  else
    modFil (fun x => { x with emits := x.emits ++ [(t, change)],
                              pending := if change then x.pending.map (fun p => if p.1 = t then (t, true) else p) else x.pending }) s

/-- A Carillon EMIT action names a template (R373). -/
def emitAction (t : Nat) (s : State) : State :=
  if tplValid s t ∧ s.on (Fld.FIL_TPL0_sched t) then queueEmission t false s else count Reg.FIL_EMIT_IGNORED s

/-- CHANGE_EMISSION_DUE. -/
def changeDue (t : Nat) (s : State) : State :=
  if !s.fil.pending.contains (t, false) then s
  else
    let s := match Sparse.find s.fil.lastEmit t with
      | none => s
      | some c => advanceTo (c + s.getF (Fld.FIL_TPL1_min_gap_us t) * cyclesPerUs) s
    if s.hasRole then queueEmission t true s else s |> clearPending t |> count Reg.FIL_EMIT_SUPPRESSED

/-! ### Source jobs (R362 to R369, R376) -/

def keyBytes (e : FilEvent) : List Byte := [byte e.kind, byte e.key2, 0, 0] ++ be 4 e.key

def filBucket (l : List Byte) : Nat := crc16 l % 2 ^ 10

/-- FIL_HASH takes the bucket of the key in FIL_HASH_KEY0 and FIL_HASH_KEY1, in the cycle after one of them was written; it
reads 0 from reset until then (R382, R383). -/
def showHash (s : State) : State :=
  setF Fld.FIL_HASH_bucket (filBucket (be 4 (s.reg Reg.FIL_HASH_KEY0).toNat ++ be 4 (s.reg Reg.FIL_HASH_KEY1).toNat)) s

/-- The descriptor a source event matches. -/
def filMatch (s : State) (e : FilEvent) : Option Nat :=
  let b := filBucket (keyBytes e)
  ([4 * b, 4 * b + 1, 4 * b + 2, 4 * b + 3].find? (fun i =>
    !(List.range 4).any (fun w => badWord s 5 (Reg.FIL_SRC0 i + 4 * w)) && s.on (Fld.FIL_SRC1_valid i) &&
      s.getF (Fld.FIL_SRC1_kind i) == e.kind && s.getF (Fld.FIL_SRC1_key2 i) == e.key2 && s.getF (Fld.FIL_SRC0_key i) == e.key))

/-- Refresh signal j from a data area. -/
def refresh (d : List Byte) (j : Nat) (s : State) : State :=
  if sigBadWord s j ∨ !s.on (Fld.FIL_SIG0_valid j) then s
  else
    match readField d (s.on (Fld.FIL_SIG0_src_big j)) (s.getF (Fld.FIL_SIG0_src_len j) + 1) (s.getF (Fld.FIL_SIG0_src_start j)) with
    | none => count Reg.FIL_SHORT s
    | some x =>
      let v := rescale s j x
      let t := s.getF (Fld.FIL_SIG5_template j)
      let p := s |> whenT v.2 (count Reg.FIL_CLAMPED) |> packInto j v.1
      p.2 |> setF (Fld.FIL_SIG7_refreshed j) 1
        |> whenT (p.1 && s.on (Fld.FIL_SIG5_chg j) && s.on (Fld.FIL_TPL0_change t)) (makePending t)

/-- The signals of descriptor i. -/
def srcSignals (s : State) (i : Nat) : List Nat :=
  ((List.range (s.getF (Fld.FIL_SRC2_count i))).map (fun k => s.getF (Fld.FIL_SRC1_first i) + k)).filter (fun j => decide (j ≤ 16383))

def filRuns (s : State) : Bool := s.getF Fld.FIL_CTRL_state == 2 && !s.on Fld.FIL_CTRL_hold

/-- SOURCE_JOB: the oldest source event, when no emission waits. -/
def sourceJob (s : State) : State :=
  match s.fil.events, s.fil.emits with
  | e :: rest, [] =>
    if !filRuns s then s
    else
      let s := modFil (fun x => { x with events := rest }) s
      match filMatch s e with
      | none => s |> advance 8 |> count Reg.FIL_NO_MATCH
      | some i =>
        let s := setF (Fld.FIL_SRC3_hits i) (min (s.getF (Fld.FIL_SRC3_hits i) + 1) 0xFFFFFFFF) s
        if e.data.length < s.getF (Fld.FIL_SRC2_min_len i) then s |> advance 8 |> count Reg.FIL_SHORT
        else
          let l := srcSignals s i
          s |> advance (8 + l.length) |> each l (refresh e.data)
  | _, _ => s

/-! ### Emission jobs (R370 to R375) -/

/-- What a walk has gathered: the signal reached, the greatest age. -/
structure Walk where
  at_ : Nat
  maxAge : Nat

/-- One signal of the walk of template t at position k (R372). -/
def walkOne (t k : Nat) (w : Walk) (s : State) : Walk × State :=
  let j := w.at_
  let w := { w with at_ := s.getF (Fld.FIL_SIG7_next j) }
  if sigBadWord s j then (w, s)
  else if s.getF (Fld.FIL_SIG5_template j) ≠ t then (w, s |> count Reg.FIL_LIST_ERR |> latch Fld.FIL_EVENT_list_err)
  else if !s.on (Fld.FIL_SIG0_valid j) then (w, s)
  else
    let age := if s.on (Fld.FIL_SIG7_refreshed j) then 0 else min (s.getF (Fld.FIL_SIG7_age j) + 1) 255
    let s := s |> setF (Fld.FIL_SIG7_refreshed j) 0 |> setF (Fld.FIL_SIG7_age j) age
    let old := decide (s.getF (Fld.FIL_SIG7_age_limit j) < age)
    let s := if old then
        let s := whenT (!s.on (Fld.FIL_SIG7_invalid j)) (fun u => u |> count Reg.FIL_INVALID |> latch Fld.FIL_EVENT_invalid) s
        (packInto j (packedDefault s j) (setF (Fld.FIL_SIG7_invalid j) 1 s)).2
      else setF (Fld.FIL_SIG7_invalid j) 0 s
    let o := s.getF (Fld.FIL_TPL4_inv_off t) + k / 8
    let s := whenT (s.on (Fld.FIL_TPL4_inv_en t) && decide (o < tplLength s t)) (setTplBit t (8 * o + (7 - k % 8)) (b2n old)) s
    ({ w with maxAge := max w.maxAge age }, s)

def walk (n t k : Nat) (w : Walk) (s : State) : Walk × State :=
  match n with
  | 0 => (w, s)
  | n + 1 =>
    let r := walkOne t k w s
    walk n t (k + 1) r.1 r.2

/-- Write bytes of a template that lie within its length. -/
def writeWithin (t k : Nat) (l : List Byte) (s : State) : State := setTplBytes t k (l.take (tplLength s t - k)) s

/-- The sequence counter (R372 step 2). -/
def tplSeq (t : Nat) (s : State) : State :=
  if !s.on (Fld.FIL_TPL3_seq_en t) then s
  else
    let q := s.getF (Fld.FIL_TPL5_seq t)
    let k := s.getF (Fld.FIL_TPL3_seq_off t)
    if s.on (Fld.FIL_TPL3_seq16 t) then s |> writeWithin t k (be 2 q) |> setF (Fld.FIL_TPL5_seq t) ((q + 1) % 2 ^ 16)
    else s |> writeWithin t k [byte q] |> setF (Fld.FIL_TPL5_seq t) ((q + 1) % 2 ^ 8)

/-- The check value (R371). -/
def tplCheck (t : Nat) (s : State) : State :=
  if !s.on (Fld.FIL_TPL4_chk_en t) then s
  else
    let a := s.getF (Fld.FIL_TPL4_chk_start t)
    let b := s.getF (Fld.FIL_TPL4_chk_off t)
    let u := s.getF (Fld.FIL_TPL4_chk_kind t)
    let n := if u = 0 then 1 else if u = 1 then 2 else 4
    if b ≤ a ∨ tplLength s t < b + n then tplBad s
    else setTplBytes t b (be n (crcFeed u (crcStart u) (slice (tplData s t) a (b - a)))) s

/-- The ones' complement sum of 16-bit words. -/
def onesSum (l : List Byte) : Nat :=
  (List.range (ceilDiv l.length 2)).foldl (fun a k => onesFold (a + beAt l (2 * k) 2)) 0

/-- The UDP checksum (R372 step 4). -/
def tplUdp (t : Nat) (s : State) : State :=
  let l := tplData s t
  match if l3At l = 14 then udpAt l else none with
  | none => s
  | some k =>
    let addrs := if isIpv4 l then slice l 26 8 else slice l 22 32
    let n := beAt l (k + 4) 2
    let c := 0xFFFF - onesSum (addrs ++ be 4 17 ++ be 4 n ++ patch (slice l k n) 6 [0, 0])
    writeWithin t (k + 6) (be 2 (if c = 0 then 0xFFFF else c)) s

/-- The CAN frame of a template (R370). -/
def tplCan (s : State) (t : Nat) : CanFrame :=
  let w := s.getF (Fld.FIL_TPL2_word t)
  let fdf := bit w 31
  let n := min (tplLength s t) (if fdf then 64 else 8)
  let dlc := ((List.range 16).find? (fun d => decide (n ≤ dlcBytes fdf d))).getD 15
  { ide := bit w 30, fdf := fdf, brs := bit w 29 && fdf, esi := false, rtr := false, id := BitVec.ofNat 29 w, dlc := Fin.ofNat 16 dlc,
    data := slice ((tplData s t).take n) 0 (dlcBytes fdf dlc) }

/-- The Ethernet frame of a template (R375), padded, as it enters the fabric at port F. -/
def tplFrame (s : State) (t : Nat) : Frame :=
  let w := s.getF (Fld.FIL_TPL2_word t)
  let l := pad60 (tplData s t)
  let vid := w % 2 ^ 12
  { Frame.empty with data := l, len := l.length + 4, inPort := portF, cls := if isTimeFrame l then 6 else w / 2 ^ 28 % 8, vid := vid,
                     cells := cellsOf (l.length + 4), complete := true, inNs := s.timeNs, inSec := s.timeSec % 2 ^ 32, inStamp := s.stamp,
                     inTime := s.time16, timeFrame := isTimeFrame l, untag := vlanUntag s vid,
                     tatBase := (s.reg Reg.EPO_TAT_BLOCK).toNat, tatCtrl := (s.reg Reg.EPO_TAT_CTRL).toNat, learnEpoch := liveEpoch s,
                     hash := flowHash s l vid, gIn := globalPort s portF }

/-- Admit a frame of port F, unless it waits (R206). -/
def filAdmit (f : Frame) (s : State) : Bool × State :=
  let g := fdbFan false f s
  let a := dispatch g.1 g.2.1 true g.2.2
  match a.1 with
  | .waits => (true, s)
  | _ => (false, a.2)

/-- An emission of port F: behind a waiting frame of its class it waits too. -/
def filSend (f : Frame) (s : State) : State :=
  let a := if s.fab.waitF.any (fun g => g.cls == f.cls) then (true, s) else filAdmit f s
  if a.1 then modFab (fun x => { x with waitF := x.waitF ++ [f] }) s else a.2

/-- Frames that wait at port F are tried again in order, a class until one is refused. -/
def retryFil (s : State) : State :=
  (s.fab.waitF.foldl (fun (p : List Nat × State) f =>
    if p.1.contains f.cls then p
    else
      let a := filAdmit f p.2
      if a.1 then (f.cls :: p.1, p.2) else (p.1, modFab (fun x => { x with waitF := x.waitF.erase f }) a.2)) ([], s)).2

/-- EMISSION: the emission job at the head of the FIFO. -/
def emission (s : State) : State :=
  match s.fil.emits with
  | [] => s
  | (t, _) :: rest =>
    if !filRuns s then s
    else
      let s := modFil (fun x => { x with emits := rest }) s
      if tplBadWord s t ∨ !tplValid s t then clearPending t s
      else if !s.hasRole then s |> clearPending t |> count Reg.FIL_EMIT_SUPPRESSED
      else
        let eth := s.on (Fld.FIL_TPL0_kind t)
        let udp := eth && bit (s.getF (Fld.FIL_TPL2_word t)) 27
        let n := s.getF (Fld.FIL_TPL1_count t)
        let s := advance (8 + n + ceilDiv (tplLength s t) 4 + (if udp then 8 else 0)) s
        let r := walk n t 0 { at_ := s.getF (Fld.FIL_TPL0_first t), maxAge := 0 } s
        let s := whenT (r.2.on (Fld.FIL_TPL3_maxage_en t)) (writeWithin t (r.2.getF (Fld.FIL_TPL3_maxage_off t)) [byte r.1.maxAge]) r.2
        let s := s |> tplSeq t |> tplCheck t |> whenT udp (tplUdp t)
        let s := s |> setF (Fld.FIL_TPL6_emits t) (min (s.getF (Fld.FIL_TPL6_emits t) + 1) 0xFFFFFFFF)
          |> setF (Fld.FIL_TPL7_last_max_age t) r.1.maxAge |> count Reg.FIL_EMITS |> clearPending t
          |> modFil (fun x => { x with lastEmit := Sparse.ins (Sparse.drop x.lastEmit t) t s.cycle })
        if eth then filSend (tplFrame s t) s else canEmit (s.getF (Fld.FIL_TPL0_channel t)) (tplCan s t) s

/-! ### Port F (R364, R377, R379) -/

/-- The base of a UDP payload for a destination port (R364). -/
def udpBase (l : List Byte) (port : Nat) : Option Nat :=
  match udpAt l with
  | some u => if u + 8 ≤ l.length ∧ beAt l (u + 2) 2 = port then some (u + 8) else none
  | none => none

/-- The first profile that a frame matches, with its base. -/
def profileOf (s : State) (l : List Byte) : Option (Nat × Nat) :=
  (List.range 8).findSome? (fun p =>
    if !s.on (Fld.FIL_PROFILE_CFG_valid p) then none
    else
      let u := s.getF (Fld.FIL_PROFILE_MATCH_udp_port p)
      if u = 0 then (if etherType l = s.getF (Fld.FIL_PROFILE_MATCH_ethertype p) then some (p, l3At l) else none)
      else (udpBase l u).map (fun b => (p, b)))

/-- A frame taken by port F becomes a source event. -/
def filTake (l : List Byte) (s : State) : State :=
  if s.getF Fld.FIL_CTRL_state = 0 then count Reg.FIL_ETH_OFF s
  else
    match profileOf s l with
    | none => count Reg.FIL_ETH_NOMATCH s
    | some (p, b) =>
      let o := b + s.getF (Fld.FIL_PROFILE_CFG_id_offset p)
      if l.length < o + 4 then count Reg.FIL_ETH_NOMATCH s
      else filEvent { kind := 1, key2 := p, key := beAt l o 4, data := (l.drop b).take 256 } s

/-- FIL_ETH_FRAME: port F takes the frame at its head while the source FIFO has a free entry. -/
def filEthFrame (s : State) : State :=
  match txQueue s portF 0 with
  | [] => s
  | id :: rest =>
    if s.getF Fld.FIL_CTRL_state ≠ 0 ∧ 256 ≤ s.fil.events.length then s
    else
      match s.frame id with
      | none => setTxq portF 0 rest s
      | some f =>
        let l := vlanForm f portF
        let m := tatIn f portF l s
        s |> noteTat id (m != l) |> setTxq portF 0 rest |> deliverCopy id portF |> filTake m

/-! ### Status words and start and stop (R365, R379) -/

def statusEvent (w v : Nat) (s : State) : State := filEvent { kind := 3, key2 := 0, key := w, data := be 4 v } s

/-- STATUS_SAMPLE: the device words as read, in order. -/
def statusSample (read : State → List Nat) (s : State) : State :=
  if s.getF Fld.FIL_CTRL_state = 0 then s
  else
    let s := advanceTo s.fil.nextStatus s
    let s := modFil (fun x => { x with nextStatus := s.cycle + s.getF Fld.FIL_STATUS_CFG_period_us * cyclesPerUs }) s
    let l := read s
    each ((List.range l.length).zip l) (fun p t => statusEvent p.1 p.2 t) s

/-- STARTING begins: both FIFOs and all pending marks are cleared. -/
def filStarting (s : State) : State :=
  modFil (fun x => { x with events := [], emits := [], pending := [],
                            nextStatus := s.cycle + s.getF Fld.FIL_STATUS_CFG_period_us * cyclesPerUs }) s

/-- STOPPING ends: what waits is discarded and counted. -/
def filStopped (s : State) : State :=
  let n := s.fil.events.length
  let m := s.fil.emits.length
  s |> countBy Reg.FIL_SRC_LOST n |> countBy Reg.FIL_EMIT_LOST m |> whenT (n != 0) (latch Fld.FIL_EVENT_src_lost)
    |> whenT (m != 0) (latch Fld.FIL_EVENT_emit_lost) |> modFil (fun x => { x with events := [], emits := [] })

end Sys2Proof.Machine
end

