-- ==== Sys2Proof/Machine/Sense.lean ====
section
/-! DEFINITION. Sense inputs and drive outputs (chapter 12): samples, CONVERT windows, cycles, zero crossings, commanded
and ball levels, readback, lamp proving. -/
namespace Sys2Proof.Machine

def modSd (f : SenseDrive → SenseDrive) (s : State) : State := { s with sd := f s.sd }
def State.sense (s : State) (n : Nat) : SenseIn := Sparse.get (fun _ => SenseIn.idle) s.sd.inputs n
def setSense (n : Nat) (x : SenseIn) (s : State) : State :=
  modSd (fun y => { y with inputs := Sparse.put (fun _ => SenseIn.idle) y.inputs n x }) s
def modSense (n : Nat) (f : SenseIn → SenseIn) (s : State) : State := setSense n (f (s.sense n)) s

/-- The input is processed: it is on, and its group clock runs (R385, R400). -/
def senseFed (s : State) (n : Nat) : Bool :=
  (s.getF Fld.SNS_CTRL_state == 1 || s.getF Fld.SNS_CTRL_state == 2) && s.on (Fld.SNS_CH_CFG_on n) && s.on (Fld.SNS_MCLK_CFG_enable (n / 8))

/-! ### Samples and stamps (R385, R388, R389) -/

/-- CCLK cycles of an MCLK period. -/
def mclkPeriod (s : State) (g : Nat) : Nat :=
  match s.getF (Fld.SNS_MCLK_CFG_rate g) with
  | 0 => 160
  | 1 => 80
  | _ => 40

def decimation (s : State) (n : Nat) : Nat := 32 * 2 ^ s.getF (Fld.SNS_CH_CFG_osr n)

/-- The sum of the first m numbers. -/
def tri (m : Nat) : Nat := m * (m + 1) / 2

/-- The weight of the bit that is k bits old in a sinc3 filter of ratio nn (R388): three boxes of nn bits in a row. -/
def sincWeight (nn k : Nat) : Nat := tri (k + 1) + 3 * tri (k + 1 - 2 * nn) - 3 * tri (k + 1 - nn)

/-- The filter's sum S of the weighted bits, newest first; the three boxes reach 3 nn - 2 bits. -/
def sincSum (nn : Nat) (bits : List Bool) : Nat :=
  ((bits.take (3 * nn - 2)).zipIdx.map (fun p => if p.1 then sincWeight nn p.2 else 0)).sum

/-- The sample of a filter sum, and whether it is at a limit (R388). -/
def sampleOf (nn sum : Nat) : Int × Bool :=
  let c := nn * nn * nn
  let v : Int := ((2 * sum : Nat) - (c : Int)) * ((2 ^ 23 : Nat) : Int) / (c : Int)
  let v := max (-8388608) (min v 8388607)
  (v, v == 8388607 || v == -8388608)

/-- CCLK cycles since the latest MCLK edge of the selected kind, at which the inputs of the group are sampled (R386). -/
def sinceEdge (s : State) (g : Nat) : Nat :=
  match Sparse.find s.sd.mclk g with
  | none => 0
  | some (p, rise) =>
    let first := rise + (if s.on (Fld.SNS_MCLK_CFG_edge g) then p / 2 else 0)
    if s.cycle < first then 0 else (s.cycle - first) % p

/-- How far the stamp of a sample lies back: its last bit, less the group delay and the modulator's delay, to the nearest
cycle (R389). -/
def sampleAgo (s : State) (n : Nat) : Nat :=
  sinceEdge s (n / 8) + 3 * (decimation s n - 1) * mclkPeriod s (n / 8) / 2 + (8 * s.getF (Fld.SNS_MCLK_CFG_ext_delay_ns (n / 8)) + 5) / 10

/-! ### Results (R390, R394) -/

/-- The integer square root of a number below 4 to the power n. -/
def isqrt (n x : Nat) : Nat :=
  match n with
  | 0 => 0
  | n + 1 =>
    let r := 2 * isqrt n (x / 4)
    if (r + 1) * (r + 1) ≤ x then r + 1 else r

def Gather.add (a : Gather) (v : Int) (clipped : Bool) : Gather :=
  { n := a.n + 1, sum := a.sum + v, sq := a.sq + v.natAbs * v.natAbs, mn := if a.n = 0 then v else min a.mn v,
    mx := if a.n = 0 then v else max a.mx v, clipped := a.clipped || clipped }

/-- The mean, truncated toward zero. -/
def Gather.mean (a : Gather) : Int := a.sum.tdiv (a.n : Int)

def Gather.rms (a : Gather) : Nat := isqrt 32 (a.sq / max 1 a.n)

/-- The domain of an input is neither LOCKED nor SLIP. -/
def domHeld (s : State) (d : Nat) : Bool := lockState s d != Lk.locked && lockState s d != Lk.slip

def senseDom (s : State) (n : Nat) : Nat := s.getF (Fld.SNS_CH_CFG_domain n)
def isStuck (s : State) (n : Nat) : Bool := s.on (Fld.SNS_STATUS_stuck n)

def resultFlags (s : State) (n : Nat) (clipped partial_ fail : Bool) : Byte :=
  byte (b2n (domHeld s (senseDom s n)) + 2 * b2n clipped + 4 * b2n (isStuck s n) + 8 * b2n partial_ + 16 * b2n fail)

def le3 (v : Int) : List Byte := le 3 (codeOf 24 v)

/-- The 16 bytes of a CONVERT or CYCLE record. -/
def windowRecord (s : State) (n kind count_ : Nat) (a : Gather) (partial_ : Bool) : List Byte :=
  le3 a.mean ++ le 3 a.rms ++ le3 a.mn ++ le3 a.mx ++ le 2 count_ ++ [resultFlags s n a.clipped partial_ false, byte (n + 32 * kind)]

/-- Offer a record to Filigree. -/
def offerSense (n kind : Nat) (l : List Byte) (s : State) : State := filEvent { kind := 2, key2 := kind, key := n, data := l } s

/-- Load a result register and offer the result. -/
def yield (n kind : Nat) (reg : Nat → Nat) (fil : Bool) (l : List Byte) (s : State) : State :=
  s |> each (List.range 4) (fun i t => setR (reg i) (leAt l (4 * i) 4) t) |> whenT fil (offerSense n kind l)

/-! ### CONVERT windows (R391) -/

def showConv (n : Nat) (s : State) : State :=
  match (s.sense n).conv with
  | none => s |> setF (Fld.SNS_STATUS_conv_left n) 0 |> setF (Fld.SNS_STATUS_conv_busy n) 0
  | some w => s |> setF (Fld.SNS_STATUS_conv_left n) w.left |> setF (Fld.SNS_STATUS_conv_busy n) 1

/-- Start a CONVERT window on input n; a start by Carillon and one by the host in the same cycle are one (R391). -/
def convertStart (n : Nat) (byHost : Bool) (s : State) : State :=
  if s.getF Fld.SNS_CTRL_state ≠ 2 ∨ !senseFed s n ∨ (s.sense n).lastStart = some (s.cycle, !byHost) then s
  else
    let s := modSense n (fun x => { x with lastStart := some (s.cycle, byHost) }) s
    match (s.sense n).conv with
    | some _ => count Reg.SNS_CONV_OVERLAP s
    | none =>
      s |> modSense n (fun x => { x with conv := some { start := s.cycle, byHost := byHost, left := s.getF (Fld.SNS_CH_CFG_conv_samples n), acc := Gather.empty } })
        |> showConv n

/-- HOST_CONVERT: the inputs whose bits are 1. -/
def hostConvert (v : Nat) (s : State) : State := each ((List.range 32).filter (bit v)) (fun n t => convertStart n true t) s

def convSample (n : Nat) (v : Int) (clipped : Bool) (stamp : Nat) (s : State) : State :=
  match (s.sense n).conv with
  | none => s
  | some w =>
    if stamp < w.start then s
    else
      let a := w.acc.add v clipped
      if 1 < w.left then s |> modSense n (fun x => { x with conv := some { w with left := w.left - 1, acc := a } }) |> showConv n
      else
        let k := ((s.sense n).convCount + 1) % 2 ^ 16
        s |> modSense n (fun x => { x with conv := none, convCount := k }) |> showConv n
          |> yield n 0 (Reg.SNS_RES_CONV n) (s.on (Fld.SNS_CH_CFG_fil_conv n)) (windowRecord s n 0 k a false)

/-! ### Cycles (R392) -/

/-- Close the open cycle of an input. -/
def closeCycle (n : Nat) (y : SenseCycle) (partial_ : Bool) (s : State) : State :=
  if y.acc.n = 0 then s
  else yield n 1 (Reg.SNS_RES_CYCLE n) (s.on (Fld.SNS_CH_CFG_fil_cycle n)) (windowRecord s n 1 y.c y.acc partial_) s

def cycleSample (n : Nat) (v : Int) (clipped : Bool) (ago : Nat) (s : State) : State :=
  let d := senseDom s n
  if !s.on (Fld.SNS_CH_CFG_cycle_en n) then s
  else if lockState s d = Lk.off then modSense n (fun x => { x with cyc := none }) s
  else
    let c := positionAgo s d ago / 2 ^ 32
    let add := fun (y : SenseCycle) (t : State) =>
      let y := { y with acc := y.acc.add v clipped }
      if y.acc.n < 2 ^ 24 then modSense n (fun x => { x with cyc := some y, fresh := false }) t
      else t |> closeCycle n y true |> modSense n (fun x => { x with cyc := some { c := c, fresh := false, acc := Gather.empty }, fresh := false })
    match (s.sense n).cyc with
    | none => add { c := c, fresh := (s.sense n).fresh, acc := Gather.empty } s
    | some y =>
      if c = y.c then add y s
      else s |> closeCycle n y (y.fresh || decide (c ≠ (y.c + 1) % 2 ^ 32)) |> add { c := c, fresh := false, acc := Gather.empty }

/-! ### Zero crossings (R393) -/

/-- The crossing instant between the previous sample and this one, to the nearest cycle. -/
def crossingAt (l v0 v1 : Int) (t0 t1 : Nat) : Nat :=
  t0 + ((2 * ((t1 : Int) - t0) * (l - v0) + (v1 - v0)) / (2 * (v1 - v0))).toNat

/-- A crossing at a cycle: the reference of every mains domain on the input, and a CROSSING result. -/
def crossing (n t : Nat) (clipped : Bool) (s : State) : State :=
  let x := s.sense n
  let period := match x.lastZc with
    | none => 0
    | some p => ((t - p) * 5 / 4) % 2 ^ 32
  let ns := ((s.time - (s.cycle - t) * s.timeInc) / nsUnits) % 1000000000
  let k := (x.zcCount + 1) % 2 ^ 16
  let doms := (List.range 8).filter (fun d => phsSource s d == Src.mains && s.getF (Fld.PHS_CTRL_input d) == n && lockState s d != Lk.off)
  let l := le 4 period ++ [0, 0] ++ le 4 ns ++ [0, 0] ++ le 2 k ++ [resultFlags s n clipped false false, byte (n + 64)]
  s |> modSense n (fun y => { y with armed := false, lastZc := some t, zcCount := k })
    |> modSd (fun y => { y with refs := y.refs ++ doms.map (fun d => (d, t)) })
    |> yield n 2 (Reg.SNS_RES_ZC n) (s.on (Fld.SNS_CH_CFG_fil_zc n)) l

def zeroSample (n : Nat) (v : Int) (clipped : Bool) (stamp : Nat) (s : State) : State :=
  let x := s.sense n
  let l := s.getI (Fld.SNS_ZC_CFG_level n)
  if v < l - (s.getF (Fld.SNS_ZC_CFG_hyst n) * 4096 : Nat) then modSense n (fun y => { y with armed := true }) s
  else if !x.armed ∨ v < l then s
  else
    match x.prev with
    | none => s
    | some (v0, t0) =>
      if isStuck s n then modSense n (fun y => { y with armed := false }) s
      else crossing n (crossingAt l v0 v t0 stamp) (clipped || v0 == 8388607 || v0 == -8388608) s

/-! ### Lamp proving (R399) -/

/-- The verdict of output o. -/
def verdict (o : Nat) (p : Prove) (a : Gather) (s : State) : State :=
  let rms := a.rms
  let pass := if p.rising then decide (s.getF (Fld.DRV_PROVE_LO_limit o) ≤ rms) && decide (rms ≤ s.getF (Fld.DRV_PROVE_HI_limit o))
    else decide (rms ≤ s.getF (Fld.DRV_PROVE_OFF_limit o))
  let k := (Sparse.get (fun _ => 0) s.sd.verdicts o + 1) % 2 ^ 16
  let n := p.input
  let l := le 3 rms ++ le3 a.mean ++ [byte (o + 128 * b2n p.rising)] ++ zeros 5 ++ le 2 k ++ [resultFlags s n a.clipped false (!pass), byte (n + 96)]
  s |> modSd (fun x => { x with verdicts := Sparse.put (fun _ => 0) x.verdicts o k, prove := Sparse.drop x.prove o })
    |> setF (Fld.DRV_PROVE_LAST_valid o) 1 |> setF (Fld.DRV_PROVE_LAST_on o) (b2n p.rising) |> setF (Fld.DRV_PROVE_LAST_fail o) (b2n (!pass))
    |> setF (Fld.DRV_PROVE_LAST_count o) (k % 32) |> setF (Fld.DRV_PROVE_LAST_rms o) rms
    |> whenT (s.on (Fld.SNS_CH_CFG_fil_prove n)) (offerSense n 3 l)
    |> whenT (!pass) (fun t => t |> latchBits Fld.DRV_PROVE_FAIL_fault (2 ^ o) |> count Reg.DRV_PROVE_COUNT |> latch Fld.DRV_EVENT_prove_fail
      |> record 0x52 ([o, 1, b2n (bit (t.getF Fld.DRV_OUT_level) o)] ++ dle 3 rms))

def proveSample (n : Nat) (v : Int) (clipped : Bool) (stamp : Nat) (s : State) : State :=
  each (s.sd.prove.filter (fun p => p.2.input == n && p.2.left.isSome)) (fun p t =>
    let left := p.2.left.getD 0
    if stamp < p.2.dueAt then t
    else
      let a := p.2.acc.add v clipped
      if 1 < left then
        modSd (fun x => { x with prove := Sparse.ins (Sparse.drop x.prove p.1) p.1 { p.2 with left := some (left - 1), acc := a } }) t
      else verdict p.1 p.2 a t) s

/-- The bits of input n since its last sample, oldest first, enter its filter. -/
def feedBits (n : Nat) (bits : List Bool) (s : State) : State := modSense n (fun x => { x with bits := (bits.reverse ++ x.bits).take 766 }) s

/-- SENSE_SAMPLE: input n has sampled the last bit of a sample; `bits` are those since the sample before, oldest first. -/
def senseSample (n : Nat) (bits : List Bool) (s : State) : State :=
  if !senseFed s n then s
  else
    let s := feedBits n bits s
    let x := s.sense n
    if x.skip ≠ 0 then setSense n { x with skip := x.skip - 1 } s
    else if s.getF Fld.SNS_CTRL_state ≠ 2 then s
    else
      let r := sampleOf (decimation s n) (sincSum (decimation s n) x.bits)
      let ago := sampleAgo s n
      let stamp := s.cycle - ago
      s |> setF (Fld.SNS_SAMPLE_sample n) (codeOf 24 r.1) |> setF (Fld.SNS_STATUS_overrange n) (b2n r.2)
        |> whenT r.2 (latch Fld.SNS_EVENT_overrange) |> convSample n r.1 r.2 stamp |> cycleSample n r.1 r.2 ago
        |> zeroSample n r.1 r.2 stamp |> proveSample n r.1 r.2 stamp |> modSense n (fun y => { y with prev := some (r.1, stamp) })

/-! ### Stuck inputs (R387) and settings (R389, R392, R400) -/

def inputStuck (n : Nat) (level : Bool) (s : State) : State :=
  if !senseFed s n ∨ isStuck s n then s
  else s |> setF (Fld.SNS_STATUS_stuck n) 1 |> setF ⟨Reg.SNS_STUCK, n, 1⟩ 1 |> count Reg.SNS_STUCK_COUNT |> latch Fld.SNS_EVENT_stuck
    |> record 0x51 [n, b2n level]

/-- An input is not stuck. -/
def clearStuck (n : Nat) (s : State) : State := s |> setF (Fld.SNS_STATUS_stuck n) 0 |> setF ⟨Reg.SNS_STUCK, n, 1⟩ 0

/-- The bitstream of a processed input changes its level. -/
def inputUnstuck (n : Nat) (s : State) : State := if senseFed s n then clearStuck n s else s

/-- The input is switched on, or its clock starts: its first samples are discarded. -/
def freshInput (n : Nat) (s : State) : State :=
  modSense n (fun x => { x with bits := [], skip := 3, prev := none, armed := false, cyc := none, fresh := true }) s

def chCfgWritten (n old : Nat) (s : State) : State :=
  let w := BitVec.ofNat 32 old
  let was := fun (f : Fld) => fieldOf w f.lo f.width != 0
  s |> whenT (s.on (Fld.SNS_CH_CFG_on n) && !was (Fld.SNS_CH_CFG_on n)) (freshInput n)
    |> whenT (s.on (Fld.SNS_CH_CFG_cycle_en n) && !was (Fld.SNS_CH_CFG_cycle_en n)) (modSense n (fun x => { x with cyc := none, fresh := true }))
    |> whenT (!s.on (Fld.SNS_CH_CFG_cycle_en n)) (modSense n (fun x => { x with cyc := none }))

/-- A modulator clock starts, changes its rate or goes low as its enable and the state of the sense function say (R385,
R400); where it starts, the inputs of its group are fresh. -/
def settleMclk1 (g : Nat) (s : State) : State :=
  let st := s.getF Fld.SNS_CTRL_state
  let runs := (st == 1 || st == 2) && s.on (Fld.SNS_MCLK_CFG_enable g)
  let have_ := (Sparse.find s.sd.mclk g).map Prod.fst
  let want := if runs then some (mclkPeriod s g) else none
  if have_ = want then s
  else
    s |> emitOut (.clock (Pin.mclk g) (want.getD 0))
      |> modSd (fun x => { x with mclk := match want with
          | none => Sparse.drop x.mclk g
          | some p => Sparse.ins (Sparse.drop x.mclk g) g (p, s.cycle) })
      |> whenT (have_.isNone) (each (List.range 8) (fun i t => freshInput (8 * g + i) t))

/-- A cycle that is open when its domain is OFF is discarded (R392). -/
def dropCycle (n : Nat) (s : State) : State :=
  if (s.sense n).cyc.isSome ∧ lockState s (senseDom s n) = Lk.off then modSense n (fun x => { x with cyc := none }) s else s

def settleSense (s : State) : State := s |> each [0, 1, 2, 3] settleMclk1 |> each (s.sd.inputs.map Prod.fst) dropCycle

/-- STOPPING: running windows, those of lamp proving among them, and open cycles are discarded without a result; a stopped
input is not stuck. -/
def senseStopping (s : State) : State :=
  each (List.range 32) (fun n t => t |> modSense n (fun x => { x with conv := none, cyc := none, fresh := true }) |> showConv n |> clearStuck n) s
    |> modSd (fun x => { x with prove := x.prove.filter (fun p => p.2.left.isNone) })

/-! ### Drive outputs: commanded levels (R395, R397) -/

def drvMode (s : State) (o : Nat) : Nat := s.getF (Fld.DRV_CFG_mode o)
def drvDom (s : State) (o : Nat) : Nat := s.getF (Fld.DRV_CFG_domain o)
def hostLevel (s : State) (o : Nat) : Bool := bit (s.getF Fld.DRV_LEVEL_level) o

def setCmd (o : Nat) (v : Bool) (s : State) : State := setF ⟨Reg.DRV_CMD, o, 1⟩ (b2n v) s

/-- The level that a passing of DRV_PHASE in cycle C gives. -/
def passLevel (s : State) (o c : Nat) : Bool :=
  if drvMode s o = 2 then hostLevel s o
  else
    let on := s.getF (Fld.DRV_FLASH_on o)
    let off := s.getF (Fld.DRV_FLASH_off o)
    hostLevel s o && decide ((c + s.getF (Fld.DRV_FLASH_offset o)) % (on + off) < on)

def setPassed (o pos : Nat) (s : State) : State := modSd (fun x => { x with passed := Sparse.ins (Sparse.drop x.passed o) o pos }) s

/-- The output no longer waits after a takeover. -/
def released (o : Nat) (s : State) : State := modSd (fun x => { x with waiting := x.waiting.filter (· != o) }) s

/-- The latest position of a domain with a given phase, at or before a position. -/
def lastWith (phase pos : Nat) : Nat := if phase ≤ pos % 2 ^ 32 then pos / 2 ^ 32 * 2 ^ 32 + phase else (pos / 2 ^ 32 + 2 ^ 32 - 1) % 2 ^ 32 * 2 ^ 32 + phase

/-- CCLK cycles to the passing to take at the position `now` of a domain: none where one at `last` has come about since
`before`, else those to the next. -/
def passingIn (s : State) (d last before now : Nat) : Option Nat :=
  let gone := (now + 2 ^ 64 - before) % 2 ^ 64
  let at_ := (last + 2 ^ 64 - before) % 2 ^ 64
  if gone < 2 ^ 63 ∧ 0 < at_ ∧ at_ ≤ gone then some 0 else cyclesTo s d ((last + 2 ^ 32) % 2 ^ 64)

/-- The output takes the level of the passing that its domain has just made. -/
def takePassing (o : Nat) (s : State) : State :=
  let now := position s (drvDom s o)
  let c := lastWith (s.getF (Fld.DRV_PHASE_phase o)) now / 2 ^ 32
  s |> setPassed o now |> setCmd o (passLevel s o c) |> released o
    |> modSd (fun x => { x with passAt := Sparse.ins (Sparse.drop x.passAt o) o (s.cycle, c) })

/-- DRIVE_PHASE_PASS: the passing that is due, or the next one; after a jump over several, the latest counts. A position
that went back or stands passes nothing. -/
def drivePass (o : Nat) (s : State) : State :=
  let d := drvDom s o
  if drvMode s o < 2 ∨ lockState s d = Lk.off then s
  else
    let phase := s.getF (Fld.DRV_PHASE_phase o)
    let now := position s d
    let last := lastWith phase now
    match passingIn s d last (Sparse.get (fun _ => now) s.sd.passed o) now with
    | none => s
    | some n => takePassing o (advance n s)

/-- DRV_LEVEL was written: in the cycle of a passing it is taken at that passing; outputs in HOST mode follow from the
next cycle. -/
def levelWritten (s : State) : State :=
  each (List.range 32) (fun o t =>
    match Sparse.find t.sd.passAt o with
    | none => t
    | some p => if p.1 = t.cycle ∧ 2 ≤ drvMode t o then setCmd o (passLevel t o p.2) t else t) s
    |> fun t => if awaitsSoon .levels t then t else inCycles 1 .levels t

/-- Outputs in HOST mode follow DRV_LEVEL. -/
def hostFollows (s : State) : State := modSd (fun x => { x with hostLevels := s.getF Fld.DRV_LEVEL_level }) s

/-- A DRIVE action names output o with a level (R313, R395). -/
def driveAction (o : Nat) (level : Bool) (s : State) : State :=
  if drvMode s o ≠ 1 then count Reg.DRV_IGNORED s
  else s |> modSd (fun x => { x with carLevels := setBit x.carLevels o level }) |> setCmd o level |> released o

/-! ### Ball levels (R396), readback and proving on a change (R398, R399) -/

def drvState (s : State) : Nat := s.getF Fld.DRV_CTRL_state
def drvRuns (s : State) : Bool := drvState s == 1 || drvState s == 2

/-- The first case of R396, from the second on, that applies to output o. -/
def caseOf (s : State) (o : Nat) : Nat :=
  if !drvRuns s then 2
  else if s.on (Fld.DRV_CFG_role_gate o) && (!s.hasRole || s.sd.waiting.contains o) then 3
  else if decide (2 ≤ drvMode s o) && s.on (Fld.DRV_CFG_hold o) && domHeld s (drvDom s o) then 4
  else if s.on (Fld.DRV_CFG_rb_safe o) && bit (s.getF Fld.DRV_RB_FAULT_fault) o then 5
  else 6

/-- The case noted for output o: after reset the second, with the ball low. -/
def State.ballCase (s : State) (o : Nat) : Nat × Bool := Sparse.get (fun _ => (2, false)) s.sd.cases o

/-- A case begins: the level at the ball is noted. -/
def noteCase (o : Nat) (s : State) : State :=
  let k := caseOf s o
  if (s.ballCase o).1 = k then s
  else modSd (fun x => { x with cases := Sparse.put (fun _ => (2, false)) x.cases o (k, bit (s.getF Fld.DRV_OUT_level) o) }) s

/-- The level at the ball. -/
def ballLevel (s : State) (o : Nat) : Bool :=
  if !s.alive then false
  else if caseOf s o = 6 then bit (s.getF Fld.DRV_CMD_level) o
  else
    match s.getF (Fld.DRV_CFG_safe o) with
    | 1 => true
    | 2 => (s.ballCase o).2
    | _ => false

/-- A change of an output restarts its readback delay. -/
def rbRestart (o : Nat) (s : State) : State :=
  modSd (fun x => { x with rbSince := Sparse.drop x.rbSince o,
                           rbDue := if s.on (Fld.DRV_CFG_rb_en o) then
                               Sparse.ins (Sparse.drop x.rbDue o) o (s.cycle + s.getF (Fld.DRV_CFG_rb_delay_us o) * cyclesPerUs)
                             else Sparse.drop x.rbDue o }) s

/-- Abandon the proving window of an output. -/
def abandonProve (o : Nat) (s : State) : State :=
  match Sparse.find s.sd.prove o with
  | none => s
  | some _ => s |> count Reg.DRV_PROVE_ABANDONED |> modSd (fun x => { x with prove := Sparse.drop x.prove o })

def proveChange (o : Nat) (level : Bool) (s : State) : State :=
  let s := abandonProve o s
  if s.on (Fld.DRV_PROVE_CFG_en o) ∧ drvRuns s then
    let p : Prove := { rising := level, dueAt := s.cycle + s.getF (Fld.DRV_PROVE_CFG_delay_ms o) * cyclesPerMs, left := none,
                       input := s.getF (Fld.DRV_PROVE_CFG_input o), acc := Gather.empty }
    modSd (fun x => { x with prove := Sparse.ins (Sparse.drop x.prove o) o p }) s
  else s

/-- DRV_OUT bit o changes. -/
def outChanges (o : Nat) (level : Bool) (s : State) : State :=
  s |> setF ⟨Reg.DRV_OUT, o, 1⟩ (b2n level) |> setF ⟨Reg.DRV_PIN, o, 1⟩ (b2n level) |> emitOut (.pin (Pin.drive o) level) |> rbRestart o
    |> proveChange o level

/-- Commanded and ball levels as they stand. -/
def settleDrive1 (o : Nat) (s : State) : State :=
  let m := drvMode s o
  let s := if m = 0 then s |> setCmd o (bit s.sd.hostLevels o) |> released o else if m = 1 then setCmd o (bit s.sd.carLevels o) s else s
  let s := if !s.hasRole ∧ s.on (Fld.DRV_CFG_role_gate o) ∧ m ≠ 0 ∧ !s.sd.waiting.contains o then
      modSd (fun x => { x with waiting := x.waiting ++ [o] }) s
    else s
  let s := noteCase o s
  let v := ballLevel s o
  if v = bit (s.getF Fld.DRV_OUT_level) o then s else outChanges o v s

def settleDrive (s : State) : State := each (List.range 32) settleDrive1 s

/-- READBACK_DELAY_END. -/
def readbackStart (o : Nat) (s : State) : State :=
  match Sparse.find s.sd.rbDue o with
  | none => s
  | some c =>
    let s := advanceTo c s
    modSd (fun x => { x with rbDue := Sparse.drop x.rbDue o, rbSince := Sparse.ins (Sparse.drop x.rbSince o) o s.cycle }) s

/-- A mismatch of output o stood to the end of the cycle in which it had lasted 1 µs of a comparison running since a cycle:
a change of DRV_OUT in it would have restarted the comparison (R398). -/
def readbackCompletes (o since : Nat) (s : State) : State :=
  if Sparse.find s.sd.rbSince o ≠ some since then s
  else
    let v := bit (s.getF Fld.DRV_OUT_level) o
    s |> modSd (fun x => { x with rbSince := Sparse.ins (Sparse.drop x.rbSince o) o s.cycle })
      |> setF ⟨Reg.DRV_PIN, o, 1⟩ (b2n (!v)) |> latchBits Fld.DRV_RB_FAULT_fault (2 ^ o) |> count Reg.DRV_RB_COUNT
      |> latch Fld.DRV_EVENT_rb_fault |> record 0x52 [o, 0, b2n v]

/-- READBACK_FAULT: the ball of output o has shown the other level than DRV_OUT for 1 µs of a running comparison. -/
def readbackFault (o : Nat) (s : State) : State :=
  match Sparse.find s.sd.rbSince o with
  | none => s
  | some c =>
    if !s.on (Fld.DRV_CFG_rb_en o) ∨ awaitsSoon (.readback o c) s then s
    else s |> advanceTo (c + cyclesPerUs) |> inCycles 1 (.readback o c)

/-- PROVE_WINDOW_OPEN. -/
def proveOpen (o : Nat) (s : State) : State :=
  match Sparse.find s.sd.prove o with
  | none => s
  | some p =>
    if p.left.isSome then s
    else
      let s := advanceTo p.dueAt s
      let p := { p with dueAt := s.cycle, left := some (s.getF (Fld.DRV_PROVE_CFG_samples o)) }
      modSd (fun x => { x with prove := Sparse.ins (Sparse.drop x.prove o) o p }) s

/-- DRV_PHASE was written: passings of the new phase count from here. -/
def drvPhaseWritten (o : Nat) (s : State) : State := setPassed o (position s (drvDom s o)) s

/-- DRV_CFG was written over `old`: a change of mode or domain starts its passings anew. -/
def drvCfgWritten (o old : Nat) (s : State) : State :=
  let w := BitVec.ofNat 32 old
  let same := fun (f : Fld) => fieldOf w f.lo f.width == s.getF f
  s |> whenT (!same (Fld.DRV_CFG_mode o) || !same (Fld.DRV_CFG_domain o)) (setPassed o (position s (drvDom s o)))
    |> whenT (s.on (Fld.DRV_CFG_rb_en o) && !same (Fld.DRV_CFG_rb_en o)) (rbRestart o)
    |> whenT (!s.on (Fld.DRV_CFG_rb_en o)) (modSd (fun x => { x with rbDue := Sparse.drop x.rbDue o, rbSince := Sparse.drop x.rbSince o }))

/-- Drive STARTING begins: readback delays start. -/
def driveStarting (s : State) : State := each (List.range 32) rbRestart s

/-- Drive STOPPING begins: proving windows are abandoned. -/
def driveStopping (s : State) : State := each (List.range 32) abandonProve s

end Sys2Proof.Machine
end

