-- ==== Sys2Proof/Machine/Carillon.lean ====
section
/-! DEFINITION. Carillon (chapter 09): the event table, firing, actions, bells, windows' means, self-silencing. -/
namespace Sys2Proof.Machine

/-! ### Selecting (R315, R316) -/

/-- The latest position at or before P at which an entry fires: its cycle number, and the position. Cycle numbers wrap: below
the first one with the entry's offset stands the last one before the wrap. -/
def latestFiring (w0 w1 p : Nat) : Nat × Nat :=
  let n := w1 / 2 ^ 8 % 2 ^ 8 + 1
  let off := w1 % 2 ^ 8 % n
  let c1 := lastWith w0 p / 2 ^ 32
  let top := if c1 < off then 2 ^ 32 - 1 else c1
  let c := top - (top % n + n - off) % n
  (c, c * 2 ^ 32 + w0)

/-- Distance forward from one position to another. -/
def ahead (a b : Nat) : Nat := (b + 2 ^ 64 - a) % 2 ^ 64

/-- Some word of an entry has an uncorrectable error (R589). -/
def eventBadWord (s : State) (k : Nat) : Bool := (List.range 4).any (fun i => badWord s 6 (Reg.CAR_EVT0 k + 4 * i))

/-- Insert an entry in order of distance, then of index. -/
def insertReached (a : Nat × Nat × Nat × Nat) (l : List (Nat × Nat × Nat × Nat)) : List (Nat × Nat × Nat × Nat) :=
  match l with
  | [] => [a]
  | b :: t => if a.1 < b.1 ∨ (a.1 = b.1 ∧ a.2.1 ≤ b.2.1) then a :: b :: t else b :: insertReached a t

/-- The entries of domain d with a position in (prev, P], as (distance, index, cycle, position), in order. -/
def reached (s : State) (d prev p : Nat) : List (Nat × Nat × Nat × Nat) :=
  let span := ahead prev p
  if 2 ^ 63 ≤ span then []
  else
    let l := s.car.events.filterMap (fun e =>
      if e.2.2.1 / 2 ^ 28 % 8 ≠ d ∨ eventBadWord s e.1 then none
      else
        let r := latestFiring e.2.1 e.2.2.1 p
        if 0 < ahead prev r.2 ∧ ahead prev r.2 ≤ span then some (ahead prev r.2, e.1, r.1, r.2) else none)
    l.foldr insertReached []

/-- One entry that is reached: marks, jumps, the domain's state (R315, R316). -/
def selectOne (d : Nat) (jumps : List (Nat × Nat)) (r : Nat × Nat × Nat × Nat) (s : State) : State :=
  let k := r.2.1
  let c := r.2.2.1
  let q := r.2.2.2
  match Sparse.find s.car.events k with
  | none => s
  | some (_, w1, w2, w3) =>
    let again := match Sparse.find s.car.marks k with
      | some m => !serialLater 32 c m
      | none => false
    if again then s
    else
      let rep := match Sparse.find s.car.served k with
        | some m => !serialLater 32 c m
        | none => false
      let s := modCar (fun x => { x with marks := Sparse.ins (Sparse.drop x.marks k) k c, served := if rep then x.served else Sparse.drop x.served k }) s
      let held := domHeld s d
      let jumped := jumps.any (fun j => decide (0 < ahead j.1 q ∧ ahead j.1 q ≤ j.2))
      let rule := w1 / 2 ^ 22 % 4
      let s := whenT jumped (latch Fld.CAR_EVENT_skipped) s
      if (jumped ∧ bit w1 21) ∨ (!jumped ∧ held ∧ rule = 1) then count Reg.CAR_SUPPRESSED s
      else
        let a : CarAct := { event := k, dom := d, cycle := c, act := w1 / 2 ^ 24 % 16, w2 := w2, w3 := w3, late := jumped, hold := held,
                            safe := !jumped && held && rule == 2, repeated := rep, deferred := false, due := s.car.cellAt + 8 }
        s |> whenT jumped (count Reg.CAR_SKIPPED) |> whenT rep (fun t => t |> count Reg.CAR_REPEATED |> latch Fld.CAR_EVENT_repeated)
          |> modCar (fun x => { x with queue := if a.act = 0 then x.queue else x.queue ++ [a] })

/-- Selection in domain d: the events passed since the previous cell time. -/
def selectDom (d : Nat) (s : State) : State :=
  let x := s.dom d
  if lockState s d = Lk.off then modDom d (fun y => { y with prev := none, jumps := [] }) s
  else
    let p := position s d
    match x.prev with
    | none => if phsSource s d = Src.ptp then modDom d (fun y => { y with prev := some p, jumps := [] }) s else s
    | some prev => s |> each (reached s d prev p) (selectOne d x.jumps) |> modDom d (fun y => { y with prev := some p, jumps := [] })

/-! ### Actions (R313, R317, R320, R323) -/

def silenced (s : State) : Bool := s.on Fld.CAR_STATUS_silenced

/-- A gate that merge mode or a silence keeps from GATE actions. -/
def gateKept (s : State) (p q : Nat) : Bool :=
  (merging s p && !scheduled s q) || (silenced s && decide (48 ≤ p) && scheduled s q)

/-- Set the gates of the queues in a mask, but those that are kept. -/
def gateAction (w2 : Nat) (safe : Bool) (s : State) : State :=
  let mask := w2 / 2 ^ 8 % 2 ^ 8
  let level := if safe then w2 / 2 ^ 24 % 2 ^ 8 else w2 / 2 ^ 16 % 2 ^ 8
  each (gatePorts w2) (fun p t =>
    let v := (List.range 8).foldl (fun v q => if bit mask q && !gateKept t p q then setBit v q (bit level q) else v) (gateReg t p)
    setGate p v t) s

/-- The EVENT record of a bell or capture (R428). -/
def bellRecord (s : State) (a : CarAct) (capture : Bool) : List Byte :=
  let irq := bit a.w2 22
  [byte (if capture then 2 else 1), byte (b2n a.late + 2 * b2n a.hold + 4 * b2n a.safe + 8 * b2n a.repeated + 16 * b2n irq)] ++
    le 2 a.w2 ++ le 2 (a.event + a.dom * 2 ^ 12) ++ le 2 a.cycle ++ le 4 s.timeNs ++ le 4 s.timeSec ++
    (if capture then le 2 s.timeFrac ++ le 6 s.canStamp ++ le 4 s.stamp else zeros 12) ++ zeros 4

/-- The safe level of output o as a commanded level (R396). -/
def safeLevel (s : State) (o : Nat) : Bool :=
  match s.getF (Fld.DRV_CFG_safe o) with
  | 1 => true
  | 2 => bit (s.getF Fld.DRV_OUT_level) o
  | _ => false

/-- A SYNC action on a pin in mode 5. -/
def syncAction (w2 : Nat) (safe : Bool) (s : State) : State :=
  let n := w2 % 4
  if syncMode s n ≠ 5 then s
  else s |> modTim (fun x => { x with pinsCar := Sparse.ins (Sparse.drop x.pinsCar n) n (bit w2 9) }) |> driveSync n (bit w2 (if safe then 9 else 8))

/-- EMIT, DRIVE and SYNC without the node role, and EMIT in a silence, are suppressed. -/
def actSuppressed (s : State) (a : CarAct) : Bool :=
  ((a.act == 2 || a.act == 4 || a.act == 7) && !s.hasRole) || (a.act == 2 && silenced s)

def applyAct (a : CarAct) (s : State) : State :=
  if actSuppressed s a then count Reg.CAR_SUPPRESSED s
  else
    let s := count Reg.CAR_FIRED s
    match a.act with
    | 1 => gateAction a.w2 a.safe s
    | 2 => if a.safe then s else emitAction (a.w2 % 2 ^ 11) s
    | 3 => each ((List.range 32).filter (bit a.w2)) (fun n t => convertStart n false t) s
    | 4 => each ((List.range 32).filter (bit a.w2)) (fun o t => driveAction o (if a.safe then safeLevel t o else bit a.w3 o) t) s
    | 5 => eventRecord (a.w2 / 2 ^ 16 % 64) (bit a.w2 22) (bellRecord s a false) s
    | 6 => s |> correlate |> eventRecord (a.w2 / 2 ^ 16 % 64) (bit a.w2 22) (bellRecord s a true)
    | 7 => syncAction a.w2 a.safe s
    | _ => s

/-- Apply the first queued action. -/
def applyHead (s : State) : State :=
  match s.car.queue with
  | [] => s
  | a :: rest => s |> modCar (fun x => { x with queue := rest }) |> applyAct a

/-- At the end of a cell time, the actions that it could have applied and did not are late, and each counts as deferred. -/
def deferRest (s : State) : State :=
  let waited := fun (a : CarAct) => decide (a.due ≤ s.cycle)
  let n := (s.car.queue.filter waited).length
  s |> countBy Reg.CAR_DEFERRED n |> whenT (n != 0) (latch Fld.CAR_EVENT_deferred)
    |> modCar (fun x => { x with queue := x.queue.map (fun a => if waited a then { a with late := true, deferred := true } else a) })

/-- Carillon looks at its queue again when its first action may be applied. -/
def scheduleActs (s : State) : State :=
  match s.car.queue with
  | [] => s
  | a :: _ => if awaitsSoon .carAct s then s else inCycles (max 1 (a.due - s.cycle)) .carAct s

/-- One action in a CCLK cycle, eight in a cell time (R317). Actions deferred go ahead of those selected later. -/
def carAct (s : State) : State :=
  let due := match s.car.queue with
    | [] => false
    | a :: _ => decide (a.due ≤ s.cycle)
  s |> whenT due applyHead |> whenT (s.cycle % 8 == 7) deferRest |> scheduleActs

/-- CARILLON_FIRE: the next cell time selects; what it selects is applied from the start of the cell time after it. -/
def carillonFire (s : State) : State :=
  if s.getF Fld.CAR_CTRL_state ≠ 2 then s
  else
    let s := advanceTo (nextCell s s.car.cellAt) s
    s |> modCar (fun x => { x with cellAt := s.cycle }) |> each (List.range 8) selectDom |> scheduleActs

/-! ### The event table (R312, R314) -/

/-- Word 1 of an entry was written: words 0, 2 and 3 come into use; the mark stays. A GATE's port above 51 is stored as
63. -/
def eventWritten (k : Nat) (s : State) : State :=
  let w1 := (s.reg (Reg.CAR_EVT1 k)).toNat
  let gate := decide (w1 / 2 ^ 24 % 16 = 1)
  let p := (s.reg (Reg.CAR_EVT2 k)).toNat % 64
  let s := whenT (gate && decide (51 < p)) (setF ⟨Reg.CAR_EVT2 k, 0, 6⟩ 63) s
  let e := ((s.reg (Reg.CAR_EVT0 k)).toNat, w1, (s.reg (Reg.CAR_EVT2 k)).toNat, (s.reg (Reg.CAR_EVT3 k)).toNat)
  modCar (fun x => { x with events := if bit w1 31 then Sparse.ins (Sparse.drop x.events k) k e else Sparse.drop x.events k }) s

/-! ### Own offset and silence (R321 to R323) -/

/-- The windows' means of the tick that ends, and the own offset. -/
def carTick (s : State) : State :=
  let ws := s.car.windows
  let mean := fun (z : WinSum) => z.sum.tdiv (z.count : Int)
  let s := each ws (fun p t => setI (Fld.CAR_WIN_OFFSET_offset p.1) (satSigned 32 (mean p.2)) t) s
  let l := ws.filter (fun p => s.on (Fld.CAR_WIN_CFG_drift p.1) && s.on (Fld.CAR_WIN_CFG_valid p.1))
  let ports := (l.map (fun p => s.getF (Fld.CAR_WIN_CFG_port p.1))).eraseDups
  let s := modCar (fun x => { x with windows := [] }) s
  if ports.length < 2 then setF Fld.CAR_STATUS_evaluated 0 s
  else
    let own := (l.foldl (fun a p => a + s.getI (Fld.CAR_WIN_OFFSET_offset p.1)) (0 : Int)).tdiv (l.length : Int)
    let wide := decide (s.getF Fld.CAR_SILENCE_limit_ns < own.natAbs)
    s |> setF Fld.CAR_STATUS_evaluated 1 |> setI Fld.CAR_OWN_OFFSET_offset (satSigned 32 own)
      |> modCar (fun x => { x with overTicks := if wide then x.overTicks + 1 else 0 })

def silenceRecord (code : Nat) (s : State) : State := record 0x34 ([code] ++ dle 4 (s.reg Reg.CAR_OWN_OFFSET).toNat) s

/-- The trunk gates of the scheduled queues close. -/
def silenceGates (mask : Nat) (s : State) : State := each [48, 49, 50, 51] (fun p t => setGate p (gateReg t p &&& (255 - mask)) t) s

/-- SCHEDULE_SILENCE: the limit has been passed at the set number of consecutive evaluated ticks. -/
def scheduleSilence (s : State) : State :=
  if silenced s ∨ s.car.overTicks < s.getF Fld.CAR_SILENCE_ticks then s
  else
    let mask := s.getF Fld.CAR_MERGE_sched_classes
    s |> setF Fld.CAR_STATUS_silenced 1 |> latch Fld.CAR_EVENT_silence |> silenceRecord 0
      |> whenT (s.getF Fld.CAR_CTRL_state == 1 || s.getF Fld.CAR_CTRL_state == 2) (silenceGates mask)
      |> whenT (s.on Fld.CAR_CTRL_silence_resign) (trigger 6)

/-- CAR_RELEASE.release was written (R323). -/
def silenceRelease (s : State) : State :=
  if silenced s ∧ (s.getI Fld.CAR_OWN_OFFSET_offset).natAbs ≤ s.getF Fld.CAR_SILENCE_limit_ns then
    s |> setF Fld.CAR_STATUS_silenced 0 |> latch Fld.CAR_EVENT_release |> silenceRecord 1 |> modCar (fun x => { x with overTicks := 0 })
  else s

/-! ### Start, stop, safe levels (R324, R396, R506) -/

/-- STARTING: marks are cleared, prev := P, and a silence that lasts closes its gates, which were open while Carillon was
disabled (R249, R323, R324). -/
def carStarting (s : State) : State :=
  whenT (silenced s) (silenceGates (s.getF Fld.CAR_MERGE_sched_classes)) <| each (List.range 8) (fun d t =>
    let known := lockState t d != Lk.off && (phsSource t d == Src.ptp || (t.dom d).prev.isSome)
    modDom d (fun x => { x with prev := if known then some (position t d) else none, jumps := [] }) t)
    (modCar (fun x => { x with marks := [], served := [], queue := [], cellAt := s.cycle }) s)

/-- SYNC pins that Carillon drives take their safe levels. -/
def safePins (s : State) : State := each s.tim.pinsCar (fun p t => driveSync p.1 p.2 t) s

/-- STOPPING: what is selected is applied, gates open, outputs and pins driven by Carillon take their safe levels. -/
def carStopping (s : State) : State :=
  let s := each s.car.queue (fun _ t => applyHead t) s
  s |> dropSoon .carAct |> each (List.range 52) (fun p t => setGate p 255 t)
    |> each (List.range 32) (fun o t =>
      if drvMode t o = 1 then
        let v := safeLevel t o
        t |> modSd (fun x => { x with carLevels := setBit x.carLevels o v }) |> setCmd o v
      else t)
    |> safePins

/-- Without the node role, Carillon-driven SYNC pins are at their safe levels. -/
def settlePins (s : State) : State := if s.hasRole then s else safePins s

end Sys2Proof.Machine
end

