-- ==== Sys2Proof/Machine/Ilgil.lean ====
section
/-! DEFINITION. Ilgil (chapter 16): link bring-up and loss, reliable units, cells that arrive, reach and paths, time,
what the manager holds of its workers, SWITCH units. Units themselves are in Units.lean; the accesses and images that
units carry are in Access.lean and Images.lean. -/
namespace Sys2Proof.Machine

def isManager (s : State) : Bool := s.getF Fld.ILG_STATUS_role == 1

/-- Devices of the hierarchy and its form: at a worker, as it took them (R480, R481). -/
def ilgDevices (s : State) : Nat := if isWorker s then s.ilg.devices else s.getF Fld.ILG_CTRL_devices
def ilgRing (s : State) : Bool := if isWorker s then s.ilg.ring else s.on Fld.ILG_CTRL_ring

/-- The path of an index as a port number. -/
def pathOf (s : State) (d : Nat) : Option Nat := Sparse.find s.ilg.paths d

def otherG (g : Nat) : Nat := 1 - g

/-! ### Packed credits: eight values of 12 bits, class 0 first (R476) -/

def packCredits (l : List Nat) : List Byte := be 12 ((List.range 8).foldl (fun v c => v * 4096 + l.getD c 0 % 4096) 0)
def unpackCredit (l : List Byte) (k c : Nat) : Nat := beAt l k 12 / 2 ^ (12 * (7 - c)) % 4096

/-! ### Reliable units (R477) -/

/-- Send a reliable unit that is no cell, or keep it until there is room. -/
def queueUnit (g : Nat) (head rest : List Byte) (s : State) : State :=
  if canStart s g ∧ (s.ilgPort g).waiting = [] then sendReliable g head rest none s
  else if ilgUp s g then modIlgPort g (fun x => { x with waiting := x.waiting ++ [(head, rest)] }) s
  else s

/-- Send waiting units while there is room. -/
def drainUnits (fuel g : Nat) (s : State) : State :=
  match fuel with
  | 0 => s
  | fuel + 1 =>
    match (s.ilgPort g).waiting with
    | [] => s
    | (h, r) :: t =>
      if canStart s g then s |> modIlgPort g (fun x => { x with waiting := t }) |> sendReliable g h r none |> drainUnits fuel g
      else s

/-- Send every unacknowledged unit again, in order. -/
def replayAll (g : Nat) (s : State) : State :=
  s |> each (s.ilgPort g).replay (fun r t => sendUnit g r.bytes t) |> count (Reg.ILG_REPLAYS g)
    |> modIlgPort g (fun x => { x with ackAt := s.cycle, replays := x.replays + 1 })

/-- The port takes units: its lanes are locked and it is ON or stopping. -/
def hears (s : State) (g : Nat) : Bool := ilgPortState s g == 2 || ilgPortState s g == 3

/-- A reliable unit arrives: accepted when its check is good and it is the next in order; else discarded, and a CREDIT
with nak is owed. -/
def acceptUnit (g type : Nat) (l : List Byte) (s : State) : Bool × State :=
  if !ilgUp s g ∨ !hears s g then (false, s)
  else
    let nak := modIlgPort g (fun x => { x with nak := true, ackOwed := true })
    if !unitOk l then (false, s |> count (Reg.ILG_CHECK_ERR g) |> nak)
    else if unitType l ≠ type then (false, s)
    else if beAt l 1 2 % 2 ^ 12 ≠ (s.ilgPort g).rxSeq then (false, nak s)
    else (true, modIlgPort g (fun x => { x with rxSeq := (x.rxSeq + 1) % 2 ^ 12, ackOwed := true }) s)

/-- A unit that is not reliable: taken when its check is good, else counted. -/
def plainUnit (g type : Nat) (l : List Byte) (s : State) : Bool × State :=
  if !hears s g then (false, s)
  else if !unitOk l then (false, count (Reg.ILG_CHECK_ERR g) s)
  else (unitType l == type, s)

/-! ### Paths (R482) -/

def ilgReach (s : State) (g : Nat) : Nat := if ilgUp s g then s.getF (Fld.ILG_PORT_REACH_reach g) else 0

/-- The shorter way to an index of two that both reach it; a tie goes to G0. -/
def shorterPort (s : State) (d : Nat) : Nat :=
  let n := max 1 (ilgDevices s)
  if (d + n - ownIndex s % n) % n ≤ (ownIndex s + n - d % n) % n then 0 else 1

def choosePath (s : State) (d : Nat) : Option Nat :=
  match bit (ilgReach s 0) d, bit (ilgReach s 1) d with
  | true, true => some (shorterPort s d)
  | true, false => some 0
  | false, true => some 1
  | false, false => none

/-- A worker's path to index 0 changed: its time comes from the new port (R492). -/
def timePath (g : Option Nat) (s : State) : State :=
  match g with
  | some g =>
    s |> setF Fld.ILG_STATUS_time_port (g + 1) |> setServo Servo.acquire
      |> modTim (fun x => { x with lockRun := 0, lastGood := s.cycle, syncDue := some (s.cycle + 300000) })
  | none => s |> setF Fld.ILG_STATUS_time_port 0 |> enterHoldover

/-- The identity, generation and last image result of this worker, to the manager: a report, or an image result (op 2).
The spec's layout gives the identity no place; the model puts it in bytes 8 to 15 (assumption log 61). -/
def reportUnit (s : State) (op result : Nat) : List Byte :=
  [byte Unit.mgmt, 0, 0, byte (op * 16), 0, 0, 0, 0] ++ be 4 (s.reg Reg.GLB_UID_HI).toNat ++ be 4 (s.reg Reg.GLB_UID_LO).toNat ++
    [byte result] ++ be 4 (s.reg Reg.ROL_IMG_GEN).toNat ++ be 2 (ownIndex s)

def sendReport (op : Nat) (s : State) : State :=
  match pathOf s 0 with
  | some g => queueUnit g (reportUnit s op (s.getF Fld.ROL_IMG_STATUS_result)) [] s
  | none => s

/-- A path is set, moved or lost. -/
def setPath (d : Nat) (p : Option Nat) (s : State) : State :=
  if pathOf s d = p then s
  else
    let gained := (pathOf s d).isNone
    let s := modIlg (fun i => { i with paths := match p with
      | some g => Sparse.ins (Sparse.drop i.paths d) d g
      | none => Sparse.drop i.paths d }) s
    let s := latch Fld.ILG_EVENT_path_change s
    if isManager s ∧ 1 ≤ d ∧ d ≤ 7 then
      s |> setF (Fld.ILG_WORKER_STATE_reachable d) (b2n p.isSome) |> whenT (gained || p.isNone) (setF (Fld.ILG_WORKER_STATE_reported d) 0)
    else if isWorker s ∧ d = 0 then
      let s := s |> setF Fld.ILG_STATUS_manager_reachable (b2n p.isSome) |> timePath p
      whenT gained (sendReport 3) s
    else s

/-- The port in use still reaches the index, or a path is chosen anew. -/
def repathOne (d : Nat) (s : State) : State :=
  if d = ownIndex s then s
  else
    match pathOf s d with
    | some g => if bit (ilgReach s g) d then s else setPath d (choosePath s d) s
    | none => setPath d (choosePath s d) s

def repath (s : State) : State :=
  let s := setF Fld.ILG_STATUS_reachable (ilgReach s 0 ||| ilgReach s 1) s
  each (List.range 8) repathOne s

/-- ILG_REBALANCE.go was written. -/
def rebalance (v : Nat) (s : State) : State :=
  if !bit v 0 then s
  else
    let l := (List.range 8).filter (fun d => (pathOf s d).isSome && choosePath s d != pathOf s d)
    modIlg (fun i => { i with moving := l }) s

/-- No copy bound for an index waits at or crosses a port. -/
def drained (s : State) (d g : Nat) : Bool :=
  !s.fab.frames.any (fun p => p.2.copies.any (fun y => y.out == 52 + g && bit y.arg d))

/-- Move the indices whose old port has drained. -/
def settleMoves (s : State) : State :=
  each s.ilg.moving (fun d t =>
    match pathOf t d with
    | none => modIlg (fun i => { i with moving := i.moving.filter (· != d) }) t
    | some g =>
      if drained t d g then t |> modIlg (fun i => { i with moving := i.moving.filter (· != d) }) |> setPath d (choosePath t d)
      else t) s

/-! ### Bring-up (R479, R480) -/

/-- ILGIL_BLOCK_LOCK: the lanes of a port that is ON are locked and deskewed. -/
def blockLock (g : Nat) (s : State) : State :=
  if ilgPortState s g ≠ 2 ∨ Lk.ilgHello ≤ ilgState s g then s
  else
    s |> setF (Fld.ILG_PORT_STATUS_lane_lock g) 15 |> setF (Fld.ILG_PORT_STATUS_lstate g) Lk.ilgHello
      |> modIlgPort g (fun x => { x with helloAt := s.cycle, hello := [] })

/-- The index a port's HELLO gives: the manager's G1 is the last device's neighbour (R480). -/
def helloIndex (s : State) (g : Nat) : Nat := if isManager s ∧ g = 1 then ilgDevices s else ownIndex s

def helloUnit (s : State) (g : Nat) : List Byte :=
  unitBytes ([byte Unit.hello, byte (s.getF Fld.ILG_STATUS_role),
      byte (helloIndex s g + ((ilgDevices s - 1) % 8) * 16 + b2n (ilgRing s) * 128), 0] ++
    be 4 (s.reg Reg.GLB_UID_HI).toNat ++ be 4 (s.reg Reg.GLB_UID_LO).toNat)
    (packCredits (s.ilgPort g).pool ++ zeros 20)

/-- ILGIL_HELLO_SEND: one each microsecond in HELLO. -/
def helloUnitSend (g : Nat) (s : State) : State :=
  if ilgPortState s g ≠ 2 ∨ ilgState s g ≠ Lk.ilgHello then s
  else
    let s := advanceTo (s.ilgPort g).helloAt s
    s |> sendUnit g (helloUnit s g) |> modIlgPort g (fun x => { x with helloAt := s.cycle + cyclesPerUs })

/-- A worker takes an index from a peer's HELLO (R480). -/
def deriveIndex (g peer : Nat) : Int := if g = 1 then (peer : Int) + 1 else (peer : Int) - 1

def refuse (g : Nat) (f : Fld) (s : State) : State := s |> setF (Fld.ILG_PORT_STATUS_lstate g) Lk.ilgRefused |> latch f

/-- Entry to UP. -/
def ilgEnterUp (g : Nat) (l : List Byte) (s : State) : State :=
  let peer := s.getF (Fld.ILG_PORT_STATUS_peer_index g)
  let dev := if s.getF (Fld.ILG_PORT_STATUS_peer_role g) = 1 then 0 else peer
  let pool := (s.ilgPort g).pool
  let s := s |> setF (Fld.ILG_PORT_STATUS_lstate g) Lk.ilgUp
    |> setIlgPort g { IlgPort.empty with hello := l, pool := pool, creditAt := s.cycle, timeAt := s.cycle, reachAt := s.cycle }
    |> each (List.range 8) (fun c t => t |> setF (Fld.ILG_CREDIT_avail g c) (unpackCredit l 32 c) |> setF (Fld.ILG_CREDIT_out g c) 0)
  s |> setR (Reg.ILG_PORT_DELAY g) 0 |> setF (Fld.ILG_PORT_REACH_reach g) (2 ^ dev % 256)
    |> latch Fld.ILG_EVENT_link_up |> record 0x60 [g, 1, peer] |> repath

/-- ILGIL_HELLO_RECEIVE. A HELLO that does not know its index yet is neither accepted nor refused. -/
def helloReceive (g : Nat) (l : List Byte) (s : State) : State :=
  let r := plainUnit g Unit.hello l s
  let s := r.2
  let st := ilgState s g
  if !r.1 ∨ !(st == Lk.ilgHello || st == Lk.ilgRefused) then s
  else
    let old := (s.ilgPort g).hello
    if st = Lk.ilgRefused ∧ old = l then s
    else
      let role := beAt l 1 1 % 4
      let peer := beAt l 2 1 % 16
      let s := s |> setF (Fld.ILG_PORT_STATUS_lstate g) Lk.ilgHello |> modIlgPort g (fun x => { x with hello := l })
        |> setF (Fld.ILG_PORT_STATUS_peer_index g) peer |> setF (Fld.ILG_PORT_STATUS_peer_role g) role
        |> setR (Reg.ILG_PEER_ID_HI g) (beAt l 4 4) |> setR (Reg.ILG_PEER_ID_LO g) (beAt l 8 4)
      if isManager s ∧ role = 1 then refuse g Fld.ILG_EVENT_role_clash s
      else if peer = 15 then s
      else if isWorker s then
        let d := deriveIndex g peer
        let known := ownIndex s != 15
        let devs := if known then s.ilg.devices else beAt l 2 1 / 16 % 8 + 1
        if d < 1 ∨ (devs : Int) - 1 < d ∨ (known ∧ d ≠ (ownIndex s : Int)) then refuse g Fld.ILG_EVENT_index_clash s
        else
          let s := if known then s else
            s |> setF Fld.ILG_STATUS_index d.toNat |> modIlg (fun i => { i with devices := devs, ring := bit (beAt l 2 1) 7 })
          if old = l then ilgEnterUp g l s else s
      else if old = l then ilgEnterUp g l s else s

/-! ### Loss (R216, R478) -/

/-- What a port loses when it leaves UP: copies not yet acknowledged, frames whose last cell has not come. -/
def ilgDrop (g : Nat) (s : State) : State :=
  let tx := (s.fab.frames.filter (fun p => p.2.copies.any (fun y => y.out == 52 + g))).map (·.1)
  let s := each tx (fun id t => dropCopy id (52 + g) Reason.ilgilLink t) s
  each (List.range 9) (fun tier t =>
    let k := 1000 + 16 * g + tier
    match Sparse.find t.fab.arriving k with
    | none => t
    | some a => (match a.frame with
      | some id => abortFrame id Reason.ilgilLink t
      | none => t) |> endArrival k) s

/-- The port is DOWN; what was UP leaves UP. -/
def ilgDown (g : Nat) (s : State) : State :=
  let was := ilgUp s g
  let s := whenT was (ilgDrop g) s
  let s := s |> setF (Fld.ILG_PORT_STATUS_lstate g) 0 |> setF (Fld.ILG_PORT_STATUS_lane_lock g) 0
    |> setF (Fld.ILG_PORT_REACH_reach g) 0 |> setR (Reg.ILG_PORT_DELAY g) 0
    |> modIlgPort g (fun x => { IlgPort.empty with pool := x.pool })
  if was then s |> record 0x60 [g, 0, s.getF (Fld.ILG_PORT_STATUS_peer_index g)] |> repath |> later .ilgilLost else s

/-- ILGIL_LINK_LOSS. -/
def ilgLinkLoss (g : Nat) (s : State) : State :=
  let was := ilgUp s g
  s |> ilgDown g |> whenT was (fun t => t |> count (Reg.ILG_LINK_DOWNS g) |> latch Fld.ILG_EVENT_link_down)

/-- A replay; the eighth in a row without progress loses the link (R478). -/
def replayOrLose (g : Nat) (s : State) : State :=
  let s := replayAll g s
  if 8 ≤ (s.ilgPort g).replays then ilgLinkLoss g s else s

/-- A CREDIT unit that acknowledges something kept at port g (R23). -/
def isProgress (s : State) (g : Nat) (i : Instr) : Bool :=
  match i with
  | .creditUnitReceive h l _ => h.val == g && unitOk l && (s.ilgPort g).replay.any (fun u => u.seq == beAt l 1 2 % 2 ^ 12)
  | _ => false

/-- REPLAY_TIMEOUT: 2 µs without progress of ack. -/
def replayTimeout (g : Nat) (s : State) : State :=
  if !ilgUp s g ∨ (s.ilgPort g).replay = [] then s
  else
    let t := advanceTo ((s.ilgPort g).ackAt + 2 * cyclesPerUs) s
    if inTime (isProgress s g) t then t else replayOrLose g t

/-! ### CREDIT units (R477, R488) -/

/-- CREDIT_UNIT_RECEIVE: units up to ack leave the replay buffer, and the copies whose last cell they carried are
delivered; credits come back; a nak asks for a replay. -/
def creditReceive (g : Nat) (l : List Byte) (s : State) : State :=
  let r := plainUnit g Unit.credit l s
  let s := r.2
  if !r.1 ∨ !ilgUp s g then s
  else
    let x := s.ilgPort g
    let ack := beAt l 1 2 % 2 ^ 12
    let n := (x.replay.map (fun u => u.seq)).idxOf ack + 1
    let n := if x.replay.length < n then 0 else n
    let gone := x.replay.take n
    let s := if n = 0 then s else setIlgPort g { x with replay := x.replay.drop n, ackAt := s.cycle, replays := 0 } s
    let s := each gone (fun u t => match u.copy with
      | some c => deliverCopy c.1 c.2 t
      | none => t) s
    let s := each (List.range 8) (fun c t =>
      let k := min (unpackCredit l 4 c) (t.getF (Fld.ILG_CREDIT_out g c))
      t |> setF (Fld.ILG_CREDIT_avail g c) (t.getF (Fld.ILG_CREDIT_avail g c) + k)
        |> setF (Fld.ILG_CREDIT_out g c) (t.getF (Fld.ILG_CREDIT_out g c) - k)) s
    let s := if bit (beAt l 3 1) 0 ∧ (s.ilgPort g).replay ≠ [] then replayOrLose g s else s
    drainUnits 256 g s

def creditOwed (x : IlgPort) : Bool := x.ackOwed || x.nak || x.credits.any (· != 0)

/-- CREDIT_UNIT_SEND: at once with nak, else 256 ns after the last. -/
def creditSend (g : Nat) (s : State) : State :=
  let x := s.ilgPort g
  if !ilgUp s g ∨ !creditOwed x then s
  else
    let s := if x.nak then s else advanceTo (x.creditAt + 204) s
    let give := (List.range 8).map (fun c => min 4095 (x.credits.getD c 0))
    let l := unitBytes ([byte Unit.credit] ++ be 2 ((x.rxSeq + 4095) % 4096) ++ [byte (b2n x.nak)] ++ packCredits give) []
    s |> sendUnit g l
      |> setIlgPort g { x with nak := false, ackOwed := false, creditAt := s.cycle,
                               credits := (List.range 8).map (fun c => x.credits.getD c 0 - give.getD c 0) }

/-! ### Cells that arrive (R484 to R486) -/

/-- The copies of a frame for the targets that remain, by the port of their path. -/
def targetOuts (s : State) (targets : Nat) : List (Nat × Nat) :=
  [0, 1].filterMap (fun g =>
    let m := (List.range 8).foldl (fun m d => if bit targets d ∧ pathOf s d = some g then setBit m d true else m) 0
    if m = 0 then none else some (52 + g, m))

/-- The frame that a first cell brings; a time frame takes class 6 whatever the unit's header says (R170). -/
def cellFrame (g : Nat) (l : List Byte) (d : List Byte) (s : State) : Frame :=
  let vid := beAt l 14 2 % 2 ^ 12
  let ns := beAt l 18 4
  let sec := beAt l 22 4
  let b := beAt l 3 1
  { Frame.empty with data := d, len := beAt l 16 2 % 2 ^ 14, inPort := 52 + g, cls := if isTimeFrame d then 6 else b / 32, vid := vid, cells := 1,
                     tagged := bit b 1, translated := bit b 0, epoch := beAt l 10 1, srcTnn := beAt l 11 1 % 64,
                     dstTnn := beAt l 12 1 % 64, hops := beAt l 13 1 % 64, tat := bit (beAt l 13 1) 6, inNs := ns, inSec := sec,
                     inTime := ((sec * 1000000000 + ns) * 65536 : Nat), inStamp := s.stamp, timeFrame := isTimeFrame d,
                     untag := vlanUntag s vid, tatBase := (s.reg Reg.EPO_TAT_BLOCK).toNat, tatCtrl := (s.reg Reg.EPO_TAT_CTRL).toNat,
                     learnEpoch := liveEpoch s, hash := flowHash s d vid, gIn := beAt l 4 2 % 512, gDest := beAt l 6 2 % 512 }

/-- Where it goes: its own bit of targets is a local delivery, a lookup, or the manager's route; the others go on. -/
def cellFan (f : Frame) (targets : Nat) (s : State) : Frame × Fan × State :=
  let own := ownIndex s
  let on_ := { Fan.none with outs := targetOuts s (setBit targets own false), gDest := f.gDest }
  if !bit targets own then
    let q := f.gDest / 64
    if f.gDest < 0x1FE ∧ quarantined s q then (f, Fan.drop Reason.quarantine, s) else (f, on_, s)
  else if f.gDest = 0x1FE then
    let j := judgeEpoch f false 0 s
    (j.1, j.2.1, j.2.2)
  else if f.gDest = 0x1FF then
    let r := fdbFan false f s
    let outs := r.2.1.outs.filter (fun o => o.1 != 52 && o.1 != 53)
    (if isWorker s then f else r.1, { r.2.1 with outs := outs ++ on_.outs, gDest := 0x1FF }, r.2.2)
  else (f, { Fan.none with outs := [(f.gDest % 64, 0)], gDest := f.gDest }, s)

/-- The learn of a frame from an Ilgil port (R485). -/
def cellLearn (f : Frame) (s : State) : Option LearnReq :=
  if f.gIn < 64 ∧ 48 ≤ f.gIn ∧ f.gIn ≤ 51 then
    (if f.srcTnn = 0 then none else learnOf s f.inPort f.vid f.data true f.srcTnn (liveEpoch s))
  else learnOf s f.inPort f.vid f.data false f.gIn 0

/-- A cell whose frame is not held gives its credit back at once. -/
def cellFreed (g cls : Nat) (s : State) : State := modIlgPort g (fun x => { x with credits := addAt x.credits cls 1 }) s

/-- The last cell has come: the received FCS over what was received tells how the frame ended. `first`: the bytes of the first
cell before any marking at the admission point (R209). -/
def cellLast (g key id : Nat) (first : List Byte) (learn : Option LearnReq) (s : State) : State :=
  match s.frame id with
  | none => endArrival key s
  | some f =>
    let n := f.data.length - 4
    let got := first ++ f.data.drop first.length
    let good := got.drop n == le 4 (crc32 (got.take n))
    let s := s |> endArrival key |> modFrame id (fun x => { x with data := f.data.take n, len := n + 4 })
    if good then
      let s := match learn with
        | some r => queueLearn r s
        | none => s
      endGood (52 + g) id s
    else endBad (52 + g) id f false s

/-- CELL_UNIT_RECEIVE. -/
def cellReceive (g : Nat) (l : List Byte) (s : State) : State :=
  let r := acceptUnit g Unit.cell l s
  let s := r.2
  if !r.1 then s
  else
    let b := beAt l 3 1
    let cls := b / 32
    let key := 1000 + 16 * g + (if bit b 2 then 8 else cls)
    let d := slice l 32 (min 128 (beAt l 9 1))
    let last := bit b 3
    if bit b 4 then
      let f := cellFrame g l d s
      let w := cellFan f (beAt l 8 1) s
      let a := if isSpireFrame s d then (Adm.waits, badSpire s) else dispatch w.1 w.2.1 true w.2.2
      let learn := cellLearn w.1 a.2
      match a.1 with
      | .taken id =>
        let s := setArrival key { frame := some id, line := d, learn := learn, inAt := 10 * s.cycle } a.2
        if last then cellLast g key id d learn s else s
      | _ =>
        let s := cellFreed g cls a.2
        if last then s else setArrival key { frame := none, line := [], learn := none, inAt := 10 * s.cycle } s
    else
      match Sparse.find s.fab.arriving key with
      | none => cellFreed g cls s
      | some a =>
        match a.frame.bind s.frame, a.frame with
        | some f, some id =>
          let s := modFrame id (fun x => { x with data := f.data ++ d, cells := f.cells + 1 }) s
          if last then cellLast g key id a.line a.learn s else s
        | _, _ =>
          let s := cellFreed g cls s
          if last then endArrival key s else s

/-! ### REACH (R482, R487, R497) -/

/-- The quarantine bitmap as this device sends and shows it. -/
def reachBody (s : State) (g : Nat) : List Byte :=
  let own := if ownIndex s < 8 then 2 ^ ownIndex s else 0
  let role := if isManager s then s.hasRole else s.on Fld.ILG_STATUS_node_role
  [byte (ilgReach s (otherG g) ||| own), byte (s.getF Fld.ILG_STATUS_quarantined),
   byte (b2n role + 2 * b2n (isManager s || s.on Fld.ILG_STATUS_manager_reachable))]

/-- REACH_SEND: at once after a change, otherwise 100 µs after the last. -/
def reachSend (g : Nat) (s : State) : State :=
  if !ilgUp s g ∨ ilgPortState s g ≠ 2 then s
  else
    let x := s.ilgPort g
    let s := if x.reachLast = reachBody s g then advanceTo (x.reachAt + 100 * cyclesPerUs) s else s
    let b := reachBody s g
    s |> sendUnit g (unitBytes ([byte Unit.reach, 0, 0] ++ b) []) |> setIlgPort g { x with reachAt := s.cycle, reachLast := b }

/-- The device enters or leaves QUARANTINE (R497, R498). -/
def setQuarantine (on_ : Bool) (s : State) : State :=
  if s.on Fld.ILG_STATUS_quarantine = on_ then s
  else
    s |> setF Fld.ILG_STATUS_quarantine (b2n on_) |> latch Fld.ILG_EVENT_quarantine |> record 0x61 [b2n (!on_), ownIndex s]
      |> later (.quarantine on_)

/-- REACH_RECEIVE. -/
def reachReceive (g : Nat) (l : List Byte) (s : State) : State :=
  let r := plainUnit g Unit.reach l s
  let s := r.2
  if !r.1 ∨ !ilgUp s g then s
  else
    let s := s |> setF (Fld.ILG_PORT_REACH_reach g) (beAt l 3 1) |> repath
    if isWorker s ∧ pathOf s 0 = some g then
      s |> setF Fld.ILG_STATUS_quarantined (beAt l 4 1) |> setF Fld.ILG_STATUS_node_role (beAt l 5 1 % 2)
        |> setQuarantine (bit (beAt l 4 1) (ownIndex s))
    else s

/-! ### TIME units (R491, R492) -/

/-- TIME_UNIT_SEND: every 125 µs. -/
def timeUnitSend (g : Nat) (s : State) : State :=
  if !ilgUp s g then s
  else
    let x := s.ilgPort g
    let s := advanceTo (x.timeAt + 100000) s
    let tx := s.stamp
    let master := isManager s || servoState s == Servo.locked
    let e := x.rxT.getD (0, 0, 0)
    let turn := if x.rxT.isSome then (tx + 2 ^ 32 - e.2.1) % 2 ^ 32 else 0
    let l := [byte Unit.time] ++ be 2 x.nextT ++ [byte (b2n x.rxT.isSome + 2 * b2n master)] ++ be 4 tx ++ be 4 turn ++ be 2 e.1 ++
      be 6 s.timeSec ++ be 4 s.timeNs ++ be 2 s.timeFrac
    s |> sendUnit g (unitBytes l [])
      |> setIlgPort g { x with timeAt := s.cycle, nextT := (x.nextT + 1) % 2 ^ 16, sentT := ((x.nextT, tx) :: x.sentT).take 64 }

/-- rho of a port as dr / dt, over the last two TIME units (R93). -/
def ilgRho (x : IlgPort) : Nat × Nat :=
  match x.periodic with
  | a :: b :: _ =>
    let dr := (a.1 + 2 ^ 32 - b.1) % 2 ^ 32
    let dt := (a.2 + 2 ^ 32 - b.2) % 2 ^ 32
    if dr = 0 ∨ dt = 0 then (1, 1) else (dr, dt)
  | _ => (1, 1)

/-- The link delay sample of an echo, and the mean shown (R93). -/
def ilgDelay (g t1 t4 turn : Nat) (s : State) : State :=
  let x := s.ilgPort g
  let span := (t4 + 2 ^ 32 - t1) % 2 ^ 32
  let r := ilgRho x
  let d := nearest (((span * r.2 : Nat) : Int) - ((r.1 * turn : Nat) : Int)) (2 * r.2)
  let l := (d.toNat :: x.samples).take 8
  s |> setIlgPort g { x with samples := l } |> setF (Fld.ILG_PORT_DELAY_samples g) l.length
    |> setF (Fld.ILG_PORT_DELAY_delay g) ((2 * l.sum + l.length) / (2 * l.length) % 2 ^ 24)

/-- TIME_UNIT_RECEIVE. A TIME unit carries no rate_up, so after a step in ACQUIRE the rate rests on an open value. -/
def timeUnitReceive (g : Nat) (l : List Byte) (s : State) : State :=
  let r := plainUnit g Unit.time l s
  let s := r.2
  if !r.1 ∨ !ilgUp s g then s
  else
    let rx := s.stamp
    let x := s.ilgPort g
    let s := setIlgPort g { x with rxT := some (beAt l 1 2, rx, beAt l 4 4), periodic := ((rx, beAt l 4 4) :: x.periodic).take 2 } s
    let s := if bit (beAt l 3 1) 0 then (match Sparse.find x.sentT (beAt l 12 2) with
        | some t1 => ilgDelay g t1 rx (beAt l 8 4) s
        | none => s) else s
    if !isWorker s ∨ pathOf s 0 ≠ some g ∨ !bit (beAt l 3 1) 1 ∨ !servoOwns s then s
    else
      let t1 : Int := ((beAt l 14 6 * 1000000000 + beAt l 20 4) * 65536 + beAt l 24 2 : Nat)
      let o16 : Int := s.time16 - t1 - (s.getF (Fld.ILG_PORT_DELAY_delay g) * 8192 : Nat)
      let rho := ilgRho (s.ilgPort g)
      let v := drawFree s
      let s := modTim (fun y => { y with lastGood := v.2.cycle, syncDue := some (v.2.cycle + 300000) }) v.2
      (servoAccept o16 125000 (signedOf 32 v.1) rho.1 rho.2 s).2

/-! ### The manager's view of its workers (R496) -/

def workerCurrent (s : State) (i : Nat) : Bool :=
  let gen := (s.reg (Reg.ILG_WORKER_GEN i)).toNat
  gen == 0 || ((s.reg (Reg.ILG_WORKER_REPGEN i)).toNat == gen && s.getF (Fld.ILG_WORKER_STATE_result i) == 1)

def judgeWorker (i : Nat) (s : State) : State :=
  let c := workerCurrent s i
  s |> setF (Fld.ILG_WORKER_STATE_current i) (b2n c)
    |> setF Fld.ILG_STATUS_quarantined (setBit (s.getF Fld.ILG_STATUS_quarantined) i (!c))

/-- ILG_WORKER_GEN[i] was written: judged again in the next cycle. -/
def workerGenWritten (i : Nat) (s : State) : State := if isManager s then inCycles 1 (.worker i) s else s

/-! ### MGMT units on their way (R476, R494 to R496) -/

def mgmtOp (l : List Byte) : Nat := beAt l 3 1 / 16 % 4
def mgmtResponse (l : List Byte) : Bool := bit (beAt l 3 1) 7
def unitDest (l : List Byte) : Nat := beAt l 3 1 % 8
def mgmtSource (l : List Byte) : Nat := beAt l 21 2 % 8

/-- Pass a unit on toward its destination index. -/
def relayUnit (l : List Byte) (s : State) : State :=
  match pathOf s (unitDest l) with
  | some g => queueUnit g (slice l 0 28) (l.drop 32) s
  | none => s

/-- A MGMT unit of a kind arrives for this device, or is passed on: whether it is for this device. -/
def mgmtReceive (g : Nat) (kind : List Byte → Bool) (l : List Byte) (s : State) : Bool × State :=
  if unitOk l ∧ unitType l = Unit.mgmt ∧ !kind l then (false, s)
  else
    let r := acceptUnit g Unit.mgmt l s
    if !r.1 then r
    else if unitDest l = ownIndex r.2 then r
    else (false, relayUnit l r.2)

/-- A read or write of a worker's register is asked for (R494): index, write, and the role of this moment. -/
def mgmtGo (i : Nat) (write : Bool) (s : State) : State :=
  if s.on Fld.ILG_MGMT_STATUS_busy then s
  else
    match (if isManager s then pathOf s i else none) with
    | none => setF Fld.ILG_MGMT_STATUS_result 3 s
    | some g =>
      let tag := (s.ilg.tag + 1) % 256
      let l := [byte Unit.mgmt, 0, 0, byte (b2n write * 16 + i), byte (s.getF Fld.ROL_STATUS_role), byte tag, 0, 0] ++
        be 4 (s.reg Reg.ILG_MGMT_ADDR).toNat ++ be 4 (s.reg Reg.ILG_MGMT_DATA).toNat ++ zeros 5 ++ be 2 (ownIndex s)
      s |> modIlg (fun x => { x with tag := tag, mgmtDue := some (s.cycle + 100 * cyclesPerUs) })
        |> setF Fld.ILG_MGMT_STATUS_busy 1 |> queueUnit g l []

/-- ILG_MGMT_CTRL was written with go for a read, or for a write. -/
def mgmtCtrl (v : Nat) (s : State) : State := if bit v 31 then mgmtGo (v / 2 ^ 16 % 8) (bit v 8) s else s

def mgmtEnd (result : Nat) (s : State) : State :=
  s |> setF Fld.ILG_MGMT_STATUS_busy 0 |> setF Fld.ILG_MGMT_STATUS_result result |> modIlg (fun x => { x with mgmtDue := none })

/-- The response that is awaited (R23). -/
def isAnswer (s : State) (i : Instr) : Bool :=
  match i with
  | .mgmtResponseReceive _ l _ => unitOk l && mgmtResponse l && beAt l 5 1 == s.ilg.tag
  | _ => false

/-- MGMT_TIMEOUT. -/
def mgmtTimeout (s : State) : State :=
  match s.ilg.mgmtDue with
  | none => s
  | some e => if inTime (isAnswer s) s then advanceTo e s else s |> advanceTo e |> mgmtEnd 2

/-- MGMT_RESPONSE_RECEIVE. -/
def mgmtAnswer (g : Nat) (l : List Byte) (s : State) : State :=
  let r := mgmtReceive g (fun l => mgmtResponse l && decide (mgmtOp l ≤ 1)) l s
  let s := r.2
  if !r.1 then s
  else
    match s.ilg.mgmtDue with
    | none => count Reg.ILG_LATE_MGMT s
    | some e =>
      if beAt l 5 1 ≠ s.ilg.tag then count Reg.ILG_LATE_MGMT s
      else if e < s.cycle then s |> mgmtEnd 2 |> count Reg.ILG_LATE_MGMT
      else s |> setR Reg.ILG_MGMT_DATA (beAt l 12 4) |> mgmtEnd (beAt l 16 1 % 16)

/-- What a report or an image result says of worker i. -/
def workerSays (i : Nat) (l : List Byte) (s : State) : State :=
  s |> setF (Fld.ILG_WORKER_STATE_result i) (beAt l 16 1) |> setR (Reg.ILG_WORKER_REPGEN i) (beAt l 17 4) |> judgeWorker i

/-- WORKER_REPORT. -/
def workerReport (g : Nat) (l : List Byte) (s : State) : State :=
  let r := mgmtReceive g (fun l => mgmtOp l == 3) l s
  let s := r.2
  let i := mgmtSource l
  if !r.1 ∨ !isManager s ∨ i = 0 then s
  else
    let s := s |> setR (Reg.ILG_WORKER_ID_HI i) (beAt l 8 4) |> setR (Reg.ILG_WORKER_ID_LO i) (beAt l 12 4)
      |> setF (Fld.ILG_WORKER_STATE_reported i) 1 |> workerSays i l
    whenT (!workerCurrent s i) (latch Fld.ILG_EVENT_stale) s

/-- IMAGE_RESULT_RECEIVE (R495, R498). -/
def imageResult (g : Nat) (l : List Byte) (s : State) : State :=
  let r := mgmtReceive g (fun l => mgmtOp l == 2) l s
  let s := r.2
  let i := mgmtSource l
  if !r.1 ∨ !isManager s ∨ i = 0 then s
  else
    let s := s |> workerSays i l |> record 0x62 ([i, beAt l 16 1] ++ dle 4 (beAt l 17 4))
    if s.getF Fld.ILG_IMG_STATUS_state ≠ 0 ∧ s.getF Fld.ILG_IMG_STATUS_index = i then
      s |> setF Fld.ILG_IMG_STATUS_result (beAt l 16 1) |> setF Fld.ILG_IMG_STATUS_state 0 |> latch Fld.ILG_EVENT_image_done
        |> modIlg (fun x => { x with imgPass := 0, imgOff := 0, imgBytes := [], imgLen := 0 })
    else s

/-! ### Sending an image to a worker (R495, R588) -/

def imgAddr (s : State) : Nat := (s.reg Reg.ILG_IMG_ADDR_HI).toNat * 2 ^ 32 + (s.reg Reg.ILG_IMG_ADDR_LO).toNat

/-- An IMAGE unit toward the worker of the image in hand; bits: 6 abort, 7 last. -/
def sendImageUnit (bits off : Nat) (d : List Byte) (s : State) : State :=
  let i := s.getF Fld.ILG_IMG_STATUS_index
  match pathOf s i with
  | none => s
  | some g => queueUnit g ([byte Unit.image, 0, 0, byte (bits + i)] ++ be 4 off) (slice d 0 128) s

/-- The image in hand ends at the worker: abort set, and last as well when the host aborted it (assumption log 61). -/
def workerImageEnd (hostAbort : Bool) (s : State) : State :=
  if s.getF Fld.ILG_IMG_STATUS_state = 0 then s
  else s |> sendImageUnit (if hostAbort then 192 else 64) s.ilg.imgOff [] |> setF Fld.ILG_IMG_STATUS_state 2
    |> modIlg (fun x => { x with imgBytes := [] })

/-- The manager asks its host for the next bytes of the image, from an offset on; beyond the 64-bit host address space they
cannot be read (R72, R495). -/
def imgRead (off : Nat) (s : State) : State :=
  let a := imgAddr s + off
  if 2 ^ 64 ≤ a then workerImageEnd false s else readHost a (min 128 (2 ^ 64 - a)) s

/-- WORKER_IMAGE_START: ILG_IMG_CTRL.start was written; ignored unless IDLE. An index without a path cannot be sent to,
and the start has no effect (assumption log 62). -/
def workerImageStart (v : Nat) (s : State) : State :=
  let i := v / 2 ^ 8 % 8
  if !bit v 0 ∨ s.getF Fld.ILG_IMG_STATUS_state ≠ 0 ∨ !isManager s ∨ pathOf s i = none then s
  else
    s |> setF Fld.ILG_IMG_STATUS_state 1 |> setF Fld.ILG_IMG_STATUS_index i |> setF Fld.ILG_IMG_STATUS_result 0
      |> modIlg (fun x => { x with imgPass := 0, imgOff := 0, imgBytes := [], imgLen := 0 }) |> imgRead 0

/-- WORKER_IMAGE_ABORT. -/
def workerImageAbort (v : Nat) (s : State) : State := if bit v 1 then workerImageEnd true s else s

/-- Send what has been read, 128 bytes to a unit; a pass ends with its last byte. -/
def sendImage (fuel : Nat) (s : State) : State :=
  match fuel with
  | 0 => s
  | fuel + 1 =>
    let x := s.ilg
    let left := x.imgLen - x.imgOff
    let n := min 128 left
    if x.imgLen = 0 ∨ left = 0 ∨ x.imgBytes.length < n then s
    else
      let last := decide (left = n)
      let s := s |> sendImageUnit (b2n last * 128) x.imgOff (x.imgBytes.take n)
        |> modIlg (fun y => { y with imgOff := if last then 0 else x.imgOff + n, imgBytes := if last then [] else x.imgBytes.drop n,
                                     imgPass := if last then x.imgPass + 1 else x.imgPass })
      if last ∧ x.imgPass = 1 then setF Fld.ILG_IMG_STATUS_state 2 s else sendImage fuel s

/-- WORKER_IMAGE_READ: the next bytes of the image come from host memory. -/
def workerImageRead (l : List Byte) (s : State) : State :=
  if s.getF Fld.ILG_IMG_STATUS_state ≠ 1 then s
  else
    let s := modIlg (fun x => { x with imgBytes := x.imgBytes ++ l }) s
    let s := if s.ilg.imgLen = 0 ∧ 12 ≤ s.ilg.imgBytes.length then
        modIlg (fun x => { x with imgLen := 64 + beAt x.imgBytes 8 4 }) s else s
    let s := sendImage (l.length / 128 + 3) s
    if s.getF Fld.ILG_IMG_STATUS_state = 1 then imgRead (s.ilg.imgOff + s.ilg.imgBytes.length) s else s

/-! ### SWITCH units (R486) -/

def switchUnit (s : State) : List Byte × List Byte :=
  let left := match s.spr.graceEnd with
    | some e => ceilDiv (e - s.cycle) cyclesPerUs
    | none => 0
  ([byte Unit.switch, 0, 0, byte (liveEpoch s), byte (prevEpoch s), byte (liveTnn s), byte (liveN s), byte (b2n (graceOn s))] ++
      be 2 (min left 65535),
   (List.range 64).map (fun t => byte (s.reg (Reg.EPO_MAP t)).toNat))

/-- At the manager's switch instant: toward every worker. -/
def sendSwitch (s : State) : State :=
  if !isManager s then s
  else
    let u := switchUnit s
    each ([0, 1].filter (fun g => (List.range 8).any (fun d => d != 0 && pathOf s d == some g))) (fun g t => queueUnit g u.1 u.2 t) s

/-- SWITCH_UNIT_RECEIVE: copied, and relayed away from the port it came on. One that says nothing new is not copied
again. -/
def switchReceive (g : Nat) (l : List Byte) (s : State) : State :=
  let r := acceptUnit g Unit.switch l s
  let s := r.2
  if !r.1 ∨ !isWorker s then s
  else if beAt l 3 1 = liveEpoch s ∧ beAt l 4 1 = prevEpoch s ∧ beAt l 5 1 % 64 = liveTnn s ∧ beAt l 6 1 % 64 = liveN s then s
  else
    let s := endGrace s
    let s := modSpr (fun x => { x with prevTnn := liveTnn s, prevDigest := liveDigest s }) s
    let s := s |> setF Fld.SPR_EPOCH_live (beAt l 3 1) |> setF Fld.SPR_EPOCH_previous (beAt l 4 1)
      |> setF Fld.SPR_STATUS_tnn (beAt l 5 1) |> setF Fld.SPR_STATUS_n (beAt l 6 1)
      |> each (List.range 64) (fun t u => setR (Reg.EPO_MAP t) (beAt l (32 + t) 1) u)
    let s := if bit (beAt l 7 1) 0 then
        s |> beginGrace |> modSpr (fun x => { x with graceEnd := some (s.cycle + beAt l 8 2 * cyclesPerUs) })
      else s
    let o := otherG g
    if ilgUp s o ∧ s.getF (Fld.ILG_PORT_STATUS_peer_role o) ≠ 1 then queueUnit o (slice l 0 28) (l.drop 32) s else s

/-! ### Start and stop (R479, R488) -/

/-- STARTING: the credit pools are those of the port's row. -/
def ilgStarting (g : Nat) (s : State) : State :=
  let pool := (List.range 8).map (fun c => s.getF (Fld.BUF_ROW_CFG_min_cells (52 + g) c))
  modIlgPort g (fun x => { x with pool := pool }) s

/-- STARTING ends: the SerDes are locked, and the lanes look for block lock and deskew. -/
def ilgStarted (g : Nat) (s : State) : State := setF (Fld.ILG_PORT_STATUS_lstate g) Lk.ilgLock s

/-- STOPPING: reliable units sent have 10 µs to be acknowledged; none starts any more. -/
def ilgStopping (g : Nat) (s : State) : State := modIlgPort g (fun x => { x with stopAt := s.cycle }) s

/-- STOPPING may end: everything is acknowledged, or the 10 µs are over. -/
def ilgStopReady (s : State) (g : Nat) : Bool :=
  let x := s.ilgPort g
  x.replay.isEmpty || decide (x.stopAt + 10 * cyclesPerUs ≤ s.cycle)

/-- STOPPING ends: what is unacknowledged is dropped, the lanes go idle. -/
def ilgStopped (g : Nat) (s : State) : State := s |> ilgDown g |> setIlgPort g IlgPort.empty

end Sys2Proof.Machine
end

