-- ==== Sys2Proof/Machine/LocalBus.lean ====
section
/-! DEFINITION. The local bus bridge (chapter 14): host requests and their local cycles, reads and their time-outs,
prefetch, the local master, inbound writes, interrupt inputs, Clasp, the error log. -/
namespace Sys2Proof.Machine

def modLbb (f : Bridge → Bridge) (s : State) : State := { s with lbb := f s.lbb }

def lbbState (s : State) : Nat := s.getF Fld.LBB_CTRL_state

/-- A unit of local bus time is one cell time (R445). -/
def busUnit : Nat := 8

/-! ### Errors (R461) -/

def LbbErr.noReady : Nat := 1
def LbbErr.timeout : Nat := 2
def LbbErr.parity : Nat := 3
def LbbErr.unmapped : Nat := 4
def LbbErr.wfifoFull : Nat := 5
def LbbErr.off : Nat := 6
def LbbErr.inbRead : Nat := 7
def LbbErr.inbParity : Nat := 8

/-- An error: counted, latched, and logged while the log has room. Source 0 host read, 1 host write, 2 local master. -/
def busError (kind source tag addr : Nat) (s : State) : State :=
  let s := s |> count Reg.LBB_ERRORS |> latch Fld.LBB_EVENT_error
  let cs := if source = 2 then 0 else addr / 2 ^ 24 % 4
  if 8 ≤ s.lbb.log.length then count Reg.LBB_ERR_LOST s
  else modLbb (fun b => { b with log := b.log ++ [(2 ^ 31 + kind * 2 ^ 12 + source * 2 ^ 8 + cs * 2 ^ 4 + tag, addr)] }) s

/-- ERROR_LOG_POP: a read of LBB_ERR_INFO takes the head, and its address into LBB_ERR_ADDR. -/
def errorPop (s : State) : State :=
  match s.lbb.log with
  | [] => { s with host := { s.host with lastRead := 0 } }
  | (w, a) :: t =>
    let s := s |> modLbb (fun b => { b with log := t }) |> setR Reg.LBB_ERR_ADDR a
    { s with host := { s.host with lastRead := BitVec.ofNat 32 w } }

/-! ### Windows (R443) -/

def csOf (a : Nat) : Nat := a / 2 ^ 24 % 4
def laOf (a : Nat) : Nat := a % 2 ^ 24

def mapped (s : State) (a : Nat) : Bool :=
  s.on (Fld.LBB_CS_CFG_enable (csOf a)) && decide (laOf a < 2 ^ s.getF (Fld.LBB_CS_CFG_size_log (csOf a)))

/-- Leading bytes whose byte enable is 0. -/
def leadOff (l : List (Option Byte)) : Nat :=
  match l with
  | none :: t => leadOff t + 1
  | _ => 0

/-- The cycle that carries the next bytes of an access at `a`, starting when the bus is free (R444, R445, R447): `more`
tells that further cycles of the same segment follow when the access itself ends. -/
def planCycle (s : State) (write more : Bool) (a0 : Nat) (rest : List (Option Byte)) : BusCycle :=
  let k := leadOff rest
  let a := a0 + k
  let cs := csOf a
  let two := !s.on (Fld.LBB_CS_CFG_width cs) && a % 2 == 0 && (match rest.drop (k + 1) with
    | some _ :: _ => true
    | _ => false)
  let n := if two then 2 else 1
  let left := rest.drop (k + n)
  let j := leadOff left
  let segEnd := if left.length ≤ j then !more else decide ((a + n + j) / 256 ≠ a / 256)
  let bytes := (rest.drop k).take n |>.map (fun o => (o.getD 0).toNat)
  let wide := !s.on (Fld.LBB_CS_CFG_width cs)
  let data := if two then bytes.getD 0 0 + bytes.getD 1 0 * 256
    else bytes.getD 0 0 * (if wide ∧ a % 2 = 1 then 256 else 1)
  let start := ceilDiv (max s.cycle s.lbb.freeAt) busUnit * busUnit
  let strobe := start + s.getF (Fld.LBB_CS_TIMING_t_as cs) * busUnit
  let turn := if segEnd ∨ !s.on (Fld.LBB_CS_CFG_burst cs) then s.getF (Fld.LBB_CS_TIMING_t_turn cs) else 0
  { write := write, addr := a, skip := k, n := n, data := data, startAt := start,
    endMin := strobe + s.getF (Fld.LBB_CS_TIMING_t_strobe cs) * busUnit,
    limitAt := strobe + s.getF Fld.LBB_CTRL_rdy_limit_us * cyclesPerUs, ready := s.on (Fld.LBB_CS_CFG_ready_en cs), wide := wide,
    parity := s.on (Fld.LBB_CS_CFG_parity cs), after := (s.getF (Fld.LBB_CS_TIMING_t_hold cs) + turn) * busUnit, segEnd := segEnd }

/-! ### Completions (R450, R451) -/

def readOf (s : State) (tag : Nat) : Option BusRead := s.lbb.reads.find? (fun r => r.tag == tag)

def modRead (tag : Nat) (f : BusRead → BusRead) (s : State) : State :=
  modLbb (fun b => { b with reads := b.reads.map (fun r => if r.tag = tag then f r else r) }) s

/-- Accept reads while a tag is free. -/
def acceptReads (fuel : Nat) (s : State) : State :=
  match fuel with
  | 0 => s
  | fuel + 1 =>
    match s.lbb.unaccepted, (List.range 8).find? (fun t => (readOf s t).isNone) with
    | (a, en) :: rest, some t =>
      let r : BusRead := { tag := t, addr := a, len := en.length, next := a, rest := en.map (fun e => if e then some 0 else none),
                           got := [], due := s.cycle + s.getF Fld.LBB_CTRL_cpl_timeout_us * cyclesPerUs, answer := none }
      s |> modLbb (fun b => { b with unaccepted := rest, reads := b.reads ++ [r], work := b.work ++ [.read t] }) |> acceptReads fuel
    | _, _ => s

/-- A completion in pieces that follow the read completion boundary, none longer than the maximum payload size (R450). -/
def completionPieces (fuel limit addr : Nat) (l : List Byte) : List (List Byte) :=
  match fuel with
  | 0 => []
  | fuel + 1 =>
    if l.isEmpty then []
    else
      let k := min l.length (limit - addr % limit)
      l.take k :: completionPieces fuel limit (addr + k) (l.drop k)

def sendCompletion (tag addr : Nat) (l : List Byte) (s : State) : State :=
  each (completionPieces l.length s.host.maxPayload addr l) (fun d t => emitOut (.completion tag d) t) s

/-- Completions leave in the order of acceptance. -/
def flushReads (l : List BusRead) (s : State) : State :=
  match l with
  | [] => modLbb (fun b => { b with reads := [] }) s
  | r :: t =>
    match r.answer with
    | some d => s |> sendCompletion r.tag r.addr d |> flushReads t
    | none => modLbb (fun b => { b with reads := r :: t }) s

/-- Completed reads leave, and tags come free. -/
def flushCompletions (s : State) : State := s |> flushReads s.lbb.reads |> acceptReads 9

def allOnes (n : Nat) : List Byte := List.replicate n 0xFF

/-- A read is answered. A byte that was not enabled is an open value. -/
def answerRead (tag : Nat) (d : Option (List (Option Byte))) (s : State) : State :=
  match readOf s tag with
  | none => s
  | some r =>
    match d with
    | none => s |> modRead tag (fun r => { r with answer := some (allOnes r.len) }) |> flushCompletions
    | some l =>
      let v := drawFree s
      let s := if l.all (·.isSome) then s else v.2
      s |> modRead r.tag (fun r => { r with answer := some (l.map (fun o => o.getD (byte v.1))) }) |> flushCompletions

def dropHead (s : State) : State := modLbb (fun b => { b with work := b.work.tail }) s
def putHead (o : BusOp) (s : State) : State := modLbb (fun b => { b with work := o :: b.work.tail }) s

/-- A read ends with an error: all ones for the whole request, the rest abandoned. -/
def failRead (tag kind addr : Nat) (s : State) : State := s |> busError kind 0 tag addr |> dropHead |> answerRead tag none

/-! ### Prefetch (R452) -/

def prefetchOf (s : State) (cs : Nat) : Option Prefetch := Sparse.find s.lbb.prefetch cs

def discardPrefetch (cs : Nat) (s : State) : State :=
  match prefetchOf s cs with
  | none => s
  | some p =>
    s |> modLbb (fun b => { b with prefetch := Sparse.drop b.prefetch cs }) |> whenT (p.seen.any (!·)) (count Reg.LBB_PREFETCH_DISCARD)

/-- Every buffer goes, and what is being read ahead with it. -/
def discardAll (s : State) : State :=
  let s := each [0, 1, 2, 3] discardPrefetch s
  match s.lbb.work with
  | .ahead _ _ d :: t => s |> modLbb (fun b => { b with work := t, cycle := none }) |> whenT (!d.isEmpty) (count Reg.LBB_PREFETCH_DISCARD)
  | _ => s

/-- The bytes that a read may read ahead from the address past its end. -/
def aheadLen (s : State) (a : Nat) : Nat :=
  let last := a - 1
  if !s.on (Fld.LBB_CS_CFG_prefetch (csOf last)) ∨ !mapped s last then 0
  else min (min 64 ((256 - a % 256) % 256)) (2 ^ s.getF (Fld.LBB_CS_CFG_size_log (csOf last)) - (laOf last + 1))

/-- The read lies wholly inside the buffer of its chip select. -/
def inBuffer (p : Prefetch) (a n : Nat) : Bool := decide (p.addr ≤ a) && decide (a + n ≤ p.addr + p.data.length) && decide (0 < n)

/-- PREFETCH_EXPIRY: 10 µs after the buffer was filled. -/
def prefetchExpiry (cs : Nat) (s : State) : State :=
  match prefetchOf s cs with
  | none => s
  | some p => s |> advanceTo (p.filledAt + 10 * cyclesPerUs) |> discardPrefetch cs

/-! ### Clasp (R459) -/

def endClasp (expired : Bool) (s : State) : State :=
  match s.lbb.clasp with
  | none => s
  | some (t, _) =>
    s |> modLbb (fun b => { b with clasp := none }) |> emitOut (.pin Pin.busLock true)
      |> whenT expired (fun u => u |> count Reg.LBB_CLASP_EXPIRED |> latch Fld.LBB_EVENT_clasp_expired)
      |> record 0x53 ([b2n expired] ++ dle 2 ((s.cycle - t) / cyclesPerUs))

def beginClasp (us : Nat) (s : State) : State :=
  let e := s.cycle + us * cyclesPerUs
  match s.lbb.clasp with
  | some (t, _) => s |> discardAll |> modLbb (fun b => { b with clasp := some (t, e) })
  | none => s |> discardAll |> modLbb (fun b => { b with clasp := some (s.cycle, e) }) |> emitOut (.pin Pin.busLock false)

/-- LBB_CLASP_CTRL was written. -/
def claspCtrl (v : Nat) (s : State) : State :=
  if lbbState s = 0 then s
  else
    let us := max 1 (min 100 (v / 2 ^ 16 % 256))
    s |> whenT (bit v 0) (modLbb (fun b => { b with work := b.work ++ [.acquire us] }))
      |> whenT (bit v 1) (modLbb (fun b => { b with work := b.work ++ [.release] }))

def claspExpiry (s : State) : State :=
  match s.lbb.clasp with
  | none => s
  | some (_, e) => s |> advanceTo e |> endClasp true

/-! ### The local master (R454) -/

/-- Host work that would use the bus. -/
def busPending (s : State) : Bool :=
  s.lbb.work.any (fun o => match o with
    | .write _ _ _ => true
    | .read _ => true
    | .ahead _ _ _ => true
    | _ => false)

def mayGrant (s : State) : Bool :=
  s.lbb.wanted && s.on Fld.LBB_ARB_master_en && s.lbb.clasp.isNone && lbbState s == 2 && s.lbb.tenure.isNone &&
    !(s.lbb.owed && busPending s)

/-- The outputs float, and two units later LBGNT_N falls. -/
def grant (s : State) : State :=
  let t := max s.cycle s.lbb.freeAt + 2 * busUnit
  s |> discardAll |> modLbb (fun b => { b with tenure := some t, cycle := none }) |> inCycles (t - s.cycle) (.granted t)

/-- LBGNT_N falls, unless the tenure is over already. -/
def grantFalls (at_ : Nat) (s : State) : State := if s.lbb.tenure = some at_ then emitOut (.pin Pin.busGrant false) s else s

/-- The runs of ascending bytes of a block. -/
def runsOf (l : List (Nat × Byte)) : List (Nat × List Byte) :=
  (l.foldl (fun acc p => match acc with
    | (a, r) :: t => if p.1 = a + r.length then (a, r ++ [p.2]) :: t else (p.1, [p.2]) :: acc
    | [] => [(p.1, [p.2])]) []).reverse

/-- Send an inbound block upstream, one write for each run of its bytes (R455, R456). -/
def sendRuns (base : Nat) (l : List (Nat × Byte)) (s : State) : State :=
  each (runsOf l) (fun p t => writeHost (base + p.1) p.2 t) s

def inbBase (s : State) : Nat := (s.reg Reg.LBB_INB_BASE_HI).toNat * 2 ^ 32 + (s.reg Reg.LBB_INB_BASE_LO).toNat

def flushBlock (s : State) : State :=
  if s.lbb.block = [] then modLbb (fun b => { b with entries := 0 }) s
  else
    let l := s.lbb.block
    if upstream s then s |> sendRuns (inbBase s) l |> modLbb (fun b => { b with block := [], entries := 0 })
    else modLbb (fun b => { b with block := [], entries := 0, held := b.held ++ [(b.entries, l)] }) s

/-- Blocks that waited for Bus Master Enable leave in order. -/
def sendHeld (s : State) : State :=
  if upstream s then
    each s.lbb.held (fun p t => sendRuns (inbBase t) p.2 t) (modLbb (fun b => { b with held := [] }) s)
  else s

/-- BUS_REQUEST: LBREQ_N is low. A cycle that has not begun before this cycle gives way. -/
def busRequest (s : State) : State :=
  if lbbState s ≠ 2 then s
  else
    let s := modLbb (fun b => { b with wanted := true }) s
    match s.lbb.cycle with
    | some c => if s.cycle ≤ c.startAt ∧ mayGrant s then modLbb (fun b => { b with cycle := none }) s else s
    | none => s

/-- A tenure ends: LBGNT_N rises, and the bus is the device's again after the given cycles. -/
def endTenure (wait : Nat) (s : State) : State :=
  match s.lbb.tenure with
  | none => s
  | some _ =>
    s |> flushBlock |> modLbb (fun b => { b with tenure := none, owed := true, freeAt := s.cycle + wait })
      |> emitOut (.pin Pin.busGrant true)

/-- TENURE_END: LBREQ_N has risen. LBGNT_N follows one unit later, and two units after that the bus is the device's (DEDUCED from
the times of the worked example, assumption log 176). -/
def tenureEnd (s : State) : State := s |> modLbb (fun b => { b with wanted := false }) |> endTenure (3 * busUnit)

/-- A tenure is withdrawn; the local master has 1 µs to release the bus. -/
def withdraw (s : State) : State :=
  s |> count Reg.LBB_TENURE_EXPIRED |> latch Fld.LBB_EVENT_tenure_expired |> endTenure cyclesPerUs

def tenureExpiry (s : State) : State :=
  match s.lbb.tenure with
  | none => s
  | some t => s |> advanceTo (t + s.getF Fld.LBB_ARB_tenure_us * cyclesPerUs) |> withdraw

/-- Entries of the inbound FIFO in use. -/
def inboundUse (s : State) : Nat := s.lbb.entries + (s.lbb.held.map (·.1)).sum

/-- The device answers as target: a tenure runs and LBB_INB_CFG.enable is 1. -/
def isTarget (s : State) : Bool := s.lbb.tenure.isSome && s.on Fld.LBB_INB_CFG_enable

/-- The device pulls LRDY_N low, and releases it as the cycle ends. -/
def pulseReady (s : State) : State := s |> emitOut (.pin Pin.busReady false) |> emitOut (.pin Pin.busReady true)

/-- An inbound write with an entry: its good bytes join the block they continue, or the block goes upstream first (R456). -/
def takeInbound (la : Nat) (upper : Bool) (data ok : Nat) (s : State) : State :=
  let check := s.on Fld.LBB_INB_CFG_parity
  let lanes := (if la % 2 = 0 then [(la, byte data, bit ok 0)] else []) ++
    (if upper then [(la - la % 2 + 1, byte (data / 256), bit ok 1)] else [])
  let good := (lanes.filter (fun p => !check || p.2.2)).map (fun p => (p.1, p.2.1))
  let s := s |> pulseReady |> each (lanes.filter (fun p => check && !p.2.2)) (fun _ => busError LbbErr.inbParity 2 0 la)
  let fits := match s.lbb.block.getLast?, s.lbb.block.head?, good.head? with
    | some z, some h, some g => z.1 < g.1 && h.1 / 64 == g.1 / 64
    | _, _, _ => true
  let s := if fits then s else flushBlock s
  modLbb (fun b => { b with block := b.block ++ good, entries := b.entries + 1, lastWrite := s.cycle }) s

/-- INBOUND_WRITE: a write cycle with LTSEL_N low, at the rise of LWR_N. With the FIFO full, LRDY_N is withheld and the cycle
goes on until an entry is free (R455). -/
def inboundWrite (la : Nat) (upper : Bool) (data ok : Nat) (s : State) : State :=
  if !isTarget s ∨ s.lbb.waitingIn.isSome then s
  else if 32 ≤ inboundUse s then modLbb (fun b => { b with waitingIn := some (la, upper, data, ok) }) s
  else takeInbound la upper data ok s

/-- The write that waits is taken once an entry is free; it ends with its tenure. -/
def inboundWaits (s : State) : State :=
  match s.lbb.waitingIn with
  | none => s
  | some w =>
    let t := modLbb (fun b => { b with waitingIn := none }) s
    if !isTarget s then t else if 32 ≤ inboundUse s then s else takeInbound w.1 w.2.1 w.2.2.1 w.2.2.2 t

/-- INBOUND_READ: answered at once with 0xFFFF (R455). -/
def inboundRead (la : Nat) (s : State) : State :=
  if isTarget s then s |> pulseReady |> emitOut (.localAnswer 0xFFFF) |> busError LbbErr.inbRead 2 0 la else s

/-- INBOUND_FLUSH: 16 units after the last write of the block. -/
def inboundFlush (s : State) : State :=
  if s.lbb.entries = 0 then s else s |> advanceTo (s.lbb.lastWrite + 16 * busUnit) |> flushBlock

/-! ### Interrupt inputs (R457, R458) -/

/-- The host's write that clears bit n of LBB_IRQ_EVENT. -/
def clearsIrq (n : Nat) (i : Instr) : Bool :=
  match i with
  | .registerWrite off v be _ => off == Reg.LBB_IRQ_EVENT && bit v.toNat n && be == 15#4
  | _ => false

/-- LIRQ_EDGE: a filtered edge. The block goes upstream first. An edge in the cycle of the host's clearing write finds the bit
clear, so a further message becomes due, and the bit stays set (R50, R457). -/
def lirqEdge (n : Nat) (rising : Bool) (s : State) : State :=
  if lbbState s = 0 ∨ bit (s.getF Fld.LBB_IRQ_CFG_falling) n = rising then s
  else
    let s := flushBlock s
    if bit (s.getF Fld.LBB_IRQ_EVENT_edge) n && !inTime (clearsIrq n) s then count Reg.LBB_IRQ_MERGED s
    else
      s |> latchBits Fld.LBB_IRQ_EVENT_edge (2 ^ n)
        |> whenT (bit (s.getF Fld.LBB_IRQ_EN_en) n) (msix (64 + fieldOf (s.reg Reg.LBB_IRQ_CFG) (3 * n) 3))

/-! ### Host requests (R443, R448 to R450) -/

def wfifoUse (s : State) : Nat :=
  s.lbb.work.foldl (fun n o => match o with
    | .write _ _ k => n + k
    | _ => n) 0

/-- BAR4_WRITE. -/
def bar4Write (a : Nat) (d : List (Option Byte)) (s : State) : State :=
  let k := ceilDiv d.length 64
  if lbbState s = 0 then busError LbbErr.off 1 0 a s
  else if 32 < wfifoUse s + k then busError LbbErr.wfifoFull 1 0 a s
  else modLbb (fun b => { b with work := b.work ++ [.write a d k] }) s

/-- BAR4_READ. A bridge that is OFF answers all ones at once; the read takes no tag. -/
def bar4Read (a : Nat) (en : List Bool) (s : State) : State :=
  if lbbState s = 0 then s |> busError LbbErr.off 0 0 a |> sendCompletion 0 a (allOnes en.length)
  else s |> modLbb (fun b => { b with unaccepted := b.unaccepted ++ [(a, en)] }) |> acceptReads 9

/-- The next step of the first operation that waits: it starts a cycle, or ends. -/
def workOn (o : BusOp) (s : State) : State :=
  match o with
  | .dead => dropHead s
  | .acquire us => s |> dropHead |> whenT (lbbState s == 2) (beginClasp us)
  | .release => s |> dropHead |> endClasp false
  | .write a d k =>
    let j := leadOff d
    if d.length ≤ j then dropHead s
    else
      let s := discardPrefetch (csOf (a + j)) s
      if !mapped s (a + j) then
        let n := 2 ^ 24 - laOf (a + j)
        s |> busError LbbErr.unmapped 1 0 (a + j) |> putHead (.write (a + j + n) (d.drop (j + n)) k)
      else modLbb (fun b => { b with cycle := some (planCycle s true false a d) }) s
  | .read tag =>
    match readOf s tag with
    | none => dropHead s
    | some r =>
      if r.answer.isSome then dropHead s
      else
        let cs := csOf r.next
        let hit := match prefetchOf s cs with
          | some p => if r.got.isEmpty && inBuffer p r.addr r.len then some p else none
          | none => none
        match hit with
        | some p =>
          let k := r.addr - p.addr
          let seen := (List.range p.data.length).map (fun i => p.seen.getD i false || (decide (k ≤ i) && decide (i < k + r.len)))
          s |> modLbb (fun b => { b with prefetch := Sparse.ins (Sparse.drop b.prefetch cs) cs { p with seen := seen } })
            |> dropHead |> answerRead tag (some ((slice p.data k r.len).map some))
        | none =>
          let s := whenT r.got.isEmpty (discardPrefetch cs) s
          let j := leadOff r.rest
          if r.rest.length ≤ j then
            s |> dropHead |> answerRead tag (some (r.got ++ List.replicate j none))
          else if !mapped s (r.next + j) then failRead tag LbbErr.unmapped (r.next + j) s
          else modLbb (fun b => { b with cycle := some (planCycle s false (0 < aheadLen s (r.addr + r.len)) r.next r.rest) }) s
  | .ahead a left _ =>
    if left = 0 then dropHead s
    else modLbb (fun b => { b with cycle := some (planCycle s false false a (List.replicate left (some 0))) }) s

/-- A release waits only for the writes and acquires accepted before it, not for the reads (R459): one with none of them ahead of
it ends the Clasp. -/
def releaseEarly (s : State) : State :=
  let ahead := s.lbb.work.takeWhile (fun o => match o with
    | .release => false
    | .write _ _ _ => false
    | .acquire _ => false
    | _ => true)
  match s.lbb.work.drop ahead.length with
  | .release :: t => s |> modLbb (fun b => { b with work := ahead ++ t }) |> endClasp false
  | _ => s

/-- The bus goes on: a grant, or the next cycle of what waits, once no cycle and no tenure runs. -/
def goOnBus (fuel : Nat) (s : State) : State :=
  match fuel with
  | 0 => s
  | fuel + 1 =>
    let s := releaseEarly s
    if lbbState s < 2 ∨ s.lbb.cycle.isSome ∨ s.lbb.tenure.isSome then s
    else if mayGrant s then grant s
    else
      match s.lbb.work with
      | [] => modLbb (fun b => { b with owed := false }) s
      | o :: _ => s |> workOn o |> goOnBus fuel

def settleBus (s : State) : State :=
  let s := s |> sendHeld |> inboundWaits
  if s.lbb = Bridge.idle then s else goOnBus (3 * s.lbb.work.length + 8) s

/-! ### Cycles end (R445, R446, R451) -/

/-- Bytes that a read cycle brings, from the lanes. -/
def laneBytes (c : BusCycle) (data : Nat) (wide : Bool) : List Byte :=
  if c.n = 2 then [byte data, byte (data / 256)] else [byte (if wide ∧ c.addr % 2 = 1 then data / 256 else data)]

/-- LBHE_N is low: both bytes, or the upper byte, of a 16-bit window (R444). -/
def upperLane (c : BusCycle) : Bool := c.n == 2 || (c.wide && c.addr % 2 == 1)

/-- Odd parity of a byte. -/
def oddParity (b : Nat) : Nat := b2n (((List.range 8).filter (bit b)).length % 2 == 0)

/-- LDP[1:0] over the lanes that a cycle drives (R441). -/
def ldpOf (c : BusCycle) (data : Nat) : Nat :=
  (if c.n = 2 ∨ !upperLane c then oddParity (data % 256) else 0) + (if upperLane c then 2 * oddParity (data / 256 % 256) else 0)

/-- A cycle is over: the bus is free after Hold and Turn. -/
def cycleOver (c : BusCycle) (data : Nat) (s : State) : State :=
  s |> emitOut (.localCycle c.write (csOf c.addr) (laOf c.addr) (upperLane c) data (if c.write ∧ c.parity then ldpOf c data else 0))
    |> modLbb (fun b => { b with cycle := none, freeAt := s.cycle + c.after, owed := b.owed && !c.segEnd })

/-- The read in hand has taken its last byte: what may be read ahead follows, then it is answered. -/
def readDone (r : BusRead) (s : State) : State :=
  let n := aheadLen s (r.addr + r.len)
  let s := if n = 0 then dropHead s else putHead (.ahead (r.addr + r.len) n []) s
  answerRead r.tag (some r.got) s

/-- The strobe has risen with data (or the cycle's write is done). -/
def cycleDone (c : BusCycle) (data : Nat) (ok : Bool) (s : State) : State :=
  let wide := c.wide
  let s := cycleOver c (if c.write then c.data else data) s
  match s.lbb.work with
  | .write a d k :: _ => putHead (.write (a + c.skip + c.n) (d.drop (c.skip + c.n)) k) s
  | .read tag :: _ =>
    match readOf s tag with
    | none => dropHead s
    | some r =>
      if c.parity ∧ !ok then failRead tag LbbErr.parity c.addr s
      else
        let r := { r with next := r.next + c.skip + c.n, rest := r.rest.drop (c.skip + c.n),
                          got := r.got ++ List.replicate c.skip none ++ (laneBytes c data wide).map some }
        let j := leadOff r.rest
        let r := if r.rest.length ≤ j then { r with got := r.got ++ List.replicate j none, rest := [] } else r
        let s := modRead tag (fun _ => r) s
        if r.rest = [] then readDone r s else s
  | .ahead a left d :: _ =>
    if c.parity ∧ !ok then s |> busError LbbErr.parity 0 0 c.addr |> dropHead |> whenT (!d.isEmpty) (count Reg.LBB_PREFETCH_DISCARD)
    else
      let d := d ++ laneBytes c data wide
      if left ≤ c.n then
        let p : Prefetch := { addr := a + c.n - d.length, data := d, seen := List.replicate d.length false, filledAt := s.cycle }
        let cs := csOf c.addr
        s |> dropHead |> modLbb (fun b => { b with prefetch := Sparse.ins (Sparse.drop b.prefetch cs) cs p })
      else putHead (.ahead (a + c.n) (left - c.n) d) s
  | .dead :: _ => s |> count Reg.LBB_LATE_CPL |> dropHead
  | _ => s

/-- No ready within the limit: the cycle's data is lost. -/
def cycleLost (c : BusCycle) (s : State) : State :=
  let s := cycleOver c c.data s
  match s.lbb.work with
  | .write a d k :: _ =>
    s |> busError LbbErr.noReady 1 0 c.addr |> putHead (.write (a + c.skip + c.n) (d.drop (c.skip + c.n)) k)
  | .read tag :: _ =>
    match readOf s tag with
    | none => dropHead s
    | some _ => failRead tag LbbErr.noReady c.addr s
  | .ahead _ _ d :: _ =>
    s |> busError LbbErr.noReady 0 0 c.addr |> dropHead |> whenT (!d.isEmpty) (count Reg.LBB_PREFETCH_DISCARD)
  | .dead :: _ => dropHead s
  | _ => s

/-- The local cycle in progress ends (R23). -/
def isLocalEnd (i : Instr) : Bool :=
  match i with
  | .localCycleEnd _ _ _ => true
  | _ => false

/-- NO_READY: the strobe has lasted rdy_limit_us. -/
def noReady (s : State) : State :=
  match s.lbb.cycle with
  | some c =>
    if !c.ready then s
    else
      let s := advanceTo c.limitAt s
      if inTime isLocalEnd s then s else cycleLost c s
  | none => s

/-- LOCAL_CYCLE_END at a cycle: without ready the strobe rises at its set time; with ready not before it, and a ready that
comes past the limit finds the cycle ended. -/
def localCycleEnd (data : Nat) (ok : Bool) (at_ : Nat) (s : State) : State :=
  match s.lbb.cycle with
  | none => advanceTo at_ s
  | some c =>
    let e := if c.ready then max c.endMin at_ else c.endMin
    if c.ready ∧ c.limitAt < e then s |> advanceTo c.limitAt |> cycleLost c
    else s |> advanceTo e |> cycleDone c data ok

/-- The read's last data is sampled by the cycle in progress, at or before its time-out (R23). -/
def lastDataInTime (s : State) (r : BusRead) : Bool :=
  match s.lbb.cycle with
  | none => false
  | some c =>
    let rest := r.rest.drop (c.skip + c.n)
    s.lbb.work.head? == some (.read r.tag) && decide (rest.length ≤ leadOff rest) &&
      (if c.ready then decide (c.endMin ≤ s.cycle) && inTime isLocalEnd s else decide (c.endMin ≤ s.cycle))

/-- READ_TIMEOUT: the read is answered with all ones; the cycle in progress runs to its end. -/
def readTimeout (tag : Nat) (s : State) : State :=
  match readOf s tag with
  | none => s
  | some r =>
    if r.answer.isSome then s
    else
      let s := advanceTo r.due s
      if lastDataInTime s r then s else
      let running := s.lbb.cycle.isSome && s.lbb.work.head? == some (.read tag)
      s |> busError LbbErr.timeout 0 tag r.addr |> modRead tag (fun r => { r with answer := some (allOnes r.len) })
        |> (if running then putHead .dead else modLbb (fun b => { b with work := b.work.filter (fun o => o != .read tag) })) |> flushCompletions

/-! ### Start and stop (R462) -/

def lbbStarting (s : State) : State :=
  s |> emitOut (.pin Pin.busGrant true) |> emitOut (.pin Pin.busLock true) |> modLbb (fun b => { b with freeAt := s.cycle })

/-- STOPPING: a tenure is withdrawn and a Clasp released. -/
def lbbStopping (s : State) : State := s |> whenT s.lbb.tenure.isSome withdraw |> endClasp false |> modLbb (fun b => { b with wanted := false })

/-- The bus is idle, so that STOPPING may end. -/
def lbbIdle (s : State) : Bool := decide (s.lbb.freeAt ≤ s.cycle) && s.lbb.work.isEmpty && s.lbb.reads.isEmpty && s.lbb.cycle.isNone && s.lbb.unaccepted.isEmpty

def lbbStopped (s : State) : State := s |> each [0, 1, 2, 3] discardPrefetch |> flushBlock |> modLbb (fun b => { b with wanted := false })

/-- LBB_STATUS as it reads. -/
def lbbStatus (s : State) : Nat :=
  let waits := s.lbb.work.any (fun o => match o with
    | .acquire _ => true
    | _ => false)
  let clasp := if s.lbb.clasp.isSome then 2 else if waits then 1 else 0
  let owner := if s.lbb.tenure.isSome then 2 else if s.lbb.cycle.any (fun c => decide (c.startAt ≤ s.cycle)) then 1 else 0
  (32 - wfifoUse s) * 2 ^ 24 + s.lbb.reads.length * 2 ^ 16 + clasp * 2 ^ 12 + owner * 2 ^ 8

end Sys2Proof.Machine
end

