-- ==== Sys2Proof/Machine/Crc.lean ====
section
/-! DEFINITION. The check-value units of the host (R466 to R473). CRC_RESULT holds the preset's result over the bytes fed,
from which every further byte goes on. -/
namespace Sys2Proof.Machine

/-- Feed bytes to unit u (R467). -/
def crcTake (u : Nat) (l : List Byte) (s : State) : State :=
  s |> setR (Reg.CRC_RESULT u) (crcFeed u (s.reg (Reg.CRC_RESULT u)).toNat l) |> countBy (Reg.CRC_COUNT u) l.length

/-- CRC_CTRL.restart was written (R469). -/
def crcCtrl (u v : Nat) (s : State) : State :=
  if bit v 0 then s |> setR (Reg.CRC_RESULT u) (crcStart u) |> setR (Reg.CRC_COUNT u) 0 else s

/-- CRC_SEED was written (R470); the seed has the width of the preset. -/
def crcSeed (u v : Nat) (s : State) : State := s |> setR (Reg.CRC_RESULT u) (v % 2 ^ crcWidth u) |> setR (Reg.CRC_COUNT u) 0

def crcData8 (u v : Nat) (s : State) : State := crcTake u (be 1 v) s
def crcData16 (u v : Nat) (s : State) : State := crcTake u (be 2 v) s
def crcData32 (u v : Nat) (s : State) : State := crcTake u (be 4 v) s

end Sys2Proof.Machine
end

