-- ==== Sys2Proof/Machine/Redundancy.lean ====
section
/-! DEFINITION. Redundant node pairs (chapter 17): the node role, claims and resignation, heartbeats, synchronisation and
adoption, withdrawal from the backbone, proof swaps. -/
namespace Sys2Proof.Machine

def modRed (f : Redund → Redund) (s : State) : State := { s with red := f s.red }

def Rd.none : Nat := 0
def Rd.active : Nat := 1
def Rd.standby : Nat := 2
def Rd.claiming : Nat := 3
def Rd.resigned : Nat := 4

def redRole (s : State) : Nat := s.getF Fld.RED_STATUS_role
def setRole (r : Nat) (s : State) : State := setF Fld.RED_STATUS_role r s
def paired (s : State) : Bool := s.on Fld.RED_CTRL_paired
def sideB (s : State) : Bool := s.on Fld.RED_CTRL_side

/-- RESIGN_OUT: pulled low, or released (R503). -/
def resignOut (low : Bool) (s : State) : State :=
  if s.on Fld.RED_STATUS_resign_out = low then s
  else s |> setF Fld.RED_STATUS_resign_out (b2n low) |> emitOut (.pin Pin.resignOut (!low))

def twoUs : Nat := 2 * cyclesPerUs

/-! ### Synchronisation and eligibility (R510, R512) -/

def hbId (l : List Byte) : Nat := beAt l 4 8
def hbDirUp (l : List Byte) (d : Nat) : Bool := bit (beAt l 30 1) (3 + d)
def hbRole (l : List Byte) : Nat := beAt l 1 1 / 2 % 8

def idMatch (s : State) (l : List Byte) : Bool := hbId l == s.nodeId
def tagMatch (s : State) (l : List Byte) : Bool :=
  beAt l 12 4 == (s.reg Reg.RED_CFG_TAG).toNat && beAt l 16 4 == (s.reg Reg.ROL_IMG_GEN).toNat

def mapMatch (s : State) (l : List Byte) : Bool :=
  (List.range 64).all (fun t => beAt l (100 + t) 1 == (s.reg (Reg.EPO_MAP t)).toNat % 256)

def numberingMatch (s : State) (l : List Byte) : Bool :=
  beAt l 20 1 == liveEpoch s && beAt l 22 1 % 64 == liveTnn s && beAt l 23 1 % 64 == liveN s && mapMatch s l

def hbLossCycles (s : State) : Nat := s.getF Fld.RED_TIMING_hb_loss_us * cyclesPerUs

def synced (s : State) : Bool :=
  match s.red.heard with
  | none => false
  | some l => !s.red.lost && decide (s.cycle ≤ s.red.heardAt + hbLossCycles s) && idMatch s l && tagMatch s l && numberingMatch s l

def redEligible (s : State) : Bool :=
  (synced s && s.getF Fld.RED_CAUSE_cause % 2 ^ 8 == 0 && lockState s 0 == Lk.locked) || (s.red.heard.isNone && s.red.resignIn)

/-- RED_STATUS follows; a comparison of R510 that fails raises sync_fail. -/
def showRed (s : State) : State :=
  let m := fun (f : List Byte → Bool) => match s.red.heard with
    | none => false
    | some l => f l
  let failed := (s.on Fld.RED_STATUS_id_match && !m (idMatch s)) || (s.on Fld.RED_STATUS_tag_match && !m (tagMatch s))
  s |> setF Fld.RED_STATUS_resign_in (b2n s.red.resignIn) |> setF Fld.RED_STATUS_id_match (b2n (m (idMatch s)))
    |> setF Fld.RED_STATUS_tag_match (b2n (m (tagMatch s))) |> setF Fld.RED_STATUS_synced (b2n (synced s))
    |> setF Fld.RED_STATUS_eligible (b2n (redEligible s)) |> setF Fld.RED_STATUS_hb_ok (b2n (s.red.heard.isSome && !s.red.lost))
    |> whenT failed (latch Fld.RED_EVENT_sync_fail)

/-! ### Resigning (R516, R517) -/

/-- The side gives up the role, with the cause's bit of RED_CAUSE. -/
def resign (cause : Nat) (s : State) : State :=
  if redRole s ≠ Rd.active then s
  else
    s |> setRole Rd.resigned |> resignOut false |> latch Fld.RED_EVENT_resign |> count Reg.RED_RESIGNS
      |> record 0x71 [cause, s.getF Fld.RED_STATUS_role_gen] |> modRed (fun r => { r with extra := r.extra + 1 })

/-! ### Withdrawal (R519) -/

/-- The directions on which the side hears its neighbours: its up directions, or while withdrawn those with a line on
which a BEACON came within the last 305 µs. -/
def sideDir (s : State) (d : Nat) : Bool :=
  if s.on Fld.RED_STATUS_withdrawn then
    (dirLines d).any (fun n => (s.line n).link && (match (s.line n).rx with
      | some r => decide ((s.stamp + 2 ^ 32 - r.2.1) % 2 ^ 32 ≤ 2440000)
      | none => false))
  else dirUp s d

def rejoin (s : State) : State :=
  if !s.on Fld.RED_STATUS_withdrawn then s
  else
    let s := setF Fld.RED_STATUS_withdrawn 0 s
    each (List.range 4) (fun n t => if (t.line n).link ∧ spireOn t then t |> freshExchange n |> linkUpBeacon n else t) s

def withdrawSide (s : State) : State :=
  let s := if redRole s = Rd.active then s |> latchBits Fld.RED_CAUSE_cause (2 ^ 8) |> resign 8 else s
  let ups := (List.range 4).filter (isUp s)
  let s := s |> each ups (sendBeacon true false) |> setF Fld.RED_STATUS_withdrawn 1 |> latch Fld.RED_EVENT_withdraw
  each ups (fun n t => dropLine n Ln.lost 3 t) s

def judgeWithdraw (l : List Byte) (s : State) : State :=
  let own := [sideDir s 0, sideDir s 1]
  let peer := [hbDirUp l 0, hbDirUp l 1]
  let k := fun (x : List Bool) => (x.filter (fun b => b)).length
  if s.on Fld.RED_STATUS_withdrawn then (if own = peer then rejoin s else s)
  else if !spireOn s then s
  else if k own < k peer ∨ (k own = k peer ∧ own ≠ peer ∧ redRole s ≠ Rd.active) then withdrawSide s
  else s

/-! ### Claiming (R505, R513, R515) -/

/-- A claim begins at the given cycle; cause as in the TAKEOVER record. -/
def beginClaim (cause at_ : Nat) (noWait : Bool) (s : State) : State :=
  let e := if s.red.resignIn ∨ noWait then none else some (at_ + s.getF Fld.RED_TIMING_claim_wait_us * cyclesPerUs)
  s |> setRole Rd.claiming |> resignOut true |> modRed (fun r => { r with claimAt := at_, cause := cause, waitEnd := e, startAt := none })

/-- The side becomes ACTIVE. -/
def becomeActive (s : State) : State :=
  let c := s.red.cause
  let gen := (s.getF Fld.RED_PEER_role_gen + 1) % 256
  let s := s |> setRole Rd.active |> setF Fld.RED_STATUS_role_gen gen |> latch Fld.RED_EVENT_takeover |> count Reg.RED_TAKEOVERS
    |> record 0x70 [gen, c] |> setR Reg.RED_ROLE_AGE 0
  let s := modRed (fun r => { r with waitEnd := none, extra := r.extra + 1, activeSince := (s.reg Reg.LKT_OPSEC).toNat, overdue := false }) s
  let s := match s.red.swap with
    | some (k, ph) => if c = 3 then
        s |> latch Fld.RED_EVENT_swap_done |> count Reg.RED_SWAPS |> record 0x73 ([1] ++ dle 4 k ++ dle 4 ph)
          |> modRed (fun r => { r with swap := none })
      else s
    | none => s
  rejoin s

/-- When a standby that is eligible begins a claim because RESIGN_IN has been high for 2 µs (R513). -/
def dueClaim (s : State) : Option Nat :=
  if redRole s = Rd.standby ∧ s.red.resignIn ∧ redEligible s then some (s.red.inSince + twoUs) else none

/-- What follows from the levels and the passing of time, at the end of a command (R513, R518). -/
def settleRed (s : State) : State :=
  let s := if redRole s = Rd.resigned ∧ !s.red.resignIn then
      s |> setRole Rd.standby |> setF Fld.RED_CAUSE_cause (s.getF Fld.RED_CAUSE_cause % 2 ^ 8)
    else s
  let s := match dueClaim s with
    | some t => if t ≤ s.cycle then beginClaim 0 s.cycle false s else s
    | none =>
      if redRole s = Rd.standby ∧ s.red.resignIn ∧ s.red.inSince + twoUs ≤ s.cycle ∧ !s.red.told then
        s |> latch Fld.RED_EVENT_takeover |> modRed (fun r => { r with told := true })
      else s
  showRed s

/-- CLAIM_CONFIRM: RESIGN_IN has been high for 2 µs of the claim. -/
def claimConfirm (s : State) : State :=
  let s := match dueClaim s with
    | some t => s |> advanceTo t |> beginClaim 0 (max t s.cycle) false
    | none => s
  if redRole s = Rd.claiming ∧ s.red.waitEnd = none ∧ s.red.resignIn then
    s |> advanceTo (max s.red.claimAt s.red.inSince + twoUs) |> becomeActive
  else s

/-- RESIGN_IN rises (R23). -/
def isRelease (i : Instr) : Bool :=
  match i with
  | .resignInChange level _ => level
  | _ => false

/-- CLAIM_WAIT_EXPIRY: RESIGN_IN is read at the end of the wait. -/
def claimWaitExpiry (s : State) : State :=
  match s.red.waitEnd with
  | none => s
  | some e =>
    if redRole s ≠ Rd.claiming then s
    else
      let s := s |> advanceTo e |> modRed (fun r => { r with waitEnd := none })
      if s.red.resignIn ∨ inTime isRelease s then s
      else if sideB s then
        s |> resignOut false |> setRole Rd.standby |> count Reg.RED_CONFLICTS |> latch Fld.RED_EVENT_conflict
      else becomeActive s

/-- RESIGN_IN_CHANGE: a fall during the confirmation goes back to the claim wait. -/
def resignInChange (level : Bool) (s : State) : State :=
  if level = s.red.resignIn then s
  else
    let s := s |> modRed (fun r => { r with resignIn := level, inSince := s.cycle, told := false }) |> whenT level (inCycles twoUs .resignLook)
    if !level ∧ redRole s = Rd.claiming ∧ s.red.waitEnd = none then
      modRed (fun r => { r with waitEnd := some (s.cycle + s.getF Fld.RED_TIMING_claim_wait_us * cyclesPerUs) }) s
    else s

/-- The boot image has ended: the claim of R507 is due, at side B of a pair after 500 µs. -/
def redBooted (s : State) : State :=
  let t := s.cycle + (if paired s ∧ sideB s then 500 * cyclesPerUs else 0)
  modRed (fun r => { r with startAt := some t, nextAt := s.cycle, heard := none }) s

/-- START_CLAIM. -/
def startClaim (s : State) : State :=
  match s.red.startAt with
  | none => s
  | some t =>
    if redRole s ≠ Rd.none then modRed (fun r => { r with startAt := none }) s
    else
      let s := s |> advanceTo t |> modRed (fun r => { r with startAt := none })
      if !paired s ∨ s.red.resignIn then beginClaim 2 s.cycle false s else setRole Rd.standby s

/-- PEER_DEMAND: RESIGN_IN has been low for 2 µs at an ACTIVE side (R506). -/
def peerDemand (s : State) : State :=
  if redRole s = Rd.active ∧ !s.red.resignIn then s |> advanceTo (s.red.inSince + twoUs) |> trigger 9 else s

/-! ### Proof swaps (R520 to R523) -/

def cancelSwap (s : State) : State :=
  match s.red.swap with
  | none => s
  | some (k, ph) => s |> record 0x73 ([2] ++ dle 4 k ++ dle 4 ph) |> modRed (fun r => { r with swap := none })

/-- The first passing of RED_SWAP.phase at least 1 ms from now, as a position of PD0. -/
def swapPosition (s : State) : Nat :=
  let from_ := position s 0 + phaseOfNs s 0 1000000
  let ph := (s.reg Reg.RED_SWAP).toNat
  ((if from_ % 2 ^ 32 ≤ ph then from_ / 2 ^ 32 else from_ / 2 ^ 32 + 1) % 2 ^ 32) * 2 ^ 32 + ph

def requestSwap (s : State) : State :=
  if redRole s ≠ Rd.active ∨ !s.on Fld.RED_PEER_eligible ∨ lockState s 0 ≠ Lk.locked ∨ s.red.swap.isSome then s
  else
    let p := swapPosition s
    s |> record 0x73 ([0] ++ dle 4 (p / 2 ^ 32) ++ dle 4 (p % 2 ^ 32)) |> modRed (fun r => { r with swap := some (p / 2 ^ 32, p % 2 ^ 32) })

/-- SWAP_INSTANT: the active side resigns, the standby claims without claim wait. -/
def swapInstant (s : State) : State :=
  match s.red.swap with
  | none => s
  | some (k, ph) =>
    let s := match cyclesTo s 0 (k * 2 ^ 32 + ph) with
      | some n => advance n s
      | none => s
    if redRole s = Rd.active then
      s |> trigger 11 |> latch Fld.RED_EVENT_swap_done |> count Reg.RED_SWAPS |> record 0x73 ([1] ++ dle 4 k ++ dle 4 ph)
        |> modRed (fun r => { r with swap := none })
    else if redRole s = Rd.standby then beginClaim 3 s.cycle true s
    else modRed (fun r => { r with swap := none }) s

def swapOverdue (s : State) : State :=
  let h := s.getF Fld.RED_SWAP_AUTO_warn_h
  if h = 0 ∨ s.red.overdue ∨ (s.reg Reg.RED_ROLE_AGE).toNat < h * 3600 then s
  else s |> latch Fld.RED_EVENT_swap_overdue |> modRed (fun r => { r with overdue := true })

/-- AUTO_SWAP: the peer has been without the role for as long as this side has held it. -/
def autoSwap (s : State) : State :=
  let h := s.getF Fld.RED_SWAP_AUTO_interval_h
  if h = 0 ∨ redRole s ≠ Rd.active ∨ (s.reg Reg.LKT_OPSEC).toNat < s.red.activeSince + h * 3600 then s else requestSwap s

/-! ### RED_CMD (R516, R517, R521) -/

def redResignCmd (v : Nat) (s : State) : State := if bit v 0 ∧ redRole s = Rd.active then trigger 10 s else s
def redSwapCmd (v : Nat) (s : State) : State := if bit v 1 then requestSwap s else s

def redClaimCmd (v : Nat) (s : State) : State :=
  if bit v 2 ∧ !paired s ∧ s.getF Fld.RED_CAUSE_cause % 2 ^ 8 = 0 ∧ redRole s ≠ Rd.active ∧ redRole s ≠ Rd.claiming then
    beginClaim 4 s.cycle false s
  else s

def redCmd (v : Nat) (s : State) : State := s |> redResignCmd v |> redSwapCmd v |> redClaimCmd v

/-! ### Heartbeats (R508, R509) -/

/-- COUNT bytes 16 to 43 of a held summary (R85); zeros when none is held. -/
def sumBytes (o : Option Summary) : List Byte :=
  match o with
  | none => zeros 28
  | some h => be 8 h.origin ++ [byte h.hops, byte h.maxEpoch] ++ zeros 2 ++ be 4 h.delay ++ be 4 h.digest ++ be 8 h.lead

def sumOf (l : List Byte) (k : Nat) : Option Summary :=
  if beAt l (k + 8) 1 = 0 then none
  else some { origin := beAt l k 8, hops := beAt l (k + 8) 1, maxEpoch := beAt l (k + 9) 1, delay := beAt l (k + 12) 4,
              digest := beAt l (k + 16) 4, lead := beAt l (k + 20) 8, overflow := false }

def graceLeftUs (s : State) : Nat :=
  match s.spr.graceEnd with
  | some e => ceilDiv (e - s.cycle) cyclesPerUs
  | none => 0

def heartbeat (s : State) : List Byte :=
  let sw := s.red.swap.getD (0, 0)
  let st := b2n (sideB s) + 2 * redRole s + 16 * b2n (redEligible s) + 32 * b2n (s.on Fld.RED_STATUS_withdrawn) + 64 * b2n s.red.swap.isSome
  let lines := b2n (graceOn s) + 2 * s.spr.refDir + 8 * b2n (sideDir s 0) + 16 * b2n (sideDir s 1) + 32 * s.getF Fld.SPR_STATUS_ref
  let l := [byte 1, byte st] ++ be 2 s.red.seq ++ be 8 s.nodeId ++ be 4 (s.reg Reg.RED_CFG_TAG).toNat ++ be 4 (s.reg Reg.ROL_IMG_GEN).toNat ++
    [byte (liveEpoch s), byte (prevEpoch s), byte (liveTnn s), byte (liveN s)] ++ be 4 (liveDigest s) ++ be 2 (min 65535 (graceLeftUs s)) ++
    [byte lines, byte (s.getF Fld.RED_STATUS_role_gen)] ++ be 4 sw.1 ++ be 4 sw.2 ++
    be 2 ((s.dir 0).seq.getD 0) ++ be 2 ((s.dir 1).seq.getD 0) ++ sumBytes (s.dir 0).held ++ sumBytes (s.dir 1).held ++
    (List.range 64).map (fun t => byte (s.reg (Reg.EPO_MAP t)).toNat) ++ be 4 (s.getF Fld.RED_CAUSE_cause) ++ zeros 84
  l ++ be 4 (crc32c l)

/-- HEARTBEAT_SEND: an extra one that is owed, else the periodic one at its instant. -/
def heartbeatSend (s : State) : State :=
  let s := if 0 < s.red.extra then modRed (fun r => { r with extra := r.extra - 1 }) s
    else
      let s := advanceTo s.red.nextAt s
      modRed (fun r => { r with nextAt := s.cycle + 250 * cyclesPerUs }) s
  let s := modRed (fun r => { r with seq := (r.seq + 1) % 2 ^ 16 }) s
  emitOut (.heartbeat (heartbeat s)) s

/-- The loss of heartbeats (R509, R513). -/
def declareLoss (s : State) : State :=
  let was := redEligible s
  let s := s |> modRed (fun r => { r with lost := true, differ := 0 }) |> setF Fld.RED_STATUS_hb_ok 0 |> count Reg.RED_HB_LOSS
    |> latch Fld.RED_EVENT_hb_loss
  if redRole s = Rd.standby then (if was then beginClaim 1 s.cycle false s else latch Fld.RED_EVENT_takeover s) else s

/-- A heartbeat is valid (R509). -/
def validHeartbeat (l : List Byte) : Bool := decide (l.length = 256) && beAt l 0 1 == 1 && beAt l 252 4 == crc32c (l.take 252)

/-- A valid heartbeat that ends in the cycle of the loss (R23). -/
def isHeartbeat (i : Instr) : Bool :=
  match i with
  | .heartbeatReceive l _ => validHeartbeat l
  | _ => false

/-- HEARTBEAT_LOSS. -/
def heartbeatLoss (s : State) : State :=
  if s.red.heard.isNone ∨ s.red.lost then s
  else
    let t := advanceTo (s.red.heardAt + hbLossCycles s) s
    if inTime isHeartbeat t then t else declareLoss t

/-- The peer's numbering is adopted, all of it in one cycle, that of the heartbeat (R511). A node in COMPAT adopts it and stays there: R113 and R120 name the
only ways out (DEDUCED, assumption log 151). -/
def adopt (l : List Byte) (s : State) : State :=
  let s := endGrace s
  let s := modSpr (fun x => { x with prevTnn := liveTnn s, prevDigest := liveDigest s, refDir := beAt l 30 1 / 2 % 4, accepted := none,
                                     fwd := none, changePending := false }) s
  let s := s |> setF Fld.SPR_EPOCH_live (beAt l 20 1) |> setF Fld.SPR_EPOCH_previous (beAt l 21 1)
    |> setF Fld.SPR_STATUS_tnn (beAt l 22 1) |> setF Fld.SPR_STATUS_n (beAt l 23 1) |> setR Reg.SPR_DIGEST (beAt l 24 4)
    |> setF Fld.SPR_STATUS_ref (b2n (bit (beAt l 30 1) 5)) |> setF Fld.EPO_STATUS_pending 0 |> setF Fld.EPO_STATUS_switch_pending 0
    |> each (List.range 64) (fun t u => u |> setR (Reg.EPO_MAP t) (beAt l (100 + t) 1) |> showId (Reg.EPO_ROSTER_LO t) (Reg.EPO_ROSTER_HI t) 0)
  let fill := fun (u : State) =>
    let r := u.spr.refDir
    let o := if r = 0 then (if dirUp u 0 then 1 else 2) else 3 - r
    u |> fillRoutes (liveTnn u) (liveN u) r o |> setF Fld.EPO_STATUS_live_bank (1 - liveBank u)
  let s := whenT (s.on Fld.EPO_CTRL_auto_route) (fun u => fill (fill u)) s
  let s := s |> modDir 0 (fun x => { x with held := sumOf l 44, seq := some (beAt l 40 2) })
    |> modDir 1 (fun x => { x with held := sumOf l 72, seq := some (beAt l 42 2) })
  let s := if bit (beAt l 30 1) 0 then
      s |> beginGrace |> modSpr (fun x => { x with graceEnd := some (s.cycle + beAt l 28 2 * cyclesPerUs) })
    else s
  s |> whenT (fsm s != Fsm.compat) (setFsm Fsm.stable) |> judgeDirs |> record 0x72 [beAt l 20 1, beAt l 22 1 % 64, beAt l 23 1 % 64]
    |> modRed (fun r => { r with differ := 0 })

/-- R511: whether this heartbeat leads to adoption. -/
def judgeAdopt (l : List Byte) (s : State) : State :=
  if redRole s = Rd.active ∨ hbRole l ≠ Rd.active ∨ !spireOn s then modRed (fun r => { r with differ := 0 }) s
  else
    let differs := beAt l 20 1 != liveEpoch s || !mapMatch s l
    let n := if differs then s.red.differ + 1 else 0
    let s := modRed (fun r => { r with differ := n }) s
    if fsm s = Fsm.switch then s
    else if 2 ≤ n ∨ (fsm s ≠ Fsm.stable ∧ fsm s ≠ Fsm.compat) then adopt l s
    else s

/-- A COUNT seq is raised to at least the peer's (R519). -/
def raiseSeq (d q : Nat) (s : State) : State :=
  modDir d (fun x => { x with seq := match x.seq with
    | none => some q
    | some p => some (if serialLater 16 q p then q else p) }) s

/-- HEARTBEAT_RECEIVE. -/
def heartbeatReceive (l : List Byte) (s : State) : State :=
  if !validHeartbeat l then count Reg.RED_HB_BAD s
  else
    -- a loss that has passed is declared first; the heartbeat is then late (R24)
    let s := if s.red.heard.isSome ∧ !s.red.lost ∧ s.red.heardAt + hbLossCycles s < s.cycle then declareLoss s else s
    let s := whenT s.red.lost (count Reg.RED_HB_LATE) s
    let s := modRed (fun r => { r with heard := some l, heardAt := s.cycle, lost := false }) s
    let st := beAt l 1 1
    let s := s |> setF Fld.RED_PEER_live (beAt l 20 1) |> setF Fld.RED_PEER_role_gen (beAt l 31 1) |> setF Fld.RED_PEER_tnn (beAt l 22 1)
      |> setF Fld.RED_PEER_dir1_up (b2n (hbDirUp l 0)) |> setF Fld.RED_PEER_dir2_up (b2n (hbDirUp l 1))
      |> setF Fld.RED_PEER_eligible (b2n (bit st 4)) |> setF Fld.RED_PEER_role (hbRole l)
    let s := whenT (!(idMatch s l && tagMatch s l)) (latch Fld.RED_EVENT_sync_fail) s
    let s := s |> raiseSeq 0 (beAt l 40 2) |> raiseSeq 1 (beAt l 42 2)
    let s := if redRole s = Rd.active then s
      else if bit st 6 ∧ hbRole l = Rd.active then modRed (fun r => { r with swap := some (beAt l 32 4, beAt l 36 4) }) s
      else if redRole s = Rd.claiming then s
      else modRed (fun r => { r with swap := none }) s
    s |> judgeAdopt l |> whenT (paired s) (judgeWithdraw l)

end Sys2Proof.Machine
end

