-- ==== Sys2Proof/Machine/Power.lean ====
section
/-! DEFINITION. Locket's commands (chapter 18), the monitors (R38 to R44), pins, straps, resets and the first steps of
start-up (chapter 19). -/
namespace Sys2Proof.Machine

def modLkt (f : Locket → Locket) (s : State) : State := { s with lkt := f s.lkt }
def modPwr (f : Power → Power) (s : State) : State := { s with pwr := f s.pwr }

/-! ### Flash programs and erases (R534, R535) -/

/-- What goes on once no page is being programmed. -/
def flashGoesOn (s : State) : State :=
  let s := s |> settleFreeze |> drainHolding
  let s := whenT (s.on Fld.LKT_STATUS_pfail && !s.lkt.staging.isEmpty) (modLkt (fun l => { l with commitLeft := l.staging.length })) s
  s |> startPage |> resumeErase

/-- PAGE_PROGRAM_DONE. The records of a failed page stay uncommitted and are programmed again at the next sector. -/
def pageProgramDone (ok zeroOk : Bool) (s : State) : State :=
  match s.lkt.page with
  | none => s
  | some pg =>
    if ok then s |> pageDone pg |> flashGoesOn
    else
      s |> flashFailed pg.slot pg.count zeroOk |> modLkt (fun l => { l with page := none })
        |> moveWrite (128 - s.lkt.wrSlot % 128) |> flashGoesOn

/-- ERASE_DONE. The log loses the sector's records; a failed erase leaves none either. -/
def eraseDone (ok zeroOk : Bool) (s : State) : State :=
  match s.lkt.erase with
  | none => s
  | some sec =>
    if s.lkt.suspended then s
    else
      let s := if ok then modLkt (fun l => { l with log := l.log.filter (fun p => p.1 / 128 != sec) }) s else flashFailed (128 * sec) 128 zeroOk s
      let next := s.lkt.eraseNext
      let s := modLkt (fun l => { l with erase := none, eraseNext := [], suspending := false, suspended := false }) s
      s |> each next eraseSector |> showLog |> flashGoesOn

/-- ERASE_SUSPENDED. -/
def eraseSuspended (s : State) : State :=
  if s.lkt.erase.isSome ∧ s.lkt.suspending ∧ !s.lkt.suspended then
    s |> modLkt (fun l => { l with suspended := true }) |> startPage |> resumeErase
  else s

/-! ### Power failure (R536) -/

def powerFail (s : State) : State :=
  let was := s.on Fld.LKT_STATUS_pfail
  let s := setF Fld.GLB_PINS_pfail_n 0 s
  if was ∨ s.pwr.stage = .pll ∨ s.pwr.stage = .memory ∨ s.pwr.stage = .locket then s
  else
    let n := s.lkt.staging.length + s.lkt.holding.length
    let s := s |> setF Fld.LKT_STATUS_pfail 1 |> latch Fld.LKT_EVENT_pfail |> record 0x02 (dle 2 (min n 0xFFFF))
    let s := whenT (s.on Fld.LKT_STATUS_frozen || s.on Fld.LKT_STATUS_pending) lapseFreeze s
    s |> whenT s.lkt.erase.isSome askSuspend |> startCommit

def powerRestored (s : State) : State :=
  s |> setF Fld.GLB_PINS_pfail_n 1 |> setF Fld.LKT_STATUS_pfail 0 |> resumeErase

/-! ### Freezing and reading (R537, R538) -/

/-- LKT_CTRL was written. -/
def lktCtrl (s : State) : State :=
  if s.on Fld.LKT_CTRL_freeze then s |> startFreeze |> settleFreeze
  else if s.on Fld.LKT_STATUS_frozen ∨ s.on Fld.LKT_STATUS_pending then s |> endFreeze 1 |> resumeErase
  else s

def freezeLapse (s : State) : State :=
  if !s.on Fld.LKT_STATUS_frozen then s
  else s |> advanceTo (s.lkt.frozenAt + s.getF Fld.LKT_CTRL_max_freeze_s * cyclesPerS) |> lapseFreeze |> resumeErase

/-- LKT_READ_CTRL was written; a go while a fetch runs is ignored. -/
def recordFetch (v : Nat) (s : State) : State :=
  if bit v 31 ∧ s.lkt.fetch.isNone then
    s |> setF Fld.LKT_READ_STATUS_busy 1 |> modLkt (fun l => { l with fetch := some v })
  else s

/-- The record at a position: of the flash log, or of staging. -/
def recordAt (s : State) (v : Nat) : Option Record :=
  let pos := v % 2 ^ 24
  if bit v 30 then s.lkt.staging[pos]? else ((logRecords s)[pos]?).map (fun p => p.2)

def fetched (s : State) (v : Nat) (ok : Bool) : Nat × Option Record :=
  match recordAt s v with
  | none => (1, none)
  | some r => if !bit v 30 ∧ !ok then (2, none) else (0, some r)

/-- RECORD_FETCH_DONE: `ok`, the flash read succeeds. -/
def recordFetchDone (ok : Bool) (s : State) : State :=
  match s.lkt.fetch with
  | none => s
  | some v =>
    let r := fetched s v ok
    let s := s |> modLkt (fun l => { l with fetch := none }) |> setF Fld.LKT_READ_STATUS_busy 0 |> setF Fld.LKT_READ_STATUS_result r.1
    match r.2 with
    | none => s
    | some x => each (List.range 8) (fun i => setR (Reg.LKT_READ_DATA i) (leAt (recordBytes x) (4 * i) 4)) s

/-! ### Counters (R530, R533) -/

/-- OPERATING_SECOND. -/
def operatingSecond (s : State) : State :=
  if !s.pwr.main then s
  else
    let n := ((s.reg Reg.LKT_OPSEC).toNat + 1) % 2 ^ 32
    let s := setR Reg.LKT_OPSEC n s
    let s := if redRole s = Rd.active then s else setR Reg.RED_ROLE_AGE (((s.reg Reg.RED_ROLE_AGE).toNat + 1) % 2 ^ 32) s
    whenT (s.alive && !s.on Fld.LKT_STATUS_frozen && n % 3600 == 0) routineCopy s

/-! ### Monitors (R39 to R44) -/

/-- GLB_MON_EVENT bits are seen set: those newly latched are recorded together, and the causes trigger; a clock or supply fault
breaks condition 2 of R218. -/
def monitorSees (bits : Nat) (s : State) : State :=
  let new := bits &&& (31 - s.getF ⟨Reg.GLB_MON_EVENT, 0, 5⟩)
  let s := latchBits ⟨Reg.GLB_MON_EVENT, 0, 5⟩ bits s
  let s := whenT (new != 0) (record 0x40 ([new] ++ dle 2 (s.getF Fld.GLB_TEMP_temp) ++ dle 2 (s.reg Reg.GLB_SUPPLY).toNat ++ [(s.reg Reg.GLB_CLK).toNat])) s
  let s := whenT (bit bits 2 || bit bits 3) (modFab (fun x => { x with excused := true })) s
  s |> whenT (bit bits 1) (trigger 4) |> whenT (bit bits 2) (trigger 3) |> whenT (bit bits 3) (trigger 2)

/-- Temperature and supply samples: task 4 of R19. -/
def monitorSample (temp : BitVec 12) (supply : BitVec 9) (s : State) : State :=
  let s := s |> setF Fld.GLB_TEMP_temp temp.toNat |> setR Reg.GLB_SUPPLY supply.toNat
  let warm := decide (s.getI Fld.GLB_TEMP_WARN_warn ≤ temp.toInt)
  monitorSees (b2n warm + 2 * b2n (decide (1240 ≤ temp.toInt)) + 4 * b2n (supply.toNat % 256 != 0) + 16 * b2n (bit supply.toNat 8)) s

/-- GLB_CLK takes a new value; a bit that falls is a clock fault. -/
def clockBits (clk : BitVec 4) (s : State) : State :=
  let old := (s.reg Reg.GLB_CLK).toNat
  let fell := old &&& (15 - clk.toNat)
  s |> setR Reg.GLB_CLK clk.toNat |> whenT (fell != 0) (monitorSees 8)

/-! ### Reset (R556 to R558) -/

/-- The registers that live in the keep-alive island, and GLB_STRAP (R11, R554, R556). -/
def keptWord (a : Nat) : Bool :=
  [Reg.GLB_STRAP, Reg.ROL_KEY_ROT, Reg.RED_ROLE_AGE, Reg.LKT_PART, Reg.LKT_SEQ, Reg.LKT_OPSEC, Reg.LKT_PCC].contains a ||
    (decide (Reg.LKT_BRAM 0 ≤ a) && decide (a ≤ Reg.LKT_BRAM 111))

/-- The PHY reset balls: driven low through reset, after GLB_PHY_RST from the memory step on (R546). -/
def phyPin (k : Nat) : Nat := if k < 6 then Pin.edgePhyRst k else Pin.trunkPhyRst (k - 6)
def phyBit (s : State) (k : Nat) : Bool := bit (s.reg Reg.GLB_PHY_RST).toNat (if k < 6 then k else k + 4)

def drivePhyPins (low : Bool) (s : State) : State :=
  each (List.range 10) (fun k t => emitOut (.pin (phyPin k) (!(low || phyBit t k))) t) s

/-- What the pins that the device drives do as reset begins (R385, R396, R503, R546). -/
def pinsInReset (s : State) : State :=
  s |> resignOut false |> drivePhyPins true
    |> each ((List.range 32).filter (bit (s.getF Fld.DRV_OUT_level))) (fun o t => emitOut (.pin (Pin.drive o) false) t)
    |> each s.sd.mclk (fun p t => emitOut (.clock (Pin.mclk p.1) 0) t)

/-- Records, a pair as one (R529). -/
def heads (l : List Record) : Nat := (l.filter (fun r => r.rtype != 0x0F)).length

/-- The device enters reset. The keep-alive island, the flash, the fuses and the levels at input balls stand, the drive
outputs and modulator clocks go low (R385, R396); everything else takes its reset value, and what staging and the holding FIFO held is lost and counted. -/
def enterReset (s : State) : State :=
  let s := pinsInReset s
  let fails := s.getF Fld.ROL_STATUS_failures
  let pins := (s.reg Reg.GLB_PINS).toNat / 4 * 4
  let r : State := State.reset
  let l := { r.lkt with wrSlot := s.lkt.wrSlot, log := s.lkt.log, erase := s.lkt.erase, eraseNext := s.lkt.eraseNext }
  let l := { l with copy0 := s.lkt.copy0, copy1 := s.lkt.copy1, pattern := s.lkt.pattern,
                    lostAtReset := s.lkt.lostAtReset + heads s.lkt.staging + heads s.lkt.holding }
  let half := s.mac.half.map (fun p => (p.1, { HalfDuplex.idle with carrier := p.2.carrier }))
  { r with pending := s.pending, cycle := s.cycle, out := s.out, draws := s.draws, lkt := l,
           regs := s.regs.filter (fun p => keptWord p.1),
           roles := { r.roles with lockoutEnd := s.roles.lockoutEnd, draws := s.roles.draws },
           mac := { r.mac with half := half },
           pwr := { s.pwr with stage := .reset, pll := false, cpl1Due := none, cpl2Due := none },
           spr := { r.spr with leadRaw := s.spr.leadRaw },
           tim := { r.tim with pinsIn := s.tim.pinsIn },
           lbb := { r.lbb with wanted := s.lbb.wanted },
           red := { r.red with resignIn := s.red.resignIn } }
    |> setF Fld.ROL_STATUS_failures fails |> setR Reg.GLB_PINS pins

/-- Enter reset, unless the device is in it. -/
def hold (s : State) : State := if s.alive then enterReset s else s

/-- The TAP holds the device in reset (R559). -/
def tapHolds (s : State) : Bool :=
  match s.pwr.tap with
  | .extest => true
  | .clamp => true
  | .highz => true
  | _ => false

/-- RESET_ASSERT. With STRAP_PCIE at 0b11, PERST_N is ignored. -/
def resetAssert (pin : ResetPin) (s : State) : State :=
  match pin with
  | .poreset => s |> modPwr (fun p => { p with poresetN := false, sawPoreset := true }) |> hold
  | .perst =>
    if s.getF Fld.GLB_STRAP_pcie = 3 then modPwr (fun p => { p with perstN := false }) s
    else s |> modPwr (fun p => { p with perstN := false, sawPerst := true }) |> hold

/-- CLOCK_FAULT: a fault that stops the core PLL holds the device in reset. -/
def clockFault (clk : BitVec 4) (s : State) : State :=
  if !s.alive ∨ s.pwr.stage = .pll then s
  else
    let s := if s.pwr.stage = .memory then s else clockBits clk s
    if bit clk.toNat 0 then s else s |> modPwr (fun p => { p with sawPll := true }) |> hold

/-- The island has lost its state: its words are open values until the next start-up restores them (R532, R554). -/
def islandLost (s : State) : State :=
  let free := fun (f : Fld) (t : State) => let d := drawFree t; setF f d.1 d.2
  let words := [Fld.LKT_OPSEC_count, Fld.LKT_PCC_count, Fld.LKT_SEQ_seq, Fld.ROL_KEY_ROT_count, Fld.RED_ROLE_AGE_seconds,
    Fld.ROL_STATUS_failures, Fld.LKT_PART_size_log] ++ (List.range 112).map Fld.LKT_BRAM_word
  let s := each words free s
  { s with lkt := { s.lkt with pattern := false, lostAtReset := 0 }, roles := { s.roles with lockoutEnd := none } }

/-- MAIN_POWER_LOSS: `vbak`, the cell keeps the island. -/
def mainPowerLoss (vbak : Bool) (s : State) : State :=
  s |> modPwr (fun p => { p with main := false, sawPower := true }) |> hold |> whenT (!vbak) islandLost

/-- A rising edge of PORESET_N, or what counts as one: the straps are sampled, and management ticks count from here. -/
def sampleStraps (straps : BitVec 13) (s : State) : State :=
  { s with cycle := 0, pwr := { s.pwr with straps := straps, sincePor := 0 } } |> setR Reg.GLB_STRAP straps.toNat

/-- MAIN_POWER_ON: LKT_PCC counts. While PORESET_N is high the end of the internal hold counts as its edge. -/
def mainPowerOn (straps : BitVec 13) (s : State) : State :=
  if s.pwr.main then s
  else
    let s := s |> modPwr (fun p => { p with main := true }) |> setR Reg.LKT_PCC (((s.reg Reg.LKT_PCC).toNat + 1) % 2 ^ 32)
    whenT s.pwr.poresetN (sampleStraps straps) s

/-- PORESET_RISING_EDGE. -/
def poresetRisingEdge (straps : BitVec 13) (s : State) : State :=
  if s.pwr.poresetN then s
  else s |> modPwr (fun p => { p with poresetN := true }) |> sampleStraps straps

/-- Reset values that the straps decide (R548). -/
def applyStraps (s : State) : State :=
  let role := let r := s.getF Fld.GLB_STRAP_role; if r = 3 then 0 else r
  let safe := let v := s.getF Fld.GLB_STRAP_safe % 4; if v = 3 then 0 else v
  s |> setF Fld.ILG_STATUS_role role |> each [0, 1] (fun g => setF (Fld.ILG_PORT_CTRL_enable g) (b2n (role != 0)))
    |> setF Fld.RED_CTRL_side (s.getF Fld.GLB_STRAP_side)
    |> each (List.range 4) (fun n => setF (Fld.TPT_MODE_speed n) (s.getF Fld.GLB_STRAP_trunk))
    |> setF Fld.SPR_CTRL_compat (s.getF Fld.GLB_STRAP_spire)
    |> each (List.range 32) (fun o => setF (Fld.DRV_CFG_safe o) safe)
    |> each (List.range 4) (fun g => setF (Fld.SNS_MCLK_CFG_enable g) (s.getF Fld.GLB_STRAP_safe / 4))

/-- What follows the role in the hierarchy at reset (R480, R487, R496, R497). -/
def ilgilAtReset (s : State) : State :=
  if isManager s then s |> setF Fld.ILG_STATUS_manager_reachable 1 |> each ((List.range 7).map (· + 1)) judgeWorker
  else if isWorker s then s |> setF Fld.ILG_STATUS_index 15 |> setF Fld.ILG_STATUS_quarantine 1
  else s

/-- GLB_RESET_INFO (R557, R565). -/
def loadResetInfo (s : State) : State :=
  let p := s.pwr
  let cause := if p.sawPower then 0 else if p.sawPoreset ∨ p.sawPerst then 1 else 2
  s |> setF Fld.GLB_RESET_INFO_pll (b2n p.sawPll) |> setF Fld.GLB_RESET_INFO_perst_n (b2n p.sawPerst)
    |> setF Fld.GLB_RESET_INFO_poreset_n (b2n p.sawPoreset) |> setF Fld.GLB_RESET_INFO_power (b2n p.sawPower)
    |> setF Fld.GLB_RESET_INFO_cause cause

/-- The cost of the present count of failures, in seconds (R58). -/
def lockoutSeconds (f : Nat) : Nat := min (2 ^ (f - 1)) 64

def modRoles (f : Roles → Roles) (s : State) : State := { s with roles := f s.roles }
def restartClock (s : State) : State := { s with cycle := 0 }
def stopTime (s : State) : State := { s with time := 0, doms := [] }

/-- The clock at the end of a reset: CCLK cycles count anew, and those before it are kept from PORESET_N. -/
def clockAtReset (straps : BitVec 13) (s : State) : State :=
  let s := if s.pwr.poresetN then s |> modPwr (fun p => { p with sincePor := p.sincePor + s.cycle }) |> restartClock
    else poresetRisingEdge straps s
  s |> stopTime |> modPwr (fun p => { p with stage := .pll, perstN := true })

/-- What a reset leaves running: the lockout, and the management tick (R18, R58). -/
def timersAtReset (s : State) : State :=
  let lock := s.roles.lockoutEnd.map (fun _ => lockoutSeconds (s.getF Fld.ROL_STATUS_failures) * cyclesPerS)
  s |> modRoles (fun r => { r with lockoutEnd := lock }) |> modFab (fun x => { x with tickNo := s.pwr.sincePor / cyclesPerTick })

/-- RESET_END: the reset pins that are low rise and PLL lock returns, and no other reset condition holds. -/
def resetEnd (straps : BitVec 13) (s : State) : State :=
  if s.alive ∨ !s.pwr.main ∨ tapHolds s then s
  else
    let s := s |> clockAtReset straps |> applyStraps |> loadResetInfo |> ilgilAtReset
      |> modPwr (fun p => { p with sawPower := false, sawPoreset := false, sawPerst := false, sawPll := false }) |> timersAtReset
    s |> setF Fld.SPR_STATUS_lead (b2n s.spr.leadRaw) |> setF Fld.GLB_PINS_lead_raw (b2n s.spr.leadRaw)
      |> setF Fld.GLB_PINS_cpl1 (s.getF Fld.GLB_PINS_cpl1_raw) |> setF Fld.GLB_PINS_cpl2 (s.getF Fld.GLB_PINS_cpl2_raw)

/-! ### Start-up to the memory step (R560) -/

/-- PLL_LOCK. -/
def pllLock (s : State) : State :=
  if s.pwr.stage = .pll then s |> modPwr (fun p => { p with stage := .memory, pll := true }) |> setF Fld.GLB_CLK_cclk_lock 1 else s

/-- The MAC address base (R36); a blank field takes the check value of the fused identity. -/
def macBase : Nat :=
  if Config.fusedMac = 0 then 2 * 2 ^ 40 + crc32c (be 8 Config.fusedUid.toNat) * 2 ^ 8 else Config.fusedMac.toNat

/-- MEMORY_STEP_DONE: fuses, first samples, PHY resets. -/
def memoryStepDone (temp : BitVec 12) (supply : BitVec 9) (clk : BitVec 4) (s : State) : State :=
  if s.pwr.stage ≠ .memory then s
  else
    s |> modPwr (fun p => { p with stage := .locket }) |> whenT s.pwr.sawPower loadResetInfo
      |> setR Reg.GLB_UID_LO (Config.fusedUid.toNat % 2 ^ 32) |> setR Reg.GLB_UID_HI (Config.fusedUid.toNat / 2 ^ 32)
      |> setR Reg.GLB_MAC_BASE_LO (macBase % 2 ^ 32) |> setR Reg.GLB_MAC_BASE_HI (macBase / 2 ^ 32)
      |> clockBits clk |> monitorSample temp supply |> drivePhyPins false

/-- GLB_PHY_RST was written over `old`: the balls follow from the memory step on, and the ports of a reset that is
asserted lose their links (R546). -/
def phyResetWritten (old : Nat) (s : State) : State :=
  if s.pwr.stage = .pll ∨ s.pwr.stage = .memory then s
  else
    let changed := (List.range 10).filter (fun k => phyBit s k != bit old (if k < 6 then k else k + 4))
    let s := each changed (fun k t => emitOut (.pin (phyPin k) (!phyBit t k)) t) s
    each (changed.filter (phyBit s)) (fun k t =>
      if k < 6 then each ((List.range 8).map (8 * k + ·)) (fun p u => edgeLink p false (u.getF (Fld.EPT_STATUS_speed p)) (u.on (Fld.EPT_STATUS_duplex p)) u) t
      else trunkLinkDown (k - 6) 1 t) s

/-! ### The Locket step (R531, R532, R533, R560) -/

/-- The copy with the higher serial of the two sectors. -/
def newestCopy (s : State) : Option CounterBlock := newestBlock ((newestBlock s.lkt.copy0).toList ++ (newestBlock s.lkt.copy1).toList)

/-- The counters are restored: VBAK was lost. -/
def restoreCounters (works : Bool) (s : State) : State :=
  let copy := if works then newestCopy s else none
  let size := (copy.map (fun b => b.sizeLog)).getD 21
  let s := s |> setF Fld.LKT_PART_size_log size |> setF Fld.LKT_PART_active_log size
  let last := if works then (logRecords s).getLast?.map (fun p => p.2) else none
  let ops := max ((copy.map (fun b => b.opsec)).getD 0) ((last.map (fun r => r.opsec)).getD 0)
  let pcc := max ((copy.map (fun b => b.pcc)).getD 0) ((last.map (fun r => r.pcc)).getD 0) + 1
  let keys := if works then ((s.lkt.copy0 ++ s.lkt.copy1).filter (fun b => b.valid)).foldl (fun m b => max m b.keyRot) 0 else 0
  s |> setR Reg.LKT_OPSEC ops |> setR Reg.LKT_PCC pcc |> setR Reg.ROL_KEY_ROT keys |> setF Fld.ROL_STATUS_failures 7
    |> setR Reg.LKT_SEQ 0 |> setF Fld.LKT_STATUS_continuity 1 |> latch Fld.LKT_EVENT_continuity_lost

/-- The write point: the first erased slot after the newest record, or the start of the next sector where slots that a
failure left behind follow it (R535, R560). -/
def findWritePoint (s : State) : State :=
  match (logRecords s).getLast? with
  | none => modLkt (fun l => { l with wrSlot := 0 }) s
  | some (k, _) =>
    let s := modLkt (fun l => { l with wrSlot := k }) s
    let tail := (List.range (127 - k % 128)).map (fun j => k + 1 + j)
    if tail.all (fun j => (Sparse.find s.lkt.log j).isNone) then moveWrite 1 s else moveWrite (128 - k % 128) s

/-- Erases that a reset cut short begin again. -/
def restartErases (s : State) : State :=
  let l := s.lkt.erase.toList ++ s.lkt.eraseNext
  s |> modLkt (fun x => { x with erase := none, eraseNext := [], suspending := false, suspended := false }) |> each l eraseSector

/-- The Locket step begins with the flash reset sequence, then 4-byte addressing, so both kinds of part work (R562). -/
def resetFlash (s : State) : State := each [0x66, 0x99, 0xB7] (fun op t => emitOut (.flashCommand op) t) s

/-- The work of the Locket step with working flash or without. -/
def locketWork (works : Bool) (s : State) : State :=
  let intact := s.lkt.pattern
  let c0 := works && (newestBlock s.lkt.copy0).isSome
  let c1 := works && (newestBlock s.lkt.copy1).isSome
  let lostN := s.lkt.lostAtReset
  let s := s |> setF Fld.LKT_STATUS_flash_ok (b2n works) |> setF Fld.LKT_PART_active_log (s.getF Fld.LKT_PART_size_log)
  let s := if intact then s else restoreCounters works s
  let s := if works then
      let top := ((logRecords s).getLast?.map (fun p => p.2.seq + 1)).getD 0
      let turn := decide (((newestBlock s.lkt.copy1).map (fun b => b.serial)).getD 0 < ((newestBlock s.lkt.copy0).map (fun b => b.serial)).getD 0)
      s |> setR Reg.LKT_SEQ (max (s.reg Reg.LKT_SEQ).toNat top) |> modLkt (fun l => { l with nextCopy := turn }) |> restartErases |> findWritePoint
        |> showLog
    else s
  let s := record 0x01 ([s.getF Fld.GLB_RESET_INFO_cause] ++ dle 2 (s.reg Reg.GLB_STRAP).toNat ++ dle 2 (min lostN 0xFFFF) ++ [b2n intact]) s
  let s := if intact then s
    else record 0x03 (dle 4 (s.reg Reg.LKT_OPSEC).toNat ++ dle 4 (s.reg Reg.LKT_PCC).toNat ++ [b2n c0 + 2 * b2n c1]) s
  s |> whenT (lostN != 0) (latch Fld.LKT_EVENT_lost) |> modLkt (fun l => { l with pattern := true, lostAtReset := 0 })
    |> whenT (s.on Fld.GLB_RESET_INFO_power) routineCopy

/-! ### The coupler inputs (R545) -/

def cplRaw (c : Nat) : Fld := if c = 0 then Fld.GLB_PINS_cpl1_raw else Fld.GLB_PINS_cpl2_raw
def cplFiltered (c : Nat) : Fld := if c = 0 then Fld.GLB_PINS_cpl1 else Fld.GLB_PINS_cpl2
def cplDue (s : State) (c : Nat) : Option Nat := if c = 0 then s.pwr.cpl1Due else s.pwr.cpl2Due
def setCplDue (c : Nat) (d : Option Nat) (s : State) : State :=
  modPwr (fun p => if c = 0 then { p with cpl1Due := d } else { p with cpl2Due := d }) s

/-- The level of a coupler ball changes. -/
def couplerInput (c : Nat) (level : Bool) (s : State) : State :=
  if s.on (cplRaw c) = level then s
  else
    let s := setF (cplRaw c) (b2n level) s
    if !s.alive then s
    else
      let ms := s.getF Fld.SPR_LEAD_FILT_ms
      if s.on (cplFiltered c) = level then setCplDue c none s
      else if ms = 0 then s |> setCplDue c none |> setF (cplFiltered c) (b2n level)
      else setCplDue c (some (s.cycle + ms * cyclesPerMs)) s

def couplerAccept (c : Nat) (s : State) : State :=
  match cplDue s c with
  | none => s
  | some e => s |> advanceTo e |> setCplDue c none |> setF (cplFiltered c) (s.getF (cplRaw c))

/-! ### The TAP (R559) -/

/-- A new instruction; one that drives the balls holds the device in reset. -/
def tapSet (t : Tap) (s : State) : State :=
  let s := modPwr (fun p => { p with tap := t }) s
  if tapHolds s then hold s else s

/-- IDCODE: version 0x1, part number 0x0048; the manufacturer field is an open value and bit 0 is 1 (IEEE 1149.1). -/
def tapIdcode (s : State) : State :=
  let d := drawFree (tapSet .idcode s)
  emitOut (.tdo (2 ^ 28 + 0x48 * 2 ^ 12 + d.1 % 2 ^ 11 * 2 + 1)) d.2

def tapSample (sampled preload : List Bool) (s : State) : State :=
  let s := s |> tapSet .sample |> modPwr (fun p => { p with boundary := preload })
  emitOut (.tdo (sampled.foldr (fun b n => b2n b + 2 * n) 0)) s

end Sys2Proof.Machine
end

