-- ==== Sys2Proof/Machine/Sequences.lean ====
section
/-! DEFINITION. Start and stop sequences (R25 to R27): enable requests, what each function does as it starts and stops,
forced stops, and the resets of the host interface (R410). The enable bit is the request that is held. -/
namespace Sys2Proof.Machine

/-! ### The fields of each function -/

def fnNum (f : Fn) : Nat :=
  match f with
  | .spire => 0
  | .carillon => 1
  | .canTt => 2
  | .filigree => 3
  | .sense => 4
  | .drive => 5
  | .localBus => 6
  | .edge p => 10 + p.val
  | .trunk n => 60 + n.val
  | .canChannel n => 70 + n.val
  | .ilgil n => 90 + n.val
  | .ring r => 100 + r.val

def fnEnable (f : Fn) : Fld :=
  match f with
  | .spire => Fld.SPR_CTRL_enable
  | .carillon => Fld.CAR_CTRL_enable
  | .canTt => Fld.CAN_TT_CTRL_enable
  | .filigree => Fld.FIL_CTRL_enable
  | .sense => Fld.SNS_CTRL_enable
  | .drive => Fld.DRV_CTRL_enable
  | .localBus => Fld.LBB_CTRL_enable
  | .edge p => Fld.EPT_CTRL_enable p.val
  | .trunk n => Fld.TPT_CTRL_enable n.val
  | .canChannel n => Fld.CAN_CTRL_enable n.val
  | .ilgil n => Fld.ILG_PORT_CTRL_enable n.val
  | .ring r => Fld.RNG_CTRL_enable r.val

def fnState (f : Fn) : Fld :=
  match f with
  | .spire => Fld.SPR_CTRL_state
  | .carillon => Fld.CAR_CTRL_state
  | .canTt => Fld.CAN_TT_CTRL_state
  | .filigree => Fld.FIL_CTRL_state
  | .sense => Fld.SNS_CTRL_state
  | .drive => Fld.DRV_CTRL_state
  | .localBus => Fld.LBB_CTRL_state
  | .edge p => Fld.EPT_CTRL_state p.val
  | .trunk n => Fld.TPT_CTRL_state n.val
  | .canChannel n => Fld.CAN_CTRL_state n.val
  | .ilgil n => Fld.ILG_PORT_CTRL_state n.val
  | .ring r => Fld.RNG_CTRL_state r.val

/-- The completion event of a sequence; Spire has none. -/
def stateDone (f : Fn) (s : State) : State :=
  match f with
  | .spire => s
  | .carillon => latch Fld.CAR_EVENT_state_done s
  | .canTt => latch Fld.CAN_TT_EVENT_state_done s
  | .filigree => latch Fld.FIL_EVENT_state_done s
  | .sense => latch Fld.SNS_EVENT_state_done s
  | .drive => latch Fld.DRV_EVENT_state_done s
  | .localBus => latch Fld.LBB_EVENT_state_done s
  | .edge p => latch (Fld.EPT_EVENT_state_done p.val) s
  | .trunk n => latch (Fld.TPT_EVENT_state_done n.val) s
  | .canChannel n => latch (Fld.CAN_EVENT_state_done n.val) s
  | .ilgil _ => latch Fld.ILG_EVENT_state_done s
  | .ring r => ringEvent Fld.RNG_EVENT_state_done r.val s

/-- Every function, in the order in which they start. -/
def allFns : List Fn :=
  [.spire] ++ (List.finRange 48).map .edge ++ (List.finRange 4).map .trunk ++ [.carillon] ++ (List.finRange 16).map .canChannel ++
    [.canTt, .filigree, .sense, .drive] ++ (List.finRange 64).map .ring ++ [.localBus] ++ (List.finRange 2).map .ilgil

/-- The functions that a quarantined worker holds (R497). -/
def quarantineFns : List Fn :=
  (List.finRange 48).map .edge ++ (List.finRange 16).map .canChannel ++ [.filigree, .carillon, .drive]

/-- A start that is stored without effect, or held: a worker's trunk ports and Spire (R487), the other side's trunk ports
(R502), what a quarantine holds (R497), an Ilgil port of a standalone device (R479). -/
def heldBack (f : Fn) (s : State) : Bool :=
  match f with
  | .spire => isWorker s
  | .trunk n => isWorker s || (paired s && decide (n.val % 2 ≠ b2n (sideB s)))
  | .ilgil _ => decide (s.getF Fld.ILG_STATUS_role = 0)
  | .ring _ => false
  | .canTt => false
  | .sense => false
  | .localBus => false
  | _ => isWorker s && s.on Fld.ILG_STATUS_quarantine

/-! ### Rings (R434) -/

/-- STARTING: type, size and base are latched (R434); the positions shown stand until it ends. -/
def ringStarting (r : Nat) (s : State) : State :=
  let base := (s.reg (Reg.RNG_BASE_HI r)).toNat * 2 ^ 32 + (s.reg (Reg.RNG_BASE_LO r)).toNat
  let x := { Ring.empty with type := s.getF (Fld.RNG_CTRL_type r), sizeLog := s.getF (Fld.RNG_CTRL_size_log r), base := base }
  s |> modHost (fun h => { h with rings := Sparse.put (fun _ => Ring.empty) h.rings r x }) |> setF (Fld.RNG_CTRL_err r) 0

/-- STARTING ends with both positions (0, 0) (R412). -/
def ringStarted (r : Nat) (s : State) : State := setRing r (s.ring r) s

/-- Fetched descriptors that belong to no frame yet, as jobs to abort. -/
def looseJobs (x : Ring) (id : Nat) : List TxJob :=
  if x.fetched.isEmpty then []
  else [{ id := id, slots := (List.range x.fetched.length).zip x.fetched |>.map (fun p => ((x.cons + p.1) % (2 * x.size), p.2)),
          fate := .reading, data := [] }]

/-- STOPPING: a TX ring aborts what it has not read and withdraws its CAN records; an RX ring ends a running stall wait
as an expiry (R425) and drops the copies that wait. -/
def ringStopping (r : Nat) (s : State) : State :=
  let x := s.ring r
  if x.type = 0 then
    let s := canWithdraw r s
    let x := s.ring r
    let loose := looseJobs x s.host.nextJob
    let s := modHost (fun h => { h with nextJob := h.nextJob + 1 }) s
    let s := modRing r (fun y => { (y.take y.fetched.length) with jobs := y.jobs ++ loose }) s
    each (((s.ring r).jobs.filter (fun j => j.fate == .reading)).map (fun j => j.id)) (fun id t => txDoneOpen r id 4 0 t) s
  else
    let s := s |> whenT x.stallEnd.isSome (discardWriting r) |> modRing r (fun y => { y with held := [] })
    each x.held (dropForRing r) s

/-- STOPPING may end: every fetched descriptor is written back, no copy is being written. -/
def ringIdle (r : Nat) (s : State) : Bool := (s.ring r).jobs.isEmpty && (s.ring r).writing.isNone && !s.host.heldWrites.any (fun w => w.1 == r)

/-- The end of STOPPING: a pending interrupt follows the last write-back. -/
def ringStopped (r : Nat) (s : State) : State := s |> whenT ((s.ring r).unannounced != 0) (announce r)

/-! ### What starting and stopping do -/

def startWork (f : Fn) (s : State) : State :=
  match f with
  | .carillon => carStarting s
  | .canTt => ttStarting s
  | .filigree => filStarting s
  | .drive => driveStarting s
  | .localBus => lbbStarting s
  | .canChannel n => canStarting n.val s
  | .ilgil n => ilgStarting n.val s
  | .ring r => ringStarting r.val s
  | .spire => s
  | .edge _ => s
  | .trunk _ => s
  | .sense => s

/-- STARTING may end: the time-triggered unit waits for its channel (R351). -/
def startReady (f : Fn) (s : State) : Bool :=
  match f with
  | .canTt => chanState s s.can.tt.chan == 2
  | _ => true

def startedWork (f : Fn) (s : State) : State :=
  match f with
  | .spire => startSpire s
  | .canChannel n => canStarted n.val s
  | .canTt => ttStarted s
  | .ring r => ringStarted r.val s
  | .ilgil n => ilgStarted n.val s
  | _ => s

/-- A trunk port stops: a leaving BEACON, and the line is declared LOST with cause 5 (R255); its ingress stops at the end of
the frame that is coming in. -/
def trunkStopping (n : Nat) (s : State) : State :=
  let x := s.line n
  let s := modMac (fun m => { m with drainAt := Sparse.ins (Sparse.drop m.drainAt (48 + n)) (48 + n) s.cycle }) s
  let s := whenT (x.link && spireOn s) (sendBeacon true false n) s
  let s := if x.link then dropLine n Ln.lost 5 s else setF (Fld.SPR_LINE_STATUS_cause n) 5 s
  s |> modLine n (fun l => { l with nextAt := none, answer := false }) |> judgeCompat

def stopWork (f : Fn) (s : State) : State :=
  match f with
  | .edge p => modMac (fun m => { m with drainAt := Sparse.ins (Sparse.drop m.drainAt p.val) p.val s.cycle }) s
  | .trunk n => trunkStopping n.val s
  | .carillon => carStopping s
  | .sense => senseStopping s
  | .drive => driveStopping s
  | .localBus => lbbStopping s
  | .ring r => ringStopping r.val s
  | .spire => stoppingSpire s
  | .canTt => s
  | .filigree => s
  | .canChannel _ => s
  | .ilgil n => ilgStopping n.val s

/-- No frame is being received or sent at a port, and no copy remains for it. -/
def portIdle (p : Nat) (s : State) : Bool :=
  (sendingAt s p).isNone && (Sparse.find s.fab.arriving p).isNone && !s.fab.frames.any (fun f => f.2.copies.any (fun y => y.out == p))

/-- STOPPING may end. -/
def stopReady (f : Fn) (s : State) : Bool :=
  match f with
  | .spire => fsm s != Fsm.switch && !waitsFromS s [0, 1, 2, 3]
  | .edge p => portIdle p.val s
  | .trunk n => !waitsFromS s [n.val] && (sendingAt s (48 + n.val)).isNone && (Sparse.find s.fab.arriving (48 + n.val)).isNone
  | .canChannel n => (s.chan n.val).bus.isNone
  | .localBus => lbbIdle s
  | .ring r => ringIdle r.val s
  | .ilgil n => ilgStopReady s n.val
  | _ => true

def stoppedWork (f : Fn) (s : State) : State :=
  match f with
  | .spire => stopSpire s
  | .edge p => s |> modMac (fun m => { m with drainAt := Sparse.drop m.drainAt p.val }) |> edgeDown p.val
  | .trunk n => s |> modMac (fun m => { m with drainAt := Sparse.drop m.drainAt (48 + n.val) }) |> trunkLinkDown n.val 5
  | .canChannel n => canStopped n.val s
  | .canTt => ttStopped s
  | .filigree => filStopped s
  | .localBus => lbbStopped s
  | .ilgil n => ilgStopped n.val s
  | .ring r => ringStopped r.val s
  | .carillon => s
  | .sense => s
  | .drive => s

/-! ### Requests and completions (R26) -/

def beginStart (f : Fn) (s : State) : State :=
  if heldBack f s then s else s |> setF (fnState f) 1 |> startWork f

def beginStop (f : Fn) (s : State) : State := s |> setF (fnState f) 3 |> stopWork f

/-- The boot source in force (R76, R548): 0 flash, 1 host, 2 manager. -/
def bootSource (s : State) : Nat :=
  let b := s.getF Fld.GLB_STRAP_boot
  let b := if b = 2 ∧ s.getF Fld.GLB_STRAP_role ≠ 2 then 1 else b
  if b = 3 ∨ (b = 1 ∧ s.getF Fld.GLB_STRAP_pcie = 3) then 0 else b

/-- Functions run once the boot image has ended (R77). Under manager load the Ilgil ports start before it, since the image
comes through them. -/
def mayRun (f : Fn) (s : State) : Bool :=
  match f with
  | .ilgil _ => s.running || (s.alive && bootSource s == 2 && decide (s.image.boot ≠ .notYet))
  | _ => s.running

/-- The enable bit was written: a request takes effect at once while STATE is OFF or ON, and is held otherwise, and while a
completed state is shown for its cell time. -/
def request (f : Fn) (s : State) : State :=
  if !mayRun f s ∨ awaitsSoon (.shown f) s then s
  else if s.getF (fnState f) = 0 ∧ s.on (fnEnable f) then beginStart f s
  else if s.getF (fnState f) = 2 ∧ !s.on (fnEnable f) then
    beginStop f (match f with
      | .ring r => bellsFirst r.val s
      | _ => s)
  else s

/-- The completed state is shown for one cell time; then the opposite sequence begins if the request held by then asks for
it. -/
def heldRequest (f : Fn) (s : State) : State := inCycles 8 (.shown f) s

def isForced (f : Fn) (s : State) : Bool := s.seqs.forced.contains (fnNum f)
def setForced (f : Fn) (on_ : Bool) (s : State) : State :=
  { s with seqs := { forced := if on_ then s.seqs.forced ++ [fnNum f] else s.seqs.forced.filter (fun n => n != fnNum f) } }

/-- SEQUENCE_COMPLETE. A start with a forced stop behind it goes straight to STOPPING and raises no event (R27). -/
def sequenceComplete (f : Fn) (s : State) : State :=
  if s.getF (fnState f) = 1 ∧ startReady f s then
    let s := s |> setF (fnState f) 2 |> startedWork f
    if isForced f s then s |> setForced f false |> beginStop f
    else s |> stateDone f |> heldRequest f
  else if s.getF (fnState f) = 3 ∧ stopReady f s then
    s |> stoppedWork f |> setF (fnState f) 0 |> stateDone f |> heldRequest f
  else s

/-- A stop forced by the device (R27). -/
def forceStop (f : Fn) (s : State) : State :=
  let s := setF (fnEnable f) 0 s
  if s.getF (fnState f) = 2 then s |> dropSoon (.shown f) |> beginStop f
  else if s.getF (fnState f) = 1 ∧ !isForced f s then setForced f true s
  else s

/-- The device entered or left QUARANTINE (R497). -/
def quarantineChange (entered : Bool) (s : State) : State :=
  if entered then each quarantineFns forceStop s else each quarantineFns request s

/-- The boot image has ended: every enable request takes effect (R77, R560), and the claim of R507 is due. -/
def functionsStart (s : State) : State := s |> each allFns request |> redBooted

/-! ### Host-side resets (R410, R435) -/

/-- The role returns to operator (R53). -/
def roleToOperator (s : State) : State := s |> setF Fld.ROL_STATUS_role 0 |> setF Fld.ROL_IDLE_ticks 0

/-- A ring is cleared with what it held. -/
def ringClear (r : Nat) (s : State) : State :=
  let x := s.ring r
  let s := whenT (x.type == 0) (canWithdraw r) s
  let items := (x.writing.map (fun w => w.item)).toList
  let s := s |> modHost (fun h => { h with waitH := h.waitH.filter (fun w => w.2.1 != r), rings := Sparse.drop h.rings r })
  s |> each items (fun i t => loseItem i Reason.ringDiscard t) |> each x.held (fun i t => loseItem i Reason.ringDrop t)

def inBlock (lo hi a : Nat) : Bool := decide (lo ≤ a) && decide (a < hi)

/-- HST and RNG registers return to their reset values; the link's own state stands. -/
def hostRegsReset (s : State) : State :=
  let link := s.reg Reg.HST_LINK
  { s with regs := s.regs.filter (fun p => !inBlock 0x20000 0x100000 p.1) }.setReg Reg.HST_LINK link

/-- A ring that ran goes through its forced stop with nothing left in it: at once, or once its start has completed (R27). -/
def ringForced (r st : Nat) (s : State) : State :=
  let f := Fn.ring (Fin.ofNat 64 r)
  s |> setF (Fld.RNG_CTRL_err r) 2 |> dropSoon (.shown f) |> setF (fnState f) (if st = 1 then 1 else 3) |> whenT (st == 1) (setForced f true)

/-- A function-level reset, or what acts as one: what the rings hold is cleared, and every ring that runs is force-stopped;
its stop sequence ends with its own completion. -/
def functionReset (s : State) : State :=
  let busy := ((List.range 64).map (fun r => (r, ringState s r))).filter (fun p => p.2 != 0)
  let s := s |> each busy (fun p => ringClear p.1) |> hostRegsReset
  let s := modHost (fun h => { h with unmasked := [], pendingMsix := [], wdogEnd := none, heldWrites := [], heldReads := [], prevCause := 0 }) s
  let s := { s with seqs := { forced := s.seqs.forced.filter (fun n => n < 100) } }
  s |> each busy (fun p => ringForced p.1 p.2) |> setF Fld.HST_LINK_bme 0 |> setF Fld.HST_LINK_msix_en 0
    |> setF Fld.HST_LINK_fn_mask 0 |> roleToOperator

def linkLost (s : State) : State :=
  s |> functionReset |> setF Fld.HST_LINK_up 0 |> setF Fld.HST_LINK_speed 0 |> setF Fld.HST_LINK_width 0 |> latch Fld.HST_EVENT_link_down

/-- BUS_MASTER_CLEAR (R410, R435): the rings stay enabled and every one that is not OFF shows error 2; a copy in progress counts
as having no free slot. No request failed, so no DMA error is latched (DEDUCED, assumption log 175). -/
def busMasterClear (s : State) : State :=
  if !s.on Fld.HST_LINK_bme then s
  else
    s |> setF Fld.HST_LINK_bme 0
      |> each ((List.range 64).filter (fun r => ringState s r != 0)) (fun r t => t |> setF (Fld.RNG_CTRL_err r) 2 |> goOn r)

/-- BUS_MASTER_ENABLE: what waits for it is written and read. -/
def busMasterEnable (s : State) : State :=
  if !s.on Fld.HST_LINK_up then s
  else
    let s := setF Fld.HST_LINK_bme 1 s
    let w := s.host.heldWrites
    let r := s.host.heldReads
    let s := modHost (fun h => { h with heldWrites := [], heldReads := [] }) s
    s |> each w (fun p => emitOut (.hostWrite p.2.1 p.2.2)) |> each r (fun p => readHost p.1 p.2) |> sendHeld |> flushMsix |> each (List.range 64) goOn

end Sys2Proof.Machine
end

