-- ==== Sys2Proof/Machine/Images.lean ====
section
/-! DEFINITION. Roles and unlocking (R52 to R61) and setting images (R70 to R77, R588): their checks, start and end. The
records themselves are applied in Access. -/
namespace Sys2Proof.Machine

def modImage (f : Image → Image) (s : State) : State := { s with image := f s.image }

/-! ### Keys and unlocking (R55 to R58) -/

def rootBytes (k : Nat → Byte) : List Byte := (List.range 32).map k

/-- A derived key: the prefix's four characters and the rotation counter. -/
def derivedKey (s : State) (root : Nat → Byte) (last : Nat) : List Byte :=
  hmacSha256 (rootBytes root) ([byte 0x46, byte 0x57, byte 0x4B, byte last] ++ be 4 (s.reg Reg.ROL_KEY_ROT).toNat)

def installerKey (s : State) : List Byte := derivedKey s Config.installerRoot 0x49
def makerKey (s : State) : List Byte := derivedKey s Config.makerRoot 0x4D
def imageKey (s : State) : List Byte := derivedKey s Config.installerRoot 0x47

def regsLE (f : Nat → Nat) (n : Nat) (s : State) : List Byte := (List.range n).flatMap (fun k => le 4 (s.reg (f k)).toNat)

/-- The response that a role and the nonce ask for (R56). -/
def wantedResponse (s : State) (role : Nat) : List Byte :=
  hmacSha256 (if role = 1 then installerKey s else makerKey s)
    (regsLE Reg.ROL_NONCE 4 s ++ [byte role] ++ be 4 (s.reg Reg.GLB_UID_HI).toNat ++ be 4 (s.reg Reg.GLB_UID_LO).toNat)

def dropNonce (s : State) : State := s |> setF Fld.ROL_STATUS_nonce_valid 0 |> setF Fld.ROL_STATUS_nonce_role 0

/-- ROL_CHALLENGE was written (R57). -/
def challenge (v : Nat) (s : State) : State :=
  let role := v % 4
  if (role = 1 ∨ role = 2) ∧ s.roles.lockoutEnd.isNone then
    let n := (Config.nonce s.roles.draws).toNat
    s |> modRoles (fun r => { r with draws := r.draws + 1, nonceAt := s.cycle })
      |> each (List.range 4) (fun k => setR (Reg.ROL_NONCE k) (n / 2 ^ (32 * k) % 2 ^ 32))
      |> setF Fld.ROL_STATUS_nonce_valid 1 |> setF Fld.ROL_STATUS_nonce_role role
  else s

/-- The nonce is used (R23). -/
def isUnlock (i : Instr) : Bool :=
  match i with
  | .unlock v _ => bit v.toNat 0
  | _ => false

def nonceExpiry (s : State) : State :=
  if !s.on Fld.ROL_STATUS_nonce_valid then s
  else
    let s := advanceTo (s.roles.nonceAt + 60 * cyclesPerS) s
    if inTime isUnlock s then s else dropNonce s

/-- ROL_UNLOCK was written: go consumes the nonce, and the comparison takes 1 µs (R57). -/
def roleUnlock (v : Nat) (s : State) : State :=
  if !bit v 0 then s
  else
    let valid := s.on Fld.ROL_STATUS_nonce_valid
    let role := if valid then s.getF Fld.ROL_STATUS_nonce_role else 0
    let c : Compare := { due := s.cycle + cyclesPerUs, role := role, ok := valid && regsLE Reg.ROL_RESP 8 s == wantedResponse s role }
    s |> dropNonce |> modRoles (fun r => { r with compare := r.compare ++ [c] })

/-- UNLOCK_COMPARE_DONE (R58). A success also ends a lockout that runs, of which the spec says nothing (DESIGN CHOICE, assumption
log 173). -/
def unlockCompareDone (s : State) : State :=
  match s.roles.compare with
  | [] => s
  | c :: rest =>
    let s := s |> advanceTo c.due |> modRoles (fun r => { r with compare := rest })
    let f := s.getF Fld.ROL_STATUS_failures
    if c.ok then
      s |> setF Fld.ROL_STATUS_failures 0 |> modRoles (fun r => { r with lockoutEnd := none }) |> setF Fld.ROL_STATUS_role c.role
        |> setF Fld.ROL_IDLE_ticks 60000 |> record 0x10 [c.role, f]
    else
      let n := min (f + 1) 255
      s |> setF Fld.ROL_STATUS_failures n |> modRoles (fun r => { r with lockoutEnd := some (s.cycle + lockoutSeconds n * cyclesPerS) })
        |> record 0x11 [c.role, n]

def lockoutExpiry (s : State) : State :=
  match s.roles.lockoutEnd with
  | none => s
  | some e => s |> advanceTo e |> modRoles (fun r => { r with lockoutEnd := none })

/-- Seconds of lockout left. -/
def lockoutLeft (s : State) : Nat :=
  match s.roles.lockoutEnd with
  | none => 0
  | some e => min 64 (ceilDiv (e - s.cycle) cyclesPerS)

/-! ### Dropping and lapsing (R59, R60) -/

/-- ROL_DROP was written. -/
def roleDrop (v : Nat) (s : State) : State :=
  if bit v 0 ∧ s.role ≠ 0 then s |> roleToOperator |> record 0x13 [s.role] else s

/-- A host access to BAR0 reloads ROL_IDLE under an elevated role. -/
def touchIdle (s : State) : State := if s.role = 0 then s else setF Fld.ROL_IDLE_ticks 60000 s

/-- Task 4 of R19: the count of a role runs down; at 0 the role lapses. -/
def idleTick (s : State) : State :=
  if s.role = 0 then s else setF Fld.ROL_IDLE_ticks (s.getF Fld.ROL_IDLE_ticks - 1) s

/-- ROLE_LAPSE: the count has reached zero, and no host access falls in the same cycle (R23, R59). -/
def roleLapse (s : State) : State :=
  if s.role ≠ 0 ∧ s.getF Fld.ROL_IDLE_ticks = 0 ∧ !inTime bar0Access s then s |> roleToOperator |> record 0x12 [s.role] |> latch Fld.ROL_EVENT_role_lapse else s

/-! ### Key rotation (R61, R533) -/

/-- ROL_ROTATE was written. Without working flash the rotation is abandoned at once. -/
def keyRotate (v : Nat) (s : State) : State :=
  let c := (s.reg Reg.ROL_KEY_ROT).toNat
  if v ≠ c + 1 ∨ s.on Fld.ROL_STATUS_rotate_busy ∨ !s.on Fld.LKT_STATUS_flash_ok then s
  else s |> setF Fld.ROL_STATUS_rotate_busy 1 |> modRoles (fun r => { r with rotating := some v })

/-- ROTATION_FLASH_DONE: the results of the two programs, the second made only when the first succeeded. -/
def rotationDone (ok0 ok1 : Bool) (s : State) : State :=
  match s.roles.rotating with
  | none => s
  | some v =>
    let old := (s.reg Reg.ROL_KEY_ROT).toNat
    let s := s |> modRoles (fun r => { r with rotating := none }) |> writeBlock false v ok0 |> whenT ok0 (writeBlock true v ok1)
    let s := if ok0 && ok1 then s |> setR Reg.ROL_KEY_ROT v |> record 0x16 (dle 4 old ++ dle 4 v) |> roleToOperator
      else s |> count Reg.LKT_FLASH_ERRORS |> latch Fld.LKT_EVENT_flash_error
    setF Fld.ROL_STATUS_rotate_busy 0 s

/-! ### The checks of an image (R70 to R72) -/

/-- Header fields. -/
def imgLength (l : List Byte) : Nat := beAt l 8 4
def imgGeneration (l : List Byte) : Nat := beAt l 0x0C 4
def imgCrc (l : List Byte) : Nat := beAt l 0x1C 4
def imgBody (l : List Byte) : List Byte := slice (l.drop 64) 0 (imgLength l)

/-- A record of an image: its offset in the body, type, level and length. -/
structure ImgHead where
  pos : Nat
  rtype : Nat
  level : Nat
  len : Nat
  deriving DecidableEq, Repr

def headAt (b : List Byte) (pos : Nat) : ImgHead :=
  { pos := pos, rtype := beAt b pos 1, level := beAt b (pos + 1) 1, len := beAt b (pos + 2) 2 }

/-- An address of a record: 4-byte-aligned, below 0x0100_0000. -/
def addrOk (a : Nat) : Bool := a % 4 == 0 && decide (a < 0x01000000)

/-- A record's form: a known type, its length, its address, its level. -/
def headOk (b : List Byte) (h : ImgHead) : Bool :=
  let a := beAt b (h.pos + 4) 4
  decide (h.level ≤ 1) && decide (h.pos + h.len ≤ b.length) &&
    (if h.rtype = 0 then h.len == 4
     else if h.rtype = 1 then h.len == 16 && addrOk a
     else if h.rtype = 2 then
       let n := beAt b (h.pos + 8) 4
       h.len == 12 + 4 * n && addrOk a && decide (a + 4 * n ≤ 0x01000000)
     else if h.rtype = 3 then h.len == 20 && addrOk a
     else h.rtype == 4 && h.len == 8)

/-- The records of a body, if its structure holds: END is present and last. -/
def walkRecords (fuel : Nat) (b : List Byte) (pos : Nat) : Option (List ImgHead) :=
  match fuel with
  | 0 => none
  | fuel + 1 =>
    let h := headAt b pos
    if b.length < pos + 4 ∨ !headOk b h then none
    else if h.rtype = 0 then (if pos + 4 = b.length then some [h] else none)
    else (walkRecords fuel b (pos + h.len)).map (fun t => h :: t)

def imgRecords (l : List Byte) : Option (List ImgHead) := let b := imgBody l; walkRecords (b.length / 4 + 1) b 0

def hmacGood (s : State) (l : List Byte) : Bool :=
  beAt l 0x10 8 == (s.reg Reg.GLB_UID_HI).toNat * 2 ^ 32 + (s.reg Reg.GLB_UID_LO).toNat &&
    beAt l 0x18 4 == (s.reg Reg.ROL_KEY_ROT).toNat && hmacSha256 (imageKey s) (slice l 0 28 ++ imgBody l) == slice l 0x20 32

/-- The result of the checks: 0x10 to 0x15 for checks 1 to 6, 0x02 when only the HMAC fails, 0x01 when all pass. `limit`:
the most bytes of header and body. -/
def checkImage (s : State) (limit : Nat) (l : List Byte) : Nat :=
  if beAt l 0 4 ≠ 0x46575349 then 0x10
  else if beAt l 4 2 ≠ 1 then 0x11
  else if beAt l 6 2 ≠ s.getF Fld.GLB_ID_device then 0x12
  else if imgLength l % 4 ≠ 0 ∨ limit < 64 + imgLength l then 0x13
  else if imgCrc l ≠ crc32 (slice l 0 28 ++ imgBody l) then 0x14
  else
    match imgRecords l with
    | none => 0x15
    | some rs => if rs.any (fun h => h.level == 1) ∧ !hmacGood s l then 2 else 1

/-! ### Start and end (R74, R76, R77) -/

def imgState (s : State) : Nat := s.getF Fld.ROL_IMG_STATUS_state
def imgSource (s : State) : Nat := s.getF Fld.ROL_IMG_STATUS_source

/-- An image begins to be checked. -/
def beginImage (source : Nat) (s : State) : State :=
  s |> setF Fld.ROL_IMG_STATUS_source source |> setF Fld.ROL_IMG_STATUS_slot 0 |> setF Fld.ROL_IMG_STATUS_state 1
    |> modImage (fun i => { i with bytes := [], crc := 0, generation := 0, hmacOk := false, pos := 0, index := 0, second := [], wait := .none, abort := false })

/-- The image's host address. -/
def hostImageAddr (s : State) : Nat := (s.reg Reg.ROL_IMG_ADDR_HI).toNat * 2 ^ 32 + (s.reg Reg.ROL_IMG_ADDR_LO).toNat

def startHostImage (s : State) : State := s |> beginImage 1 |> readHost (hostImageAddr s) 64

/-- The end of an image, with any result (R66, R74). The end of the boot image lets the functions start (R77). -/
def imageEnd (result index : Nat) (s : State) : State :=
  let src := imgSource s
  let gen := s.image.generation
  let idx := min index 0xFFFF
  let boot := decide (s.image.boot ≠ .ended) && src == bootSource s
  let s := s |> setF Fld.ROL_IMG_STATUS_state 0 |> setF Fld.ROL_IMG_STATUS_result result |> setF Fld.ROL_IMG_STATUS_index idx
    |> whenT (result == 1) (setR Reg.ROL_IMG_GEN gen) |> latch Fld.ROL_EVENT_image_done
    |> recordPair 0x17 ([src + 4 * s.getF Fld.ROL_IMG_STATUS_slot, result] ++ dle 2 idx ++ dle 4 gen) (dle 4 s.image.crc)
    |> modImage (fun i => { i with wait := .none, abort := false, second := [], bytes := [] })
  let s := { s with ilg := { s.ilg with rxImage := [], rxSecond := [], rxPass := 0 } }
  let s := whenT (isWorker s && src == 2) (sendReport 2) s
  let s := whenT (isWorker s) (sendReport 3) s
  if boot then s |> modImage (fun i => { i with boot := .ended }) |> modPwr (fun p => { p with stage := .run }) |> functionsStart else s

/-- ROL_IMG_CTRL was written. -/
def imageCtrl (v : Nat) (s : State) : State :=
  let s := if bit v 1 ∧ imgState s ≠ 0 then modImage (fun i => { i with abort := true }) s else s
  if !bit v 0 ∨ imgState s ≠ 0 then s
  else if s.image.boot = .notYet then
    (if bootSource s = 1 then modImage (fun i => { i with heldStart := true }) s else s)
  else s |> whenT (decide (s.image.boot = .waiting) && bootSource s == 1) (modImage (fun i => { i with boot := .running })) |> startHostImage

/-- The boot-image step begins (R76, R560). -/
def bootBegin (s : State) : State :=
  let s := modPwr (fun p => { p with stage := .boot }) s
  let src := bootSource s
  if src = 0 then s |> modImage (fun i => { i with boot := .running }) |> beginImage 0
  else
    let held := s.image.heldStart
    let s := modImage (fun i => { i with boot := .waiting, heldStart := false }) s
    if src = 1 ∧ held then imageCtrl 1 s else if src = 2 then s |> request (.ilgil 0) |> request (.ilgil 1) else s

/-- LOCKET_STEP: PFAIL_N has been high for 1 µs. -/
def locketStep (works : Bool) (s : State) : State :=
  if s.pwr.stage ≠ .locket then s else s |> setF Fld.GLB_PINS_pfail_n 1 |> resetFlash |> locketWork works |> bootBegin

/-- The checked image goes on to application, or ends. -/
def imageChecked (result : Nat) (l : List Byte) (s : State) : State :=
  let s := modImage (fun i => { i with bytes := l, crc := imgCrc l, generation := imgGeneration l, hmacOk := result == 1 }) s
  if s.image.abort then imageEnd 0x18 0 s
  else if result ≠ 1 ∧ result ≠ 2 then imageEnd result 0 s
  else s |> setF Fld.ROL_IMG_STATUS_state 2

/-- The flash slot that is applied, or reported (R76): its number, its result. -/
def chooseSlot (r0 r1 g0 g1 : Nat) : Nat × Nat :=
  if r0 = 1 ∧ r1 = 1 then (if g0 < g1 then (1, 1) else (0, 1))
  else if r0 = 1 then (0, 1)
  else if r1 = 1 then (1, 1)
  else if r0 = 2 ∧ r1 = 2 then (if g0 < g1 then (1, 2) else (0, 2))
  else if r0 = 2 then (0, 2)
  else if r1 = 2 then (1, 2)
  else if r0 < r1 then (1, r1)
  else (0, r0)

/-- IMAGE_CHECK_DONE: the bytes of the first read; of both slots for a flash boot, of host memory, or as the IMAGE units
brought them. -/
def imageCheckDone (slot0 slot1 : List Byte) (s : State) : State :=
  if imgState s ≠ 1 then s
  else if imgSource s = 0 then
    let r0 := checkImage s (2 ^ 22) slot0
    let r1 := checkImage s (2 ^ 22) slot1
    let c := chooseSlot r0 r1 (imgGeneration slot0) (imgGeneration slot1)
    s |> setF Fld.ROL_IMG_STATUS_slot c.1 |> imageChecked c.2 (if c.1 = 0 then slot0 else slot1)
  else if imgSource s = 1 then imageChecked (checkImage s (2 ^ 64 - hostImageAddr s) slot0) slot0 s
  else if s.ilg.rxPass = 2 then imageChecked (checkImage s (2 ^ 64) s.ilg.rxImage) s.ilg.rxImage s
  else s

/-- IMAGE_READ_ERROR: a host memory read of the image fails (R74, R435). -/
def imageReadError (addr cpl : Nat) (s : State) : State :=
  if imgState s = 0 ∨ imgSource s ≠ 1 then s else s |> dmaError 2 0 addr cpl |> imageEnd 0x17 s.image.index

/-! ### An image from the manager (R495) -/

/-- IMAGE_UNIT_RECEIVE: a unit for this worker joins the pass that runs; abort ends the image. -/
def imageUnitReceive (g : Nat) (l : List Byte) (s : State) : State :=
  let r := acceptUnit g Unit.image l s
  let s := r.2
  if !r.1 then s
  else if unitDest l ≠ ownIndex s then relayUnit l s
  else
    let bits := beAt l 3 1
    let off := beAt l 4 4
    let s := if imgState s = 0 ∧ off = 0 ∧ !bit bits 6 ∧ s.image.boot ≠ .notYet then
        let s := if s.image.boot = .waiting ∧ bootSource s = 2 then modImage (fun i => { i with boot := .running }) s else s
        let s := beginImage 2 s
        { s with ilg := { s.ilg with rxPass := 1 } }
      else s
    if imgState s = 0 ∨ imgSource s ≠ 2 then s
    else if bit bits 6 then imageEnd (if bit bits 7 then 0x18 else 0x17) s.image.index s
    else
      let put := fun (b : List Byte) => b.take off ++ slice (l.drop 32) 0 128
      if s.ilg.rxPass = 1 then
        { s with ilg := { s.ilg with rxImage := put s.ilg.rxImage, rxPass := if bit bits 7 then 2 else 1 } }
      else { s with ilg := { s.ilg with rxSecond := put s.ilg.rxSecond } }

/-- The link of a worker is lost during an image from the manager. -/
def imageLinkLost (s : State) : State :=
  if imgState s ≠ 0 ∧ imgSource s = 2 then imageEnd 0x17 s.image.index s else s

end Sys2Proof.Machine
end

