-- ==== Sys2Proof/Machine/Tick.lean ====
section
/-! DEFINITION. The management tick (R18, R19): the ledger's snapshot and audit (R221 to R225), the scan of the statistics
(R259), memory errors (R589), the commit, the samples and the role's time-out. -/
namespace Sys2Proof.Machine

/-! ### The audit (R218 to R225) -/

/-- A count as memory errors have left it (R589): HELD of a row by its number, cell-state count k by 464 + k. -/
def skewed (s : State) (key v : Nat) : Nat := v + Sparse.get (fun _ => 0) s.fab.skew key

def heldShown (s : State) (row : Nat) : Nat := skewed s row (heldCopies s row) % 2 ^ 48

/-- Δ of a row, modulo 2^48 (R224). -/
def rowDelta (s : State) (row : Nat) : Nat :=
  let l := s.led row
  (l.adm + 4 * 2 ^ 48 - l.deliver - l.dropSum - l.ret - heldShown s row) % 2 ^ 48

/-- Do the drop reasons of a row sum to DROP_SUM? -/
def dropsumOk (s : State) (row : Nat) : Bool :=
  let l := s.led row
  (l.drop.foldl (fun n p => n + p.2) 0) % 2 ^ 32 == l.dropSum % 2 ^ 32

/-- The rows that have ever moved, hold copies, or whose HELD is wrong. -/
def movedRows (s : State) : List Nat :=
  ((s.fab.ledger.map (·.1)) ++ usedRows s ++ ((s.fab.skew.map (·.1)).filter (fun k => k < 464))).eraseDups

def shownFree (s : State) : Nat := skewed s 464 (cellsFree s)
def shownQueued (s : State) : Nat := skewed s 465 (cellsQueued s)
def shownTransit (s : State) : Nat := skewed s 466 (cellsTransit s)
def shownReserved (s : State) : Nat := skewed s 467 (cellsReserved s)

/-- R219: every cell is in one state. -/
def cellsOk (s : State) : Bool := shownFree s + shownQueued s + shownTransit s + shownReserved s == 98304

/-- R220 at an Ilgil port that is UP: AVAIL + OUT is the pool that the peer reported. -/
def creditsOk (s : State) (g : Nat) : Bool :=
  !ilgUp s g || (List.range 8).all (fun c =>
    s.getF (Fld.ILG_CREDIT_avail g c) + s.getF (Fld.ILG_CREDIT_out g c) == unpackCredit (s.ilgPort g).hello 32 c)

/-- A condition of R218 was broken since the last audit that passed. -/
def conditionBroken (s : State) : Bool := s.fab.excused || s.on Fld.GLB_MON_EVENT_clk_fault || s.on Fld.GLB_MON_EVENT_supply_fault

/-- What the audit of this tick finds in the snapshot, and the cells that the walk will not reach: those that no list leads
to, and the number that it will reach twice (R223). -/
def auditOf (s : State) : Audit :=
  let rows := movedRows s
  let deltas := (rows.map (fun r => (r, rowDelta s r))).filter (fun p => p.2 != 0)
  let sums := rows.filter (fun r => !dropsumOk s r)
  let bad := ((deltas.map (·.1)) ++ sums).eraseDups
  let held := s.fab.frames.flatMap (fun p => p.2.chain) ++ s.fab.captures.flatMap (fun c => c.chain) ++ s.fab.withheld
  { kinds := 8 * b2n (!deltas.isEmpty) + 16 * b2n (!sums.isEmpty) + 32 * b2n (!cellsOk s) + 256 * b2n (!(creditsOk s 0 && creditsOk s 1)),
    badRows := bad, diff := if bad.isEmpty then 0 else rowDelta s (bad.foldl (fun m r => min m r) 463), deltas := deltas,
    due := s.cycle + 125 * cyclesPerUs, excused := conditionBroken s, unmarked := s.fab.lostCells,
    dup := held.length - held.eraseDups.length }

/-- The words of a row as BUF_LEDGER shows them (R230). -/
def showRow (row : Nat) (s : State) : State :=
  let l := s.led row
  let put := fun (k v : Nat) (t : State) => t |> setR (Reg.BUF_LEDGER row k) (v % 2 ^ 32) |> setR (Reg.BUF_LEDGER row (k + 1)) (v / 2 ^ 32 % 2 ^ 16)
  s |> put 0 l.adm |> put 2 l.deliver |> put 4 l.ret |> put 6 (heldShown s row) |> put 8 l.dropSum
    |> each l.drop (fun p => setR (Reg.BUF_LEDGER row (16 + p.1)) p.2)

/-- The snapshot is shown to the host unless hold is 1. -/
def showSnapshot (tick : Nat) (s : State) : State :=
  if s.on Fld.BUF_SNAP_CTRL_hold then s
  else
    s |> each (movedRows s) showRow |> setR Reg.BUF_CELLS_FREE (shownFree s % 2 ^ 32) |> setR Reg.BUF_CELLS_QUEUED (shownQueued s % 2 ^ 32)
      |> setR Reg.BUF_CELLS_TRANSIT (shownTransit s % 2 ^ 32) |> setR Reg.BUF_CELLS_RESERVED (shownReserved s % 2 ^ 32) |> setR Reg.BUF_SNAP_TICK (tick % 2 ^ 32)

/-- Task 1: the snapshot is taken and audited, and the walk starts with the other colour; the result is shown at 125 µs. What
breaks a condition from here on counts for the next audit. -/
def ledgerTask (s : State) : State :=
  let a := auditOf s
  s |> showSnapshot s.fab.tickNo |> modFab (fun x => { x with audit := some a, excused := false, colour := !x.colour })

/-- BUF_EVENT bits of fault kinds. -/
def auditEvents (kinds : Nat) : Nat :=
  b2n (bit kinds 3 || bit kinds 4) + 2 * b2n (bit kinds 5) + 4 * b2n (bit kinds 8) + 8 * b2n (bit kinds 6) + 16 * b2n (bit kinds 7)

/-- The end of the walk (R223, R225): the cells of the old colour are leaked. With reclaim they are withheld; those that were
withheld before it, which it has confirmed, return to the free list. -/
def walkEnd (a : Audit) (s : State) : State :=
  let found := a.unmarked.filter (fun c => s.fab.lostCells.contains c)
  let back := s.fab.withheld
  s |> countBy Reg.BUF_LEAKED found.length |> countBy Reg.BUF_DUPLICATED a.dup |> countBy Reg.BUF_RECLAIMED back.length
    |> modFab (fun x => if s.on Fld.BUF_CTRL_reclaim then
        { x with withheld := found, lostCells := x.lostCells.filter (fun c => !found.contains c) } else { x with withheld := [] })

/-- BUF_AUDIT_STATUS of an audit with its fault kinds. -/
def auditStatus (a : Audit) (kinds : Nat) : Nat :=
  1 + 2 * b2n (kinds != 0) + 4 * b2n a.excused + kinds + a.badRows.length * 2 ^ 13 +
    (if a.badRows.isEmpty then 0 else a.badRows.foldl (fun m r => min m r) 463) * 2 ^ 23

/-- The Δ of some row differs between two audits. -/
def deltasDiffer (a b : List (Nat × Nat)) : Bool :=
  (a ++ b).any (fun p => Sparse.get (fun _ => 0) a p.1 != Sparse.get (fun _ => 0) b p.1)

/-- AUDIT_RESULT (R222, R224). -/
def auditResult (s : State) : State :=
  match s.fab.audit with
  | none => s
  | some a =>
    let s := advanceTo a.due s
    let kinds := a.kinds + 64 * b2n (!a.unmarked.isEmpty) + 128 * b2n (a.dup != 0)
    let new := kinds - (kinds &&& s.fab.prevKinds)
    let moved := deltasDiffer a.deltas s.fab.prevDeltas
    let s := s |> walkEnd a |> setR Reg.BUF_AUDIT_STATUS (auditStatus a kinds) |> setR Reg.BUF_AUDIT_DIFF_LO (a.diff % 2 ^ 32)
      |> setR Reg.BUF_AUDIT_DIFF_HI (a.diff / 2 ^ 32)
      |> modFab (fun x => { x with audit := none, prevKinds := kinds, prevDeltas := a.deltas, excused := x.excused || (a.excused && kinds != 0) })
    if new = 0 ∧ !moved then s
    else
      s |> latchBits ⟨Reg.BUF_EVENT, 0, 5⟩ (auditEvents new ||| b2n moved)
        |> record 0x25 ([auditStatus a kinds / 2 % 256] ++ dle 2 (auditStatus a kinds / 2 ^ 23) ++ dle 6 a.diff)
        |> whenT (s.on Fld.BUF_CTRL_resign) (trigger 0)

/-! ### Statistics: the half-range scan (R259) -/

/-- Counters of the MACs whose top bit is 1, by 64 × port + counter. -/
def topCounters (s : State) : List Nat :=
  let lo := Reg.MST_CNT_LO 0 0
  s.regs.filterMap (fun p =>
    if p.1 < lo ∨ Reg.MST_CNT_HI 51 63 < p.1 then none
    else
      let d := p.1 - lo
      let k := d % 0x200 / 8
      let key := 64 * (d / 0x200) + k
      let high := d % 8 == 4
      if high ∧ wideCounter k ∧ bit p.2.toNat 15 then some key
      else if !high ∧ !wideCounter k ∧ bit p.2.toNat 31 then some key
      else none)

/-- Task 2. -/
def halfScan (s : State) : State :=
  let now := topCounters s
  let old := s.fab.topBits
  let changed := now.filter (fun k => !old.contains k) ++ old.filter (fun k => !now.contains k)
  let mark := fun (k : Nat) (t : State) =>
    let p := k / 64
    if k % 64 < 32 then latchBits ⟨Reg.MST_HALF_LO p, 0, 32⟩ (2 ^ (k % 32)) t else latchBits ⟨Reg.MST_HALF_HI p, 0, 32⟩ (2 ^ (k % 32)) t
  s |> each changed mark |> modFab (fun x => { x with topBits := now })

/-! ### Memory errors (R589) -/

/-- The model's order of the counting memory (assumption log 63): for each row ADMIT, DELIVER, RETURN, DROP_SUM, HELD and
DROP[1] to DROP[31] in 36 blocks of 464 words, then the four cell-state counts, then AVAIL and OUT of each Ilgil port and
class. A word with an uncorrectable error holds an open value from then on. -/
def wrongAccount (index : Nat) (s : State) : State :=
  let d := drawFree s
  let v := d.1
  let s := d.2
  let row := index % 464
  let l := { s.led row with struck := true }
  let skew := fun (key : Nat) => modFab (fun x => { x with skew := Sparse.put (fun _ => 0) x.skew key v }) s
  match index / 464 with
  | 0 => setLed row { l with adm := v } s
  | 1 => setLed row { l with deliver := v } s
  | 2 => setLed row { l with ret := v } s
  | 3 => setLed row { l with dropSum := v } s
  | 4 => skew row
  | k =>
    if k < 36 then setLed row { l with drop := Sparse.put (fun _ => 0) l.drop (k - 4) v } s
    else
      let i := index - 36 * 464
      if i < 4 then skew (464 + i)
      else
        let c := (i - 4) / 2 % 8
        let g := (i - 4) / 16
        if g < 2 then setF (if i % 2 = 0 then Fld.ILG_CREDIT_avail g c else Fld.ILG_CREDIT_out g c) v s else s

def loseCells (l : List Nat) (s : State) : State := modFab (fun x => { x with lostCells := x.lostCells ++ l }) s

/-- The link word of a cell is wrong: the frame or capture it belongs to is dropped, and the cells beyond it leave their list
(R589); on the free list, those behind it in the model's order of it (assumption log 172). -/
def badLink (cell : Nat) (s : State) : State :=
  match cellOwner s cell with
  | some (id, k) =>
    let beyond := ((s.frame id).map (fun f => f.chain.drop (k + 1))).getD []
    s |> dropFrame id Reason.uncorrectable |> loseCells beyond
  | none =>
    match s.fab.captures.find? (fun c => c.chain.contains cell) with
    | some c =>
      s |> modFab (fun x => { x with captures := x.captures.erase c }) |> ledDrop (ledRow portM c.cls) Reason.uncorrectable 1
        |> loseCells ((c.chain.dropWhile (fun i => i != cell)).drop 1)
    | none =>
      if s.fab.withheld.contains cell then
        let beyond := (s.fab.withheld.dropWhile (fun i => i != cell)).drop 1
        s |> modFab (fun x => { x with withheld := x.withheld.filter (fun i => !beyond.contains i) }) |> loseCells beyond
      else if s.fab.lostCells.contains cell ∨ cell < 116 then s
      else loseCells ((List.range 98304).filter (fun i => decide (cell < i) && !(takenCells s).contains i)) s

/-- An uncorrectable error: a memory code and a word index, which for codes 0 to 2 is the number of a cell, for code 3 a word
in the order of `wrongAccount`, for codes 4 to 7 the word's BAR0 offset (assumption log 63). -/
def memoryError (code index : Nat) (s : State) : State :=
  let s := s |> record 0x41 ([code] ++ dle 4 index) |> modFab (fun x => { x with excused := true })
  let note := modFab (fun x => { x with badWords := if x.badWords.contains (code, index) then x.badWords else x.badWords ++ [(code, index)] })
  match code with
  | 0 => note s
  | 1 => badLink index s
  | 2 =>
    match cellOwner s index with
    | some (id, 0) => dropFrame id Reason.uncorrectable s
    | _ => s
  | 3 => s |> wrongAccount index |> trigger 1
  | _ => s |> note |> trigger 1

/-! ### The tick -/

/-- The cycle in which the next tick begins. -/
def nextTick (s : State) : Nat := (s.fab.tickNo + 1) * cyclesPerTick - s.pwr.sincePor

/-- MANAGEMENT_TICK: the samples of task 4 and the memory errors since the last tick are the outside's. -/
def managementTick (temp : BitVec 12) (supply : BitVec 9) (upsets : List (Nat × Nat)) (s : State) : State :=
  let s := s |> advanceTo (nextTick s) |> modFab (fun x => { x with tickNo := x.tickNo + 1 })
  s |> each upsets (fun p => memoryError p.1 p.2) |> ledgerTask |> halfScan |> drainHolding |> startCommit
    |> monitorSample temp supply |> idleTick |> carTick

end Sys2Proof.Machine
end

