-- ==== Sys2Proof/Machine/Finish.lean ====
section
/-! DEFINITION. The end of every command: what it left to do in other blocks, what follows from the levels it left, and
the miscellaneous causes (R433). -/
namespace Sys2Proof.Machine

/-! ### Consequences in other blocks -/

/-- One consequence: a line left UP (R192, R290) or entered it (R193), a switch (R294, R486), a trigger of R516, PD0 left
LOCKED (R522), node time was stepped (R287, R304), QUARANTINE changed (R497), an Ilgil link was lost (R495, R588). -/
def doTodo (t : Todo) (s : State) : State :=
  match t with
  | .lineLeft n phy =>
    let d := dirOf n
    s |> lineLost n phy |> fun u => if dirUp u d then u else timeDirDown d u
  | .lineUp n => lineBack n s
  | .switched => s |> timeSwitched |> sendSwitch
  | .trigger c => resign c s
  | .pd0Left => cancelSwap s
  | .stepped d => phaseStepped d s
  | .quarantine e => quarantineChange e s
  | .ilgilLost => imageLinkLost s

/-- Take the consequences in order; one may add others. -/
def runTodo (fuel : Nat) (s : State) : State :=
  match fuel with
  | 0 => s
  | fuel + 1 =>
    match s.todo with
    | [] => s
    | t :: r => runTodo fuel (doTodo t { s with todo := r })

/-- What follows from the levels that stand: each block that waits for something looks again. -/
def settle (s : State) : State :=
  s |> xonCheck |> settleTime |> settlePhase |> each (List.range 4) settlePreemption |> each [0, 1] revertCheck |> retryHost |> retryFil
    |> settleMoves |> settleBus |> settleRed |> judgeCompat |> settleSense |> settleDrive |> settlePins

/-! ### Miscellaneous causes (R433) -/

/-- Show the causes; a vector with a cause that rose sends its message. -/
def showCauses (s : State) : State :=
  let w := causeWord s
  let rose := (List.range 23).filter (fun b => bit w b && !bit s.host.prevCause b)
  let s := s |> setF Fld.HST_MISC_CAUSE_cause w |> modHost (fun h => { h with prevCause := w })
  if rose.isEmpty then s
  else each ((List.range 8).filter (fun v => rose.any (fun b => causeVec s b == 64 + v))) (fun v => msix (64 + v)) s

/-- HST_MISC_ACK: another message for each named vector with a cause that reads 1. -/
def ackMisc (v : Nat) (s : State) : State :=
  let w := causeWord s
  each ((List.range 8).filter (fun k => bit v k && (List.range 23).any (fun b => bit w b && causeVec s b == 64 + k)))
    (fun k => msix (64 + k)) s

/-! ### The end of a command -/

/-- Consequences are taken, what follows from the levels is settled, and once more where that left consequences. -/
def conclude (s : State) : State :=
  if !s.alive then { s with todo := [], soon := [] }
  else
    let s := settle (runTodo 64 s)
    let s := if s.todo.isEmpty then s else settle (runTodo 64 s)
    showCauses { s with todo := [] }

/-- What the device does by itself at its cycle. -/
def doSoon (x : Soon) (s : State) : State :=
  match x with
  | .shown f => request f s
  | .hostSwitch a => hostSwitch a s
  | .phase d => judgeEnable d s
  | .carAct => carAct s
  | .levels => hostFollows s
  | .readback o since => readbackCompletes o since s
  | .filHash => showHash s
  | .resignLook => s
  | .worker i => judgeWorker i s
  | .granted t => grantFalls t s

/-- What falls due up to a cycle happens, each at its own cycle and with its own consequences. -/
def runSoon (fuel limit : Nat) (s : State) : State :=
  match fuel with
  | 0 => s
  | fuel + 1 =>
    match s.soon with
    | [] => s
    | (c, x) :: r => if c ≤ limit then runSoon fuel limit (conclude (doSoon x (advanceTo c { s with soon := r }))) else s

/-- More than the device can have to do by itself between two commands: Carillon applies one of at most 4,096 actions a cycle
for each firing, which is a command. -/
def soonFuel : Nat := 65536

/-- The end of a command: its consequences, and what has fallen due by then. -/
def finish (s : State) : State := let t := conclude s; runSoon soonFuel t.cycle t

/-- A command arrives n cycles after the one before: what the device does by itself until then is done first. -/
def arrive (n : Nat) (s : State) : State := advanceTo (s.cycle + n) (runSoon soonFuel (s.cycle + n) s)

/-- What the device times itself takes place in its turn: what it does by itself up to that cycle comes first (R587). -/
def inTurn (f : State → State) (s : State) : State := f (runSoon soonFuel (f s).cycle s)

/-- A command's answer: the state it left, finished. -/
def done (s : State) : Host.Outcome State Fault Refusal := .next (finish s)

end Sys2Proof.Machine
end

