-- ==== Sys2Proof/Machine/Legal.lean ====
section
/-! DEFINITION. What a written word becomes before it is stored: the clamp of each field (R46), the rules where one
field's legal set depends on another (R47), and the role check (R54). -/
namespace Sys2Proof.Machine

/-! ### The clamp of a field (R46) -/

/-- The nearest legal value. -/
def Legal.fix (l : Legal) (width v : Nat) : Nat :=
  match l with
  | .any => v
  | .range lo hi => max lo (min v hi)
  | .signed lo hi => codeOf width (max lo (min (signedOf width v) hi))
  | .zeroLow n => v / 2 ^ n * 2 ^ n
  | .code c => (Sparse.find c v).getD v

/-- Writes of the field have an effect (R9). -/
def Acc.writable (a : Acc) : Bool :=
  match a with
  | .ro | .rc => false
  | .rw | .w1c | .w1s | .wo => true

def FieldSpec.of (f : FieldSpec) (w : Word) : Nat := fieldOf w f.lo f.width

def FieldSpec.legalValue (f : FieldSpec) (w : Word) : Nat := f.legal.fix f.width (f.of w)

/-- The word that a write carries once its own fields are clamped; bits outside its writable fields are 0 (R12). -/
def clampWord (r : RegSpec) (v : Word) : Word :=
  r.fields.foldl (fun w f => if f.acc.writable then putField w f.lo f.width (f.legalValue v) else w) 0

/-- A field of the written word lay outside its legal set; bits that the spec forces to 0, as those of ROL_IMG_ADDR_LO, are such
a set, and forcing them counts as a clamp (DESIGN CHOICE, assumption log 173). -/
def clampedOwn (r : RegSpec) (v : Word) : Bool := r.fields.any (fun f => f.acc.writable && f.legalValue v != f.of v)

/-- What the word holds after a write (R9): RW fields take the value, W1S bits written 1 are set, W1C bits written 1 clear
but for those of `fresh`, whose event has come in the same cycle (R50). -/
def storedWord (r : RegSpec) (fresh old new : Word) : Word :=
  r.fields.foldl (fun w f =>
    match f.acc with
    | .rw => putField w f.lo f.width (f.of new)
    | .w1c => putField w f.lo f.width ((f.of old - (f.of old &&& f.of new)) ||| (f.of old &&& f.of fresh))
    | .w1s => putField w f.lo f.width (f.of old ||| f.of new)
    | _ => w) old

/-! ### Fields that depend on others (R47). Each rule gets the state before the write and the state with the word
stored, and forces what it must. -/

abbrev ForceRule := Nat → Nat → State → State → State

/-- R153: the TNN field lies in the host part; bits of the base below the prefix are 0. -/
def forceTat : ForceRule := fun _ _ _ s =>
  let n := s.getF Fld.EPO_TAT_CTRL_prefix_len
  let b := (s.reg Reg.EPO_TAT_BLOCK).toNat
  s |> setF Fld.EPO_TAT_CTRL_tnn_lsb (min (s.getF Fld.EPO_TAT_CTRL_tnn_lsb) (26 - n))
    |> setR Reg.EPO_TAT_BLOCK (b / 2 ^ (32 - n) * 2 ^ (32 - n))

/-- R200: the flags of VIDs 0 and 4,095 are 0. -/
def forceVlan : ForceRule := fun v _ _ s => if v = 0 ∨ v = 4095 then setR (Reg.FDB_VLAN_FLAGS v) 0 s else s

/-- The shared pool as the settings give it (R203); negative when they ask for more than there is. -/
def poolOf (s : State) : Int :=
  98304 - 116 - (sumBy (List.range 464) (fun r => s.getF (Fld.BUF_ROW_CFG_min_cells (r / 8) (r % 8))) : Nat) - (totalHeadroom s : Nat)

/-- The largest value of a field that counts k times and leaves the pool at 8,192 or more. -/
def poolRoom (s : State) (f : Fld) (k : Nat) : Nat := ((poolOf (setF f 0 s) - 8192).toNat) / k

def forcePool (f : Fld) (k : Nat) (s : State) : State :=
  if k = 0 ∨ 8192 ≤ poolOf s then s else setF f (min (s.getF f) (poolRoom s f k)) s

def forceMinCells : ForceRule := fun p c _ s => forcePool (Fld.BUF_ROW_CFG_min_cells p c) 1 s

def forceHeadroom : ForceRule := fun c _ _ s =>
  forcePool (Fld.BUF_CLASS_PFC_headroom c) ((List.range 48).filter (fun p => pfcOn s (8 * p + c))).length s

/-- The port is half duplex, by its setting or by what it negotiated (R234, R235). -/
def halfPort (s : State) (p : Nat) : Bool :=
  if s.on (Fld.EPT_STATUS_link p) then !s.on (Fld.EPT_STATUS_duplex p) else !s.on (Fld.EPT_MODE_duplex p)

/-- R203, R241, R243: no flow control in half duplex; class bits that the pool has no room for are cleared, highest first. -/
def forceFc : ForceRule := fun p _ before s =>
  let s := if halfPort s p then setF (Fld.EPT_FC_mode p) 0 s else s
  each [7, 6, 5, 4, 3, 2, 1, 0] (fun c t =>
    if pfcOn t (8 * p + c) ∧ !pfcOn before (8 * p + c) ∧ poolOf t < 8192 then
      setF (Fld.EPT_FC_classes p) (setBit (t.getF (Fld.EPT_FC_classes p)) c false) t
    else t) s

/-- The current speed of a port in Mbit/s: that in force with link, else that of its setting (R235, R248, R250). -/
def speedOf (s : State) (p : Nat) : Nat :=
  if portLink s p then portMbps s p
  else if p < 48 then edgeMbps (s.getF (Fld.EPT_MODE_speed p)) else trunkMbps (s.getF (Fld.TPT_MODE_speed (p - 48)))

def rateFld (p q : Nat) : Fld := if p < 48 then Fld.EPT_SHAPE_rate p q else Fld.TPT_SHAPE_rate (p - 48) q

/-- R248. -/
def forceRate (p q : Nat) (s : State) : State := setF (rateFld p q) (min (s.getF (rateFld p q)) (speedOf s p)) s

def forceEdgeShape : ForceRule := fun p q _ s => forceRate p q s
def forceTrunkShape : ForceRule := fun n q _ s => forceRate (48 + n) q s

/-- What EPT_MODE and TPT_MODE say is in force at once at a port with link: the speed they give, or with an at 1 the one of
the in-band word (R235, R250). -/
def useMode (p : Nat) (s : State) : State :=
  if !portLink s p then s
  else if p < 48 then
    let s := setF (Fld.EPT_STATUS_an_done p) (b2n (s.on (Fld.EPT_MODE_an p) && (Sparse.find s.mac.word p).isSome)) s
    if s.on (Fld.EPT_MODE_an p) ∧ !s.on (Fld.EPT_MODE_iface p) then
      match Sparse.find s.mac.word p with
      | none => s
      | some w => s |> setF (Fld.EPT_STATUS_speed p) (w % 4) |> setF (Fld.EPT_STATUS_duplex p) (w / 4)
    else s |> setF (Fld.EPT_STATUS_speed p) (s.getF (Fld.EPT_MODE_speed p)) |> setF (Fld.EPT_STATUS_duplex p) (s.getF (Fld.EPT_MODE_duplex p))
  else if s.on (Fld.TPT_MODE_an (p - 48)) then
    match Sparse.find s.mac.word p with
    | none => s
    | some w => setF (Fld.TPT_STATUS_speed (p - 48)) (w % 4) s
  else setF (Fld.TPT_STATUS_speed (p - 48)) (s.getF (Fld.TPT_MODE_speed (p - 48))) s

/-- R234, R241, R248. -/
def forceEdgeMode : ForceRule := fun p _ _ s =>
  let s :=
    if s.on (Fld.EPT_MODE_iface p) then s |> setF (Fld.EPT_MODE_speed p) 3 |> setF (Fld.EPT_MODE_duplex p) 1
    else
      let s := if s.getF (Fld.EPT_MODE_speed p) = 3 then setF (Fld.EPT_MODE_speed p) 2 s else s
      if s.getF (Fld.EPT_MODE_speed p) = 2 then setF (Fld.EPT_MODE_duplex p) 1 s else s
  let t := useMode p s
  let s := if halfPort t p then setF (Fld.EPT_FC_mode p) 0 s else s
  each (List.range 8) (fun q u => setF (rateFld p q) (min (u.getF (rateFld p q)) (speedOf t p)) u) s

def forceTrunkMode : ForceRule := fun n _ _ s =>
  let t := useMode (48 + n) s
  each (List.range 8) (fun q u => setF (rateFld (48 + n) q) (min (u.getF (rateFld (48 + n) q)) (speedOf t (48 + n))) u) s

/-- R286. -/
def forceServo : ForceRule := fun _ _ _ s =>
  setF Fld.TIM_SERVO_LIM_unlock_ns (max (s.getF Fld.TIM_SERVO_LIM_unlock_ns) (s.getF Fld.TIM_SERVO_LIM_lock_ns)) s

/-- R288: the range of the increment. -/
def forceAddend : ForceRule := fun _ _ _ s =>
  let v := (s.reg Reg.TIM_ADDEND_HI).toNat * 2 ^ 32 + (s.reg Reg.TIM_ADDEND_LO).toNat
  let v := max 0x100000000 (min v 0x180000000)
  s |> setR Reg.TIM_ADDEND_LO (v % 2 ^ 32) |> setR Reg.TIM_ADDEND_HI (v / 2 ^ 32)

/-- The divisors of 10^9 from 10,000 on, rising within each power of 2. -/
def periods : List Nat :=
  ((List.range 10).flatMap (fun a => (List.range 10).map (fun b => 2 ^ a * 5 ^ b))).filter (fun d => 10000 ≤ d)

/-- The nearest of a list, on a tie the lower. -/
def nearestOf (l : List Nat) (v : Nat) : Nat :=
  let dist := fun (x : Nat) => (x - v) + (v - x)
  l.foldl (fun b x => if dist x < dist b ∨ (dist x = dist b ∧ x < b) then x else b) (l.headD v)

/-- R304. -/
def legalParam (source v : Nat) : Nat :=
  match source with
  | 0 => nearestOf periods v
  | 1 => max 15000 (min v 65000)
  | 2 => max 4 (min v 65535)
  | _ => max 1000 (min v 100000000)

/-- R304: the source of PD0, the input's range, the parameter of the source, and under PTP the offset below the period. -/
def forcePhase : ForceRule := fun d _ _ s =>
  let s := if d = 0 then setF (Fld.PHS_CTRL_source d) 0 s else s
  let src := s.getF (Fld.PHS_CTRL_source d)
  let s := s |> whenT (decide (2 ≤ src)) (setF (Fld.PHS_CTRL_input d) (min (s.getF (Fld.PHS_CTRL_input d)) 3))
    |> setF (Fld.PHS_PERIOD_param d) (legalParam src (s.getF (Fld.PHS_PERIOD_param d)))
  if src = 0 then setR (Reg.PHS_OFFSET d) (min (s.reg (Reg.PHS_OFFSET d)).toNat (s.getF (Fld.PHS_PERIOD_param d) - 1)) s else s

/-- R312, R313: the offset of an event, the port of a GATE action. -/
def forceEvent : ForceRule := fun k _ _ s =>
  let s := setF (Fld.CAR_EVT1_offset k) (min (s.getF (Fld.CAR_EVT1_offset k)) (s.getF (Fld.CAR_EVT1_every k))) s
  let port : Fld := ⟨Reg.CAR_EVT2 k, 0, 6⟩
  if s.getF (Fld.CAR_EVT1_action k) = 1 ∧ 52 ≤ s.getF port then setF port 63 s else s

/-- The nominal bit time in CAN clocks. -/
def nominalClocks (s : State) (c : Nat) : Nat :=
  (s.getF (Fld.CAN_NBT_nbrp c) + 1) * (3 + s.getF (Fld.CAN_NBT_ntseg1 c) + s.getF (Fld.CAN_NBT_ntseg2 c))

/-- R333, R335. -/
def forceCan : ForceRule := fun c _ _ s =>
  let t := 3 + s.getF (Fld.CAN_NBT_ntseg1 c) + s.getF (Fld.CAN_NBT_ntseg2 c)
  let u := 3 + s.getF (Fld.CAN_DBT_dtseg1 c) + s.getF (Fld.CAN_DBT_dtseg2 c)
  let s := s |> setF (Fld.CAN_NBT_nsjw c) (min (s.getF (Fld.CAN_NBT_nsjw c)) (s.getF (Fld.CAN_NBT_ntseg2 c)))
    |> setF (Fld.CAN_DBT_dsjw c) (min (s.getF (Fld.CAN_DBT_dsjw c)) (s.getF (Fld.CAN_DBT_dtseg2 c)))
    |> setF (Fld.CAN_NBT_nbrp c) (max (s.getF (Fld.CAN_NBT_nbrp c)) (ceilDiv 80 t - 1))
    |> setF (Fld.CAN_DBT_dbrp c) (max (s.getF (Fld.CAN_DBT_dbrp c)) (ceilDiv 10 u - 1))
  if nominalClocks s c < 640 then setF (Fld.CAN_CTRL_triple c) 0 s else s

/-- R370: the lengths of CAN templates. -/
def forceTemplate : ForceRule := fun k _ _ s =>
  let n := s.getF (Fld.FIL_TPL0_length k)
  if s.on (Fld.FIL_TPL0_kind k) then s
  else
    let n := min n 64
    setF (Fld.FIL_TPL0_length k) (if bit (s.reg (Reg.FIL_TPL2 k)).toNat 31 then n else min n 8) s

/-- R479: a standalone device has no Ilgil ports to enable. -/
def forceIlgil : ForceRule := fun g _ _ s => if s.getF Fld.ILG_STATUS_role = 0 then setF (Fld.ILG_PORT_CTRL_enable g) 0 s else s

/-- The registers with rules of R47, by the row of the written register. -/
def forceRules : List (RegSpec × ForceRule) :=
  [(Row.EPO_TAT_CTRL, forceTat), (Row.EPO_TAT_BLOCK, forceTat), (Row.FDB_VLAN_FLAGS, forceVlan),
   (Row.BUF_ROW_CFG, forceMinCells), (Row.BUF_CLASS_PFC, forceHeadroom), (Row.EPT_FC, forceFc),
   (Row.EPT_SHAPE, forceEdgeShape), (Row.TPT_SHAPE, forceTrunkShape), (Row.EPT_MODE, forceEdgeMode),
   (Row.TPT_MODE, forceTrunkMode), (Row.TIM_SERVO_LIM, forceServo), (Row.TIM_ADDEND_LO, forceAddend),
   (Row.TIM_ADDEND_HI, forceAddend), (Row.PHS_CTRL, forcePhase), (Row.PHS_PERIOD, forcePhase), (Row.PHS_OFFSET, forcePhase),
   (Row.CAR_EVT1, forceEvent), (Row.CAR_EVT2, forceEvent), (Row.CAN_CTRL, forceCan), (Row.CAN_NBT, forceCan),
   (Row.CAN_DBT, forceCan), (Row.FIL_TPL0, forceTemplate), (Row.FIL_TPL2, forceTemplate), (Row.ILG_PORT_CTRL, forceIlgil)]

def force (r : RegSpec) (i j : Nat) (before s : State) : State :=
  match forceRules.find? (fun p => p.1.base == r.base) with
  | some p => p.2 i j before s
  | none => s

/-! ### The write as it would be, and the role check (R54) -/

/-- A write in hand: the row and its indices, the offset, the word carried after its own clamp. -/
structure Write where
  row : RegSpec
  i : Nat
  j : Nat
  off : Nat
  word : Word
  clamped : Bool

/-- The write of a word at an offset; none where no register lies (R45). -/
def writeOf (off : Nat) (v : Word) : Option Write :=
  match locate off with
  | none => none
  | some r =>
    match r.hit off with
    | none => none
    | some (i, j) => some { row := r, i := i, j := j, off := off, word := clampWord r v, clamped := clampedOwn r v }

/-- The state with the word stored. -/
def Write.plain (w : Write) (s : State) : State :=
  s.setReg w.off (storedWord w.row (justSet s w.off) (s.reg w.off) w.word)

/-- The state with the word stored and dependent fields forced. -/
def Write.store (w : Write) (s : State) : State := force w.row w.i w.j s (w.plain s)

/-- A field was clamped or forced. -/
def Write.clamps (w : Write) (s : State) : Bool :=
  w.clamped || (w.store s).regs != (w.plain s).regs

/-- Who may write a field: its suffix and the writer's role (R10, R52). -/
def Right.allows (g : Right) (role : Nat) : Bool :=
  match g with
  | .anyRole => true
  | .installer => role == 1
  | .maker => role == 2

/-- The write would change the field (R54): an RW field its value; bits of other writable fields by being 1. -/
def Write.changes (w : Write) (s : State) (f : FieldSpec) : Bool :=
  match f.acc with
  | .rw => f.of ((w.store s).reg w.off) != f.of (s.reg w.off)
  | .w1c => f.of (s.reg w.off) &&& f.of w.word != 0
  | .w1s | .wo => f.of w.word != 0
  | .ro | .rc => false

def Write.mayStore (w : Write) (role : Nat) (s : State) : Bool :=
  w.row.fields.all (fun f => f.right.allows role || !w.changes s f)

end Sys2Proof.Machine
end

