-- ==== Sys2Proof/Machine/Hooks.lean ====
section
/-! DEFINITION. What a write of a register sets off besides storing its word: a table from the row of the register to
its effect. An effect gets the indices of the word, the word it held before, and the word the write carried. -/
namespace Sys2Proof.Machine

abbrev Hook := (i j old v : Nat) → State → State

/-- An enable register: a request (R26). -/
def hookEnable (f : Nat → Fn) : Hook := fun i _ _ _ s => request (f i) s

/-- A register whose write only commands, through the word it carries. -/
def hookWord (f : Nat → State → State) : Hook := fun _ _ _ v s => f v s

def fin (n : Nat) [NeZero n] (i : Nat) : Fin n := Fin.ofNat n i

/-- EPT_CTRL: the request, and a drain in progress (R255, R257). -/
def hookEdgeCtrl : Hook := fun p _ _ _ s => s |> request (.edge (fin 48 p)) |> drainWritten p

/-- SPR_CTRL: the request, and compatibility mode (R114, R120). -/
def hookSprCtrl : Hook := fun _ _ _ _ s => s |> request .spire |> sprCtrlWritten

/-- CAN_CTRL: the request and the recovery (R348). -/
def hookCanCtrl : Hook := fun c _ _ _ s => s |> request (.canChannel (fin 16 c)) |> canRecover c

/-- MIR_FILTER: the match count starts at the enable (R226). -/
def hookFilter : Hook := fun k _ old _ s =>
  if s.on (Fld.MIR_FILTER_enable k) ∧ !bit old 31 then modFab (fun x => { x with mirCount := Sparse.drop x.mirCount k }) s else s

/-- HST_WDOG_CTRL (R436). -/
def hookWatchdog : Hook := fun _ _ old _ s =>
  if !s.on Fld.HST_WDOG_CTRL_enable then modHost (fun h => { h with wdogEnd := none }) s
  else if fieldOf (BitVec.ofNat 32 old) Fld.HST_WDOG_CTRL_enable.lo 1 = 0 ∨ s.host.wdogEnd.isSome then wdogLoad s
  else s

/-- A host word is a status source event (R365). -/
def hookHostWord : Hook := fun i _ _ v s => statusEvent (16 + i) v s

/-- EPT_MODE at a port with link: with an turned on, an in-band word of half duplex at 1000 Mbit/s brings the link down. -/
def edgeModeWritten (p : Nat) (s : State) : State :=
  if portLink s p ∧ s.on (Fld.EPT_MODE_an p) ∧ !s.on (Fld.EPT_MODE_iface p) ∧ Sparse.find s.mac.word p = some 2 then badMode p s
  else s |> useMode p |> fcWritten p

/-- ROL_RESP: reads return 0, the comparison uses the word written. -/
def hookResp : Hook := fun i _ _ v s => setR (Reg.ROL_RESP i) v s

/-- PHS_CTRL: a change of the source or the input re-enters ACQUIRE (R307). -/
def hookPhase : Hook := fun d _ old _ s =>
  let was (f : Fld) := fieldOf (BitVec.ofNat 32 old) f.lo f.width
  let same (f : Fld) := decide (was f = s.getF f)
  if same (Fld.PHS_CTRL_source d) ∧ same (Fld.PHS_CTRL_input d) then s else reacquire d s

/-- PHS_PERIOD: a change of the parameter re-enters ACQUIRE (R307). -/
def hookPeriod : Hook := fun d _ old _ s => if (s.reg (Reg.PHS_PERIOD d)).toNat = old then s else reacquire d s

def hooks1 : List (RegSpec × Hook) :=
  [(Row.GLB_PHY_RST, fun _ _ old _ => phyResetWritten old), (Row.ROL_CHALLENGE, hookWord challenge),
   (Row.ROL_UNLOCK, hookWord roleUnlock), (Row.ROL_RESP, hookResp), (Row.ROL_DROP, hookWord roleDrop),
   (Row.ROL_ROTATE, hookWord keyRotate), (Row.ROL_IMG_CTRL, hookWord imageCtrl),
   (Row.SPR_CTRL, hookSprCtrl), (Row.SPR_COMPAT_COMMIT, hookWord compatCommit),
   (Row.SPR_COMPAT_TIMING, fun _ _ _ _ => holdRewritten), (Row.EPO_GRACE, fun _ _ _ _ => graceRewritten), (Row.FAB_AGG_CTRL, fun _ _ _ _ => revertWritten),
   (Row.FDB_CTRL, fun _ _ old _ => fdbCtrlWritten old), (Row.FDB_CMD, hookWord fdbCommand), (Row.MIR_FILTER, hookFilter),
   (Row.EPT_CTRL, hookEdgeCtrl), (Row.EPT_MODE, fun p _ _ _ => edgeModeWritten p), (Row.EPT_FC, fun p _ _ _ => fcWritten p), (Row.EPT_SHAPE, fun p q _ _ => shapeWritten p q),
   (Row.TPT_CTRL, hookEnable (fun n => .trunk (fin 4 n))), (Row.TPT_MODE, fun n _ _ _ => useMode (48 + n)),
   (Row.TPT_PREEMPT, fun n _ old _ => preemptWritten n old), (Row.TPT_SHAPE, fun n q _ _ => shapeWritten (48 + n) q),
   (Row.MST_CLEAR, hookWord mstClear)]

def hooks2 : List (RegSpec × Hook) :=
  [(Row.TIM_CTRL, fun _ _ old _ => incModeWritten old), (Row.TIM_RATE, fun _ _ old _ => rateWritten old),
   (Row.TIM_ADDEND_HI, fun _ _ _ _ => addendWritten), (Row.TIM_ADJ_CTRL, fun _ _ _ v => whenT (bit v 0) hostAdjust),
   (Row.TIM_PERMIT, fun _ _ _ v => whenT (bit v 0) permitGrant), (Row.TIM_CORR_CTRL, fun _ _ _ v => whenT (bit v 0) correlate),
   (Row.TIM_SYNC_CFG, fun n _ old _ => syncCfgWritten n old), (Row.PHS_OFFSET, fun d _ old _ => offsetWritten d old),
   (Row.PHS_CTRL, hookPhase), (Row.PHS_PERIOD, hookPeriod),
   (Row.CAR_CTRL, hookEnable (fun _ => .carillon)), (Row.CAR_EVT1, fun k _ _ _ => eventWritten k),
   (Row.CAR_RELEASE, fun _ _ _ v => whenT (bit v 0) silenceRelease), (Row.CAN_CTRL, hookCanCtrl),
   (Row.CAN_TT_CTRL, hookEnable (fun _ => .canTt)), (Row.FIL_CTRL, hookEnable (fun _ => .filigree)),
   (Row.FIL_HASH_KEY0, fun _ _ _ _ => inCycles 1 .filHash), (Row.FIL_HASH_KEY1, fun _ _ _ _ => inCycles 1 .filHash),
   (Row.FIL_HOST_WORD, hookHostWord), (Row.SNS_CTRL, hookEnable (fun _ => .sense)), (Row.SNS_CONVERT, hookWord hostConvert),
   (Row.SNS_CH_CFG, fun n _ old _ => chCfgWritten n old),
   (Row.DRV_CTRL, hookEnable (fun _ => .drive)), (Row.DRV_LEVEL, fun _ _ _ _ => levelWritten),
   (Row.DRV_CFG, fun o _ old _ => drvCfgWritten o old), (Row.DRV_PHASE, fun o _ _ _ => drvPhaseWritten o)]

def hooks3 : List (RegSpec × Hook) :=
  [(Row.HST_MISC_ACK, hookWord ackMisc), (Row.HST_WDOG_CTRL, hookWatchdog), (Row.RNG_CTRL, hookEnable (fun r => .ring (fin 64 r))),
   (Row.RNG_MOD, fun r _ _ _ => moderationWritten r),
   (Row.LBB_CTRL, hookEnable (fun _ => .localBus)), (Row.LBB_CLASP_CTRL, hookWord claspCtrl),
   (Row.CRC_CTRL, fun u _ _ v => crcCtrl u v), (Row.CRC_SEED, fun u _ _ v => crcSeed u v), (Row.CRC_DATA8, fun u _ _ v => crcData8 u v),
   (Row.CRC_DATA16, fun u _ _ v => crcData16 u v), (Row.CRC_DATA32, fun u _ _ v => crcData32 u v),
   (Row.ILG_PORT_CTRL, hookEnable (fun g => .ilgil (fin 2 g))), (Row.ILG_REBALANCE, hookWord rebalance),
   (Row.ILG_MGMT_CTRL, hookWord mgmtCtrl), (Row.ILG_IMG_CTRL, fun _ _ _ v s => s |> workerImageStart v |> workerImageAbort v),
   (Row.ILG_WORKER_GEN, fun i _ _ _ => workerGenWritten (i + 1)), (Row.RED_CMD, hookWord redCmd),
   (Row.LKT_CTRL, fun _ _ _ _ => lktCtrl), (Row.LKT_READ_CTRL, hookWord recordFetch), (Row.LKT_PART, fun _ _ _ _ => routineCopy)]

/-- The effects of writes, by row. -/
def hooks : List (RegSpec × Hook) := hooks1 ++ hooks2 ++ hooks3

/-- What the write of a word sets off. -/
def hook (r : RegSpec) (i j old v : Nat) (s : State) : State :=
  match hooks.find? (fun p => p.1.base == r.base) with
  | some p => p.2 i j old v s
  | none => s

end Sys2Proof.Machine
end

