-- ==== Sys2Proof/Machine/Access.lean ====
section
/-! DEFINITION. Accesses to the registers: what a read shows (R45, R49, R51), a host write from its arrival to its effect
(R45 to R48, R54, R66 to R68, R75), the records of a setting image (R71 to R74, R588), a management access (R494). -/
namespace Sys2Proof.Machine

/-! ### What a register shows -/

/-- Bit p: a half-range bit of port p is set (R259). -/
def portEvents (s : State) : Nat := (List.range 52).foldl (fun a p => a + b2n (halfBits s p) * 2 ^ p) 0

/-- A frame waits at its source for row (p, c) (R206). -/
def sourceWaits (s : State) (p c : Nat) : Bool :=
  (p == portH && s.host.waitH.any (fun x => x.1 == c)) || (p == portF && s.fab.waitF.any (fun f => f.cls == c))

def rowState (s : State) (p c : Nat) : Nat :=
  let row := ledRow p c
  b2n (s.fab.xoffRows.contains row) * 2 ^ 31 + b2n (sourceWaits s p c) * 2 ^ 30 + occupancy s row

def filStatus (s : State) : Nat :=
  s.fil.emits.length * 2 ^ 24 + s.fil.events.length * 2 ^ 8 + b2n (s.on Fld.FIL_CTRL_hold)

/-- The words that are reckoned when they are read; a register of these shows its stored fields beside them. -/
abbrev ReadView := (i j : Nat) → State → Nat

def stored (a : Nat) (s : State) : Nat := (s.reg a).toNat

/-- A stored word with one field replaced. -/
def withField (f : Fld) (v : Nat) (s : State) : Nat := (putField (s.reg f.reg) f.lo f.width v).toNat

def views : List (RegSpec × ReadView) :=
  [(Row.ROL_STATUS, fun _ _ s => withField Fld.ROL_STATUS_lockout_s (lockoutLeft s) s),
   (Row.TIM_TIME_FRAC, fun _ _ s => s.timeFrac), (Row.TIM_TIME_NS, fun _ _ s => s.timeNs),
   (Row.TIM_TIME_SEC_LO, fun _ _ s => s.timeSec % 2 ^ 32), (Row.TIM_TIME_SEC_HI, fun _ _ s => s.timeSec / 2 ^ 32),
   (Row.TIM_STAMP, fun _ _ s => s.stamp), (Row.PHS_PHASE, fun d _ s => phaseNow s d), (Row.PHS_CYCLE, fun d _ s => cycleNow s d),
   (Row.PHS_FREQ, fun d _ s => domFreq s d), (Row.PHS_STATUS, fun d _ s => withField (Fld.PHS_STATUS_hold_ms d) (holdMs s d) s),
   (Row.EPO_STATUS, fun _ _ s => withField Fld.EPO_STATUS_grace_left_us (graceLeftUs s) s),
   (Row.HST_WDOG_STATUS, fun _ _ s => withField Fld.HST_WDOG_STATUS_left_ms (wdogLeft s) s),
   (Row.BUF_POOL, fun _ _ s => sharedPool s), (Row.BUF_SHARED_USE, fun _ _ s => sharedUse s),
   (Row.BUF_HEADROOM, fun _ _ s => totalHeadroom s), (Row.BUF_ROW_STATE, fun p c s => rowState s p c),
   (Row.BUF_DEPTH, fun o c s => depth s o c), (Row.MST_PORT_EVENT_LO, fun _ _ s => portEvents s % 2 ^ 32),
   (Row.MST_PORT_EVENT_HI, fun _ _ s => portEvents s / 2 ^ 32), (Row.FIL_STATUS, fun _ _ s => filStatus s),
   (Row.CAN_TT_STATUS, fun _ _ s => withField Fld.CAN_TT_STATUS_ctime (if s.getF Fld.CAN_TT_CTRL_state = 0 then 0 else ttTime s) s),
   (Row.LBB_STATUS, fun _ _ s => lbbStatus s), (Row.LBB_ERR_INFO, fun _ _ s => (s.lbb.log.head?.map (·.1)).getD 0),
   (Row.LKT_BRAM_DEV, fun i _ s => (Config.bramWord i s.cycle).toNat)]

/-- A WO field reads 0 (R9). -/
def hideWo (r : RegSpec) (w : Word) : Word :=
  r.fields.foldl (fun w f => match f.acc with
    | .wo => putField w f.lo f.width 0
    | _ => w) w

/-- The word a register shows, without any effect of reading it; 0 where no register lies (R45). -/
def shown (off : Nat) (s : State) : Word :=
  match locate off with
  | none => 0
  | some r =>
    match r.hit off with
    | none => 0
    | some (i, j) =>
      match views.find? (fun p => p.1.base == r.base) with
      | some p => BitVec.ofNat 32 (p.2 i j s)
      | none => hideWo r (s.reg off)

/-! ### Reads (R45, R49, R51) -/

/-- The values of several words (R8), by the row of the lowest: how many words follow it. -/
def wideValues : List (RegSpec × Nat) :=
  [(Row.GLB_UID_LO, 1), (Row.GLB_MAC_BASE_LO, 1), (Row.ROL_IMG_ADDR_LO, 1), (Row.SPR_REF_ID_LO, 1), (Row.SPR_LEAD_MAP_LO, 1),
   (Row.SPR_NBR_ID_LO, 1), (Row.EPO_ROSTER_LO, 1), (Row.BUF_AUDIT_DIFF_LO, 1), (Row.MST_CNT_LO, 1), (Row.MST_PORT_EVENT_LO, 1), (Row.TIM_TIME_FRAC, 3),
   (Row.TIM_ADDEND_LO, 1), (Row.TIM_ADJ_LO, 1), (Row.TIM_LAST_STEP_LO, 1), (Row.TIM_CORR_FRAC, 6), (Row.PHS_PHASE, 1),
   (Row.CAN_TT_SYNC_LO, 1), (Row.CAN_MB_STAMP_LO, 1), (Row.HST_ERR_ADDR_LO, 1), (Row.RNG_BASE_LO, 1), (Row.LBB_INB_BASE_LO, 1),
   (Row.ILG_IMG_ADDR_LO, 1), (Row.ILG_PEER_ID_LO, 1), (Row.ILG_WORKER_ID_LO, 1), (Row.RED_NODE_ID_LO, 1)]

/-- How many words of the same value follow the word (i, j) of a row, if it is the lowest. -/
def higherWords (r : RegSpec) (j : Nat) : Nat :=
  if r.base = Row.SNS_RES_CONV.base ∨ r.base = Row.SNS_RES_CYCLE.base ∨ r.base = Row.SNS_RES_ZC.base then (if j = 0 then 3 else 0)
  else if r.base = Row.BUF_LEDGER.base then (if j % 2 = 0 ∧ j < 10 then 1 else 0)
  else match wideValues.find? (fun p => p.1.base == r.base) with
    | some p => p.2
    | none => 0

def setSnap (off : Nat) (w : Word) (s : State) : State := { s with snaps := Sparse.ins (Sparse.drop s.snaps off) off w }

/-- The read of a lowest word takes the higher words with it (R51). -/
def takeSnapshot (r : RegSpec) (off j : Nat) (s : State) : State :=
  each ((List.range (higherWords r j)).map (fun k => off + 4 * (k + 1))) (fun a t => setSnap a (shown a s) t) s

/-- A count that a read clears (R9). Each is a whole word. -/
def isRc (r : RegSpec) : Bool := r.fields.any (fun f => f.acc == .rc)

/-- What moved a count in the present cycle: the word before, and by how much. -/
def movedNow (off : Nat) (s : State) : Option (Nat × Nat) := Sparse.find s.instant.counts off

/-- The word that a read returns: of a count that moved in the same cycle, the one before (R49). -/
def readWord (r : RegSpec) (off : Nat) (s : State) : Word :=
  match isRc r, movedNow off s with
  | true, some e => BitVec.ofNat 32 e.1
  | _, _ => shown off s

/-- RC registers clear; what moved one in the same cycle stays in it (R49). -/
def clearRc (r : RegSpec) (off : Nat) (s : State) : State :=
  if isRc r then
    match movedNow off s with
    | none => setR off 0 s
    | some e =>
      let x := s.instant
      let s := setR off (min e.2 0xFFFFFFFF) s
      { s with now := { x with counts := Sparse.ins (Sparse.drop x.counts off) off (0, e.2) } }
  else s

/-- A read by the host or for the manager: the word, and the state after it. -/
def readReg (off : Nat) (s : State) : Word × State :=
  let s := flushPassed s
  match locate off with
  | none => (0, s)
  | some r =>
    match r.hit off with
    | none => (0, s)
    | some (i, j) =>
      if r.base = Row.LBB_ERR_INFO.base then (let t := errorPop s; (t.host.lastRead, t))
      else if r.base = Row.TIM_SYNC_CAP_NS.base then (let t := syncPop i s; (t.host.lastRead, t))
      else
        match Sparse.find s.snaps off with
        | some w => (w, s)
        | none => (readWord r off s, s |> takeSnapshot r off j |> clearRc r off)

/-- A host read of BAR0; partial byte enables return the whole register (R45). -/
def busRead (off : Nat) (s : State) : State :=
  let r := readReg off (touchIdle s)
  { r.2 with host := { r.2.host with lastRead := r.1 } }

/-! ### Writes -/

/-- Where a write comes from, with the code that records of it carry (R528). -/
inductive Source where
  | host
  | image
  | manager
  deriving DecidableEq, Repr

def Source.code (x : Source) : Nat :=
  match x with
  | .host => 0
  | .image => 1
  | .manager => 2

/-- A denied write is counted and recorded with the attempted value; nothing else changes (R54, R66). -/
def deny (x : Source) (role off : Nat) (v : Word) (s : State) : State :=
  s |> count Reg.ROL_DENY_COUNT |> recordPairAs role 0x15 (dle 3 off ++ [x.code] ++ dle 4 v.toNat) (dle 4 (shown off s).toNat)

/-- The content of a register after a write, with the bits a WO or W1S field was written (R68). -/
def Write.content (w : Write) (t : State) : Word :=
  w.row.fields.foldl (fun u f => match f.acc with
    | .wo | .w1s => putField u f.lo f.width (f.of w.word)
    | _ => u) (shown w.off t)

/-- The write of an entry of the live route bank (R134). -/
def Write.live (w : Write) (s : State) : Bool := w.row.base == Row.EPO_ROUTE.base && w.i == liveBank s

/-- The REG_WRITE record of an allowed write (R66 to R68). -/
def noteWrite (x : Source) (role : Nat) (w : Write) (old : Word) (t : State) : State :=
  if x ≠ .image ∧ (role ≠ 0 ∨ w.row.marked) then
    recordPairAs role 0x14 (dle 3 w.off ++ [x.code] ++ dle 4 (w.content t).toNat) (dle 4 old.toNat) t
  else t

/-- The word is stored, clamped and forced, with the count of R38; a bad word is rewritten (R589). -/
def storeWrite (w : Write) (s : State) : State :=
  w.store s |> whenT (w.clamps s) (count Reg.GLB_CLAMP_COUNT)
    |> modFab (fun x => { x with badWords := x.badWords.filter (fun b => !(4 ≤ b.1 && b.2 == w.off)) })

/-- A write that has reached its register: denied whole, or stored, recorded, and its effect taken. A ROLE_DROP record
stands before the record of the write that made it, by its type (R531). -/
def applyWrite (x : Source) (role : Nat) (w : Write) (v : Word) (s : State) : State :=
  if w.live s then s |> count Reg.EPO_LIVE_WRITES |> noteWrite x role w (shown w.off s)
  else if !w.mayStore role s then deny x role w.off v s
  else
    let t := storeWrite w s
    let old := (s.reg w.off).toNat
    if w.row.base = Row.ROL_DROP.base then t |> hook w.row w.i w.j old w.word.toNat |> noteWrite x role w (shown w.off s)
    else t |> noteWrite x role w (shown w.off s) |> hook w.row w.i w.j old w.word.toNat

/-- An offset of the ROL block (R583). -/
def inRol (off : Nat) : Bool := decide (0x10000 ≤ off) && decide (off < 0x20000)

/-- Host writes outside the ROL block are denied (R75). -/
def closed (s : State) (off : Nat) : Bool := !inRol off && (decide (s.image.boot ≠ .ended) || imgState s != 0)

/-- A host write of BAR0 with all byte enables set; others are ignored (R45). -/
def busWrite (off : Nat) (v : Word) (s : State) : State :=
  let s := touchIdle s
  match writeOf off v with
  | none => s
  | some w => if closed s off then deny .host s.role off v s else applyWrite .host s.role w v s

def busWriteBe (off : Nat) (v : Word) (be : BitVec 4) (s : State) : State :=
  if be = 15#4 then busWrite off v s else touchIdle s

/-! ### Records of a setting image (R71 to R74, R588) -/

/-- A write of an image record with the rights of its level; ROL registers are closed to it (R73). -/
def imageWrite (role off : Nat) (v : Word) (s : State) : State :=
  if inRol off then deny .image s.role off v s
  else
    match writeOf off v with
    | none => s
    | some w =>
      if w.live s then count Reg.EPO_LIVE_WRITES s
      else if !w.mayStore role s then deny .image s.role off v s
      else storeWrite w s |> hook w.row w.i w.j (s.reg off).toNat w.word.toNat

/-- The stored bits of the RW fields of a word; 0 elsewhere. -/
def rwBits (off : Nat) (s : State) : Word :=
  match locate off with
  | none => 0
  | some r => r.fields.foldl (fun w f => match f.acc with
      | .rw => putField w f.lo f.width (f.of (s.reg off))
      | _ => w) 0

/-- A WRITE record: the masked bits of the value over the stored ones. -/
def maskedWrite (role off : Nat) (v mask : Word) (s : State) : State :=
  imageWrite role off ((rwBits off s &&& ~~~mask) ||| (v &&& mask)) s

/-- The record is done: the next one, or the abort that was asked for. -/
def nextRecord (len : Nat) (s : State) : State :=
  let s := modImage (fun i => { i with pos := i.pos + len, index := i.index + 1, wait := .none }) s
  if s.image.abort then imageEnd 0x18 s.image.index s else s

def pollOk (addr mask value : Nat) (s : State) : Bool := (shown addr s).toNat &&& mask == value

def recordWaitUs (v : Nat) : Nat := max 1 (min v 1000000)

/-- What a record does, its bytes given (R71). -/
def doRecord (role : Nat) (h : ImgHead) (b : List Byte) (s : State) : State :=
  let word := fun k => BitVec.ofNat 32 (beAt b k 4)
  let a := beAt b 4 4
  match h.rtype with
  | 1 => s |> maskedWrite role a (word 8) (word 12) |> nextRecord h.len
  | 2 => s |> each (List.range ((h.len - 12) / 4)) (fun k => imageWrite role (a + 4 * k) (word (12 + 4 * k))) |> nextRecord h.len
  | 3 =>
    if pollOk a (beAt b 8 4) (beAt b 12 4) s then nextRecord h.len s
    else modImage (fun i => { i with wait := .poll a (beAt b 8 4) (beAt b 12 4) (s.cycle + recordWaitUs (beAt b 16 4) * cyclesPerUs) }) s
  | _ => modImage (fun i => { i with wait := .delay (s.cycle + recordWaitUs a * cyclesPerUs) }) s

/-- The head of the record in hand, as the first walk found it. -/
def currentHead (s : State) : ImgHead := headAt (imgBody s.image.bytes) s.image.pos

/-- The bytes of the record in hand from the second read: an image of the manager's brought them in IMAGE units; else they
are those that arrive, the first record's after the 64 bytes of the header. Header and record, when all are there. -/
def secondBytes (l : List Byte) (s : State) : Option (List Byte × List Byte) :=
  let h := currentHead s
  if imgSource s = 2 then
    let r := s.ilg.rxSecond
    if r.length < 64 + h.pos + h.len then none else some (slice r 0 64, slice (r.drop 64) h.pos h.len)
  else if s.image.index = 0 then some (slice l 0 64, slice (l.drop 64) 0 h.len)
  else some ([], slice l 0 h.len)

/-- IMAGE_RECORD. -/
def imageRecord (l : List Byte) (s : State) : State :=
  if imgState s ≠ 2 ∨ s.image.wait ≠ .none then s
  else
    match secondBytes l s with
    | none => s
    | some (top, b) =>
      let h := currentHead s
      let g := headAt b 0
      if g.rtype ≠ h.rtype ∨ g.level ≠ h.level ∨ g.len ≠ h.len then imageEnd 0x19 s.image.index s
      else
        let s := modImage (fun i => { i with second := i.second ++ (if i.index = 0 then top.take 28 else []) ++ b }) s
        if h.rtype = 0 then
          imageEnd (if crc32 s.image.second ≠ s.image.crc then 0x19 else if s.image.hmacOk then 1 else 2) s.image.index s
        else if h.level = 1 ∧ !s.image.hmacOk then nextRecord h.len s
        else doRecord h.level h b s

/-- The next read of a POLL that ends at a deadline: reads are whole microseconds apart. -/
def nextPoll (deadline now : Nat) : Nat := deadline - (deadline - now) / cyclesPerUs * cyclesPerUs

/-- POLL_MATCH: the next read of a running POLL matches. -/
def pollMatch (s : State) : State :=
  match s.image.wait with
  | .poll a m v e =>
    let t := advanceTo (nextPoll e s.cycle) s
    if pollOk a m v t then nextRecord (currentHead s).len t else s
  | _ => s

/-- POLL_TIMEOUT: a match at the last read is in time (R23). -/
def pollTimeout (s : State) : State :=
  match s.image.wait with
  | .poll a m v e =>
    let t := advanceTo e s
    if pollOk a m v t then nextRecord (currentHead s).len t else imageEnd 0x16 s.image.index t
  | _ => s

/-- DELAY_EXPIRY. -/
def delayExpiry (s : State) : State :=
  match s.image.wait with
  | .delay e => s |> advanceTo e |> nextRecord (currentHead s).len
  | _ => s

/-! ### Management accesses at a worker (R494) -/

/-- A register write of the manager's, under the rules of a host access (R75, R494): the result, and the state after it. -/
def managerWrite (role off : Nat) (v : Word) (s : State) : Nat × State :=
  match writeOf off v with
  | none => (0, s)
  | some w =>
    if inRol off ∨ closed s off then (1, deny .manager role off v s)
    else if !w.live s ∧ !w.mayStore role s then (1, deny .manager role off v s)
    else (0, applyWrite .manager role w v s)

/-- A register read of the manager's: it leaves what the host last read alone. -/
def managerRead (off : Nat) (s : State) : Word × State :=
  let r := readReg off s
  (r.1, { r.2 with host := { r.2.host with lastRead := s.host.lastRead } })

/-- The response to a request, on the path to its source. -/
def mgmtRespond (g : Nat) (l : List Byte) (result : Nat) (data : Nat) (s : State) : State :=
  let head := [byte Unit.mgmt, 0, 0, byte (128 + mgmtOp l * 16 + mgmtSource l), byte (beAt l 4 1), byte (beAt l 5 1), 0, 0] ++
    be 4 (beAt l 8 4) ++ be 4 data ++ [byte result] ++ zeros 4 ++ be 2 (ownIndex s)
  queueUnit ((pathOf s (mgmtSource l)).getD g) head [] s

/-- MGMT_REQUEST_RECEIVE. -/
def mgmtRequest (g : Nat) (l : List Byte) (s : State) : State :=
  let r := mgmtReceive g (fun l => !mgmtResponse l && decide (mgmtOp l ≤ 1)) l s
  let s := r.2
  if !r.1 ∨ !isWorker s then s
  else if mgmtOp l = 1 then
    let a := managerWrite (beAt l 4 1 % 4) (beAt l 8 4) (BitVec.ofNat 32 (beAt l 12 4)) s
    mgmtRespond g l a.1 (beAt l 12 4) a.2
  else
    let a := managerRead (beAt l 8 4) s
    mgmtRespond g l 0 a.1.toNat a.2

/-! ### Status words of Filigree (R365) -/

/-- The device words 0 to 15 as read. -/
def statusWords (s : State) : List Nat :=
  [Reg.SPR_STATUS, Reg.SPR_EPOCH, Reg.SPR_DIGEST, Reg.EPO_STATUS, Reg.EPO_DIR_STATE, Reg.TIM_STATUS, Reg.TIM_OFFSET, Reg.GLB_TEMP,
    Reg.GLB_SUPPLY, Reg.GLB_CLK, Reg.BUF_AUDIT_STATUS, Reg.CAR_STATUS, Reg.CAR_OWN_OFFSET, Reg.FAB_AGG_STATE, Reg.RED_STATUS,
    Reg.TIM_TIME_SEC_LO].map (fun a => (shown a s).toNat)

end Sys2Proof.Machine
end

