-- ==== Sys2Proof/Machine/Links.lean ====
section
/-! DEFINITION. Happenings of the host interface and the trunks that reach into several blocks: failed memory requests
(R435), resets and power states of the host (R410), link training (R406), mask changes (R409), TOPOLOGY frames (R116). -/
namespace Sys2Proof.Machine

/-- The rest of a frame in cells of 128 bytes. -/
def laterCells (fuel p : Nat) (l : List Byte) (s : State) : State :=
  match fuel with
  | 0 => s
  | n + 1 => if l.isEmpty then s else s |> cellWrite p (l.take 128) |> laterCells n p (l.drop 128)

/-- TOPOLOGY_RECEIVE: the whole frame comes in and is carried to the host (R116). -/
def takeTopology (n : Nat) (l : List Byte) (back : Nat) (s : State) : State :=
  if !inCompat s ∨ !isTopology s l then s
  else s |> admissionPoint (48 + n) (l.take 128) (l.length + 4) back |> laterCells (l.length / 128) (48 + n) (l.drop 128)
    |> frameEnd (48 + n) [] .good 0

/-! ### Failed memory requests (R435) -/

/-- A TX data read fails after the first cell: the frame comes in as far as it was read and ends in a receive error. -/
def cutHostFrame (r : Nat) (j : TxJob) (got : List Byte) (s : State) : State :=
  let d := (j.slots.head?.map (·.2)).getD (zeros 32)
  let f := { hostFrame d got r j.id s with complete := false, tsRing := none }
  let g := hostFan d f s
  match dispatch g.1 g.2.1 false g.2.2 with
  | (.taken id, t) => dropFrame id Reason.fcsError t
  | (.dropped _, t) => t
  | (.waits, _) => s

/-- A read of TX data fails after `got` bytes of the frame in hand. -/
def txReadFails (r : Nat) (got : List Byte) (s : State) : State :=
  match nextReading s r with
  | none => s
  | some j => s |> whenT (decide (128 ≤ got.length)) (cutHostFrame r j got) |> txReadError r

/-- HOST_DMA_ERROR, by its kind: 0 a descriptor fetch, 1 a TX data read, 2 a read of an image. -/
def memoryRequestError (kind r addr cpl : Nat) (got : List Byte) (s : State) : State :=
  match kind with
  | 0 =>
    if ringState s r = 0 then s
    else s |> dmaError 0 r addr cpl |> setF (Fld.RNG_CTRL_err r) 1 |> forceStop (.ring (fin 64 r))
  | 1 => if (nextReading s r).isNone then s else s |> dmaError 1 r addr cpl |> txReadFails r got
  | _ =>
    if imgState s ≠ 0 ∧ imgSource s = 1 then imageReadError addr cpl s
    else if s.getF Fld.ILG_IMG_STATUS_state = 1 then s |> dmaError 2 0 addr cpl |> workerImageEnd false
    else s

/-! ### Resets, power states, link (R406, R410) -/

/-- FUNCTION_LEVEL_RESET. -/
def functionLevel (s : State) : State := s |> functionReset |> latch Fld.HST_EVENT_flr

/-- D3HOT_ENTRY. -/
def enterD3 (s : State) : State := s |> functionReset |> latch Fld.HST_EVENT_d3hot |> setF Fld.HST_LINK_dstate 3

/-- The most lanes that STRAP_PCIE gives (R406, R548); 0 with the endpoint off. -/
def lanes (s : State) : Nat :=
  match s.getF Fld.GLB_STRAP_pcie with
  | 0 => 4
  | 1 => 2
  | 2 => 1
  | _ => 0

/-- PCIE_LINK_UP: training starts at the end of the memory step (R560), over no more lanes than the strap gives. The sizes that
the root complex sets come with it (DESIGN CHOICE, assumption log 175). -/
def linkTrained (speed width payload readMax : Nat) (s : State) : State :=
  if s.pwr.stage = .pll ∨ s.pwr.stage = .memory ∨ lanes s = 0 then s
  else s |> setF Fld.HST_LINK_up 1 |> setF Fld.HST_LINK_speed speed |> setF Fld.HST_LINK_width (min width (lanes s))
    |> setF Fld.HST_LINK_dstate 0 |> modHost (fun h => { h with maxPayload := payload, maxRead := readMax })

/-- MSIX_UNMASK: one vector's mask clears, or MSI-X is enabled and the function mask clears; what is pending is sent. -/
def unmaskVectors (v : Option Nat) (s : State) : State :=
  flushMsix (match v with
    | none => s |> setF Fld.HST_LINK_msix_en 1 |> setF Fld.HST_LINK_fn_mask 0
    | some k => modHost (fun h => { h with unmasked := if h.unmasked.contains k then h.unmasked else h.unmasked ++ [k] }) s)

end Sys2Proof.Machine
end

