-- ==== Sys2Proof/Machine/CoreCmds.lean ====
section
/-! DEFINITION. The meanings of management tick, roles, registers and setting images. Each is one call of the shared operation of its
rule, after the time that led to it and where the device is in a state to take it. -/
namespace Sys2Proof.Machine

/-- MANAGEMENT_TICK (R19). -/
def execManagementTick (temp : BitVec 12) (supply : BitVec 9) (upsets : List (Nat × Nat)) (s : State) : Host.Outcome State Fault Refusal :=
  done (inTurn (whenAlive (managementTick temp supply upsets)) s)

/-- AUDIT_RESULT (R224). -/
def execAuditResult (s : State) : Host.Outcome State Fault Refusal :=
  done (inTurn (whenAlive (auditResult)) s)

/-- CLOCK_FAULT (R42). -/
def execClockFault (clk : BitVec 4) (dt : Nat) (s : State) : Host.Outcome State Fault Refusal :=
  done (whenAlive (clockFault clk) (arrive dt s))

/-- ROLE_LAPSE (R59). -/
def execRoleLapse (s : State) : Host.Outcome State Fault Refusal :=
  done (inTurn (whenAlive (roleLapse)) s)

/-- SCHEDULE_SILENCE (R323). -/
def execScheduleSilence (s : State) : Host.Outcome State Fault Refusal :=
  done (inTurn (whenRunning (scheduleSilence)) s)

/-- SILENCE_RELEASE (R323). -/
def execSilenceRelease (v : Word) (dt : Nat) (s : State) : Host.Outcome State Fault Refusal :=
  done (whenHost (busWrite Reg.CAR_RELEASE v) (arrive dt s))

/-- ENABLE_REQUEST (R26). -/
def execEnableRequest (fn : Fn) (v : Word) (dt : Nat) (s : State) : Host.Outcome State Fault Refusal :=
  done (whenHost (busWrite (fnEnable fn).reg v) (arrive dt s))

/-- SEQUENCE_COMPLETE (R26). -/
def execSequenceComplete (fn : Fn) (dt : Nat) (s : State) : Host.Outcome State Fault Refusal :=
  done (whenAlive (sequenceComplete fn) (arrive dt s))

/-- REGISTER_WRITE (R54). -/
def execRegisterWrite (off : Nat) (v : Word) (be : BitVec 4) (dt : Nat) (s : State) : Host.Outcome State Fault Refusal :=
  done (whenHost (busWriteBe off v be) (arrive dt s))

/-- RC_READ (R49). -/
def execRcRead (off : Nat) (dt : Nat) (s : State) : Host.Outcome State Fault Refusal :=
  done (whenHost (busRead off) (arrive dt s))

/-- SNAPSHOT_READ (R51). -/
def execSnapshotRead (off : Nat) (dt : Nat) (s : State) : Host.Outcome State Fault Refusal :=
  done (whenHost (busRead off) (arrive dt s))

/-- CHALLENGE (R57). -/
def execChallenge (v : Word) (dt : Nat) (s : State) : Host.Outcome State Fault Refusal :=
  done (whenHost (busWrite Reg.ROL_CHALLENGE v) (arrive dt s))

/-- NONCE_EXPIRY (R57). -/
def execNonceExpiry (s : State) : Host.Outcome State Fault Refusal :=
  done (inTurn (whenAlive (nonceExpiry)) s)

/-- UNLOCK (R56). -/
def execUnlock (v : Word) (dt : Nat) (s : State) : Host.Outcome State Fault Refusal :=
  done (whenHost (busWrite Reg.ROL_UNLOCK v) (arrive dt s))

/-- UNLOCK_COMPARE_DONE (R58). -/
def execUnlockCompareDone (s : State) : Host.Outcome State Fault Refusal :=
  done (inTurn (whenAlive (unlockCompareDone)) s)

/-- LOCKOUT_EXPIRY (R58). -/
def execLockoutExpiry (s : State) : Host.Outcome State Fault Refusal :=
  done (inTurn (whenAlive (lockoutExpiry)) s)

/-- ROLE_DROP (R60). -/
def execRoleDrop (v : Word) (dt : Nat) (s : State) : Host.Outcome State Fault Refusal :=
  done (whenHost (busWrite Reg.ROL_DROP v) (arrive dt s))

/-- KEY_ROTATE (R61). -/
def execKeyRotate (v : Word) (dt : Nat) (s : State) : Host.Outcome State Fault Refusal :=
  done (whenHost (busWrite Reg.ROL_ROTATE v) (arrive dt s))

/-- ROTATION_FLASH_DONE (R61). -/
def execRotationFlashDone (ok0 : Bool) (ok1 : Bool) (dt : Nat) (s : State) : Host.Outcome State Fault Refusal :=
  done (whenAlive (rotationDone ok0 ok1) (arrive dt s))

/-- IMAGE_START (R76). -/
def execImageStart (v : Word) (dt : Nat) (s : State) : Host.Outcome State Fault Refusal :=
  done (whenHost (busWrite Reg.ROL_IMG_CTRL v) (arrive dt s))

/-- IMAGE_ABORT (R74). -/
def execImageAbort (v : Word) (dt : Nat) (s : State) : Host.Outcome State Fault Refusal :=
  done (whenHost (busWrite Reg.ROL_IMG_CTRL v) (arrive dt s))

/-- IMAGE_CHECK_DONE (R72). -/
def execImageCheckDone (slot0 : List Byte) (slot1 : List Byte) (dt : Nat) (s : State) : Host.Outcome State Fault Refusal :=
  done (whenAlive (imageCheckDone slot0 slot1) (arrive dt s))

/-- IMAGE_RECORD (R73). -/
def execImageRecord (bytes : List Byte) (dt : Nat) (s : State) : Host.Outcome State Fault Refusal :=
  done (whenAlive (Machine.imageRecord bytes) (arrive dt s))

/-- POLL_MATCH (R71). -/
def execPollMatch (s : State) : Host.Outcome State Fault Refusal :=
  done (inTurn (whenAlive (pollMatch)) s)

/-- POLL_TIMEOUT (R71). -/
def execPollTimeout (s : State) : Host.Outcome State Fault Refusal :=
  done (inTurn (whenAlive (pollTimeout)) s)

/-- DELAY_EXPIRY (R71). -/
def execDelayExpiry (s : State) : Host.Outcome State Fault Refusal :=
  done (inTurn (whenAlive (delayExpiry)) s)

/-- IMAGE_READ_ERROR (R588). -/
def execImageReadError (addr : Nat) (cpl : Nat) (dt : Nat) (s : State) : Host.Outcome State Fault Refusal :=
  done (whenAlive (imageReadError addr cpl) (arrive dt s))

end Sys2Proof.Machine
end

