-- ==== Sys2Proof/Machine/SpireCmds.lean ====
section
/-! DEFINITION. The meanings of the Spire and inauguration commands. Each is one call of the shared operation of its
rule, after the time that led to it and where the device is in a state to take it. -/
namespace Sys2Proof.Machine

/-- TRUNK_LINK_UP (R90). -/
def execTrunkLinkUp (line : Fin 4) (speed : Fin 4) (dt : Nat) (s : State) : Host.Outcome State Fault Refusal :=
  done (whenRunning (Machine.trunkLinkUp line speed) (arrive dt s))

/-- TRUNK_LINK_DOWN (R92). -/
def execTrunkLinkDown (line : Fin 4) (dt : Nat) (s : State) : Host.Outcome State Fault Refusal :=
  done (whenRunning (Machine.trunkLinkDown line 1) (arrive dt s))

/-- BEACON_PERIOD (R90). -/
def execBeaconPeriod (s : State) : Host.Outcome State Fault Refusal :=
  done (inTurn (whenRunning (beaconPeriod)) s)

/-- ANSWER_BEACON (R90). -/
def execAnswerBeacon (line : Fin 4) (s : State) : Host.Outcome State Fault Refusal :=
  done (inTurn (whenRunning (answerBeacon line)) s)

/-- BEACON_RECEIVE (R91). -/
def execBeaconReceive (line : Fin 4) (bytes : List Byte) (back dt : Nat) (s : State) : Host.Outcome State Fault Refusal :=
  done (whenRunning (receiveSpire line bytes back) (arrive dt s))

/-- BEACON_DEADLINE (R92). -/
def execBeaconDeadline (line : Fin 4) (s : State) : Host.Outcome State Fault Refusal :=
  done (inTurn (whenRunning (beaconDeadline line)) s)

/-- COUNT_SEND (R96). -/
def execCountSend (dir : Fin 2) (s : State) : Host.Outcome State Fault Refusal :=
  done (inTurn (whenRunning (sendCount dir)) s)

/-- COUNT_RECEIVE (R97). -/
def execCountReceive (line : Fin 4) (bytes : List Byte) (dt : Nat) (s : State) : Host.Outcome State Fault Refusal :=
  done (whenRunning (receiveSpire line bytes 0) (arrive dt s))

/-- SETTLE_EXPIRY (R102). -/
def execSettleExpiry (s : State) : Host.Outcome State Fault Refusal :=
  done (inTurn (whenRunning (settleExpiry)) s)

/-- COMMIT_SEND (R102). -/
def execCommitSend (s : State) : Host.Outcome State Fault Refusal :=
  done (inTurn (whenRunning (commitOut true)) s)

/-- COMMIT_RECEIVE (R103). -/
def execCommitReceive (line : Fin 4) (bytes : List Byte) (back dt : Nat) (s : State) : Host.Outcome State Fault Refusal :=
  done (whenRunning (receiveSpire line bytes back) (arrive dt s))

/-- COMMIT_FORWARD (R104). -/
def execCommitForward (s : State) : Host.Outcome State Fault Refusal :=
  done (inTurn (whenRunning (commitOut false)) s)

/-- WAIT_TIMEOUT (R109). -/
def execWaitTimeout (s : State) : Host.Outcome State Fault Refusal :=
  done (inTurn (whenRunning (waitTimeout)) s)

/-- SWITCH_INSTANT (R106). -/
def execSwitchInstant (s : State) : Host.Outcome State Fault Refusal :=
  done (inTurn (whenRunning (switchInstant)) s)

/-- BACKOFF_EXPIRY (R111). -/
def execBackoffExpiry (s : State) : Host.Outcome State Fault Refusal :=
  done (inTurn (whenRunning (backoffExpiry)) s)

/-- LEAD_INPUT_CHANGE (R101). -/
def execLeadInputChange (level : Bool) (dt : Nat) (s : State) : Host.Outcome State Fault Refusal :=
  done (leadInput level (arrive dt s))

/-- LEAD_FILTER_ACCEPT (R101). -/
def execLeadFilterAccept (s : State) : Host.Outcome State Fault Refusal :=
  done (inTurn (whenAlive (leadAccept)) s)

/-- COMPAT_HELLO_SEND (R116). -/
def execCompatHelloSend (s : State) : Host.Outcome State Fault Refusal :=
  done (inTurn (whenRunning (helloSend)) s)

/-- COMPAT_HELLO_RECEIVE (R117). -/
def execCompatHelloReceive (line : Fin 4) (bytes : List Byte) (dt : Nat) (s : State) : Host.Outcome State Fault Refusal :=
  done (whenRunning (receiveHello line bytes) (arrive dt s))

/-- COMPAT_HELLO_TIMEOUT (R116). -/
def execCompatHelloTimeout (line : Fin 4) (s : State) : Host.Outcome State Fault Refusal :=
  done (inTurn (whenRunning (helloTimeout line)) s)

/-- TOPOLOGY_RECEIVE (R116). -/
def execTopologyReceive (line : Fin 4) (bytes : List Byte) (back dt : Nat) (s : State) : Host.Outcome State Fault Refusal :=
  done (whenRunning (takeTopology line bytes back) (arrive dt s))

/-- COMPAT_COMMIT (R118). -/
def execCompatCommit (v : Word) (dt : Nat) (s : State) : Host.Outcome State Fault Refusal :=
  done (whenHost (busWrite Reg.SPR_COMPAT_COMMIT v) (arrive dt s))

/-- COMPAT_HOLD_EXPIRY (R119). -/
def execCompatHoldExpiry (s : State) : Host.Outcome State Fault Refusal :=
  done (inTurn (whenRunning (holdExpiry)) s)

/-- ROSTER_SEND (R139). -/
def execRosterSend (dir : Fin 2) (s : State) : Host.Outcome State Fault Refusal :=
  done (inTurn (whenRunning (sendRoster dir)) s)

/-- ROSTER_RECEIVE (R140). -/
def execRosterReceive (line : Fin 4) (bytes : List Byte) (dt : Nat) (s : State) : Host.Outcome State Fault Refusal :=
  done (whenRunning (receiveRoster line bytes) (arrive dt s))

/-- GRACE_EXPIRY (R147). -/
def execGraceExpiry (s : State) : Host.Outcome State Fault Refusal :=
  done (inTurn (whenRunning (graceExpiry)) s)

/-- GRACE_REWRITE (R147). -/
def execGraceRewrite (v : Word) (dt : Nat) (s : State) : Host.Outcome State Fault Refusal :=
  done (whenHost (busWrite Reg.EPO_GRACE v) (arrive dt s))

end Sys2Proof.Machine
end

