-- ==== Sys2Proof/Machine/FabricCmds.lean ====
section
/-! DEFINITION. The meanings of the fabric, forwarding database and buffer commands. Each is one call of the shared operation of its
rule, after the time that led to it and where the device is in a state to take it. -/
namespace Sys2Proof.Machine

/-- ADMISSION_POINT (R204). -/
def execAdmissionPoint (port : Fin 52) (bytes : List Byte) (len back dt : Nat) (s : State) : Host.Outcome State Fault Refusal :=
  done (whenRunning (Machine.admissionPoint port bytes len back) (arrive dt s))

/-- CELL_WRITE (R205). -/
def execCellWrite (port : Fin 52) (bytes : List Byte) (dt : Nat) (s : State) : Host.Outcome State Fault Refusal :=
  done (whenRunning (Machine.cellWrite port bytes) (arrive dt s))

/-- FRAME_END (R184). -/
def execFrameEnd (port : Fin 52) (bytes : List Byte) (err : FrameErr) (frags dt : Nat) (s : State) : Host.Outcome State Fault Refusal :=
  done (whenRunning (Machine.frameEnd port bytes err frags) (arrive dt s))

/-- LEARN (R177). -/
def execLearn (s : State) : Host.Outcome State Fault Refusal :=
  done (inTurn (whenRunning (learnStep)) s)

/-- AGEING_SWEEP (R178). -/
def execAgeingSweep (s : State) : Host.Outcome State Fault Refusal :=
  done (inTurn (whenRunning (ageingSweep)) s)

/-- CELL_TIME (R185). -/
def execCellTime (s : State) : Host.Outcome State Fault Refusal :=
  done (inTurn (whenRunning (cellTime)) s)

/-- TX_FRAME_START (R247). -/
def execTxFrameStart (port : Fin 52) (dt : Nat) (s : State) : Host.Outcome State Fault Refusal :=
  done (whenRunning (Machine.txFrameStart port) (arrive dt s))

/-- PREEMPTION (R252). -/
def execPreemption (line : Fin 4) (sent : Nat) (dt : Nat) (s : State) : Host.Outcome State Fault Refusal :=
  done (whenRunning (preempt line sent) (arrive dt s))

/-- TX_FRAME_END (R215). -/
def execTxFrameEnd (port : Fin 52) (dt : Nat) (s : State) : Host.Outcome State Fault Refusal :=
  done (whenRunning (Machine.txFrameEnd port) (arrive dt s))

/-- REVERT_START (R193). -/
def execRevertStart (dir : Fin 2) (s : State) : Host.Outcome State Fault Refusal :=
  done (inTurn (whenRunning (Machine.revertStart dir)) s)

/-- REVERT_DRAIN_MAX (R193). -/
def execRevertDrainMax (dir : Fin 2) (cls : Fin 8) (s : State) : Host.Outcome State Fault Refusal :=
  done (inTurn (whenRunning (revertForce dir cls)) s)

/-- REVERT_ENABLE (R193). -/
def execRevertEnable (v : Word) (dt : Nat) (s : State) : Host.Outcome State Fault Refusal :=
  done (whenHost (busWrite Reg.FAB_AGG_CTRL v) (arrive dt s))

/-- FDB_NOP (R179). -/
def execFdbNop (v : Word) (dt : Nat) (s : State) : Host.Outcome State Fault Refusal :=
  done (whenHost (busWrite Reg.FDB_CMD v) (arrive dt s))

/-- FDB_LOOKUP (R179). -/
def execFdbLookup (v : Word) (dt : Nat) (s : State) : Host.Outcome State Fault Refusal :=
  done (whenHost (busWrite Reg.FDB_CMD v) (arrive dt s))

/-- FDB_INSERT (R179). -/
def execFdbInsert (v : Word) (dt : Nat) (s : State) : Host.Outcome State Fault Refusal :=
  done (whenHost (busWrite Reg.FDB_CMD v) (arrive dt s))

/-- FDB_DELETE (R179). -/
def execFdbDelete (v : Word) (dt : Nat) (s : State) : Host.Outcome State Fault Refusal :=
  done (whenHost (busWrite Reg.FDB_CMD v) (arrive dt s))

/-- FDB_FLUSH (R179). -/
def execFdbFlush (v : Word) (dt : Nat) (s : State) : Host.Outcome State Fault Refusal :=
  done (whenHost (busWrite Reg.FDB_CMD v) (arrive dt s))

/-- FDB_READ (R179). -/
def execFdbRead (v : Word) (dt : Nat) (s : State) : Host.Outcome State Fault Refusal :=
  done (whenHost (busWrite Reg.FDB_CMD v) (arrive dt s))

/-- FDB_COMMAND_DONE (R179). -/
def execFdbCommandDone (s : State) : Host.Outcome State Fault Refusal :=
  done (inTurn (whenRunning (fdbDone)) s)

end Sys2Proof.Machine
end

