-- ==== Sys2Proof/Machine/MacCmds.lean ====
section
/-! DEFINITION. The meanings of the port commands. Each is one call of the shared operation of its
rule, after the time that led to it and where the device is in a state to take it. -/
namespace Sys2Proof.Machine

/-- EDGE_LINK_CHANGE (R235). -/
def execEdgeLinkChange (port : Fin 48) (up : Bool) (speed : Fin 4) (full : Bool) (dt : Nat) (s : State) : Host.Outcome State Fault Refusal :=
  done (whenRunning (edgeLink port up speed full) (arrive dt s))

/-- PAUSE_RECEIVE (R244). -/
def execPauseReceive (port : Fin 48) (bytes : List Byte) (dt : Nat) (s : State) : Host.Outcome State Fault Refusal :=
  done (whenRunning (Machine.pauseReceive port bytes) (arrive dt s))

/-- PAUSE_EXPIRY (R244). -/
def execPauseExpiry (port : Fin 48) (cls : Fin 9) (s : State) : Host.Outcome State Fault Refusal :=
  done (inTurn (whenRunning (Machine.pauseExpiry port cls)) s)

/-- FLOW_CONTROL_FRAME (R245). -/
def execFlowControlFrame (port : Fin 48) (s : State) : Host.Outcome State Fault Refusal :=
  done (inTurn (whenRunning (Machine.flowControlFrame port)) s)

/-- FC_REFRESH (R245). -/
def execFcRefresh (port : Fin 48) (s : State) : Host.Outcome State Fault Refusal :=
  done (inTurn (whenRunning (Machine.fcRefresh port)) s)

/-- COLLISION (R239). -/
def execCollision (port : Fin 48) (dt : Nat) (s : State) : Host.Outcome State Fault Refusal :=
  done (whenRunning (Machine.collision port) (arrive dt s))

/-- HD_BACKOFF_EXPIRY (R238). -/
def execHdBackoffExpiry (port : Fin 48) (s : State) : Host.Outcome State Fault Refusal :=
  done (inTurn (whenRunning (backoffDone port)) s)

/-- VERIFY_SEND (R252). -/
def execVerifySend (line : Fin 4) (s : State) : Host.Outcome State Fault Refusal :=
  done (inTurn (whenRunning (Machine.verifySend line)) s)

/-- VERIFY_RESPONSE (R252). -/
def execVerifyResponse (line : Fin 4) (dt : Nat) (s : State) : Host.Outcome State Fault Refusal :=
  done (whenRunning (Machine.verifyResponse line) (arrive dt s))

/-- PREEMPT_CONFIG_WRITE (R252). -/
def execPreemptConfigWrite (line : Fin 4) (v : Word) (dt : Nat) (s : State) : Host.Outcome State Fault Refusal :=
  done (whenHost (busWrite (Reg.TPT_PREEMPT line) v) (arrive dt s))

/-- DRAIN_EXPIRY (R257). -/
def execDrainExpiry (port : Fin 48) (s : State) : Host.Outcome State Fault Refusal :=
  done (inTurn (whenRunning (Machine.drainExpiry port)) s)

/-- DRAIN_REWRITE (R257). -/
def execDrainRewrite (port : Fin 48) (v : Word) (dt : Nat) (s : State) : Host.Outcome State Fault Refusal :=
  done (whenHost (busWrite (Reg.EPT_CTRL port) v) (arrive dt s))

/-- MST_CLEAR (R260). -/
def execMstClear (v : Word) (dt : Nat) (s : State) : Host.Outcome State Fault Refusal :=
  done (whenHost (busWrite Reg.MST_CLEAR v) (arrive dt s))

end Sys2Proof.Machine
end

