-- ==== Sys2Proof/Machine/TimeCmds.lean ====
section
/-! DEFINITION. The meanings of the time, phase and Carillon commands. Each is one call of the shared operation of its
rule, after the time that led to it and where the device is in a state to take it. -/
namespace Sys2Proof.Machine

/-- SYNC_SEND (R291). -/
def execSyncSend (s : State) : Host.Outcome State Fault Refusal :=
  done (inTurn (whenRunning (syncSend)) s)

/-- SYNC_RECEIVE (R292). -/
def execSyncReceive (line : Fin 4) (bytes : List Byte) (back dt : Nat) (s : State) : Host.Outcome State Fault Refusal :=
  done (whenRunning (receiveSync line bytes back) (arrive dt s))

/-- SLEW_END (R283). -/
def execSlewEnd (s : State) : Host.Outcome State Fault Refusal :=
  done (inTurn (whenAlive (slewEnd)) s)

/-- SYNC_TIMEOUT (R286). -/
def execSyncTimeout (s : State) : Host.Outcome State Fault Refusal :=
  done (inTurn (whenRunning (syncTimeout)) s)

/-- TIME_ADJUST (R283). -/
def execTimeAdjust (v : Word) (dt : Nat) (s : State) : Host.Outcome State Fault Refusal :=
  done (whenHost (busWrite Reg.TIM_ADJ_CTRL v) (arrive dt s))

/-- RATE_WRITE (R285). -/
def execRateWrite (v : Word) (dt : Nat) (s : State) : Host.Outcome State Fault Refusal :=
  done (whenHost (busWrite Reg.TIM_RATE v) (arrive dt s))

/-- PERMIT_GRANT (R284). -/
def execPermitGrant (v : Word) (dt : Nat) (s : State) : Host.Outcome State Fault Refusal :=
  done (whenHost (busWrite Reg.TIM_PERMIT v) (arrive dt s))

/-- PERMIT_LAPSE (R284). -/
def execPermitLapse (s : State) : Host.Outcome State Fault Refusal :=
  done (inTurn (whenAlive (permitLapse)) s)

/-- ADDEND_WRITE (R288). -/
def execAddendWrite (v : Word) (dt : Nat) (s : State) : Host.Outcome State Fault Refusal :=
  done (whenHost (busWrite Reg.TIM_ADDEND_HI v) (arrive dt s))

/-- MERGE_TIMEOUT (R295). -/
def execMergeTimeout (s : State) : Host.Outcome State Fault Refusal :=
  done (inTurn (whenRunning (mergeTimeout)) s)

/-- MERGE_WAIT_EXPIRY (R295). -/
def execMergeWaitExpiry (s : State) : Host.Outcome State Fault Refusal :=
  done (inTurn (whenRunning (mergeWaitExpiry)) s)

/-- CORRELATION_LATCH (R296). -/
def execCorrelationLatch (v : Word) (dt : Nat) (s : State) : Host.Outcome State Fault Refusal :=
  done (whenHost (busWrite Reg.TIM_CORR_CTRL v) (arrive dt s))

/-- SYNC_PIN_CAPTURE (R297). -/
def execSyncPinCapture (pin : Fin 4) (level : Bool) (dt : Nat) (s : State) : Host.Outcome State Fault Refusal :=
  done (syncPinIn pin level (arrive dt s))

/-- SYNC_CAPTURE_POP (R297). -/
def execSyncCapturePop (pin : Fin 4) (dt : Nat) (s : State) : Host.Outcome State Fault Refusal :=
  done (whenHost (busRead (Reg.TIM_SYNC_CAP_NS pin)) (arrive dt s))

/-- PPS_PULSE (R298). -/
def execPpsPulse (pin : Fin 4) (s : State) : Host.Outcome State Fault Refusal :=
  done (inTurn (whenRunning (Machine.ppsPulse pin)) s)

/-- PPS_END (R298). -/
def execPpsEnd (pin : Fin 4) (s : State) : Host.Outcome State Fault Refusal :=
  done (inTurn (whenRunning (Machine.ppsEnd pin)) s)

/-- PHASE_REFERENCE (R306). -/
def execPhaseReference (dom : Fin 8) (kind : RefEdge) (dt : Nat) (s : State) : Host.Outcome State Fault Refusal :=
  done (whenRunning (Machine.phaseReference dom kind) (arrive dt s))

/-- REFERENCE_MISS (R308). -/
def execReferenceMiss (dom : Fin 8) (s : State) : Host.Outcome State Fault Refusal :=
  done (inTurn (whenRunning (Machine.referenceMiss dom)) s)

/-- TACH_STILL (R308). -/
def execTachStill (dom : Fin 8) (s : State) : Host.Outcome State Fault Refusal :=
  done (inTurn (whenRunning (Machine.tachStill dom)) s)

/-- PD0_LIMIT (R311). -/
def execPd0Limit (s : State) : Host.Outcome State Fault Refusal :=
  done (inTurn (whenRunning (pd0Limit)) s)

/-- PHASE_OFFSET_WRITE (R316). -/
def execPhaseOffsetWrite (dom : Fin 8) (v : Word) (dt : Nat) (s : State) : Host.Outcome State Fault Refusal :=
  done (whenHost (busWrite (Reg.PHS_OFFSET dom) v) (arrive dt s))

/-- CARILLON_FIRE (R315). -/
def execCarillonFire (s : State) : Host.Outcome State Fault Refusal :=
  done (inTurn (whenRunning (carillonFire)) s)

/-- EVENT_ENTRY_WRITE (R314). -/
def execEventEntryWrite (ev : Fin 4096) (v : Word) (dt : Nat) (s : State) : Host.Outcome State Fault Refusal :=
  done (whenHost (busWrite (Reg.CAR_EVT1 ev) v) (arrive dt s))

end Sys2Proof.Machine
end

