-- ==== Sys2Proof/Machine/CanCmds.lean ====
section
/-! DEFINITION. The meanings of the CAN and time-triggered commands. Each is one call of the shared operation of its
rule, after the time that led to it and where the device is in a state to take it. -/
namespace Sys2Proof.Machine

/-- CAN_FRAME_RECEIVE (R338). -/
def execCanFrameReceive (ch : Fin 16) (f : CanFrame) (len : Nat) (dt : Nat) (s : State) : Host.Outcome State Fault Refusal :=
  done (whenRunning (canReceive ch f len) (arrive dt s))

/-- CAN_TX_RECORD (R341). -/
def execCanTxRecord (ring : Fin 64) (bytes : List Byte) (dt : Nat) (s : State) : Host.Outcome State Fault Refusal :=
  done (whenRunning (Machine.canTxRecord ring bytes) (arrive dt s))

/-- CAN_ARBITRATION (R342). -/
def execCanArbitration (ch : Fin 16) (tdcv : BitVec 7) (dt : Nat) (s : State) : Host.Outcome State Fault Refusal :=
  done (whenRunning (canArbitrate ch tdcv.toNat) (arrive dt s))

/-- CAN_TX_ACKNOWLEDGED (R345). -/
def execCanTxAcknowledged (ch : Fin 16) (dt : Nat) (s : State) : Host.Outcome State Fault Refusal :=
  done (whenRunning (canAcked ch) (arrive dt s))

/-- CAN_ACK_ERROR (R345). -/
def execCanAckError (ch : Fin 16) (dominant : Bool) (dt : Nat) (s : State) : Host.Outcome State Fault Refusal :=
  done (whenRunning (Machine.canAckError ch dominant) (arrive dt s))

/-- LONELY_RETRY (R347). -/
def execLonelyRetry (ch : Fin 16) (s : State) : Host.Outcome State Fault Refusal :=
  done (inTurn (whenRunning (Machine.lonelyRetry ch)) s)

/-- CAN_BUS_ERROR (R344). -/
def execCanBusError (ch : Fin 16) (kind : BusError) (transmitting : Bool) (flag : Bool) (dt : Nat) (s : State) : Host.Outcome State Fault Refusal :=
  done (whenRunning (Machine.canBusError ch kind transmitting flag) (arrive dt s))

/-- CAN_RECOVER (R348). -/
def execCanRecover (ch : Fin 16) (v : Word) (dt : Nat) (s : State) : Host.Outcome State Fault Refusal :=
  done (whenHost (busWrite (Reg.CAN_CTRL ch) v) (arrive dt s))

/-- CAN_RECOVERY_DONE (R348). -/
def execCanRecoveryDone (ch : Fin 16) (s : State) : Host.Outcome State Fault Refusal :=
  done (inTurn (whenRunning (canRecovered ch)) s)

/-- TT_TX_TRIGGER (R358). -/
def execTtTxTrigger (trig : Fin 64) (s : State) : Host.Outcome State Fault Refusal :=
  done (inTurn (whenRunning (ttTx trig)) s)

/-- TT_WINDOW_END (R354). -/
def execTtWindowEnd (s : State) : Host.Outcome State Fault Refusal :=
  done (inTurn (whenRunning (ttWindowEnd)) s)

/-- TT_RX_TRIGGER (R354). -/
def execTtRxTrigger (trig : Fin 64) (s : State) : Host.Outcome State Fault Refusal :=
  done (inTurn (whenRunning (ttRx trig)) s)

/-- TT_ARB_TRIGGER (R354). -/
def execTtArbTrigger (trig : Fin 64) (s : State) : Host.Outcome State Fault Refusal :=
  done (inTurn (whenRunning (ttArb trig)) s)

/-- TT_REF_TRIGGER (R353). -/
def execTtRefTrigger (trig : Fin 64) (s : State) : Host.Outcome State Fault Refusal :=
  done (inTurn (whenRunning (ttRef trig)) s)

/-- TT_WATCH_TRIGGER (R354). -/
def execTtWatchTrigger (trig : Fin 64) (s : State) : Host.Outcome State Fault Refusal :=
  done (inTurn (whenRunning (ttWatch trig)) s)

/-- MAILBOX_LOAD (R357). -/
def execMailboxLoad (ring : Fin 64) (bytes : List Byte) (dt : Nat) (s : State) : Host.Outcome State Fault Refusal :=
  done (whenRunning (Machine.mailboxLoad ring bytes) (arrive dt s))

end Sys2Proof.Machine
end

