-- ==== Sys2Proof/Machine/FiligreeCmds.lean ====
section
/-! DEFINITION. The meanings of the Filigree commands. Each is one call of the shared operation of its
rule, after the time that led to it and where the device is in a state to take it. -/
namespace Sys2Proof.Machine

/-- FIL_ETH_FRAME (R364). -/
def execFilEthFrame (s : State) : Host.Outcome State Fault Refusal :=
  done (inTurn (whenRunning (filEthFrame)) s)

/-- STATUS_SAMPLE (R365). -/
def execStatusSample (s : State) : Host.Outcome State Fault Refusal :=
  done (inTurn (whenRunning (Machine.statusSample statusWords)) s)

/-- HOST_WORD_WRITE (R365). -/
def execHostWordWrite (i : Fin 16) (v : Word) (dt : Nat) (s : State) : Host.Outcome State Fault Refusal :=
  done (whenHost (busWrite (Reg.FIL_HOST_WORD i) v) (arrive dt s))

/-- SOURCE_JOB (R376). -/
def execSourceJob (s : State) : Host.Outcome State Fault Refusal :=
  done (inTurn (whenRunning (sourceJob)) s)

/-- CHANGE_EMISSION_DUE (R373). -/
def execChangeEmissionDue (tpl : Fin 2048) (s : State) : Host.Outcome State Fault Refusal :=
  done (inTurn (whenRunning (changeDue tpl)) s)

/-- EMISSION (R372). -/
def execEmission (s : State) : Host.Outcome State Fault Refusal :=
  done (inTurn (whenRunning (emission)) s)

/-- FIL_HOLD (R380). -/
def execFilHold (v : Word) (dt : Nat) (s : State) : Host.Outcome State Fault Refusal :=
  done (whenHost (busWrite Reg.FIL_CTRL v) (arrive dt s))

/-- FIL_RELEASE (R380). -/
def execFilRelease (v : Word) (dt : Nat) (s : State) : Host.Outcome State Fault Refusal :=
  done (whenHost (busWrite Reg.FIL_CTRL v) (arrive dt s))

end Sys2Proof.Machine
end

