-- ==== Sys2Proof/Machine/SenseCmds.lean ====
section
/-! DEFINITION. The meanings of the sense and drive commands. Each is one call of the shared operation of its
rule, after the time that led to it and where the device is in a state to take it. -/
namespace Sys2Proof.Machine

/-- SENSE_SAMPLE (R388). -/
def execSenseSample (inp : Fin 32) (bits : List Bool) (dt : Nat) (s : State) : Host.Outcome State Fault Refusal :=
  done (whenRunning (Machine.senseSample inp bits) (arrive dt s))

/-- INPUT_STUCK (R387). -/
def execInputStuck (inp : Fin 32) (level : Bool) (dt : Nat) (s : State) : Host.Outcome State Fault Refusal :=
  done (whenRunning (Machine.inputStuck inp level) (arrive dt s))

/-- HOST_CONVERT (R391). -/
def execHostConvert (v : Word) (dt : Nat) (s : State) : Host.Outcome State Fault Refusal :=
  done (whenHost (busWrite Reg.SNS_CONVERT v) (arrive dt s))

/-- DRIVE_LEVEL_WRITE (R395). -/
def execDriveLevelWrite (v : Word) (dt : Nat) (s : State) : Host.Outcome State Fault Refusal :=
  done (whenHost (busWrite Reg.DRV_LEVEL v) (arrive dt s))

/-- DRIVE_PHASE_PASS (R395). -/
def execDrivePhasePass (out : Fin 32) (s : State) : Host.Outcome State Fault Refusal :=
  done (inTurn (whenRunning (drivePass out)) s)

/-- READBACK_DELAY_END (R398). -/
def execReadbackDelayEnd (out : Fin 32) (s : State) : Host.Outcome State Fault Refusal :=
  done (inTurn (whenRunning (readbackStart out)) s)

/-- READBACK_FAULT (R398). -/
def execReadbackFault (out : Fin 32) (s : State) : Host.Outcome State Fault Refusal :=
  done (inTurn (whenRunning (Machine.readbackFault out)) s)

/-- PROVE_WINDOW_OPEN (R399). -/
def execProveWindowOpen (out : Fin 32) (s : State) : Host.Outcome State Fault Refusal :=
  done (inTurn (whenRunning (proveOpen out)) s)

end Sys2Proof.Machine
end

