-- ==== Sys2Proof/Machine/HostCmds.lean ====
section
/-! DEFINITION. The meanings of the host interface and ring commands. Each is one call of the shared operation of its
rule, after the time that led to it and where the device is in a state to take it. -/
namespace Sys2Proof.Machine

/-- DOORBELL (R413). -/
def execDoorbell (ring : Fin 64) (v : Word) (dt : Nat) (s : State) : Host.Outcome State Fault Refusal :=
  done (whenHost (doorbellArrives ring v.toNat) (arrive dt s))

/-- TX_DESCRIPTOR_FETCH (R421). -/
def execTxDescriptorFetch (ring : Fin 64) (descs : List (List Byte)) (dt : Nat) (s : State) : Host.Outcome State Fault Refusal :=
  done (whenRunning (txFetched ring descs) (arrive dt s))

/-- TX_DATA_READ (R418). -/
def execTxDataRead (ring : Fin 64) (bytes : List Byte) (dt : Nat) (s : State) : Host.Outcome State Fault Refusal :=
  done (whenRunning (Machine.txDataRead ring bytes) (arrive dt s))

/-- RING_WRITE (R424). -/
def execRingWrite (s : State) : Host.Outcome State Fault Refusal :=
  done (inTurn (whenRunning (ringWrite)) s)

/-- STALL_WAIT_EXPIRY (R425). -/
def execStallWaitExpiry (ring : Fin 64) (s : State) : Host.Outcome State Fault Refusal :=
  done (inTurn (whenRunning (stallExpiry ring)) s)

/-- CAPTURE_WRITE (R430). -/
def execCaptureWrite (s : State) : Host.Outcome State Fault Refusal :=
  done (inTurn (whenRunning (captureWrite)) s)

/-- MODERATION_TIMER (R431). -/
def execModerationTimer (ring : Fin 64) (s : State) : Host.Outcome State Fault Refusal :=
  done (inTurn (whenRunning (Machine.moderationTimer ring)) s)

/-- MSIX_UNMASK (R409). -/
def execMsixUnmask (vec : Option (Fin 72)) (dt : Nat) (s : State) : Host.Outcome State Fault Refusal :=
  done (whenHost (unmaskVectors (vec.map (·.val))) (arrive dt s))

/-- MISC_ACK (R433). -/
def execMiscAck (v : Word) (dt : Nat) (s : State) : Host.Outcome State Fault Refusal :=
  done (whenHost (busWrite Reg.HST_MISC_ACK v) (arrive dt s))

/-- WATCHDOG_KICK (R436). -/
def execWatchdogKick (_v : Word) (dt : Nat) (s : State) : Host.Outcome State Fault Refusal :=
  done (whenHost (wdogKick) (arrive dt s))

/-- WATCHDOG_EXPIRY (R436). -/
def execWatchdogExpiry (s : State) : Host.Outcome State Fault Refusal :=
  done (inTurn (whenAlive (wdogExpiry)) s)

/-- WATCHDOG_CONFIG (R436). -/
def execWatchdogConfig (v : Word) (dt : Nat) (s : State) : Host.Outcome State Fault Refusal :=
  done (whenHost (busWrite Reg.HST_WDOG_CTRL v) (arrive dt s))

/-- HOST_DMA_ERROR (R435). -/
def execHostDmaError (kind : Fin 3) (ring : Fin 64) (addr : Nat) (cpl : Nat) (got : List Byte) (dt : Nat) (s : State) : Host.Outcome State Fault Refusal :=
  done (whenAlive (memoryRequestError kind ring addr cpl got) (arrive dt s))

/-- FUNCTION_LEVEL_RESET (R410). -/
def execFunctionLevelReset (dt : Nat) (s : State) : Host.Outcome State Fault Refusal :=
  done (whenAlive (functionLevel) (arrive dt s))

/-- PCIE_LINK_DOWN (R410). -/
def execPcieLinkDown (dt : Nat) (s : State) : Host.Outcome State Fault Refusal :=
  done (whenAlive (linkLost) (arrive dt s))

/-- D3HOT_ENTRY (R410). -/
def execD3hotEntry (dt : Nat) (s : State) : Host.Outcome State Fault Refusal :=
  done (whenAlive (enterD3) (arrive dt s))

/-- BUS_MASTER_CLEAR (R410). -/
def execBusMasterClear (dt : Nat) (s : State) : Host.Outcome State Fault Refusal :=
  done (whenAlive busMasterClear (arrive dt s))

/-- PCIE_LINK_UP (R406). -/
def execPcieLinkUp (speed width : Nat) (payload : Fin 3) (readMax : Fin 6) (dt : Nat) (s : State) : Host.Outcome State Fault Refusal :=
  done (whenAlive (linkTrained speed width (128 * 2 ^ payload.val) (128 * 2 ^ readMax.val)) (arrive dt s))

end Sys2Proof.Machine
end

