-- ==== Sys2Proof/Machine/LocalBusCmds.lean ====
section
/-! DEFINITION. The meanings of the local bus and CRC commands. Each is one call of the shared operation of its
rule, after the time that led to it and where the device is in a state to take it. -/
namespace Sys2Proof.Machine

/-- BAR4_WRITE (R448). -/
def execBar4Write (addr : BitVec 26) (data : List (Option Byte)) (dt : Nat) (s : State) : Host.Outcome State Fault Refusal :=
  done (whenHost (Machine.bar4Write addr.toNat data) (arrive dt s))

/-- BAR4_READ (R450). -/
def execBar4Read (addr : BitVec 26) (enables : List Bool) (dt : Nat) (s : State) : Host.Outcome State Fault Refusal :=
  done (whenHost (Machine.bar4Read addr.toNat enables) (arrive dt s))

/-- LOCAL_CYCLE_END (R445). -/
def execLocalCycleEnd (data : BitVec 16) (parityOk : Bool) (dt : Nat) (s : State) : Host.Outcome State Fault Refusal :=
  done (inTurn (whenRunning (Machine.localCycleEnd data.toNat parityOk (s.cycle + dt))) s)

/-- NO_READY (R446). -/
def execNoReady (s : State) : Host.Outcome State Fault Refusal :=
  done (inTurn (whenRunning (noReady)) s)

/-- READ_TIMEOUT (R451). -/
def execReadTimeout (tag : Fin 8) (s : State) : Host.Outcome State Fault Refusal :=
  done (inTurn (whenRunning (Machine.readTimeout tag)) s)

/-- PREFETCH_EXPIRY (R452). -/
def execPrefetchExpiry (cs : Fin 4) (s : State) : Host.Outcome State Fault Refusal :=
  done (inTurn (whenRunning (Machine.prefetchExpiry cs)) s)

/-- BUS_REQUEST (R454). -/
def execBusRequest (dt : Nat) (s : State) : Host.Outcome State Fault Refusal :=
  done (busRequest (arrive dt s))

/-- TENURE_END (R454). -/
def execTenureEnd (dt : Nat) (s : State) : Host.Outcome State Fault Refusal :=
  done (tenureEnd (arrive dt s))

/-- TENURE_EXPIRY (R454). -/
def execTenureExpiry (s : State) : Host.Outcome State Fault Refusal :=
  done (inTurn (whenRunning (tenureExpiry)) s)

/-- INBOUND_WRITE (R455). -/
def execInboundWrite (addr : BitVec 24) (upper : Bool) (data : BitVec 16) (parityOk : BitVec 2) (dt : Nat) (s : State) : Host.Outcome State Fault Refusal :=
  done (whenRunning (Machine.inboundWrite addr.toNat upper data.toNat parityOk.toNat) (arrive dt s))

/-- INBOUND_READ (R455). -/
def execInboundRead (addr : BitVec 24) (dt : Nat) (s : State) : Host.Outcome State Fault Refusal :=
  done (whenRunning (Machine.inboundRead addr.toNat) (arrive dt s))

/-- INBOUND_FLUSH (R456). -/
def execInboundFlush (s : State) : Host.Outcome State Fault Refusal :=
  done (inTurn (whenRunning (inboundFlush)) s)

/-- LIRQ_EDGE (R457). -/
def execLirqEdge (n : Fin 8) (rising : Bool) (dt : Nat) (s : State) : Host.Outcome State Fault Refusal :=
  done (whenRunning (Machine.lirqEdge n rising) (arrive dt s))

/-- CLASP_ACQUIRE (R459). -/
def execClaspAcquire (v : Word) (dt : Nat) (s : State) : Host.Outcome State Fault Refusal :=
  done (whenHost (busWrite Reg.LBB_CLASP_CTRL v) (arrive dt s))

/-- CLASP_RELEASE (R459). -/
def execClaspRelease (v : Word) (dt : Nat) (s : State) : Host.Outcome State Fault Refusal :=
  done (whenHost (busWrite Reg.LBB_CLASP_CTRL v) (arrive dt s))

/-- CLASP_EXPIRY (R459). -/
def execClaspExpiry (s : State) : Host.Outcome State Fault Refusal :=
  done (inTurn (whenRunning (claspExpiry)) s)

/-- ERROR_LOG_POP (R461). -/
def execErrorLogPop (dt : Nat) (s : State) : Host.Outcome State Fault Refusal :=
  done (whenHost (busRead Reg.LBB_ERR_INFO) (arrive dt s))

/-- CRC_RESTART (R469). -/
def execCrcRestart (u : Fin 4) (v : Word) (dt : Nat) (s : State) : Host.Outcome State Fault Refusal :=
  done (whenHost (busWrite (Reg.CRC_CTRL u) v) (arrive dt s))

/-- CRC_SEED (R470). -/
def execCrcSeed (u : Fin 4) (v : Word) (dt : Nat) (s : State) : Host.Outcome State Fault Refusal :=
  done (whenHost (busWrite (Reg.CRC_SEED u) v) (arrive dt s))

/-- CRC_DATA8 (R467). -/
def execCrcData8 (u : Fin 4) (v : Word) (dt : Nat) (s : State) : Host.Outcome State Fault Refusal :=
  done (whenHost (busWrite (Reg.CRC_DATA8 u) v) (arrive dt s))

/-- CRC_DATA16 (R467). -/
def execCrcData16 (u : Fin 4) (v : Word) (dt : Nat) (s : State) : Host.Outcome State Fault Refusal :=
  done (whenHost (busWrite (Reg.CRC_DATA16 u) v) (arrive dt s))

/-- CRC_DATA32 (R467). -/
def execCrcData32 (u : Fin 4) (v : Word) (dt : Nat) (s : State) : Host.Outcome State Fault Refusal :=
  done (whenHost (busWrite (Reg.CRC_DATA32 u) v) (arrive dt s))

end Sys2Proof.Machine
end

