-- ==== Sys2Proof/Machine/IlgilCmds.lean ====
section
/-! DEFINITION. The meanings of the Ilgil commands. Each is one call of the shared operation of its
rule, after the time that led to it and where the device is in a state to take it. -/
namespace Sys2Proof.Machine

/-- ILGIL_BLOCK_LOCK (R479). -/
def execIlgilBlockLock (g : Fin 2) (dt : Nat) (s : State) : Host.Outcome State Fault Refusal :=
  done (whenAlive (blockLock g) (arrive dt s))

/-- ILGIL_HELLO_SEND (R479). -/
def execIlgilHelloSend (g : Fin 2) (s : State) : Host.Outcome State Fault Refusal :=
  done (inTurn (whenAlive (helloUnitSend g)) s)

/-- ILGIL_HELLO_RECEIVE (R480). -/
def execIlgilHelloReceive (g : Fin 2) (bytes : List Byte) (dt : Nat) (s : State) : Host.Outcome State Fault Refusal :=
  done (whenAlive (helloReceive g bytes) (arrive dt s))

/-- CELL_UNIT_RECEIVE (R484). -/
def execCellUnitReceive (g : Fin 2) (bytes : List Byte) (dt : Nat) (s : State) : Host.Outcome State Fault Refusal :=
  done (whenAlive (cellReceive g bytes) (arrive dt s))

/-- CREDIT_UNIT_RECEIVE (R477). -/
def execCreditUnitReceive (g : Fin 2) (bytes : List Byte) (dt : Nat) (s : State) : Host.Outcome State Fault Refusal :=
  done (whenAlive (creditReceive g bytes) (arrive dt s))

/-- CREDIT_UNIT_SEND (R477). -/
def execCreditUnitSend (g : Fin 2) (s : State) : Host.Outcome State Fault Refusal :=
  done (inTurn (whenAlive (creditSend g)) s)

/-- REPLAY_TIMEOUT (R477). -/
def execReplayTimeout (g : Fin 2) (s : State) : Host.Outcome State Fault Refusal :=
  done (inTurn (whenAlive (Machine.replayTimeout g)) s)

/-- ILGIL_LINK_LOSS (R478). -/
def execIlgilLinkLoss (g : Fin 2) (dt : Nat) (s : State) : Host.Outcome State Fault Refusal :=
  done (whenAlive (ilgLinkLoss g) (arrive dt s))

/-- REACH_SEND (R482). -/
def execReachSend (g : Fin 2) (s : State) : Host.Outcome State Fault Refusal :=
  done (inTurn (whenAlive (Machine.reachSend g)) s)

/-- REACH_RECEIVE (R482). -/
def execReachReceive (g : Fin 2) (bytes : List Byte) (dt : Nat) (s : State) : Host.Outcome State Fault Refusal :=
  done (whenAlive (Machine.reachReceive g bytes) (arrive dt s))

/-- REBALANCE (R482). -/
def execRebalance (v : Word) (dt : Nat) (s : State) : Host.Outcome State Fault Refusal :=
  done (whenHost (busWrite Reg.ILG_REBALANCE v) (arrive dt s))

/-- TIME_UNIT_SEND (R491). -/
def execTimeUnitSend (g : Fin 2) (s : State) : Host.Outcome State Fault Refusal :=
  done (inTurn (whenAlive (Machine.timeUnitSend g)) s)

/-- TIME_UNIT_RECEIVE (R492). -/
def execTimeUnitReceive (g : Fin 2) (bytes : List Byte) (dt : Nat) (s : State) : Host.Outcome State Fault Refusal :=
  done (whenAlive (Machine.timeUnitReceive g bytes) (arrive dt s))

/-- ILG_MGMT_READ (R494). -/
def execIlgMgmtRead (v : Word) (dt : Nat) (s : State) : Host.Outcome State Fault Refusal :=
  done (whenHost (busWrite Reg.ILG_MGMT_CTRL v) (arrive dt s))

/-- ILG_MGMT_WRITE (R494). -/
def execIlgMgmtWrite (v : Word) (dt : Nat) (s : State) : Host.Outcome State Fault Refusal :=
  done (whenHost (busWrite Reg.ILG_MGMT_CTRL v) (arrive dt s))

/-- MGMT_REQUEST_RECEIVE (R494). -/
def execMgmtRequestReceive (g : Fin 2) (bytes : List Byte) (dt : Nat) (s : State) : Host.Outcome State Fault Refusal :=
  done (whenAlive (mgmtRequest g bytes) (arrive dt s))

/-- MGMT_RESPONSE_RECEIVE (R494). -/
def execMgmtResponseReceive (g : Fin 2) (bytes : List Byte) (dt : Nat) (s : State) : Host.Outcome State Fault Refusal :=
  done (whenAlive (mgmtAnswer g bytes) (arrive dt s))

/-- MGMT_TIMEOUT (R494). -/
def execMgmtTimeout (s : State) : Host.Outcome State Fault Refusal :=
  done (inTurn (whenAlive (mgmtTimeout)) s)

/-- WORKER_IMAGE_START (R495). -/
def execWorkerImageStart (v : Word) (dt : Nat) (s : State) : Host.Outcome State Fault Refusal :=
  done (whenHost (busWrite Reg.ILG_IMG_CTRL v) (arrive dt s))

/-- WORKER_IMAGE_ABORT (R495). -/
def execWorkerImageAbort (v : Word) (dt : Nat) (s : State) : Host.Outcome State Fault Refusal :=
  done (whenHost (busWrite Reg.ILG_IMG_CTRL v) (arrive dt s))

/-- IMAGE_UNIT_RECEIVE (R495). -/
def execImageUnitReceive (g : Fin 2) (bytes : List Byte) (dt : Nat) (s : State) : Host.Outcome State Fault Refusal :=
  done (whenAlive (Machine.imageUnitReceive g bytes) (arrive dt s))

/-- IMAGE_RESULT_RECEIVE (R495). -/
def execImageResultReceive (g : Fin 2) (bytes : List Byte) (dt : Nat) (s : State) : Host.Outcome State Fault Refusal :=
  done (whenAlive (imageResult g bytes) (arrive dt s))

/-- WORKER_REPORT (R496). -/
def execWorkerReport (g : Fin 2) (bytes : List Byte) (dt : Nat) (s : State) : Host.Outcome State Fault Refusal :=
  done (whenAlive (Machine.workerReport g bytes) (arrive dt s))

/-- WORKER_GEN_WRITE (R496). -/
def execWorkerGenWrite (i : Fin 7) (v : Word) (dt : Nat) (s : State) : Host.Outcome State Fault Refusal :=
  done (whenHost (busWrite (Reg.ILG_WORKER_GEN (i + 1)) v) (arrive dt s))

/-- SWITCH_UNIT_RECEIVE (R486). -/
def execSwitchUnitReceive (g : Fin 2) (bytes : List Byte) (dt : Nat) (s : State) : Host.Outcome State Fault Refusal :=
  done (whenAlive (switchReceive g bytes) (arrive dt s))

end Sys2Proof.Machine
end

