-- ==== Sys2Proof/Machine/RedundancyCmds.lean ====
section
/-! DEFINITION. The meanings of the redundancy commands. Each is one call of the shared operation of its
rule, after the time that led to it and where the device is in a state to take it. -/
namespace Sys2Proof.Machine

/-- HEARTBEAT_SEND (R508). -/
def execHeartbeatSend (s : State) : Host.Outcome State Fault Refusal :=
  done (inTurn (whenAlive (heartbeatSend)) s)

/-- HEARTBEAT_RECEIVE (R509). -/
def execHeartbeatReceive (bytes : List Byte) (dt : Nat) (s : State) : Host.Outcome State Fault Refusal :=
  done (whenAlive (Machine.heartbeatReceive bytes) (arrive dt s))

/-- HEARTBEAT_LOSS (R509). -/
def execHeartbeatLoss (s : State) : Host.Outcome State Fault Refusal :=
  done (inTurn (whenAlive (heartbeatLoss)) s)

/-- RESIGN_IN_CHANGE (R513). -/
def execResignInChange (level : Bool) (dt : Nat) (s : State) : Host.Outcome State Fault Refusal :=
  done (Machine.resignInChange level (arrive dt s))

/-- CLAIM_WAIT_EXPIRY (R505). -/
def execClaimWaitExpiry (s : State) : Host.Outcome State Fault Refusal :=
  done (inTurn (whenAlive (claimWaitExpiry)) s)

/-- CLAIM_CONFIRM (R505). -/
def execClaimConfirm (s : State) : Host.Outcome State Fault Refusal :=
  done (inTurn (whenAlive (claimConfirm)) s)

/-- PEER_DEMAND (R506). -/
def execPeerDemand (s : State) : Host.Outcome State Fault Refusal :=
  done (inTurn (whenAlive (peerDemand)) s)

/-- START_CLAIM (R507). -/
def execStartClaim (s : State) : Host.Outcome State Fault Refusal :=
  done (inTurn (whenAlive (startClaim)) s)

/-- RED_RESIGN_CMD (R516). -/
def execRedResignCmd (v : Word) (dt : Nat) (s : State) : Host.Outcome State Fault Refusal :=
  done (whenHost (busWrite Reg.RED_CMD v) (arrive dt s))

/-- RED_SWAP_CMD (R521). -/
def execRedSwapCmd (v : Word) (dt : Nat) (s : State) : Host.Outcome State Fault Refusal :=
  done (whenHost (busWrite Reg.RED_CMD v) (arrive dt s))

/-- RED_CLAIM_CMD (R517). -/
def execRedClaimCmd (v : Word) (dt : Nat) (s : State) : Host.Outcome State Fault Refusal :=
  done (whenHost (busWrite Reg.RED_CMD v) (arrive dt s))

/-- SWAP_INSTANT (R523). -/
def execSwapInstant (s : State) : Host.Outcome State Fault Refusal :=
  done (inTurn (whenAlive (swapInstant)) s)

/-- SWAP_OVERDUE (R520). -/
def execSwapOverdue (s : State) : Host.Outcome State Fault Refusal :=
  done (inTurn (whenAlive (swapOverdue)) s)

/-- AUTO_SWAP (R521). -/
def execAutoSwap (s : State) : Host.Outcome State Fault Refusal :=
  done (inTurn (whenAlive (autoSwap)) s)

end Sys2Proof.Machine
end

