-- ==== Sys2Proof/Machine/PowerCmds.lean ====
section
/-! DEFINITION. The meanings of the recorder, power, reset and test port commands, and the table's last rows. Each is one call of the shared operation of its
rule, after the time that led to it and where the device is in a state to take it. -/
namespace Sys2Proof.Machine

/-- PAGE_PROGRAM_DONE (R534). -/
def execPageProgramDone (ok : Bool) (zeroOk : Bool) (dt : Nat) (s : State) : Host.Outcome State Fault Refusal :=
  done (whenAlive (Machine.pageProgramDone ok zeroOk) (arrive dt s))

/-- ERASE_DONE (R535). -/
def execEraseDone (ok : Bool) (zeroOk : Bool) (dt : Nat) (s : State) : Host.Outcome State Fault Refusal :=
  done (whenAlive (Machine.eraseDone ok zeroOk) (arrive dt s))

/-- POWER_FAIL (R536). -/
def execPowerFail (dt : Nat) (s : State) : Host.Outcome State Fault Refusal :=
  done (whenAlive (powerFail) (arrive dt s))

/-- POWER_RESTORED (R536). -/
def execPowerRestored (dt : Nat) (s : State) : Host.Outcome State Fault Refusal :=
  done (whenAlive (powerRestored) (arrive dt s))

/-- FREEZE (R537). -/
def execFreeze (v : Word) (dt : Nat) (s : State) : Host.Outcome State Fault Refusal :=
  done (whenHost (busWrite Reg.LKT_CTRL v) (arrive dt s))

/-- UNFREEZE (R537). -/
def execUnfreeze (v : Word) (dt : Nat) (s : State) : Host.Outcome State Fault Refusal :=
  done (whenHost (busWrite Reg.LKT_CTRL v) (arrive dt s))

/-- FREEZE_LAPSE (R537). -/
def execFreezeLapse (s : State) : Host.Outcome State Fault Refusal :=
  done (inTurn (whenAlive (freezeLapse)) s)

/-- RECORD_FETCH (R538). -/
def execRecordFetch (v : Word) (dt : Nat) (s : State) : Host.Outcome State Fault Refusal :=
  done (whenHost (busWrite Reg.LKT_READ_CTRL v) (arrive dt s))

/-- RECORD_FETCH_DONE (R538). -/
def execRecordFetchDone (ok : Bool) (dt : Nat) (s : State) : Host.Outcome State Fault Refusal :=
  done (whenAlive (Machine.recordFetchDone ok) (arrive dt s))

/-- PARTITION_WRITE (R533). -/
def execPartitionWrite (v : Word) (dt : Nat) (s : State) : Host.Outcome State Fault Refusal :=
  done (whenHost (busWrite Reg.LKT_PART v) (arrive dt s))

/-- OPERATING_SECOND (R530). -/
def execOperatingSecond (dt : Nat) (s : State) : Host.Outcome State Fault Refusal :=
  done (operatingSecond (arrive dt s))

/-- MAIN_POWER_ON (R553). -/
def execMainPowerOn (straps : BitVec 13) (dt : Nat) (s : State) : Host.Outcome State Fault Refusal :=
  done (Machine.mainPowerOn straps (arrive dt s))

/-- MAIN_POWER_LOSS (R553). -/
def execMainPowerLoss (vbak : Bool) (dt : Nat) (s : State) : Host.Outcome State Fault Refusal :=
  done (Machine.mainPowerLoss vbak (arrive dt s))

/-- RESET_ASSERT (R556). -/
def execResetAssert (pin : ResetPin) (dt : Nat) (s : State) : Host.Outcome State Fault Refusal :=
  done (Machine.resetAssert pin (arrive dt s))

/-- RESET_END (R556). -/
def execResetEnd (straps : BitVec 13) (dt : Nat) (s : State) : Host.Outcome State Fault Refusal :=
  done (Machine.resetEnd straps (arrive dt s))

/-- PLL_LOCK (R560). -/
def execPllLock (dt : Nat) (s : State) : Host.Outcome State Fault Refusal :=
  done (pllLock (arrive dt s))

/-- MEMORY_STEP_DONE (R560). -/
def execMemoryStepDone (temp : BitVec 12) (supply : BitVec 9) (clk : BitVec 4) (dt : Nat) (s : State) : Host.Outcome State Fault Refusal :=
  done (Machine.memoryStepDone temp supply clk (arrive dt s))

/-- LOCKET_STEP (R560). -/
def execLocketStep (flashWorks : Bool) (dt : Nat) (s : State) : Host.Outcome State Fault Refusal :=
  done (Machine.locketStep flashWorks (arrive dt s))

/-- PHY_RESET_WRITE (R546). -/
def execPhyResetWrite (v : Word) (dt : Nat) (s : State) : Host.Outcome State Fault Refusal :=
  done (whenHost (busWrite Reg.GLB_PHY_RST v) (arrive dt s))

/-- TAP_BYPASS (R559). -/
def execTapBypass (dt : Nat) (s : State) : Host.Outcome State Fault Refusal :=
  done (tapSet .bypass (arrive dt s))

/-- TAP_IDCODE (R559). -/
def execTapIdcode (dt : Nat) (s : State) : Host.Outcome State Fault Refusal :=
  done (tapIdcode (arrive dt s))

/-- TAP_SAMPLE_PRELOAD (R559). -/
def execTapSamplePreload (sampled : List Bool) (preload : List Bool) (dt : Nat) (s : State) : Host.Outcome State Fault Refusal :=
  done (tapSample sampled preload (arrive dt s))

/-- TAP_EXTEST (R559). -/
def execTapExtest (dt : Nat) (s : State) : Host.Outcome State Fault Refusal :=
  done (tapSet .extest (arrive dt s))

/-- TAP_CLAMP (R559). -/
def execTapClamp (dt : Nat) (s : State) : Host.Outcome State Fault Refusal :=
  done (tapSet .clamp (arrive dt s))

/-- TAP_HIGHZ (R559). -/
def execTapHighz (dt : Nat) (s : State) : Host.Outcome State Fault Refusal :=
  done (tapSet .highz (arrive dt s))

/-- PORESET_RISING_EDGE (R556). -/
def execPoresetRisingEdge (straps : BitVec 13) (dt : Nat) (s : State) : Host.Outcome State Fault Refusal :=
  done (Machine.poresetRisingEdge straps (arrive dt s))

/-- RX_DESCRIPTOR_FETCH (R425). -/
def execRxDescriptorFetch (ring : Fin 64) (descs : List (List Byte)) (dt : Nat) (s : State) : Host.Outcome State Fault Refusal :=
  done (whenRunning (rxFetched ring descs) (arrive dt s))

/-- BUS_MASTER_ENABLE (R410). -/
def execBusMasterEnable (dt : Nat) (s : State) : Host.Outcome State Fault Refusal :=
  done (whenAlive (busMasterEnable) (arrive dt s))

/-- COUPLER_INPUT_CHANGE (R545). -/
def execCouplerInputChange (cpl : Fin 2) (level : Bool) (dt : Nat) (s : State) : Host.Outcome State Fault Refusal :=
  done (couplerInput cpl level (arrive dt s))

/-- COUPLER_FILTER_ACCEPT (R545). -/
def execCouplerFilterAccept (cpl : Fin 2) (s : State) : Host.Outcome State Fault Refusal :=
  done (inTurn (whenAlive (couplerAccept cpl)) s)

/-- INPUT_UNSTUCK (R387). -/
def execInputUnstuck (inp : Fin 32) (dt : Nat) (s : State) : Host.Outcome State Fault Refusal :=
  done (whenRunning (Machine.inputUnstuck inp) (arrive dt s))

/-- PROTOCOL_EXCEPTION_EXIT (R330). -/
def execProtocolExceptionExit (ch : Fin 16) (dt : Nat) (s : State) : Host.Outcome State Fault Refusal :=
  done (whenRunning (pexExit ch) (arrive dt s))

/-- CARRIER_SENSE (R239). -/
def execCarrierSense (port : Fin 48) (carrier : Bool) (dt : Nat) (s : State) : Host.Outcome State Fault Refusal :=
  done (Machine.carrierSense port carrier (arrive dt s))

/-- VERIFY_FRAME_RECEIVE (R252). -/
def execVerifyFrameReceive (line : Fin 4) (dt : Nat) (s : State) : Host.Outcome State Fault Refusal :=
  done (whenRunning (verifyReceive line) (arrive dt s))

/-- ERASE_SUSPENDED (R535). -/
def execEraseSuspended (dt : Nat) (s : State) : Host.Outcome State Fault Refusal :=
  done (whenAlive (eraseSuspended) (arrive dt s))

/-- WORKER_IMAGE_READ (R495). -/
def execWorkerImageRead (bytes : List Byte) (dt : Nat) (s : State) : Host.Outcome State Fault Refusal :=
  done (whenAlive (Machine.workerImageRead bytes) (arrive dt s))

end Sys2Proof.Machine
end

