-- ==== Sys2Proof/Machine/Dispatch.lean ====
section
/-! DEFINITION. One arm for each command, in the order of the table. -/
namespace Sys2Proof.Machine

def exec (i : Instr) (s : State) : Host.Outcome State Fault Refusal :=
  match i with
  | .managementTick temp supply upsets => Sys2Proof.Machine.execManagementTick temp supply upsets s
  | .auditResult => Sys2Proof.Machine.execAuditResult s
  | .clockFault clk dt => Sys2Proof.Machine.execClockFault clk dt s
  | .roleLapse => Sys2Proof.Machine.execRoleLapse s
  | .scheduleSilence => Sys2Proof.Machine.execScheduleSilence s
  | .silenceRelease v dt => Sys2Proof.Machine.execSilenceRelease v dt s
  | .enableRequest fn v dt => Sys2Proof.Machine.execEnableRequest fn v dt s
  | .sequenceComplete fn dt => Sys2Proof.Machine.execSequenceComplete fn dt s
  | .registerWrite off v be dt => Sys2Proof.Machine.execRegisterWrite off v be dt s
  | .rcRead off dt => Sys2Proof.Machine.execRcRead off dt s
  | .snapshotRead off dt => Sys2Proof.Machine.execSnapshotRead off dt s
  | .challenge v dt => Sys2Proof.Machine.execChallenge v dt s
  | .nonceExpiry => Sys2Proof.Machine.execNonceExpiry s
  | .unlock v dt => Sys2Proof.Machine.execUnlock v dt s
  | .unlockCompareDone => Sys2Proof.Machine.execUnlockCompareDone s
  | .lockoutExpiry => Sys2Proof.Machine.execLockoutExpiry s
  | .roleDrop v dt => Sys2Proof.Machine.execRoleDrop v dt s
  | .keyRotate v dt => Sys2Proof.Machine.execKeyRotate v dt s
  | .rotationFlashDone ok0 ok1 dt => Sys2Proof.Machine.execRotationFlashDone ok0 ok1 dt s
  | .imageStart v dt => Sys2Proof.Machine.execImageStart v dt s
  | .imageAbort v dt => Sys2Proof.Machine.execImageAbort v dt s
  | .imageCheckDone slot0 slot1 dt => Sys2Proof.Machine.execImageCheckDone slot0 slot1 dt s
  | .imageRecord bytes dt => Sys2Proof.Machine.execImageRecord bytes dt s
  | .pollMatch => Sys2Proof.Machine.execPollMatch s
  | .pollTimeout => Sys2Proof.Machine.execPollTimeout s
  | .delayExpiry => Sys2Proof.Machine.execDelayExpiry s
  | .imageReadError addr cpl dt => Sys2Proof.Machine.execImageReadError addr cpl dt s
  | .trunkLinkUp line speed dt => Sys2Proof.Machine.execTrunkLinkUp line speed dt s
  | .trunkLinkDown line dt => Sys2Proof.Machine.execTrunkLinkDown line dt s
  | .beaconPeriod => Sys2Proof.Machine.execBeaconPeriod s
  | .answerBeacon line => Sys2Proof.Machine.execAnswerBeacon line s
  | .beaconReceive line bytes back dt => Sys2Proof.Machine.execBeaconReceive line bytes back dt s
  | .beaconDeadline line => Sys2Proof.Machine.execBeaconDeadline line s
  | .countSend dir => Sys2Proof.Machine.execCountSend dir s
  | .countReceive line bytes dt => Sys2Proof.Machine.execCountReceive line bytes dt s
  | .settleExpiry => Sys2Proof.Machine.execSettleExpiry s
  | .commitSend => Sys2Proof.Machine.execCommitSend s
  | .commitReceive line bytes back dt => Sys2Proof.Machine.execCommitReceive line bytes back dt s
  | .commitForward => Sys2Proof.Machine.execCommitForward s
  | .waitTimeout => Sys2Proof.Machine.execWaitTimeout s
  | .switchInstant => Sys2Proof.Machine.execSwitchInstant s
  | .backoffExpiry => Sys2Proof.Machine.execBackoffExpiry s
  | .leadInputChange level dt => Sys2Proof.Machine.execLeadInputChange level dt s
  | .leadFilterAccept => Sys2Proof.Machine.execLeadFilterAccept s
  | .compatHelloSend => Sys2Proof.Machine.execCompatHelloSend s
  | .compatHelloReceive line bytes dt => Sys2Proof.Machine.execCompatHelloReceive line bytes dt s
  | .compatHelloTimeout line => Sys2Proof.Machine.execCompatHelloTimeout line s
  | .topologyReceive line bytes back dt => Sys2Proof.Machine.execTopologyReceive line bytes back dt s
  | .compatCommit v dt => Sys2Proof.Machine.execCompatCommit v dt s
  | .compatHoldExpiry => Sys2Proof.Machine.execCompatHoldExpiry s
  | .rosterSend dir => Sys2Proof.Machine.execRosterSend dir s
  | .rosterReceive line bytes dt => Sys2Proof.Machine.execRosterReceive line bytes dt s
  | .graceExpiry => Sys2Proof.Machine.execGraceExpiry s
  | .graceRewrite v dt => Sys2Proof.Machine.execGraceRewrite v dt s
  | .admissionPoint port bytes len back dt => Sys2Proof.Machine.execAdmissionPoint port bytes len back dt s
  | .cellWrite port bytes dt => Sys2Proof.Machine.execCellWrite port bytes dt s
  | .frameEnd port bytes err frags dt => Sys2Proof.Machine.execFrameEnd port bytes err frags dt s
  | .learn => Sys2Proof.Machine.execLearn s
  | .ageingSweep => Sys2Proof.Machine.execAgeingSweep s
  | .cellTime => Sys2Proof.Machine.execCellTime s
  | .txFrameStart port dt => Sys2Proof.Machine.execTxFrameStart port dt s
  | .preemption line sent dt => Sys2Proof.Machine.execPreemption line sent dt s
  | .txFrameEnd port dt => Sys2Proof.Machine.execTxFrameEnd port dt s
  | .revertStart dir => Sys2Proof.Machine.execRevertStart dir s
  | .revertDrainMax dir cls => Sys2Proof.Machine.execRevertDrainMax dir cls s
  | .revertEnable v dt => Sys2Proof.Machine.execRevertEnable v dt s
  | .fdbNop v dt => Sys2Proof.Machine.execFdbNop v dt s
  | .fdbLookup v dt => Sys2Proof.Machine.execFdbLookup v dt s
  | .fdbInsert v dt => Sys2Proof.Machine.execFdbInsert v dt s
  | .fdbDelete v dt => Sys2Proof.Machine.execFdbDelete v dt s
  | .fdbFlush v dt => Sys2Proof.Machine.execFdbFlush v dt s
  | .fdbRead v dt => Sys2Proof.Machine.execFdbRead v dt s
  | .fdbCommandDone => Sys2Proof.Machine.execFdbCommandDone s
  | .edgeLinkChange port up speed full dt => Sys2Proof.Machine.execEdgeLinkChange port up speed full dt s
  | .pauseReceive port bytes dt => Sys2Proof.Machine.execPauseReceive port bytes dt s
  | .pauseExpiry port cls => Sys2Proof.Machine.execPauseExpiry port cls s
  | .flowControlFrame port => Sys2Proof.Machine.execFlowControlFrame port s
  | .fcRefresh port => Sys2Proof.Machine.execFcRefresh port s
  | .collision port dt => Sys2Proof.Machine.execCollision port dt s
  | .hdBackoffExpiry port => Sys2Proof.Machine.execHdBackoffExpiry port s
  | .verifySend line => Sys2Proof.Machine.execVerifySend line s
  | .verifyResponse line dt => Sys2Proof.Machine.execVerifyResponse line dt s
  | .preemptConfigWrite line v dt => Sys2Proof.Machine.execPreemptConfigWrite line v dt s
  | .drainExpiry port => Sys2Proof.Machine.execDrainExpiry port s
  | .drainRewrite port v dt => Sys2Proof.Machine.execDrainRewrite port v dt s
  | .mstClear v dt => Sys2Proof.Machine.execMstClear v dt s
  | .syncSend => Sys2Proof.Machine.execSyncSend s
  | .syncReceive line bytes back dt => Sys2Proof.Machine.execSyncReceive line bytes back dt s
  | .slewEnd => Sys2Proof.Machine.execSlewEnd s
  | .syncTimeout => Sys2Proof.Machine.execSyncTimeout s
  | .timeAdjust v dt => Sys2Proof.Machine.execTimeAdjust v dt s
  | .rateWrite v dt => Sys2Proof.Machine.execRateWrite v dt s
  | .permitGrant v dt => Sys2Proof.Machine.execPermitGrant v dt s
  | .permitLapse => Sys2Proof.Machine.execPermitLapse s
  | .addendWrite v dt => Sys2Proof.Machine.execAddendWrite v dt s
  | .mergeTimeout => Sys2Proof.Machine.execMergeTimeout s
  | .mergeWaitExpiry => Sys2Proof.Machine.execMergeWaitExpiry s
  | .correlationLatch v dt => Sys2Proof.Machine.execCorrelationLatch v dt s
  | .syncPinCapture pin level dt => Sys2Proof.Machine.execSyncPinCapture pin level dt s
  | .syncCapturePop pin dt => Sys2Proof.Machine.execSyncCapturePop pin dt s
  | .ppsPulse pin => Sys2Proof.Machine.execPpsPulse pin s
  | .ppsEnd pin => Sys2Proof.Machine.execPpsEnd pin s
  | .phaseReference dom kind dt => Sys2Proof.Machine.execPhaseReference dom kind dt s
  | .referenceMiss dom => Sys2Proof.Machine.execReferenceMiss dom s
  | .tachStill dom => Sys2Proof.Machine.execTachStill dom s
  | .pd0Limit => Sys2Proof.Machine.execPd0Limit s
  | .phaseOffsetWrite dom v dt => Sys2Proof.Machine.execPhaseOffsetWrite dom v dt s
  | .carillonFire => Sys2Proof.Machine.execCarillonFire s
  | .eventEntryWrite ev v dt => Sys2Proof.Machine.execEventEntryWrite ev v dt s
  | .canFrameReceive ch f len dt => Sys2Proof.Machine.execCanFrameReceive ch f len dt s
  | .canTxRecord ring bytes dt => Sys2Proof.Machine.execCanTxRecord ring bytes dt s
  | .canArbitration ch tdcv dt => Sys2Proof.Machine.execCanArbitration ch tdcv dt s
  | .canTxAcknowledged ch dt => Sys2Proof.Machine.execCanTxAcknowledged ch dt s
  | .canAckError ch dominant dt => Sys2Proof.Machine.execCanAckError ch dominant dt s
  | .lonelyRetry ch => Sys2Proof.Machine.execLonelyRetry ch s
  | .canBusError ch kind transmitting flag dt => Sys2Proof.Machine.execCanBusError ch kind transmitting flag dt s
  | .canRecover ch v dt => Sys2Proof.Machine.execCanRecover ch v dt s
  | .canRecoveryDone ch => Sys2Proof.Machine.execCanRecoveryDone ch s
  | .ttTxTrigger trig => Sys2Proof.Machine.execTtTxTrigger trig s
  | .ttWindowEnd => Sys2Proof.Machine.execTtWindowEnd s
  | .ttRxTrigger trig => Sys2Proof.Machine.execTtRxTrigger trig s
  | .ttArbTrigger trig => Sys2Proof.Machine.execTtArbTrigger trig s
  | .ttRefTrigger trig => Sys2Proof.Machine.execTtRefTrigger trig s
  | .ttWatchTrigger trig => Sys2Proof.Machine.execTtWatchTrigger trig s
  | .mailboxLoad ring bytes dt => Sys2Proof.Machine.execMailboxLoad ring bytes dt s
  | .filEthFrame => Sys2Proof.Machine.execFilEthFrame s
  | .statusSample => Sys2Proof.Machine.execStatusSample s
  | .hostWordWrite k v dt => Sys2Proof.Machine.execHostWordWrite k v dt s
  | .sourceJob => Sys2Proof.Machine.execSourceJob s
  | .changeEmissionDue tpl => Sys2Proof.Machine.execChangeEmissionDue tpl s
  | .emission => Sys2Proof.Machine.execEmission s
  | .filHold v dt => Sys2Proof.Machine.execFilHold v dt s
  | .filRelease v dt => Sys2Proof.Machine.execFilRelease v dt s
  | .senseSample inp bits dt => Sys2Proof.Machine.execSenseSample inp bits dt s
  | .inputStuck inp level dt => Sys2Proof.Machine.execInputStuck inp level dt s
  | .hostConvert v dt => Sys2Proof.Machine.execHostConvert v dt s
  | .driveLevelWrite v dt => Sys2Proof.Machine.execDriveLevelWrite v dt s
  | .drivePhasePass out => Sys2Proof.Machine.execDrivePhasePass out s
  | .readbackDelayEnd out => Sys2Proof.Machine.execReadbackDelayEnd out s
  | .readbackFault out => Sys2Proof.Machine.execReadbackFault out s
  | .proveWindowOpen out => Sys2Proof.Machine.execProveWindowOpen out s
  | .doorbell ring v dt => Sys2Proof.Machine.execDoorbell ring v dt s
  | .txDescriptorFetch ring descs dt => Sys2Proof.Machine.execTxDescriptorFetch ring descs dt s
  | .txDataRead ring bytes dt => Sys2Proof.Machine.execTxDataRead ring bytes dt s
  | .ringWrite => Sys2Proof.Machine.execRingWrite s
  | .stallWaitExpiry ring => Sys2Proof.Machine.execStallWaitExpiry ring s
  | .captureWrite => Sys2Proof.Machine.execCaptureWrite s
  | .moderationTimer ring => Sys2Proof.Machine.execModerationTimer ring s
  | .msixUnmask vec dt => Sys2Proof.Machine.execMsixUnmask vec dt s
  | .miscAck v dt => Sys2Proof.Machine.execMiscAck v dt s
  | .watchdogKick v dt => Sys2Proof.Machine.execWatchdogKick v dt s
  | .watchdogExpiry => Sys2Proof.Machine.execWatchdogExpiry s
  | .watchdogConfig v dt => Sys2Proof.Machine.execWatchdogConfig v dt s
  | .hostDmaError kind ring addr cpl got dt => Sys2Proof.Machine.execHostDmaError kind ring addr cpl got dt s
  | .functionLevelReset dt => Sys2Proof.Machine.execFunctionLevelReset dt s
  | .pcieLinkDown dt => Sys2Proof.Machine.execPcieLinkDown dt s
  | .d3hotEntry dt => Sys2Proof.Machine.execD3hotEntry dt s
  | .busMasterClear dt => Sys2Proof.Machine.execBusMasterClear dt s
  | .pcieLinkUp speed width payload readMax dt => Sys2Proof.Machine.execPcieLinkUp speed width payload readMax dt s
  | .bar4Write addr data dt => Sys2Proof.Machine.execBar4Write addr data dt s
  | .bar4Read addr enables dt => Sys2Proof.Machine.execBar4Read addr enables dt s
  | .localCycleEnd data parityOk dt => Sys2Proof.Machine.execLocalCycleEnd data parityOk dt s
  | .noReady => Sys2Proof.Machine.execNoReady s
  | .readTimeout tag => Sys2Proof.Machine.execReadTimeout tag s
  | .prefetchExpiry cs => Sys2Proof.Machine.execPrefetchExpiry cs s
  | .busRequest dt => Sys2Proof.Machine.execBusRequest dt s
  | .tenureEnd dt => Sys2Proof.Machine.execTenureEnd dt s
  | .tenureExpiry => Sys2Proof.Machine.execTenureExpiry s
  | .inboundWrite addr upper data parityOk dt => Sys2Proof.Machine.execInboundWrite addr upper data parityOk dt s
  | .inboundRead addr dt => Sys2Proof.Machine.execInboundRead addr dt s
  | .inboundFlush => Sys2Proof.Machine.execInboundFlush s
  | .lirqEdge n rising dt => Sys2Proof.Machine.execLirqEdge n rising dt s
  | .claspAcquire v dt => Sys2Proof.Machine.execClaspAcquire v dt s
  | .claspRelease v dt => Sys2Proof.Machine.execClaspRelease v dt s
  | .claspExpiry => Sys2Proof.Machine.execClaspExpiry s
  | .errorLogPop dt => Sys2Proof.Machine.execErrorLogPop dt s
  | .crcRestart u v dt => Sys2Proof.Machine.execCrcRestart u v dt s
  | .crcSeed u v dt => Sys2Proof.Machine.execCrcSeed u v dt s
  | .crcData8 u v dt => Sys2Proof.Machine.execCrcData8 u v dt s
  | .crcData16 u v dt => Sys2Proof.Machine.execCrcData16 u v dt s
  | .crcData32 u v dt => Sys2Proof.Machine.execCrcData32 u v dt s
  | .ilgilBlockLock g dt => Sys2Proof.Machine.execIlgilBlockLock g dt s
  | .ilgilHelloSend g => Sys2Proof.Machine.execIlgilHelloSend g s
  | .ilgilHelloReceive g bytes dt => Sys2Proof.Machine.execIlgilHelloReceive g bytes dt s
  | .cellUnitReceive g bytes dt => Sys2Proof.Machine.execCellUnitReceive g bytes dt s
  | .creditUnitReceive g bytes dt => Sys2Proof.Machine.execCreditUnitReceive g bytes dt s
  | .creditUnitSend g => Sys2Proof.Machine.execCreditUnitSend g s
  | .replayTimeout g => Sys2Proof.Machine.execReplayTimeout g s
  | .ilgilLinkLoss g dt => Sys2Proof.Machine.execIlgilLinkLoss g dt s
  | .reachSend g => Sys2Proof.Machine.execReachSend g s
  | .reachReceive g bytes dt => Sys2Proof.Machine.execReachReceive g bytes dt s
  | .rebalance v dt => Sys2Proof.Machine.execRebalance v dt s
  | .timeUnitSend g => Sys2Proof.Machine.execTimeUnitSend g s
  | .timeUnitReceive g bytes dt => Sys2Proof.Machine.execTimeUnitReceive g bytes dt s
  | .ilgMgmtRead v dt => Sys2Proof.Machine.execIlgMgmtRead v dt s
  | .ilgMgmtWrite v dt => Sys2Proof.Machine.execIlgMgmtWrite v dt s
  | .mgmtRequestReceive g bytes dt => Sys2Proof.Machine.execMgmtRequestReceive g bytes dt s
  | .mgmtResponseReceive g bytes dt => Sys2Proof.Machine.execMgmtResponseReceive g bytes dt s
  | .mgmtTimeout => Sys2Proof.Machine.execMgmtTimeout s
  | .workerImageStart v dt => Sys2Proof.Machine.execWorkerImageStart v dt s
  | .workerImageAbort v dt => Sys2Proof.Machine.execWorkerImageAbort v dt s
  | .imageUnitReceive g bytes dt => Sys2Proof.Machine.execImageUnitReceive g bytes dt s
  | .imageResultReceive g bytes dt => Sys2Proof.Machine.execImageResultReceive g bytes dt s
  | .workerReport g bytes dt => Sys2Proof.Machine.execWorkerReport g bytes dt s
  | .workerGenWrite k v dt => Sys2Proof.Machine.execWorkerGenWrite k v dt s
  | .switchUnitReceive g bytes dt => Sys2Proof.Machine.execSwitchUnitReceive g bytes dt s
  | .heartbeatSend => Sys2Proof.Machine.execHeartbeatSend s
  | .heartbeatReceive bytes dt => Sys2Proof.Machine.execHeartbeatReceive bytes dt s
  | .heartbeatLoss => Sys2Proof.Machine.execHeartbeatLoss s
  | .resignInChange level dt => Sys2Proof.Machine.execResignInChange level dt s
  | .claimWaitExpiry => Sys2Proof.Machine.execClaimWaitExpiry s
  | .claimConfirm => Sys2Proof.Machine.execClaimConfirm s
  | .peerDemand => Sys2Proof.Machine.execPeerDemand s
  | .startClaim => Sys2Proof.Machine.execStartClaim s
  | .redResignCmd v dt => Sys2Proof.Machine.execRedResignCmd v dt s
  | .redSwapCmd v dt => Sys2Proof.Machine.execRedSwapCmd v dt s
  | .redClaimCmd v dt => Sys2Proof.Machine.execRedClaimCmd v dt s
  | .swapInstant => Sys2Proof.Machine.execSwapInstant s
  | .swapOverdue => Sys2Proof.Machine.execSwapOverdue s
  | .autoSwap => Sys2Proof.Machine.execAutoSwap s
  | .pageProgramDone ok zeroOk dt => Sys2Proof.Machine.execPageProgramDone ok zeroOk dt s
  | .eraseDone ok zeroOk dt => Sys2Proof.Machine.execEraseDone ok zeroOk dt s
  | .powerFail dt => Sys2Proof.Machine.execPowerFail dt s
  | .powerRestored dt => Sys2Proof.Machine.execPowerRestored dt s
  | .freeze v dt => Sys2Proof.Machine.execFreeze v dt s
  | .unfreeze v dt => Sys2Proof.Machine.execUnfreeze v dt s
  | .freezeLapse => Sys2Proof.Machine.execFreezeLapse s
  | .recordFetch v dt => Sys2Proof.Machine.execRecordFetch v dt s
  | .recordFetchDone ok dt => Sys2Proof.Machine.execRecordFetchDone ok dt s
  | .partitionWrite v dt => Sys2Proof.Machine.execPartitionWrite v dt s
  | .operatingSecond dt => Sys2Proof.Machine.execOperatingSecond dt s
  | .mainPowerOn straps dt => Sys2Proof.Machine.execMainPowerOn straps dt s
  | .mainPowerLoss vbak dt => Sys2Proof.Machine.execMainPowerLoss vbak dt s
  | .resetAssert pin dt => Sys2Proof.Machine.execResetAssert pin dt s
  | .resetEnd straps dt => Sys2Proof.Machine.execResetEnd straps dt s
  | .pllLock dt => Sys2Proof.Machine.execPllLock dt s
  | .memoryStepDone temp supply clk dt => Sys2Proof.Machine.execMemoryStepDone temp supply clk dt s
  | .locketStep flashWorks dt => Sys2Proof.Machine.execLocketStep flashWorks dt s
  | .phyResetWrite v dt => Sys2Proof.Machine.execPhyResetWrite v dt s
  | .tapBypass dt => Sys2Proof.Machine.execTapBypass dt s
  | .tapIdcode dt => Sys2Proof.Machine.execTapIdcode dt s
  | .tapSamplePreload sampled preload dt => Sys2Proof.Machine.execTapSamplePreload sampled preload dt s
  | .tapExtest dt => Sys2Proof.Machine.execTapExtest dt s
  | .tapClamp dt => Sys2Proof.Machine.execTapClamp dt s
  | .tapHighz dt => Sys2Proof.Machine.execTapHighz dt s
  | .poresetRisingEdge straps dt => Sys2Proof.Machine.execPoresetRisingEdge straps dt s
  | .rxDescriptorFetch ring descs dt => Sys2Proof.Machine.execRxDescriptorFetch ring descs dt s
  | .busMasterEnable dt => Sys2Proof.Machine.execBusMasterEnable dt s
  | .couplerInputChange cpl level dt => Sys2Proof.Machine.execCouplerInputChange cpl level dt s
  | .couplerFilterAccept cpl => Sys2Proof.Machine.execCouplerFilterAccept cpl s
  | .inputUnstuck inp dt => Sys2Proof.Machine.execInputUnstuck inp dt s
  | .protocolExceptionExit ch dt => Sys2Proof.Machine.execProtocolExceptionExit ch dt s
  | .carrierSense port carrier dt => Sys2Proof.Machine.execCarrierSense port carrier dt s
  | .verifyFrameReceive line dt => Sys2Proof.Machine.execVerifyFrameReceive line dt s
  | .eraseSuspended dt => Sys2Proof.Machine.execEraseSuspended dt s
  | .workerImageRead bytes dt => Sys2Proof.Machine.execWorkerImageRead bytes dt s

end Sys2Proof.Machine
end

