-- ==== Sys2Proof/Machine/Step.lean ====
section
/-! DEFINITION. The step: the command at the front of the queue runs with the rest of the queue behind it; on an empty
queue the block idles for one CCLK cycle. -/
namespace Sys2Proof.Machine

/-- The state with its queue replaced. -/
def State.withPending (s : State) (l : List Instr) : State := { s with pending := l }

/-- One CCLK cycle passes, with what the device does by itself in it. -/
def idle (s : State) : State := finish (arrive 1 s)

/-- One step. On an empty queue one CCLK cycle passes (assumption log 6). -/
def step (s : State) : Host.Outcome State Fault Refusal :=
  match s.pending with
  | [] => .next (idle s)
  | c :: rest => exec c (s.withPending rest)

/-- The command a word spells, put at the front of the queue. -/
def State.withFetchWord (s : State) (nbits w : Nat) : State :=
  match decodeTableWord nbits w with
  | some c => s.withPending (c :: s.pending)
  | none => s

end Sys2Proof.Machine
end

