-- ==== Sys2Proof/Safety.lean ====
section
/-! DEFINITION. What a safe run of the block is, and the other terms the statements use: how a command ends, and what a host
write that is taken leaves. -/
namespace Sys2Proof.Safety
open Sys2Proof.Machine

/-- The register file is in its canonical form: offsets strictly rising, no entry at its reset value. -/
def Canonical (s : State) : Prop := Sparse.wf regReset s.regs = true

/-- In every row of the ledger the drop reasons are listed once each, and in every row that no memory error has struck they sum
to DROP_SUM, modulo 2^32: the second guarantee of R218, as the audit checks it. -/
def DropsAgree (s : State) : Prop :=
  ∀ row, Sparse.wf (fun _ => 0) (s.led row).drop = true ∧ ((s.led row).struck = false → dropsumOk s row = true)

/-- A step that answers a next state. -/
def Goes (s : State) : Prop := ∃ t, step s = .next t

/-- n steps from s answer t. -/
def Runs (n : Nat) (s t : State) : Prop :=
  match n with
  | 0 => t = s
  | n + 1 => ∃ u, step s = .next u ∧ Runs n u t

/-- A safe run: the register file stays canonical, however many steps are taken. -/
def Safe (s : State) : Prop := ∀ n t, Runs n s t → Canonical t ∧ Goes t

end Sys2Proof.Safety

/-! ### What a completion statement says -/

namespace Sys2Proof.Claims
open Sys2Proof.Machine

/-- The command answers a next state: the effect t, and the end of the command after it. -/
def Ends (c : Instr) (s t : State) : Prop := exec c s = .next (finish t)

/-- The write of a word v to the register of a row at index i, which lies at an offset. -/
def wr (r : RegSpec) (i off : Nat) (v : Word) : Write :=
  { row := r, i := i, j := 0, off := off, word := clampWord r v, clamped := clampedOwn r v }

/-- The host write is neither denied nor ignored: accesses of the host reach the device, the register is open, and the role may
change each field that the word changes. -/
def Taken (s : State) (w : Write) : Prop :=
  s.reaches = true ∧ closed (touchIdle s) w.off = false ∧ w.live (touchIdle s) = false ∧
    w.mayStore (touchIdle s).role (touchIdle s) = true

/-- The word before the write, and the state with the write stored and recorded. -/
def old (s : State) (w : Write) : Nat := ((touchIdle s).reg w.off).toNat
def written (s : State) (w : Write) : State :=
  noteWrite .host (touchIdle s).role w (shown w.off (touchIdle s)) (storeWrite w (touchIdle s))

/-- The word the register took, after its own clamp. -/
def val (w : Write) : Nat := w.word.toNat

/-- A read of BAR0 answers a word and leaves a state. -/
def Reads (c : Instr) (s : State) (w : Word) (t : State) : Prop := Ends c s { t with host := { t.host with lastRead := w } }

/-- The register of a function's enable, with what its write sets off (R26, R120, R255, R348). -/
def fnWrite (f : Fn) (v : Word) : Write :=
  match f with
  | .spire => wr Row.SPR_CTRL 0 Reg.SPR_CTRL v
  | .carillon => wr Row.CAR_CTRL 0 Reg.CAR_CTRL v
  | .sense => wr Row.SNS_CTRL 0 Reg.SNS_CTRL v
  | .drive => wr Row.DRV_CTRL 0 Reg.DRV_CTRL v
  | .filigree => wr Row.FIL_CTRL 0 Reg.FIL_CTRL v
  | .canTt => wr Row.CAN_TT_CTRL 0 Reg.CAN_TT_CTRL v
  | .localBus => wr Row.LBB_CTRL 0 Reg.LBB_CTRL v
  | .ilgil g => wr Row.ILG_PORT_CTRL g (Reg.ILG_PORT_CTRL g) v
  | .trunk n => wr Row.TPT_CTRL n (Reg.TPT_CTRL n) v
  | .edge p => wr Row.EPT_CTRL p (Reg.EPT_CTRL p) v
  | .canChannel c => wr Row.CAN_CTRL c (Reg.CAN_CTRL c) v
  | .ring r => wr Row.RNG_CTRL r (Reg.RNG_CTRL r) v

def fnEffect (f : Fn) (t : State) : State :=
  match f with
  | .spire => t |> request f |> sprCtrlWritten
  | .edge p => t |> request f |> drainWritten p
  | .canChannel c => t |> request f |> canRecover c
  | _ => request f t

/-- The commands that act while the device is in reset: those of power, reset and the test port, operating time, and the levels
of pins that are followed through reset. -/
def actsInReset (c : Instr) : Bool :=
  match c with
  | .operatingSecond _ | .mainPowerOn _ _ | .mainPowerLoss _ _ | .resetAssert _ _ | .resetEnd _ _ | .pllLock _ => true
  | .memoryStepDone _ _ _ _ | .locketStep _ _ | .tapBypass _ | .tapIdcode _ | .tapSamplePreload _ _ _ | .tapExtest _ => true
  | .tapClamp _ | .tapHighz _ | .poresetRisingEdge _ _ | .leadInputChange _ _ | .couplerInputChange _ _ _ => true
  | .syncPinCapture _ _ _ | .carrierSense _ _ _ | .resignInChange _ _ | .busRequest _ | .tenureEnd _ => true
  | _ => false

/-- The schedule stands before entry j, which has the type: what every time trigger of the CAN schedule needs (R354). -/
def AtTrigger (s : State) (j type : Nat) : Prop := s.running = true ∧ trigNext s type j = true

/-- The time of entry j has come: a window that ends by then has ended, and a Tx entry ends one that is still open
(R354, R358). -/
def triggered (type j : Nat) (s : State) : State :=
  s |> endPast (trigAt s j) |> advanceTo (trigAt s j) |> whenT (type == 1) endWindow
    |> modTt (fun t => { t with next := j + 1, arbEnd := none })

/-- The state in which something that the device times itself takes place: what it does by itself up to that cycle has come
first (R587). -/
def inItsTurn (f : State → State) (s : State) : State := runSoon soonFuel (f s).cycle s

/-- A whole frame that S takes: whether it came inside its acceptance windows and S had room for it, and the state after
(R206, R321). -/
def intoSpire (p cls at_ : Nat) (l : List Byte) (s : State) : Bool × State :=
  let w := checkWindows p cls at_ s
  let r := takeToS p cls at_ l w.2
  (w.1 && r.1, r.2)

end Sys2Proof.Claims
end

