-- ==== Sys2Proof/Certificates/Slice0/Obligations.lean ====
section
/-! DEFINITION. The statements for the provers. A completion statement says, for each command it names, under which
conditions on the state and the operands the command has its own effect, and what that effect is: the state before the end
of the command (`finish`), in which consequences in other blocks are taken. -/
open Sys2Proof Sys2Proof.Machine Sys2Proof.Claims

/-! ### Registers, roles, images, the tick -/

/-- REGISTER_WRITE, RC_READ, SNAPSHOT_READ, SYNC_CAPTURE_POP and ERROR_LOG_POP (R49, R51, R54, R297, R461). Model's choices
where a rule leaves something open: assumption log 11, 16, 18, 28. -/
def Obligations.RegisterAccessesComplete : Prop :=
  (∀ s₀ off v w dt, let s := arrive dt s₀
    writeOf off v = some w → Taken s w →
    Ends (.registerWrite off v 15#4 dt) s₀
      (if w.row.base = Row.ROL_DROP.base then
        noteWrite .host (touchIdle s).role w (shown w.off (touchIdle s))
          (hook w.row w.i w.j (old s w) (val w) (storeWrite w (touchIdle s)))
       else hook w.row w.i w.j (old s w) (val w) (written s w))) ∧
  (∀ s₀ off v be dt, let s := arrive dt s₀
    s.reaches = true → be ≠ 15#4 ∨ writeOf off v = none → Ends (.registerWrite off v be dt) s₀ (touchIdle s)) ∧
  (∀ s₀ off v w dt, let r := arrive dt s₀
    let s := touchIdle r
    r.reaches = true → writeOf off v = some w →
    (closed s off = true → Ends (.registerWrite off v 15#4 dt) s₀ (deny .host s.role off v s)) ∧
    (closed s off = false → w.live s = true → Ends (.registerWrite off v 15#4 dt) s₀
      (s |> count Reg.EPO_LIVE_WRITES |> noteWrite .host s.role w (shown w.off s))) ∧
    (closed s off = false → w.live s = false → w.mayStore s.role s = false →
      Ends (.registerWrite off v 15#4 dt) s₀ (deny .host s.role off v s))) ∧
  (∀ s₀ off dt, let s := arrive dt s₀
    s.reaches = true → locate off = none → ∀ c ∈ [Instr.rcRead off dt, .snapshotRead off dt],
    Reads c s₀ 0 (flushPassed (touchIdle s))) ∧
  (∀ s₀ off r i j dt, let s := arrive dt s₀
    s.reaches = true → locate off = some r → r.hit off = some (i, j) → r.base ≠ Row.LBB_ERR_INFO.base →
    r.base ≠ Row.TIM_SYNC_CAP_NS.base →
    let t := flushPassed (touchIdle s)
    Sparse.find t.snaps off = none → ∀ c ∈ [Instr.rcRead off dt, .snapshotRead off dt],
    Reads c s₀ (readWord r off t) (t |> takeSnapshot r off j |> clearRc r off)) ∧
  (∀ s₀ off r i j w dt, let s := arrive dt s₀
    s.reaches = true → locate off = some r → r.hit off = some (i, j) → r.base ≠ Row.LBB_ERR_INFO.base →
    r.base ≠ Row.TIM_SYNC_CAP_NS.base →
    let t := flushPassed (touchIdle s)
    Sparse.find t.snaps off = some w → ∀ c ∈ [Instr.rcRead off dt, .snapshotRead off dt], Reads c s₀ w t) ∧
  (∀ s₀ (pin : Fin 4) dt, let s := arrive dt s₀
    s.reaches = true →
    let t := syncPop pin (flushPassed (touchIdle s))
    ∀ c ∈ [Instr.syncCapturePop pin dt, .rcRead (Reg.TIM_SYNC_CAP_NS pin) dt, .snapshotRead (Reg.TIM_SYNC_CAP_NS pin) dt],
    Reads c s₀ t.host.lastRead t) ∧
  (∀ s₀ dt, let s := arrive dt s₀
    s.reaches = true →
    let t := errorPop (flushPassed (touchIdle s))
    ∀ c ∈ [Instr.errorLogPop dt, .rcRead Reg.LBB_ERR_INFO dt, .snapshotRead Reg.LBB_ERR_INFO dt], Reads c s₀ t.host.lastRead t)

/-- MANAGEMENT_TICK, AUDIT_RESULT and CLOCK_FAULT (R19, R42, R224). -/
def Obligations.ManagementCommandsComplete : Prop :=
  (∀ s₀ temp supply upsets, let s := inItsTurn (whenAlive (managementTick temp supply upsets)) s₀
    s.alive = true →
    Ends (.managementTick temp supply upsets) s₀
      (s |> advanceTo (nextTick s) |> modFab (fun x => { x with tickNo := x.tickNo + 1 })
        |> each upsets (fun p => memoryError p.1 p.2) |> ledgerTask |> halfScan |> drainHolding |> startCommit
        |> monitorSample temp supply |> idleTick |> carTick)) ∧
  (∀ s₀ a, let s := inItsTurn (whenAlive (auditResult)) s₀
    s.alive = true → s.fab.audit = some a →
    let kinds := a.kinds + 64 * b2n (!a.unmarked.isEmpty) + 128 * b2n (a.dup != 0)
    let new := kinds - (kinds &&& s.fab.prevKinds)
    let moved := deltasDiffer a.deltas s.fab.prevDeltas
    let st := auditStatus a kinds
    let t := s |> advanceTo a.due |> walkEnd a |> setR Reg.BUF_AUDIT_STATUS st |> setR Reg.BUF_AUDIT_DIFF_LO (a.diff % 2 ^ 32)
      |> setR Reg.BUF_AUDIT_DIFF_HI (a.diff / 2 ^ 32)
      |> modFab (fun x => { x with audit := none, prevKinds := kinds, prevDeltas := a.deltas, excused := x.excused || (a.excused && kinds != 0) })
    Ends .auditResult s₀
      (if new = 0 ∧ !moved then t
       else t |> latchBits ⟨Reg.BUF_EVENT, 0, 5⟩ (auditEvents new ||| b2n moved)
         |> record 0x25 ([st / 2 % 256] ++ dle 2 (st / 2 ^ 23) ++ dle 6 a.diff)
         |> whenT (t.on Fld.BUF_CTRL_resign) (trigger 0))) ∧
  (∀ s₀ clk dt, let s := arrive dt s₀
    s.alive = true → s.pwr.stage ≠ .pll → s.pwr.stage ≠ .memory → bit clk.toNat 0 = true →
    Ends (.clockFault clk dt) s₀ (clockBits clk s))

/-- CHALLENGE, NONCE_EXPIRY, UNLOCK, UNLOCK_COMPARE_DONE, LOCKOUT_EXPIRY, ROLE_LAPSE, ROLE_DROP, KEY_ROTATE and
ROTATION_FLASH_DONE (R56, R57, R58, R59, R60, R61). Model's choices where a rule leaves something open: assumption log 4, 74,
173. -/
def Obligations.RoleCommandsComplete : Prop :=
  (∀ s₀ v dt, let s := arrive dt s₀
    let w := wr Row.ROL_CHALLENGE 0 Reg.ROL_CHALLENGE v
    Taken s w → Ends (.challenge v dt) s₀ (challenge (val w) (written s w))) ∧
  (∀ s₀, let s := inItsTurn (whenAlive (nonceExpiry)) s₀
    s.alive = true → s.on Fld.ROL_STATUS_nonce_valid = true →
    let e := s.roles.nonceAt + 60 * cyclesPerS
    inTime isUnlock (advanceTo e s) = false → Ends .nonceExpiry s₀ (s |> advanceTo e |> dropNonce)) ∧
  (∀ s₀ v dt, let s := arrive dt s₀
    let w := wr Row.ROL_UNLOCK 0 Reg.ROL_UNLOCK v
    Taken s w → Ends (.unlock v dt) s₀ (roleUnlock (val w) (written s w))) ∧
  (∀ s₀ c rest, let s := inItsTurn (whenAlive (unlockCompareDone)) s₀
    s.alive = true → s.roles.compare = c :: rest →
    let t := s |> advanceTo c.due |> modRoles (fun r => { r with compare := rest })
    let f := t.getF Fld.ROL_STATUS_failures
    (c.ok = true → Ends .unlockCompareDone s₀
      (t |> setF Fld.ROL_STATUS_failures 0 |> modRoles (fun r => { r with lockoutEnd := none })
        |> setF Fld.ROL_STATUS_role c.role |> setF Fld.ROL_IDLE_ticks 60000 |> record 0x10 [c.role, f])) ∧
    (c.ok = false → Ends .unlockCompareDone s₀
      (let u := setF Fld.ROL_STATUS_failures (min (f + 1) 255) t
       u |> modRoles (fun r => { r with lockoutEnd := some (u.cycle + lockoutSeconds (min (f + 1) 255) * cyclesPerS) })
         |> record 0x11 [c.role, min (f + 1) 255]))) ∧
  (∀ s₀ e, let s := inItsTurn (whenAlive (lockoutExpiry)) s₀
    s.alive = true → s.roles.lockoutEnd = some e →
    Ends .lockoutExpiry s₀ (s |> advanceTo e |> modRoles (fun r => { r with lockoutEnd := none }))) ∧
  (∀ s₀, let s := inItsTurn (whenAlive (roleLapse)) s₀
    s.alive = true → s.role ≠ 0 → s.getF Fld.ROL_IDLE_ticks = 0 → inTime bar0Access s = false →
    Ends .roleLapse s₀ (s |> roleToOperator |> record 0x12 [s.role] |> latch Fld.ROL_EVENT_role_lapse)) ∧
  (∀ s₀ v dt, let s := arrive dt s₀
    let w := wr Row.ROL_DROP 0 Reg.ROL_DROP v
    Taken s w → Ends (.roleDrop v dt) s₀
      (noteWrite .host (touchIdle s).role w (shown w.off (touchIdle s)) (roleDrop (val w) (storeWrite w (touchIdle s))))) ∧
  (∀ s₀ v dt, let s := arrive dt s₀
    let w := wr Row.ROL_ROTATE 0 Reg.ROL_ROTATE v
    Taken s w → Ends (.keyRotate v dt) s₀ (keyRotate (val w) (written s w))) ∧
  (∀ s₀ v dt, let s := arrive dt s₀
    s.alive = true → s.roles.rotating = some v →
    Ends (.rotationFlashDone true true dt) s₀
      (let t := s |> modRoles (fun r => { r with rotating := none }) |> writeBlock false v true |> writeBlock true v true
       t |> setR Reg.ROL_KEY_ROT v |> record 0x16 (dle 4 (s.reg Reg.ROL_KEY_ROT).toNat ++ dle 4 v) |> roleToOperator
         |> setF Fld.ROL_STATUS_rotate_busy 0))

/-- IMAGE_ABORT, IMAGE_CHECK_DONE, IMAGE_RECORD, POLL_MATCH, POLL_TIMEOUT, DELAY_EXPIRY, IMAGE_READ_ERROR, IMAGE_START,
ENABLE_REQUEST and SEQUENCE_COMPLETE (R26, R71, R72, R73, R74, R76, R588). Model's choices where a rule leaves something
open: assumption log 11, 17, 20, 61, 84, 85, 87. -/
def Obligations.ImageAndSequenceCommandsComplete : Prop :=
  (∀ s₀ v dt, let s := arrive dt s₀
    let w := wr Row.ROL_IMG_CTRL 0 Reg.ROL_IMG_CTRL v
    Taken s w → ∀ c ∈ [Instr.imageStart v dt, .imageAbort v dt], Ends c s₀ (imageCtrl (val w) (written s w))) ∧
  (∀ s₀ slot0 slot1 dt, let s := arrive dt s₀
    s.alive = true → imgState s = 1 → imgSource s = 0 →
    let c := chooseSlot (checkImage s (2 ^ 22) slot0) (checkImage s (2 ^ 22) slot1) (imgGeneration slot0) (imgGeneration slot1)
    Ends (.imageCheckDone slot0 slot1 dt) s₀
      (s |> setF Fld.ROL_IMG_STATUS_slot c.1 |> imageChecked c.2 (if c.1 = 0 then slot0 else slot1))) ∧
  (∀ s₀ l top b dt, let s := arrive dt s₀
    s.alive = true → imgState s = 2 → s.image.wait = .none → secondBytes l s = some (top, b) →
    (headAt b 0).rtype = (currentHead s).rtype → (headAt b 0).level = (currentHead s).level →
    (headAt b 0).len = (currentHead s).len → (currentHead s).rtype ≠ 0 → s.image.hmacOk = true →
    Ends (.imageRecord l dt) s₀
      (doRecord (currentHead s).level (currentHead s) b
        (modImage (fun i => { i with second := i.second ++ (if i.index = 0 then top.take 28 else []) ++ b }) s))) ∧
  (∀ s₀ a m v e, let s := inItsTurn (whenAlive (pollMatch)) s₀
    s.alive = true → s.image.wait = .poll a m v e → pollOk a m v (advanceTo (nextPoll e s.cycle) s) = true →
    Ends .pollMatch s₀ (nextRecord (currentHead s).len (advanceTo (nextPoll e s.cycle) s))) ∧
  (∀ s₀ a m v e, let s := inItsTurn (whenAlive (pollTimeout)) s₀
    s.alive = true → s.image.wait = .poll a m v e → pollOk a m v (advanceTo e s) = false →
    Ends .pollTimeout s₀ (imageEnd 0x16 s.image.index (advanceTo e s))) ∧
  (∀ s₀ e, let s := inItsTurn (whenAlive (delayExpiry)) s₀
    s.alive = true → s.image.wait = .delay e → Ends .delayExpiry s₀ (s |> advanceTo e |> nextRecord (currentHead s).len)) ∧
  (∀ s₀ addr cpl dt, let s := arrive dt s₀
    s.alive = true → imgState s ≠ 0 → imgSource s = 1 →
    Ends (.imageReadError addr cpl dt) s₀ (s |> dmaError 2 0 addr cpl |> imageEnd 0x17 s.image.index)) ∧
  (∀ s₀ f v dt, let s := arrive dt s₀
    let w := fnWrite f v
    Taken s w → Ends (.enableRequest f v dt) s₀ (fnEffect f (written s w))) ∧
  (∀ s₀ f dt, let s := arrive dt s₀
    s.alive = true → s.getF (fnState f) = 1 → startReady f s = true →
    let t := s |> setF (fnState f) 2 |> startedWork f
    (isForced f t = true → Ends (.sequenceComplete f dt) s₀ (t |> setForced f false |> beginStop f)) ∧
    (isForced f t = false → Ends (.sequenceComplete f dt) s₀ (t |> stateDone f |> heldRequest f))) ∧
  (∀ s₀ f dt, let s := arrive dt s₀
    s.alive = true → s.getF (fnState f) = 3 → stopReady f s = true →
    Ends (.sequenceComplete f dt) s₀ (s |> stoppedWork f |> setF (fnState f) 0 |> stateDone f |> heldRequest f))

/-! ### Spire, epochs, the compatibility dialect, the roster -/

/-- TRUNK_LINK_UP, TRUNK_LINK_DOWN, BEACON_PERIOD, ANSWER_BEACON, BEACON_DEADLINE, BEACON_RECEIVE, COUNT_RECEIVE and
COMMIT_RECEIVE (R90, R91, R92, R97, R103). The frame is counted in and taken by its type. Model's choices where a rule
leaves something open: assumption log 35, 40. -/
def Obligations.TrunkLineCommandsComplete : Prop :=
  (∀ s₀ (n : Fin 4) (speed : Fin 4) dt, let s := arrive dt s₀
    s.running = true → portState s (48 + n) = 2 → s.on (Fld.TPT_STATUS_link n) = false →
    let sp := if s.on (Fld.TPT_MODE_an n) then speed.val else s.getF (Fld.TPT_MODE_speed n)
    Ends (.trunkLinkUp n speed dt) s₀
      (s |> setWord (48 + n) (some (speed + 4)) |> setF (Fld.TPT_STATUS_link n) 1 |> setF (Fld.TPT_STATUS_speed n) sp
        |> latch (Fld.TPT_EVENT_link_change n) |> startPreemption n |> sprLinkUp n)) ∧
  (∀ s₀ (n : Fin 4) dt, let s := arrive dt s₀
    s.running = true → s.on (Fld.TPT_STATUS_link n) = true →
    Ends (.trunkLinkDown n dt) s₀
      (s |> cutArrival (48 + n) |> cutFrame (48 + n) Reason.linkDown |> dropOwn (48 + n)
        |> sprLinkDown n (if portState s (48 + n) = 3 then 5 else 1)
        |> setWord (48 + n) none
        |> setVerify n none |> setF (Fld.TPT_STATUS_preempt_active n) 0 |> setF (Fld.TPT_STATUS_verify n) Vf.disabled
        |> setF (Fld.TPT_STATUS_link n) 0 |> setF (Fld.TPT_STATUS_speed n) 0 |> latch (Fld.TPT_EVENT_link_change n))) ∧
  (∀ s₀ e r, let s := inItsTurn (whenRunning (beaconPeriod)) s₀
    s.running = true → spireOn s = true → (List.range 4).filterMap (fun n => (s.line n).nextAt) = e :: r →
    Ends .beaconPeriod s₀
      (each (List.range 4) (fun n t =>
        match (t.line n).nextAt with
        | some e => if e ≤ t.cycle then
            t |> modLine n (fun x => { x with nextAt := some (e + 80000) })
              |> whenT (!t.on Fld.RED_STATUS_withdrawn) (sendBeacon false false n) else t
        | none => t) (advanceTo (r.foldl min e) s))) ∧
  (∀ s₀ (n : Fin 4), let s := inItsTurn (whenRunning (answerBeacon n)) s₀
    s.running = true → (s.line n).answer = true → spireOn s = true → (s.line n).link = true →
    s.on Fld.RED_STATUS_withdrawn = false →
    Ends (.answerBeacon n) s₀ (s |> modLine n (fun x => { x with answer := false }) |> sendBeacon false true n)) ∧
  (∀ s₀ (n : Fin 4) e, let s := inItsTurn (whenRunning (beaconDeadline n)) s₀
    s.running = true → (s.line n).due = some e → watched s n = true → inTime (isBeaconArrival s n) s = false →
    Ends (.beaconDeadline n) s₀
      (s |> advanceTo e |> modLine n (fun x => { x with late := true }) |> dropLine n Ln.lost 2 |> judgeCompat)) ∧
  (∀ s₀ (n : Fin 4) l back dt, let s := arrive dt s₀
    s.running = true → isSpireFrame s l = true → stillTakes s n (rxInstant (48 + n) back s) = true →
    let a := rxInstant (48 + n) back s
    let r := intoSpire (48 + n) 7 a l s
    let u := r.2
    r.1 = true → beAt l 14 1 / 16 = 1 → lstate u n ≠ Ln.down → beAt l 18 8 ≠ u.nodeId → spireOn u = true → portState u (48 + n) = 2 →
    (beAt l 14 1 % 16 = 1 → Ends (.beaconReceive n l back dt) s₀ (takeBeacon n a l u)) ∧
    (beAt l 14 1 % 16 = 2 → back = 0 → Ends (.countReceive n l dt) s₀ (takeCount n l u)) ∧
    (beAt l 14 1 % 16 = 3 → Ends (.commitReceive n l back dt) s₀ (takeCommit n a l u)))

/-- COUNT_SEND, SETTLE_EXPIRY, COMMIT_SEND, COMMIT_FORWARD, WAIT_TIMEOUT, SWITCH_INSTANT, BACKOFF_EXPIRY,
GRACE_EXPIRY, GRACE_REWRITE, LEAD_INPUT_CHANGE, LEAD_FILTER_ACCEPT, COUPLER_INPUT_CHANGE and COUPLER_FILTER_ACCEPT
(R96, R101, R102, R104, R106, R109, R111, R147, R545). Model's choices where a rule leaves something open: assumption
log 34. -/
def Obligations.EpochCommandsComplete : Prop :=
  (∀ s₀ (d : Fin 2) o, let s := inItsTurn (whenRunning (sendCount d)) s₀
    s.running = true → countDue s d = true → outgoing s d = some o →
    let x := s.dir d
    let seq := match x.seq with
      | none => 0
      | some q => (q + 1) % 2 ^ 16
    let body := be 8 o.origin ++ [byte o.hops, byte o.maxEpoch] ++ zeros 2 ++ be 4 o.delay ++ be 4 o.digest ++ be 8 o.lead
    Ends (.countSend d) s₀
      (s |> each (upLines s d) (fun n t =>
          sendFromS n 7 0 (spireFrame t n (spireHead t n 2 (b2n x.restart + 2 * b2n o.overflow) seq ++ body)) t)
        |> modDir d (fun x => { x with sent := some o, seq := some seq, owed := false, restart := false }))) ∧
  (∀ s₀ e v, let s := inItsTurn (whenRunning (settleExpiry)) s₀
    s.running = true → spireOn s = true → s.spr.settleEnd = some e →
    let t := s |> advanceTo e |> modSpr (fun x => { x with settleEnd := none })
    viewOf t = some v → v.overflow = false → v.clash = false → t.on Fld.SPR_STATUS_id_clash = false → v.n ≠ 1 →
    Ends .settleExpiry s₀
      (acceptCommit v v.newEpoch v.n t.nodeId v.digest v.leadConflict (digestOf t.nodeId) 0 (10 * t.cycle) t)) ∧
  (∀ s₀ a (fromRef : Bool), let s := inItsTurn (whenRunning (commitOut fromRef)) s₀
    s.running = true → s.spr.fwd = some a → (a.refDir == 0) = fromRef →
    let l := upLines s (commitDir s a)
    let t := s |> advanceTo ((l.map (commitStart s a)).foldl max s.cycle) |> modSpr (fun x => { x with fwd := none })
      |> each l (fun n t => sendFromS n 7 (a.at_ + hStamps) (commitFrame t a n) t)
    let u := if dirUp t (commitDir s a) then report (commitDir s a) a.newEpoch a.digest t else t
    Ends (if fromRef then .commitSend else .commitForward) s₀
      (each (u.fab.frames.filter (fun p => decide (s.fab.nextId ≤ p.1))) (fun p => commitOnLine p.1 p.2) u)) ∧
  (∀ s₀ e, let s := inItsTurn (whenRunning (waitTimeout)) s₀
    s.running = true → spireOn s = true → s.spr.waitEnd = some e → inTime (isCommitArrival s) s = false →
    Ends .waitTimeout s₀ (s |> advanceTo e |> abortCommit 9 0 0)) ∧
  (∀ s₀ a, let s := inItsTurn (whenRunning (switchInstant)) s₀
    s.running = true → s.spr.accepted = some a →
    let t := s |> advanceTo a.switchAt |> makeSwitch a false
    Ends .switchInstant s₀
      (if t.getF Fld.SPR_CTRL_state = 3 then each ((List.range 4).filter (isUp t)) (sendBeacon true false) t else t)) ∧
  (∀ s₀ e, let s := inItsTurn (whenRunning (backoffExpiry)) s₀
    s.running = true → spireOn s = true → s.spr.backoffEnd = some e →
    Ends .backoffExpiry s₀
      (s |> advanceTo e |> setFsm Fsm.gather |> modDir 0 (fun x => { x with restart := true })
        |> modDir 1 (fun x => { x with restart := true }) |> oweCounts |> settleView)) ∧
  (∀ s₀ e, let s := inItsTurn (whenRunning (graceExpiry)) s₀
    s.running = true → s.spr.graceEnd = some e → Ends .graceExpiry s₀ (s |> advanceTo e |> endGrace)) ∧
  (∀ s₀ v dt, let s := arrive dt s₀
    let w := wr Row.EPO_GRACE 0 Reg.EPO_GRACE v
    Taken s w → Ends (.graceRewrite v dt) s₀ (graceRewritten (written s w))) ∧
  (∀ s₀ level dt, let s := arrive dt s₀
    level ≠ s.spr.leadRaw →
    let u := setF Fld.GLB_PINS_lead_raw (b2n level) s
    let ms := u.getF Fld.SPR_LEAD_FILT_ms
    let due := if level = leadOn u then none else some (u.cycle + ms * cyclesPerMs)
    let t := modSpr (fun x => { x with leadRaw := level, leadDue := due }) u
    Ends (.leadInputChange level dt) s₀ (if due.isSome ∧ ms = 0 then takeLead t else t)) ∧
  (∀ s₀ e, let s := inItsTurn (whenAlive (leadAccept)) s₀
    s.alive = true → s.spr.leadDue = some e → Ends .leadFilterAccept s₀ (s |> advanceTo e |> takeLead)) ∧
  (∀ s₀ (c : Fin 2) level dt, let s := arrive dt s₀
    s.alive = true → s.on (cplRaw c) ≠ level →
    let u := setF (cplRaw c) (b2n level) s
    let ms := u.getF Fld.SPR_LEAD_FILT_ms
    Ends (.couplerInputChange c level dt) s₀
      (if u.on (cplFiltered c) = level then setCplDue c none u
       else if ms = 0 then u |> setCplDue c none |> setF (cplFiltered c) (b2n level)
       else setCplDue c (some (u.cycle + ms * cyclesPerMs)) u)) ∧
  (∀ s₀ (c : Fin 2) e, let s := inItsTurn (whenAlive (couplerAccept c)) s₀
    s.alive = true → cplDue s c = some e →
    Ends (.couplerFilterAccept c) s₀ (s |> advanceTo e |> setCplDue c none |> setF (cplFiltered c) (s.getF (cplRaw c))))

/-- COMPAT_HELLO_SEND, COMPAT_HELLO_RECEIVE, COMPAT_HELLO_TIMEOUT, TOPOLOGY_RECEIVE, COMPAT_COMMIT, COMPAT_HOLD_EXPIRY,
ROSTER_SEND and ROSTER_RECEIVE (R116, R117, R118, R119, R139, R140). Model's choices where a rule leaves something open:
assumption log 177. -/
def Obligations.CompatAndRosterCommandsComplete : Prop :=
  (∀ s₀, let s := inItsTurn (whenRunning (helloSend)) s₀
    s.running = true → inCompat s = true → s.getF Fld.SPR_COMPAT_CTRL_length ≠ 0 →
    let u := advanceTo s.spr.helloAt s
    let next := if 1 < s.spr.helloFast then s.getF Fld.SPR_COMPAT_TIMING_fast_ms else s.getF Fld.SPR_COMPAT_TIMING_slow_ms
    let v := modSpr (fun x => { x with helloFast := s.spr.helloFast - 1, helloAt := u.cycle + next * cyclesPerMs }) u
    Ends .compatHelloSend s₀
      (v |> each ((List.range 4).filter (fun n => (v.line n).link)) (fun n t =>
          sendFromS n 7 0 (pad60 (helloBytes (drawFree t).2 (drawFree t).1)) (drawFree t).2)
        |> modSpr (fun x => { x with helloSeq := (x.helloSeq + 1) % 2 ^ 16 }))) ∧
  (∀ s₀ (n : Fin 4) l dt, let s := arrive dt s₀
    s.running = true → isHello s l = true → portState s (48 + n) = 2 →
    let a := rxInstant (48 + n) 0 s
    let r := intoSpire (48 + n) 7 a l s
    let u := if inCompat s then r.2 else dropHello n (edgeClass s (48 + n) l) a l s
    let seen := r.2.getF Fld.SPR_COMPAT_STATUS_hello_seen
    let due := r.2.cycle + 3 * r.2.getF Fld.SPR_COMPAT_TIMING_slow_ms * cyclesPerMs
    (inCompat s = true → r.1 = true → Ends (.compatHelloReceive n l dt) s₀
      (r.2 |> setF Fld.SPR_COMPAT_STATUS_hello_seen (setBit seen n true)
        |> whenT (!bit seen n || (r.2.line n).helloSrc != some (frameSrc l)) (latch Fld.SPR_EVENT_line_change)
        |> modLine n (fun x => { x with helloSrc := some (frameSrc l), helloDue := some due })
        |> modSpr (fun x => { x with helloLast := some r.2.cycle }) |> judgeCompat)) ∧
    (inCompat s = false → Ends (.compatHelloReceive n l dt) s₀ u)) ∧
  (∀ s₀ (n : Fin 4) e, let s := inItsTurn (whenRunning (helloTimeout n)) s₀
    s.running = true → (s.line n).helloDue = some e → inTime (isHelloArrival s [n]) s = false →
    Ends (.compatHelloTimeout n) s₀
      (s |> advanceTo e |> modLine n (fun x => { x with helloSrc := none, helloDue := none })
        |> setF Fld.SPR_COMPAT_STATUS_hello_seen (setBit (s.getF Fld.SPR_COMPAT_STATUS_hello_seen) n false)
        |> latch Fld.SPR_EVENT_line_change)) ∧
  (∀ s₀ (n : Fin 4) l back dt, let s := arrive dt s₀
    s.running = true → inCompat s = true → isTopology s l = true →
    Ends (.topologyReceive n l back dt) s₀
      (s |> admissionPoint (48 + n) (l.take 128) (l.length + 4) back |> laterCells (l.length / 128) (48 + n) (l.drop 128)
        |> frameEnd (48 + n) [] .good 0)) ∧
  (∀ s₀ v dt, let s := arrive dt s₀
    let w := wr Row.SPR_COMPAT_COMMIT 0 Reg.SPR_COMPAT_COMMIT v
    Taken s w → Ends (.compatCommit v dt) s₀ (compatCommit (val w) (written s w))) ∧
  (∀ s₀ e, let s := inItsTurn (whenRunning (holdExpiry)) s₀
    s.running = true → holdEnd s = some e → inTime (isHelloArrival s [0, 1, 2, 3]) s = false →
    Ends .compatHoldExpiry s₀ (s |> advanceTo e |> modSpr (fun x => { x with helloLast := none }) |> judgeCompat)) ∧
  (∀ s₀ (d : Fin 2), let s := inItsTurn (whenRunning (sendRoster d)) s₀
    s.running = true →
    let t := modDir d (fun x => { x with roster := [] }) s
    inCompat t = false → spireOn t = true →
    Ends (.rosterSend d) s₀
      (each (s.dir d).roster (fun e t => each (upLines t d) (fun n u => sendFromS n 7 0 (rosterFrame u n e) u) t) t)) ∧
  (∀ s₀ (n : Fin 4) l dt, let s := arrive dt s₀
    let a := rxInstant (48 + n) 0 s
    s.running = true → isRosterFrame s l = true → stillTakes s n a = true →
    let r := intoSpire (48 + n) 7 a l s
    let u := r.2
    r.1 = true →
    let hops := beAt l 15 1
    let d := dirOf n
    let e : RosterEntry := { hops := hops, seq := beAt l 16 2, origin := beAt l 18 8, epoch := beAt l 26 1,
                             tnn := beAt l 27 1 % 64, digest := beAt l 30 4 }
    badRoster l = false → spireOn u = true → portState u (48 + n) = 2 → inCompat u = false → isUp u n = true →
    (u.dir d).nbr = (u.line n).peer → (u.dir d).nbr ≠ none → Sparse.find (u.dir d).far hops = none →
    let v := modDir d (fun x => { x with far := Sparse.ins (Sparse.drop x.far hops) hops e }) u
    let b := if hops = 1 then report d e.epoch e.digest v else v
    Ends (.rosterReceive n l dt) s₀
      (if hops < 62 ∧ dirUp b (1 - d) then queueRoster (1 - d) [{ e with hops := hops + 1 }] b else b))

/-! ### The fabric and the ports -/

/-- ADMISSION_POINT, CELL_WRITE, FRAME_END and CELL_TIME (R184, R185, R204, R205). Model's choices where a rule leaves
something open: assumption log 49, 52, 54, 159. -/
def Obligations.FabricCommandsComplete : Prop :=
  (∀ s₀ (p : Fin 52) l len back dt, let s := arrive dt s₀
    s.running = true → receives s p = true → Sparse.find s.fab.arriving p = none →
    takenWhole s p len l = false →
    let a := rxInstant p back s
    let r := if 48 ≤ p.val ∧ !inCompat s then ingressTrunk (p - 48) len a l s else ingressEdge p len a l s
    let id := match r.1 with
      | .taken id => some id
      | _ => none
    Ends (.admissionPoint p l len back dt) s₀ (setArrival p { frame := id, line := l, learn := r.2.1, inAt := a } r.2.2)) ∧
  (∀ s₀ (p : Fin 52) bytes a id f dt, let s := arrive dt s₀
    s.running = true → Sparse.find s.fab.arriving p = some a → a.frame = some id →
    let v := setArrival p { a with line := a.line ++ bytes } s
    let d := storedPart v p f bytes
    let u := closeFragments id v
    v.frame id = some f → lacksCells u f (max 1 (d.length / 128)) = false →
    Ends (.cellWrite p bytes dt) s₀ (modFrame id (fun g => { g with data := d, cells := max 1 (d.length / 128) }) u)) ∧
  (∀ s₀ (p : Fin 52) bytes frags dt a id f, let s := arrive dt s₀
    s.running = true → Sparse.find s.fab.arriving p = some a → a.frame = some id →
    let line := a.line ++ bytes
    let u := endArrival p s
    takenWhole u p (line.length + 4) line = false → line.length + 4 ≤ maxFrame u p →
    let v := statEnd p line .good frags u
    let x := whenT (frags == 0 && cameExpress v p line) (stat1 p 20) v
    let y := match a.learn with
      | some r => queueLearn r x
      | none => x
    let d := storedPart y p f bytes
    let z := closeFragments id y
    y.frame id = some f → lacksCells z f (cellsOf (d.length + 4)) = false →
    Ends (.frameEnd p bytes .good frags dt) s₀
      (endGood p id (modFrame id (fun g => { g with data := d, cells := cellsOf (d.length + 4), len := d.length + 4 }) z))) ∧
  (∀ s₀, let s := inItsTurn (whenRunning (cellTime)) s₀
    s.running = true →
    let u := advanceTo (nextCell s s.fab.cellAt) s
    let v := modFab (fun x => { x with crossing := [], cellAt := u.cycle }) u
    let w := v |> countSplit u.fab.crossing |> each u.fab.crossing crossOne
    let m := matchRounds (w.getF Fld.FAB_CTRL_iterations) w true (requests w) { acc := [], gptr := w.fab.gptr, aptr := w.fab.aptr }
    Ends .cellTime s₀
      (modFab (fun x => { x with crossing := m.acc.map (fun r => { frame := r.frame, out := r.out, cell := r.cell }),
                                 gptr := m.gptr, aptr := m.aptr }) w))

/-- REVERT_START, REVERT_DRAIN_MAX, REVERT_ENABLE, LEARN, AGEING_SWEEP, FDB_LOOKUP, FDB_INSERT, FDB_DELETE, FDB_FLUSH,
FDB_READ, FDB_COMMAND_DONE and FDB_NOP (R177, R178, R179, R193). Model's choices where a rule leaves something open:
assumption log 161, 167. -/
def Obligations.RevertAndFdbCommandsComplete : Prop :=
  (∀ s₀ (d : Fin 2) n, let s := inItsTurn (whenRunning (Machine.revertStart d)) s₀
    s.running = true → returned s d = some n → s.on Fld.FAB_AGG_CTRL_revert = true →
    Sparse.find s.fab.revert d = none →
    Ends (.revertStart d) s₀ (s |> advanceTo (revertDue s n) |> beginRevert d)) ∧
  (∀ s₀ (d : Fin 2) (c : Fin 8) m t0 moved, let s := inItsTurn (whenRunning (revertForce d c)) s₀
    s.running = true → Sparse.find s.fab.revert d = some m →
    Sparse.find s.fab.revertAt d = some t0 →
    let u := s |> advanceTo (t0 + s.getF Fld.FAB_AGG_CTRL_drain_max_ms * cyclesPerMs) |> revertCheck d
    Sparse.find u.fab.revert d = some moved → moved.contains c.val = false →
    Ends (.revertDrainMax d c) s₀
      (u |> latch Fld.FAB_EVENT_revert_forced |> count Reg.FAB_AGG_FORCED
        |> modFab (fun x => { x with revert := Sparse.ins (Sparse.drop x.revert d) d (c.val :: moved) }) |> revertCheck d)) ∧
  (∀ s₀ v dt, let s := arrive dt s₀
    let w := wr Row.FAB_AGG_CTRL 0 Reg.FAB_AGG_CTRL v
    Taken s w → Ends (.revertEnable v dt) s₀ (revertWritten (written s w))) ∧
  (∀ s₀ l t, let s := inItsTurn (whenRunning (learnStep)) s₀
    s.running = true → s.fab.learnQueue = l :: t →
    let u := advanceTo (nextCell s s.fab.learnAt) s
    Ends .learn s₀ (u |> modFab (fun x => { x with learnQueue := t, learnAt := u.cycle }) |> learnNow l)) ∧
  (∀ s₀ e, let s := inItsTurn (whenRunning (ageingSweep)) s₀
    s.running = true → s.fab.sweepDue = some e →
    let u := s |> advanceTo e |> flushBefore
    let v := modFab (fun x => { x with sweepDue := some (e + sweepInterval u) }) u
    Ends .ageingSweep s₀ (each (fdbUsed v) ageEntry v)) ∧
  (∀ s₀ v dt, let s := arrive dt s₀
    let w := wr Row.FDB_CMD 0 Reg.FDB_CMD v
    Taken s w → ∀ c ∈ [Instr.fdbNop v dt, .fdbLookup v dt, .fdbInsert v dt, .fdbDelete v dt, .fdbFlush v dt, .fdbRead v dt],
      Ends c s₀ (fdbCommand (val w) (written s w))) ∧
  (∀ s₀ c, let s := inItsTurn (whenRunning (fdbDone)) s₀
    s.running = true → s.fab.fdbCmd = some c →
    let u := advanceTo c.due s
    let v := whenT (u.fab.sweepDue == some u.cycle) ageingSweep u
    Ends .fdbCommandDone s₀
      (v |> whenT (learnFalls v) learnStep |> flushPassed |> modFab (fun x => { x with fdbCmd := none }) |> fdbRun c |> setF Fld.FDB_CMD_STATUS_busy 0
        |> latch Fld.FDB_EVENT_cmd_done))

/-- EDGE_LINK_CHANGE, PAUSE_RECEIVE, PAUSE_EXPIRY, FLOW_CONTROL_FRAME, FC_REFRESH, COLLISION, HD_BACKOFF_EXPIRY and
CARRIER_SENSE (R235, R238, R239, R244, R245). Model's choices where a rule leaves something open: assumption log 82. -/
def Obligations.EdgePortCommandsComplete : Prop :=
  (∀ s₀ (p : Fin 48) (speed : Fin 4) full dt, let s := arrive dt s₀
    s.running = true → portState s p = 2 ∨ portState s p = 3 →
    (s.on (Fld.EPT_MODE_an p) = false ∨ s.on (Fld.EPT_MODE_iface p) = true ∨ full = true ∨ speed.val ≠ 2) →
    let an := s.on (Fld.EPT_MODE_an p)
    let sgmii := !s.on (Fld.EPT_MODE_iface p)
    let sp := if !sgmii then 3 else if an then speed.val else s.getF (Fld.EPT_MODE_speed p)
    let du := !sgmii || (if an then full else s.on (Fld.EPT_MODE_duplex p))
    Ends (.edgeLinkChange p true speed full dt) s₀
      (s |> setWord p (some (speed + 4 * b2n full)) |> setF (Fld.EPT_STATUS_link p) 1 |> setF (Fld.EPT_STATUS_speed p) sp
        |> setF (Fld.EPT_STATUS_duplex p) (b2n du) |> setF (Fld.EPT_STATUS_an_done p) (b2n an)
        |> setF (Fld.EPT_STATUS_bad_mode p) 0
        |> whenT (!s.on (Fld.EPT_STATUS_link p)) (latch (Fld.EPT_EVENT_link_change p)) |> fcLinkUp p)) ∧
  (∀ s₀ (p : Fin 48) (speed : Fin 4) full dt, let s := arrive dt s₀
    s.running = true → portState s p = 2 ∨ portState s p = 3 →
    Ends (.edgeLinkChange p false speed full dt) s₀ (edgeDown p s)) ∧
  (∀ s₀ (p : Fin 48) l dt, let s := arrive dt s₀
    s.running = true → receives s p = true → etherTypeAt l 12 = 0x8808 → 60 ≤ l.length →
    Ends (.pauseReceive p l dt) s₀ (takeControl p l s)) ∧
  (∀ s₀ (p : Fin 48) (k : Fin 9) e, let s := inItsTurn (whenRunning (Machine.pauseExpiry p k)) s₀
    s.running = true → Sparse.find s.mac.pauseEnd (16 * p + k) = some e → inTime (isPauseArrival p) s = false →
    Ends (.pauseExpiry p k) s₀ (s |> advanceTo e |> setPause p k 0 |> showPause p)) ∧
  (∀ s₀ (p : Fin 48) bits, let s := inItsTurn (whenRunning (Machine.flowControlFrame p)) s₀
    s.running = true → Sparse.find s.mac.fcWait p = some bits → onAir s p = false →
    portLink s p = true → fcMode s p ≠ 0 →
    let l := fcFrame s p bits
    Ends (.flowControlFrame p) s₀
      (s |> modMac (fun m => { m with fcWait := Sparse.drop m.fcWait p, lastFc := Sparse.ins (Sparse.drop m.lastFc p) p s.cycle })
        |> emitOut (.frame p l false) |> stat p 32 (l.length + 4) |> statTxWhole p l
        |> stat1 p (if fcMode s p == 2 then 39 else 38))) ∧
  (∀ s₀ (p : Fin 48) t, let s := inItsTurn (whenRunning (Machine.fcRefresh p)) s₀
    s.running = true → Sparse.find s.mac.lastFc p = some t → xoffClasses s p ≠ [] →
    fcMode s p ≠ 0 →
    let u := advanceTo (t + quantaCycles s p (s.getF (Fld.EPT_FC_quanta p)) / 2) s
    let bits := Sparse.get (fun _ => 0) u.mac.fcWait p
    Ends (.fcRefresh p) s₀ (modMac (fun m => { m with fcWait := Sparse.ins (Sparse.drop m.fcWait p) p bits }) u)) ∧
  (∀ s₀ (p : Fin 48) dt x, let s := arrive dt s₀
    s.running = true → sendingAt s p = some x → isHalf s p = true → onAir s p = true →
    let mbps := portMbps s p
    let h := s.half p
    let v := stat1 p 45 s
    (bytesCycles mbps 64 < s.cycle - x.startAt → Ends (.collision p dt) s₀
      (v |> latch (Fld.EPT_EVENT_late_coll p) |> stat1 p 43 |> giveUp p Reason.lateCollision)) ∧
    (s.cycle - x.startAt ≤ bytesCycles mbps 64 → 15 ≤ h.attempts → Ends (.collision p dt) s₀
      (v |> latch (Fld.EPT_EVENT_excess_coll p) |> stat1 p 42 |> giveUp p Reason.excessCollision)) ∧
    (s.cycle - x.startAt ≤ bytesCycles mbps 64 → h.attempts < 15 →
      let n := h.attempts + 1
      let r := (Config.backoff Config.fusedUid p h.draws).toNat % 2 ^ min n 10
      let e := v.cycle + bytesCycles mbps 4 + r * bytesCycles mbps 64
      Ends (.collision p dt) s₀
        (setHalf p { h with attempts := n, draws := h.draws + 1, deferring := false, backoffEnd := some e } v))) ∧
  (∀ s₀ (p : Fin 48) e x f, let s := inItsTurn (whenRunning (backoffDone p)) s₀
    s.running = true → (s.half p).backoffEnd = some e → sendingAt s p = some x →
    s.frame x.frame = some f → (s.half p).carrier = false →
    let h := s.half p
    let u := advanceTo e s
    Ends (.hdBackoffExpiry p) s₀
      (u |> advanceTo (gapEnd u p) |> setHalf p { h with backoffEnd := none } |> putOnLine p f.cls x.frame f none 1 false)) ∧
  (∀ s₀ (p : Fin 48) carrier dt, let s := arrive dt s₀
    isHalf s p = true →
    let h := s.half p
    Ends (.carrierSense p carrier dt) s₀
      (setHalf p { h with carrier := carrier, carrierEnd := if h.carrier && !carrier then s.cycle else h.carrierEnd } s))

/-- TX_FRAME_START, PREEMPTION, TX_FRAME_END, VERIFY_SEND, VERIFY_RESPONSE, VERIFY_FRAME_RECEIVE, PREEMPT_CONFIG_WRITE,
DRAIN_EXPIRY, DRAIN_REWRITE and MST_CLEAR (R215, R247, R252, R257, R260). Model's choices where a rule leaves something open:
assumption log 54, 56, 57, 82, 157. -/
def Obligations.TransmitCommandsComplete : Prop :=
  (∀ s₀ (p : Fin 52) dt q id f, let s := arrive dt s₀
    s.running = true → portLink s p = true → (portState s p = 2 ∨ portState s p = 3) →
    Sparse.find s.mac.fcWait p = none → sendingAt s p = none → isHalf s p = false →
    let r := pickStart p (queuesOf p) s
    r.1 = some (q, id, f) →
    Ends (.txFrameStart p dt) s₀ (putOnLine p q id f none 1 true r.2)) ∧
  (∀ s₀ (n : Fin 4) sent dt x id f, let s := arrive dt s₀
    s.running = true → sendingAt s (48 + n) = some x → preemptActive s n = true →
    x.express = false → 64 * (1 + s.getF (Fld.TPT_PREEMPT_add_frag n)) - 4 ≤ sent →
    x.base + sent + 64 ≤ presentBytes s x + 4 →
    let r := startFrom ((txQueue s (48 + n) 8).length + 1) (48 + n) 8 s
    r.1 = some (id, f) →
    let held : HeldFrame := { frame := x.frame, bytes := x.bytes, sent := x.base + sent, taken := x.taken }
    Ends (.preemption n sent dt) s₀
      (putOnLine (48 + n) 8 id f (some held) (x.fragments + 1) true r.2 |> stat1 (48 + n) 47)) ∧
  (∀ s₀ (p : Fin 52) dt x f, let s := arrive dt s₀
    s.running = true → sendingAt s p = some x → s.frame x.frame = some f → onAir s p = true →
    f.complete = true → f.copies.any (fun y => y.out == p.val && decide (f.cells ≤ y.pos)) = true → f.bad = false →
    x.held = none →
    let l := x.bytes ++ f.data.drop x.taken
    let a := s
    let u := advanceTo (x.startAt + bytesCycles (portMbps a p) (l.length + 4)) a
    let n := (u.half p).attempts
    let v := u |> emitOut (.frame p l false) |> statTxWhole p l |> whenT x.express (stat1 p 48)
      |> whenT (decide (1 < x.fragments) && !x.express) (fun t => t |> stat1 p 46 |> stat1 p 47)
      |> whenT (decide (n = 1)) (stat1 p 40) |> whenT (decide (1 < n)) (stat1 p 41)
      |> clearSending p |> tsResolve f true |> deliverCopy x.frame p
    Ends (.txFrameEnd p dt) s₀ (setHalf p { v.half p with attempts := 0, deferring := false, deferred := none, backoffEnd := none } v)) ∧
  (∀ s₀ (n : Fin 4) v, let s := inItsTurn (whenRunning (Machine.verifySend n)) s₀
    s.running = true → Sparse.find s.mac.verify n = some v → v.restart = false →
    let u := advanceTo v.due s
    inTime (isVerifyResponse n) u = false →
    (v.sent < u.getF (Fld.TPT_PREEMPT_verify_limit n) →
      let w := u |> verifyOut n false |> setF (Fld.TPT_STATUS_verify n) Vf.verifying
      let due := u.cycle + u.getF (Fld.TPT_PREEMPT_verify_ms n) * cyclesPerMs
      Ends (.verifySend n) s₀ (setVerify n (some { v with sent := v.sent + 1, due := due }) w)) ∧
    (u.getF (Fld.TPT_PREEMPT_verify_limit n) ≤ v.sent → Ends (.verifySend n) s₀
      (u |> setF (Fld.TPT_STATUS_verify n) Vf.failed |> setVerify n none |> latch (Fld.TPT_EVENT_verify_fail n)))) ∧
  (∀ s₀ (n : Fin 4) dt, let s := arrive dt s₀
    s.running = true → receives s (48 + n) = true →
    let u := stat1 (48 + n) 52 s
    u.getF (Fld.TPT_STATUS_verify n) = Vf.verifying →
    ((Sparse.find u.mac.verify n).map (fun v => v.restart)).getD false = false →
    Ends (.verifyResponse n dt) s₀
      (u |> setF (Fld.TPT_STATUS_verify n) Vf.succeeded |> setVerify n none |> setF (Fld.TPT_STATUS_preempt_active n) 1)) ∧
  (∀ s₀ (n : Fin 4) dt, let s := arrive dt s₀
    s.running = true → receives s (48 + n) = true →
    Ends (.verifyFrameReceive n dt) s₀ (s |> stat1 (48 + n) 52 |> verifyOut n true)) ∧
  (∀ s₀ (n : Fin 4) v dt, let s := arrive dt s₀
    let w := wr Row.TPT_PREEMPT n (Reg.TPT_PREEMPT n) v
    Taken s w → Ends (.preemptConfigWrite n v dt) s₀ (preemptWritten n (old s w) (written s w))) ∧
  (∀ s₀ (p : Fin 48) t, let s := inItsTurn (whenRunning (Machine.drainExpiry p)) s₀
    s.running = true → Sparse.find s.mac.drainAt p = some t →
    Ends (.drainExpiry p) s₀ (s |> advanceTo (t + s.getF (Fld.EPT_CTRL_drain_us p) * cyclesPerUs) |> drainOver p)) ∧
  (∀ s₀ (p : Fin 48) v dt, let s := arrive dt s₀
    let w := wr Row.EPT_CTRL p (Reg.EPT_CTRL p) v
    Taken s w → Ends (.drainRewrite p v dt) s₀ (written s w |> request (.edge p) |> drainWritten p)) ∧
  (∀ s₀ v dt, let s := arrive dt s₀
    let w := wr Row.MST_CLEAR 0 Reg.MST_CLEAR v
    Taken s w → Ends (.mstClear v dt) s₀ (mstClear (val w) (written s w)))

/-! ### Time, phase domains, the Carillon, CAN -/

/-- SYNC_SEND, SYNC_RECEIVE, SLEW_END, SYNC_TIMEOUT, PERMIT_LAPSE, MERGE_TIMEOUT and MERGE_WAIT_EXPIRY (R283, R284,
R286, R291, R292, R295). Model's choices where a rule leaves something open: assumption log 8, 9, 96, 97, 98, 99. -/
def Obligations.SyncCommandsComplete : Prop :=
  (∀ s₀, let s := inItsTurn (whenRunning (syncSend)) s₀
    s.running = true → s.tim.extra = [] →
    let u := advanceTo s.tim.nextSync s
    let due := s.tim.nextSync + syncCycles u
    let v := modTim (fun x => { x with nextSync := if due ≤ u.cycle then u.cycle + syncCycles u else due }) u
    Ends .syncSend s₀ (each (masters v) sendSync v)) ∧
  (∀ s₀, let s := inItsTurn (whenRunning (syncSend)) s₀
    s.running = true → s.tim.extra ≠ [] →
    Ends .syncSend s₀ (s |> modTim (fun x => { x with extra := [] }) |> each (s.tim.extra.filter (masters s).contains) sendSync)) ∧
  (∀ s₀ (n : Fin 4) l back dt, let s := arrive dt s₀
    let a := rxInstant (48 + n) back s
    s.running = true → isNativeSync s l = true → stillTakes s n a = true →
    let r := intoSpire (48 + n) 6 a l s
    let v := r.2
    r.1 = true → portState v (48 + n) = 2 → servoOwns v = true → firstUp v (dirOf n) = some n.val → slaveDir v = dirOf n + 1 →
    Ends (.syncReceive n l back dt) s₀ (syncAccept n (rxTime16 v (48 + n) a) l v)) ∧
  (∀ s₀ e, let s := inItsTurn (whenAlive (slewEnd)) s₀
    s.alive = true → s.tim.slewEnd = some e → Ends .slewEnd s₀ (s |> advanceTo e |> slewOver)) ∧
  (∀ s₀ e, let s := inItsTurn (whenRunning (syncTimeout)) s₀
    s.running = true → s.tim.syncDue = some e → inTime (isSyncArrival s) s = false →
    Ends .syncTimeout s₀ (s |> advanceTo e |> enterHoldover)) ∧
  (∀ s₀ e, let s := inItsTurn (whenAlive (permitLapse)) s₀
    s.alive = true → s.tim.grantEnd = some e →
    Ends .permitLapse s₀
      (s |> advanceTo e |> setF Fld.TIM_STATUS_permit_grant 0 |> setF Fld.TIM_PERMIT_grant 0
        |> modTim (fun x => { x with grantEnd := none }))) ∧
  (∀ s₀ e, let s := inItsTurn (whenRunning (mergeTimeout)) s₀
    s.running = true → s.tim.mergeEnd = some e → inTime (isSyncArrival s) s = false →
    Ends .mergeTimeout s₀ (s |> advanceTo e |> endMerge 2)) ∧
  (∀ s₀ e, let s := inItsTurn (whenRunning (mergeWaitExpiry)) s₀
    s.running = true → s.tim.waitEnd = some e → inTime (isSyncArrival s) s = false →
    let u := s |> advanceTo e |> modTim (fun x => { x with waitEnd := none }) |> loseSlave
    Ends .mergeWaitExpiry s₀ (whenT (s.on Fld.TIM_STATUS_gm_yielded) gmResume u)) ∧
  (∀ s₀ c, let s := inItsTurn (whenRunning (mergeWaitExpiry)) s₀
    s.running = true → s.tim.waitEnd = none → s.tim.flaggedSince = some c → s.on Fld.TIM_STATUS_gm_yielded = true →
    inTime (isSyncArrival s) s = false →
    Ends .mergeWaitExpiry s₀ (s |> advanceTo (c + s.getF Fld.TIM_MERGE_CFG_wait_ms * cyclesPerMs) |> gmResume))

/-- TIME_ADJUST, RATE_WRITE, PERMIT_GRANT, ADDEND_WRITE, CORRELATION_LATCH, PHASE_OFFSET_WRITE, SYNC_PIN_CAPTURE,
PPS_PULSE and PPS_END (R283, R284, R285, R288, R296, R297, R298, R316). Model's choices where a rule leaves something
open: assumption log 8, 9, 22, 101. -/
def Obligations.TimeAndPinCommandsComplete : Prop :=
  (∀ s₀ v dt, let s := arrive dt s₀
    let w := wr Row.TIM_ADJ_CTRL 0 Reg.TIM_ADJ_CTRL v
    Taken s w → Ends (.timeAdjust v dt) s₀ (whenT (bit (val w) 0) hostAdjust (written s w))) ∧
  (∀ s₀ v dt, let s := arrive dt s₀
    let w := wr Row.TIM_RATE 0 Reg.TIM_RATE v
    Taken s w → Ends (.rateWrite v dt) s₀ (rateWritten (old s w) (written s w))) ∧
  (∀ s₀ v dt, let s := arrive dt s₀
    let w := wr Row.TIM_PERMIT 0 Reg.TIM_PERMIT v
    Taken s w → Ends (.permitGrant v dt) s₀ (whenT (bit (val w) 0) permitGrant (written s w))) ∧
  (∀ s₀ v dt, let s := arrive dt s₀
    let w := wr Row.TIM_ADDEND_HI 0 Reg.TIM_ADDEND_HI v
    Taken s w → Ends (.addendWrite v dt) s₀ (addendWritten (written s w))) ∧
  (∀ s₀ v dt, let s := arrive dt s₀
    let w := wr Row.TIM_CORR_CTRL 0 Reg.TIM_CORR_CTRL v
    Taken s w → Ends (.correlationLatch v dt) s₀ (whenT (bit (val w) 0) correlate (written s w))) ∧
  (∀ s₀ (d : Fin 8) v dt, let s := arrive dt s₀
    let w := wr Row.PHS_OFFSET d (Reg.PHS_OFFSET d) v
    Taken s w → Ends (.phaseOffsetWrite d v dt) s₀ (offsetWritten d (old s w) (written s w))) ∧
  (∀ s₀ (n : Fin 4) level dt, let s := arrive dt s₀
    let was := s.tim.pinsIn.contains n.val
    let pins := if level then (if was then s.tim.pinsIn else n.val :: s.tim.pinsIn) else s.tim.pinsIn.filter (· != n.val)
    let v := modTim (fun x => { x with pinsIn := pins }) s
    Ends (.syncPinCapture n level dt) s₀ (if was != level && capturesEdge (syncMode v n) level then syncCapture n v else v)) ∧
  (∀ s₀ (n : Fin 4), let s := inItsTurn (whenRunning (Machine.ppsPulse n)) s₀
    s.running = true → syncMode s n = 4 →
    let t : Int := (s.time : Int) - s.getI (Fld.TIM_SYNC_OFFSET_offset n) * (nsUnits : Int)
    let past : Nat := (t % (secUnits : Int)).toNat
    let now := decide (past < s.timeInc) && Sparse.find s.tim.ppsAt n != some s.cycle
    let u := if now then s else advance (ceilDiv (secUnits - past) s.timeInc) s
    let v := driveSync n (!u.on (Fld.TIM_SYNC_CFG_polarity n)) u
    let ends := v.cycle + v.getF (Fld.TIM_SYNC_CFG_width_us n) * cyclesPerUs
    Ends (.ppsPulse n) s₀
      (modTim (fun x => { x with ppsAt := Sparse.ins (Sparse.drop x.ppsAt n) n v.cycle,
                                 ppsEnd := Sparse.ins (Sparse.drop x.ppsEnd n) n ends }) v)) ∧
  (∀ s₀ (n : Fin 4) e, let s := inItsTurn (whenRunning (Machine.ppsEnd n)) s₀
    s.running = true → Sparse.find s.tim.ppsEnd n = some e →
    Ends (.ppsEnd n) s₀
      (s |> advanceTo e |> modTim (fun x => { x with ppsEnd := Sparse.drop x.ppsEnd n })
        |> driveSync n (s.on (Fld.TIM_SYNC_CFG_polarity n))))

/-- PHASE_REFERENCE, REFERENCE_MISS, TACH_STILL, PD0_LIMIT, CARILLON_FIRE, EVENT_ENTRY_WRITE, SCHEDULE_SILENCE and
SILENCE_RELEASE (R306, R308, R311, R314, R315, R323). Model's choices where a rule leaves something open: assumption
log 10, 104, 106, 108, 109, 110, 111. -/
def Obligations.PhaseAndCarillonCommandsComplete : Prop :=
  (∀ s₀ (d : Fin 8) dt, let s := arrive dt s₀
    s.running = true → lockState s d ≠ Lk.off →
    (∀ p, s.sd.refs.find? (fun p => p.1 == d.val) = some p → phsSource s d = Src.mains →
      let v := { s with sd := { s.sd with refs := s.sd.refs.erase p } }
      Ends (.phaseReference d .mains dt) s₀ (cyclicRef d (v.cycle - p.2) v)) ∧
    (phsSource s d = Src.sync → syncMode s (s.getF (Fld.PHS_CTRL_input d) % 4) = 6 → Ends (.phaseReference d .sync dt) s₀ (cyclicRef d 0 s)) ∧
    (∀ forward, phsSource s d = Src.tach → Ends (.phaseReference d (.tach forward) dt) s₀ (tachEdge d forward s)) ∧
    (phsSource s d = Src.tach →
      Ends (.phaseReference d .index dt) s₀ (indexSeen d s))) ∧
  (∀ s₀ (d : Fin 8), let s := inItsTurn (whenRunning (Machine.referenceMiss d)) s₀
    s.running = true → (lockState s d = Lk.acquire ∨ lockState s d = Lk.locked) → (s.dom d).seen ≠ 0 →
    (phsSource s d = Src.mains ∨ phsSource s d = Src.sync) →
    let x := s.dom d
    let u := advanceTo (x.lastAt + (2 * x.missed + 3) * refPeriod x.inc 1 / 2) s
    inTime (isCyclicEdge d) u = false →
    Ends (.referenceMiss d) s₀
      (u |> count (Reg.PHS_MISSES d)
        |> modDom d (fun y => { y with missed := y.missed + 1 }) |> refLost d)) ∧
  (∀ s₀ (d : Fin 8), let s := inItsTurn (whenRunning (Machine.tachStill d)) s₀
    s.running = true → phsSource s d = Src.tach → lockState s d ≠ Lk.off → lockState s d ≠ Lk.hold →
    let u := advanceTo ((s.dom d).lastAt + s.getF (Fld.PHS_SLIP_still_ms d) * cyclesPerMs) s
    inTime (isTachEdge d) u = false →
    ((s.dom d).seen = 0 → Ends (.tachStill d) s₀ (u |> modDom d (fun y => { y with inc := 0 }) |> moveLock d Lk.hold)) ∧
    ((s.dom d).seen ≠ 0 → Ends (.tachStill d) s₀
      (u |> modDom d (fun y => { y with pos := y.pos + signedOf 32 (y.lastRef + 2 ^ 32 - phaseNow u d) * (2 ^ 32 : Nat), inc := 0 })
        |> moveLock d Lk.hold))) ∧
  (∀ s₀ c, let s := inItsTurn (whenRunning (pd0Limit)) s₀
    s.running = true → s.car.pd0Since = some c →
    Ends .pd0Limit s₀
      (s |> advanceTo (c + s.getF Fld.PHS_PD0_LIM_hold_ms * cyclesPerMs) |> modCar (fun x => { x with pd0Since := none })
        |> latch Fld.PHS_EVENT_pd0_limit |> trigger 5)) ∧
  (∀ s₀, let s := inItsTurn (whenRunning (carillonFire)) s₀
    s.running = true → s.getF Fld.CAR_CTRL_state = 2 →
    let u := advanceTo (nextCell s s.car.cellAt) s
    Ends .carillonFire s₀
      (u |> modCar (fun x => { x with cellAt := u.cycle }) |> each (List.range 8) selectDom |> scheduleActs)) ∧
  (∀ s₀ (k : Fin 4096) v dt, let s := arrive dt s₀
    let w := wr Row.CAR_EVT1 k (Reg.CAR_EVT1 k) v
    Taken s w → Ends (.eventEntryWrite k v dt) s₀ (eventWritten k (written s w))) ∧
  (∀ s₀, let s := inItsTurn (whenRunning (scheduleSilence)) s₀
    s.running = true → silenced s = false → s.getF Fld.CAR_SILENCE_ticks ≤ s.car.overTicks →
    let mask := s.getF Fld.CAR_MERGE_sched_classes
    Ends .scheduleSilence s₀
      (s |> setF Fld.CAR_STATUS_silenced 1 |> latch Fld.CAR_EVENT_silence |> silenceRecord 0
        |> whenT (s.getF Fld.CAR_CTRL_state == 1 || s.getF Fld.CAR_CTRL_state == 2) (silenceGates mask)
        |> whenT (s.on Fld.CAR_CTRL_silence_resign) (trigger 6))) ∧
  (∀ s₀ v dt, let s := arrive dt s₀
    let w := wr Row.CAR_RELEASE 0 Reg.CAR_RELEASE v
    Taken s w → Ends (.silenceRelease v dt) s₀ (whenT (bit (val w) 0) silenceRelease (written s w)))

/-- CAN_FRAME_RECEIVE, CAN_TX_RECORD, CAN_ARBITRATION, CAN_TX_ACKNOWLEDGED, CAN_ACK_ERROR, LONELY_RETRY,
CAN_BUS_ERROR, PROTOCOL_EXCEPTION_EXIT, CAN_RECOVER and CAN_RECOVERY_DONE (R330, R338, R341, R342, R344, R345, R347,
R348). Model's choices where a rule leaves something open: assumption log 115, 116, 117, 118. -/
def Obligations.CanChannelCommandsComplete : Prop :=
  (∀ s₀ (c : Fin 16) f len dt, let s := arrive dt s₀
    s.running = true → onBus s c = true →
    let u := s |> offBus c |> modChan c (fun x => { x with sender := false })
    (f.fdf = true → u.on (Fld.CAN_CTRL_fd c) = false → Ends (.canFrameReceive c f len dt) s₀
      (u |> count (Reg.CAN_PEX c) |> latch (Fld.CAN_EVENT_pex c) |> modChan c (fun x => { x with pex := true }))) ∧
    (f.fdf = false ∨ u.on (Fld.CAN_CTRL_fd c) = true →
      let at_ := u.cycle - len + nominalSample (u.chan c).nbt
      let t := u |> receivedWell c |> notLonely c |> takeCan c (canStampAt at_) f
      Ends (.canFrameReceive c f len dt) s₀ (whenT (isTt u c) (ttReceive (canStampAt at_) at_ f) t))) ∧
  (∀ s₀ (r : Fin 64) l dt j, let s := arrive dt s₀
    s.running = true → canJob s r = some j → recordIndex l = 0 →
    let c := beAt l 6 1 % 16
    let f := recordFrame l
    let u := modHost (fun h => { h with lastTx := r }) s
    (f.fdf = true → u.on (Fld.CAN_CTRL_fd c) = false → Ends (.canTxRecord r l dt) s₀
      (u |> count (Reg.CAN_TX_DROPPED c) |> txDoneOpen r j.id 5 0)) ∧
    (f.fdf = false ∨ u.on (Fld.CAN_CTRL_fd c) = true →
      let v := setFate r j.id .waiting u
      Ends (.canTxRecord r l dt) s₀
        (if (v.chan c).host.length < 16 then putHost c r j.id f v
         else { v with can := { v.can with waiting := v.can.waiting ++ [(r.val, j.id, c, f)] } }))) ∧
  (∀ s₀ (c : Fin 16) (tdcv : BitVec 7) dt src f, let s := arrive dt s₀
    s.running = true → onBus s c = true → chanState s c = 2 →
    (s.chan c).bus = none → (s.chan c).mode ≠ 1 → lonelyPaused s c = false →
    canChoice s c = some (src, f) →
    let x := s.chan c
    let g := { f with esi := estate s c == Es.passive }
    let at_ := s.cycle + nominalSample x.nbt
    let b : CanBus := { src := src, frame := g, stamp := canStampAt at_, at_ := at_ }
    let mb := match src with
      | .mailbox _ => true
      | _ => false
    Ends (.canArbitration c tdcv dt) s₀
      (s |> setChan c { x with bus := some b, sender := true, lastTry := s.cycle, release := false }
        |> whenT mb (modTt (fun t => { t with window := t.window.map (fun w => { w with started := true }) }))
        |> whenT (g.fdf && bit x.dbt.toNat 31) (setF (Fld.CAN_STATUS_tdcv c) tdcv.toNat)
        |> whenT (x.mode != 2) (emitOut (.can c { g with data := CanFrame.bytes g })))) ∧
  (∀ s₀ (c : Fin 16) dt b r j, let s := arrive dt s₀
    s.running = true → (s.chan c).bus = some b → b.src = .host r j →
    let u := s |> modChan c (fun x => { x with bus := none }) |> count (Reg.CAN_TX_FRAMES c) |> notLonely c
    let v := if estate u c = Es.busOff then u
      else putErrs c (u.getF (Fld.CAN_STATUS_tec c) - 1) (u.getF (Fld.CAN_STATUS_rec c)) u
    let w := v |> modChan c (fun x => { x with host := x.host.drop 1 })
      |> txDone r j 0 0 (b.stamp % 2 ^ 32) (b.stamp / 2 ^ 32) false
    Ends (.canTxAcknowledged c dt) s₀ (w |> whenT ((w.chan c).mode == 2) (takeCan c b.stamp b.frame) |> retryCan)) ∧
  (∀ s₀ (c : Fin 16) dominant dt b, let s := arrive dt s₀
    s.running = true → (s.chan c).bus = some b →
    let n := (s.chan c).ackErrs + 1
    let u := s |> offBus c |> count (Reg.CAN_ACK_ERR c) |> modChan c (fun x => { x with ackErrs := n })
    let v := whenT (n == u.getF (Fld.CAN_LONELY_count c))
      (fun t => t |> setF (Fld.CAN_STATUS_lonely c) 1 |> latch (Fld.CAN_EVENT_lonely c)) u
    Ends (.canAckError c dominant dt) s₀ (whenT (estate u c == Es.active || dominant) (addErrs c 8 0) v)) ∧
  (∀ s₀ (c : Fin 16), let s := inItsTurn (whenRunning (Machine.lonelyRetry c)) s₀
    s.running = true → lonelyPaused s c = true →
    Ends (.lonelyRetry c) s₀
      (s |> advanceTo ((s.chan c).lastTry + s.getF (Fld.CAN_LONELY_retry_ms c) * cyclesPerMs)
        |> modChan c (fun x => { x with release := true }))) ∧
  (∀ s₀ (c : Fin 16) k transmitting flag dt, let s := arrive dt s₀
    s.running = true → onBus s c = true → (transmitting = true → (s.chan c).sender = true) →
    (transmitting = true ∨ k = .flagBit ∨ k = .dominantRun → (s.chan c).mode ≠ 1) →
    let d := errSteps k transmitting flag
    let u := s |> offBus c |> modChan c (fun x => { x with sender := transmitting })
    let v := match errCounter k c with
      | some a => count a u
      | none => u
    Ends (.canBusError c k transmitting flag dt) s₀ (addErrs c d.1 d.2 v)) ∧
  (∀ s₀ (c : Fin 16) dt, let s := arrive dt s₀
    s.running = true →
    Ends (.protocolExceptionExit c dt) s₀ (modChan c (fun x => { x with pex := false }) s)) ∧
  (∀ s₀ (c : Fin 16) v dt, let s := arrive dt s₀
    let w := wr Row.CAN_CTRL c (Reg.CAN_CTRL c) v
    Taken s w → Ends (.canRecover c v dt) s₀ (written s w |> request (.canChannel c) |> canRecover c)) ∧
  (∀ s₀ (c : Fin 16), let s := inItsTurn (whenRunning (canRecovered c)) s₀
    s.running = true → s.on (Fld.CAN_STATUS_recovering c) = true →
    Ends (.canRecoveryDone c) s₀
      (s |> setF (Fld.CAN_STATUS_recovering c) 0 |> setF (Fld.CAN_CTRL_recover c) 0 |> putErrs c 0 0 |> latch (Fld.CAN_EVENT_recovered c)))

/-- TT_TX_TRIGGER, TT_WINDOW_END, TT_RX_TRIGGER, TT_ARB_TRIGGER, TT_REF_TRIGGER, TT_WATCH_TRIGGER and MAILBOX_LOAD
(R353, R354, R357, R358). Model's choices where a rule leaves something open: assumption log 60, 114, 115, 116. -/
def Obligations.CanScheduleCommandsComplete : Prop :=
  (∀ s₀ (j : Fin 64), let s := inItsTurn (whenRunning (ttTx j)) s₀
    AtTrigger s j 1 →
    let u := triggered 1 j s
    let k := u.getF (Fld.CAN_TT_TRIG_B_mailbox j)
    let age := if u.on (Fld.CAN_MB_STATE_loaded k) then 0 else min (u.getF (Fld.CAN_MB_STATE_age k) + 1) 255
    let v := u |> setF (Fld.CAN_MB_STATE_age k) age |> setF (Fld.CAN_MB_STATE_loaded k) 0
    (v.getF (Fld.CAN_MB_CFG_age_limit k) < age ∧ v.on (Fld.CAN_MB_CFG_stale_action k) = true →
      Ends (.ttTxTrigger j) s₀ (v |> count Reg.CAN_TT_STALE |> latch Fld.CAN_TT_EVENT_stale)) ∧
    (age ≤ v.getF (Fld.CAN_MB_CFG_age_limit k) ∨ v.on (Fld.CAN_MB_CFG_stale_action k) = false → v.hasRole = true →
      let w : TtWindow := { mailbox := k, endAt := v.cycle + v.getF Fld.CAN_TT_CFG_tx_enable * ntu v, started := false }
      Ends (.ttTxTrigger j) s₀ (modTt (fun t => { t with window := some w }) v))) ∧
  (∀ s₀ w, let s := inItsTurn (whenRunning (ttWindowEnd)) s₀
    s.running = true → s.can.tt.window = some w → Ends .ttWindowEnd s₀ (s |> advanceTo w.endAt |> endWindow)) ∧
  (∀ s₀ (j : Fin 64), let s := inItsTurn (whenRunning (ttRx j)) s₀
    AtTrigger s j 2 →
    let u := triggered 2 j s
    let k := u.getF (Fld.CAN_TT_TRIG_B_mailbox j)
    Ends (.ttRxTrigger j) s₀
      (if u.can.tt.seen.contains k then modTt (fun t => { t with seen := t.seen.filter (· != k) }) u
       else u |> count Reg.CAN_TT_MISSED |> latch Fld.CAN_TT_EVENT_missed)) ∧
  (∀ s₀ (j : Fin 64), let s := inItsTurn (whenRunning (ttArb j)) s₀
    AtTrigger s j 3 →
    let u := triggered 3 j s
    Ends (.ttArbTrigger j) s₀ (modTt (fun t => { t with arbEnd := (nextTrig u (j + 1)).map (trigAt u) }) u)) ∧
  (∀ s₀ (j : Fin 64), let s := inItsTurn (whenRunning (ttRef j)) s₀
    AtTrigger s j 4 → Ends (.ttRefTrigger j) s₀ (oweReference (triggered 4 j s))) ∧
  (∀ s₀ (j : Fin 64), let s := inItsTurn (whenRunning (ttWatch j)) s₀
    AtTrigger s j 5 → refInTime s (trigAt s j) = false →
    Ends (.ttWatchTrigger j) s₀ (triggered 5 j s |> count Reg.CAN_TT_WATCH |> ttCause 2 |> oweReference)) ∧
  (∀ s₀ (r : Fin 64) l dt j, let s := arrive dt s₀
    s.running = true → canJob s r = some j → recordIndex l ≠ 0 → recordIndex l ≤ 64 →
    let k := recordIndex l - 1
    let u := modHost (fun h => { h with lastTx := r }) s
    Ends (.mailboxLoad r l dt) s₀
      (u |> each (List.range 16) (fun i t => setR (Reg.CAN_MB_DATA k i) (leAt l (16 + 4 * i) 4) t)
        |> setF (Fld.CAN_MB_STATE_loaded k) 1 |> txDoneOpen r j.id 0 0))

/-! ### Filigree, Sense and Drive, the rings and the host -/

/-- FIL_ETH_FRAME, STATUS_SAMPLE, HOST_WORD_WRITE, SOURCE_JOB, CHANGE_EMISSION_DUE, EMISSION, FIL_HOLD and FIL_RELEASE
(R364, R365, R372, R373, R376, R380). Model's choices where a rule leaves something open: assumption log 120, 121,
122. -/
def Obligations.FiligreeCommandsComplete : Prop :=
  (∀ s₀ id rest f, let s := inItsTurn (whenRunning (filEthFrame)) s₀
    s.running = true → txQueue s portF 0 = id :: rest → s.frame id = some f →
    (s.getF Fld.FIL_CTRL_state = 0 ∨ s.fil.events.length < 256) →
    let l := vlanForm f portF
    let m := tatIn f portF l s
    Ends .filEthFrame s₀ (s |> noteTat id (m != l) |> setTxq portF 0 rest |> deliverCopy id portF |> filTake m)) ∧
  (∀ s₀, let s := inItsTurn (whenRunning (Machine.statusSample statusWords)) s₀
    s.running = true → s.getF Fld.FIL_CTRL_state ≠ 0 →
    let t := advanceTo s.fil.nextStatus s
    let u := modFil (fun x => { x with nextStatus := t.cycle + t.getF Fld.FIL_STATUS_CFG_period_us * cyclesPerUs }) t
    let l := statusWords u
    Ends .statusSample s₀ (each ((List.range l.length).zip l) (fun p v => statusEvent p.1 p.2 v) u)) ∧
  (∀ s₀ (i : Fin 16) v dt, let s := arrive dt s₀
    let w := wr Row.FIL_HOST_WORD i (Reg.FIL_HOST_WORD i) v
    Taken s w → Ends (.hostWordWrite i v dt) s₀ (statusEvent (16 + i) (val w) (written s w))) ∧
  (∀ s₀ e rest, let s := inItsTurn (whenRunning (sourceJob)) s₀
    s.running = true → s.fil.events = e :: rest → s.fil.emits = [] → filRuns s = true →
    let t := modFil (fun x => { x with events := rest }) s
    (filMatch t e = none → Ends .sourceJob s₀ (t |> advance 8 |> count Reg.FIL_NO_MATCH)) ∧
    (∀ i, filMatch t e = some i →
      let u := setF (Fld.FIL_SRC3_hits i) (min (t.getF (Fld.FIL_SRC3_hits i) + 1) 0xFFFFFFFF) t
      (e.data.length < u.getF (Fld.FIL_SRC2_min_len i) → Ends .sourceJob s₀ (u |> advance 8 |> count Reg.FIL_SHORT)) ∧
      (u.getF (Fld.FIL_SRC2_min_len i) ≤ e.data.length →
        Ends .sourceJob s₀ (u |> advance (8 + (srcSignals u i).length) |> each (srcSignals u i) (refresh e.data))))) ∧
  (∀ s₀ (t : Fin 2048) c, let s := inItsTurn (whenRunning (changeDue t)) s₀
    s.running = true → s.fil.pending.contains (t.val, false) = true → Sparse.find s.fil.lastEmit t = some c →
    let u := advanceTo (c + s.getF (Fld.FIL_TPL1_min_gap_us t) * cyclesPerUs) s
    u.hasRole = true → Ends (.changeEmissionDue t) s₀ (queueEmission t true u)) ∧
  (∀ s₀ t w rest, let s := inItsTurn (whenRunning (emission)) s₀
    s.running = true → s.fil.emits = (t, w) :: rest → filRuns s = true →
    let u := modFil (fun x => { x with emits := rest }) s
    tplBadWord u t = false → tplValid u t = true → u.hasRole = true →
    let eth := u.on (Fld.FIL_TPL0_kind t)
    let udp := eth && bit (u.getF (Fld.FIL_TPL2_word t)) 27
    let n := u.getF (Fld.FIL_TPL1_count t)
    let v := advance (8 + n + ceilDiv (tplLength u t) 4 + (if udp then 8 else 0)) u
    let r := walk n t 0 { at_ := v.getF (Fld.FIL_TPL0_first t), maxAge := 0 } v
    let aged := whenT (r.2.on (Fld.FIL_TPL3_maxage_en t))
      (writeWithin t (r.2.getF (Fld.FIL_TPL3_maxage_off t)) [byte r.1.maxAge]) r.2
    let x := aged |> tplSeq t |> tplCheck t |> whenT udp (tplUdp t)
    let y := x |> setF (Fld.FIL_TPL6_emits t) (min (x.getF (Fld.FIL_TPL6_emits t) + 1) 0xFFFFFFFF)
      |> setF (Fld.FIL_TPL7_last_max_age t) r.1.maxAge |> count Reg.FIL_EMITS |> clearPending t
      |> modFil (fun q => { q with lastEmit := Sparse.ins (Sparse.drop q.lastEmit t) t x.cycle })
    Ends .emission s₀ (if eth then filSend (tplFrame y t) y else canEmit (y.getF (Fld.FIL_TPL0_channel t)) (tplCan y t) y)) ∧
  (∀ s₀ v dt, let s := arrive dt s₀
    let w := wr Row.FIL_CTRL 0 Reg.FIL_CTRL v
    Taken s w → Ends (.filHold v dt) s₀ (request .filigree (written s w)) ∧ Ends (.filRelease v dt) s₀ (request .filigree (written s w)))

/-- SENSE_SAMPLE, INPUT_STUCK, INPUT_UNSTUCK, HOST_CONVERT, DRIVE_LEVEL_WRITE, DRIVE_PHASE_PASS, READBACK_DELAY_END,
READBACK_FAULT and PROVE_WINDOW_OPEN (R387, R388, R391, R395, R398, R399). Model's choices where a rule leaves
something open: assumption log 128, 129, 130. -/
def Obligations.SenseAndDriveCommandsComplete : Prop :=
  (∀ s₀ (n : Fin 32) bits dt, let a := arrive dt s₀
    let s := feedBits n bits a
    a.running = true →
    senseFed a n = true → (s.sense n).skip = 0 → s.getF Fld.SNS_CTRL_state = 2 →
    let r := sampleOf (decimation s n) (sincSum (decimation s n) (s.sense n).bits)
    let ago := sampleAgo s n
    let stamp := s.cycle - ago
    Ends (.senseSample n bits dt) s₀
      (s |> setF (Fld.SNS_SAMPLE_sample n) (codeOf 24 r.1) |> setF (Fld.SNS_STATUS_overrange n) (b2n r.2)
        |> whenT r.2 (latch Fld.SNS_EVENT_overrange) |> convSample n r.1 r.2 stamp |> cycleSample n r.1 r.2 ago
        |> zeroSample n r.1 r.2 stamp |> proveSample n r.1 r.2 stamp
        |> modSense n (fun y => { y with prev := some (r.1, stamp) }))) ∧
  (∀ s₀ (n : Fin 32) level dt, let s := arrive dt s₀
    s.running = true → senseFed s n = true → isStuck s n = false →
    Ends (.inputStuck n level dt) s₀
      (s |> setF (Fld.SNS_STATUS_stuck n) 1 |> setF ⟨Reg.SNS_STUCK, n, 1⟩ 1 |> count Reg.SNS_STUCK_COUNT
        |> latch Fld.SNS_EVENT_stuck |> record 0x51 [n.val, b2n level])) ∧
  (∀ s₀ (n : Fin 32) dt, let s := arrive dt s₀
    s.running = true → senseFed s n = true → Ends (.inputUnstuck n dt) s₀ (clearStuck n s)) ∧
  (∀ s₀ v dt, let s := arrive dt s₀
    let w := wr Row.SNS_CONVERT 0 Reg.SNS_CONVERT v
    Taken s w → Ends (.hostConvert v dt) s₀ (hostConvert (val w) (written s w))) ∧
  (∀ s₀ v dt, let s := arrive dt s₀
    let w := wr Row.DRV_LEVEL 0 Reg.DRV_LEVEL v
    Taken s w → Ends (.driveLevelWrite v dt) s₀ (levelWritten (written s w))) ∧
  (∀ s₀ (o : Fin 32) n, let s := inItsTurn (whenRunning (drivePass o)) s₀
    s.running = true → 2 ≤ drvMode s o → lockState s (drvDom s o) ≠ Lk.off →
    let d := drvDom s o
    let now := position s d
    let last := lastWith (s.getF (Fld.DRV_PHASE_phase o)) now
    passingIn s d last (Sparse.get (fun _ => now) s.sd.passed o) now = some n →
    let u := advance n s
    let at_ := position u (drvDom u o)
    let c := lastWith (u.getF (Fld.DRV_PHASE_phase o)) at_ / 2 ^ 32
    Ends (.drivePhasePass o) s₀
      (u |> setPassed o at_ |> setCmd o (passLevel u o c) |> released o
        |> modSd (fun x => { x with passAt := Sparse.ins (Sparse.drop x.passAt o) o (u.cycle, c) }))) ∧
  (∀ s₀ (o : Fin 32) c, let s := inItsTurn (whenRunning (readbackStart o)) s₀
    s.running = true → Sparse.find s.sd.rbDue o = some c →
    let t := advanceTo c s
    Ends (.readbackDelayEnd o) s₀
      (modSd (fun x => { x with rbDue := Sparse.drop x.rbDue o, rbSince := Sparse.ins (Sparse.drop x.rbSince o) o t.cycle }) t)) ∧
  (∀ s₀ (o : Fin 32) c, let s := inItsTurn (whenRunning (Machine.readbackFault o)) s₀
    s.running = true → Sparse.find s.sd.rbSince o = some c → s.on (Fld.DRV_CFG_rb_en o) = true →
    awaitsSoon (.readback o c) s = false →
    Ends (.readbackFault o) s₀ (s |> advanceTo (c + cyclesPerUs) |> inCycles 1 (.readback o c))) ∧
  (∀ s (o : Fin 32) since, Sparse.find s.sd.rbSince o = some since →
    let v := bit (s.getF Fld.DRV_OUT_level) o
    doSoon (.readback o since) s =
      (s |> modSd (fun x => { x with rbSince := Sparse.ins (Sparse.drop x.rbSince o) o s.cycle }) |> setF ⟨Reg.DRV_PIN, o, 1⟩ (b2n (!v)) |> latchBits Fld.DRV_RB_FAULT_fault (2 ^ o.val) |> count Reg.DRV_RB_COUNT
        |> latch Fld.DRV_EVENT_rb_fault |> record 0x52 [o.val, 0, b2n v])) ∧
  (∀ s₀ (o : Fin 32) p, let s := inItsTurn (whenRunning (proveOpen o)) s₀
    s.running = true → Sparse.find s.sd.prove o = some p → p.left = none →
    let t := advanceTo p.dueAt s
    let q := { p with dueAt := t.cycle, left := some (t.getF (Fld.DRV_PROVE_CFG_samples o)) }
    Ends (.proveWindowOpen o) s₀ (modSd (fun x => { x with prove := Sparse.ins (Sparse.drop x.prove o) o q }) t))

/-- DOORBELL, TX_DESCRIPTOR_FETCH, RX_DESCRIPTOR_FETCH, TX_DATA_READ, RING_WRITE, STALL_WAIT_EXPIRY, CAPTURE_WRITE and
MODERATION_TIMER (R413, R418, R421, R424, R425, R430, R431). Model's choices where a rule leaves something open:
assumption log 45. -/
def Obligations.RingCommandsComplete : Prop :=
  (∀ s₀ (r : Fin 64) (v : Word) pos dt, let s := arrive dt s₀
    s.reaches = true → s.host.bellsAhead.contains (r.val, v.toNat) = false → doorbellOk s r v.toNat = some pos →
    let x := s.ring r
    let new := pos != x.prod
    Ends (.doorbell r v dt) s₀
      (s |> modRing r (fun y => { y with prod := pos, stallEnd := if new then none else y.stallEnd,
                                         lateArmed := y.lateArmed && !new })
        |> whenT (x.lateArmed && new) (count (Reg.RNG_LATE_DOORBELL r)) |> goOn r)) ∧
  (∀ s₀ (r : Fin 64) (v : Word) dt, let s := arrive dt s₀
    s.reaches = true → s.host.bellsAhead.contains (r.val, v.toNat) = false → doorbellOk s r v.toNat = none →
    Ends (.doorbell r v dt) s₀ (s |> count (Reg.RNG_BAD_DOORBELL r) |> ringEvent Fld.RNG_EVENT_bad_doorbell r)) ∧
  (∀ s₀ (r : Fin 64) (v : Word) dt, let s := arrive dt s₀
    s.reaches = true → s.host.bellsAhead.contains (r.val, v.toNat) = true →
    Ends (.doorbell r v dt) s₀ (modHost (fun h => { h with bellsAhead := h.bellsAhead.erase (r.val, v.toNat) }) s)) ∧
  (∀ s₀ (r : Fin 64) descs dt, let s := arrive dt s₀
    s.running = true → ringIs s r 0 = true → s.on Fld.HST_LINK_bme = true →
    let x := s.ring r
    let n := min descs.length (min (x.avail - x.fetched.length) (prefetchRoom x))
    Ends (.txDescriptorFetch r descs dt) s₀
      (formJobs 9 r (modRing r (fun y =>
        { y with fetched := y.fetched ++ (descs.take n).map (fun d => (d ++ zeros 32).take 32) }) s))) ∧
  (∀ s₀ (r : Fin 64) descs dt, let s := arrive dt s₀
    let x := s.ring r
    s.running = true →
    (ringIs s r 1 = true ∨ ringIs s r 3 = true ∨ (ringState s r = 3 ∧ x.writing.isSome = true)) → s.on Fld.HST_LINK_bme = true →
    let l := (descs.take (x.avail - x.fetched.length)).map (fun d => (d ++ zeros 32).take 32)
    Ends (.rxDescriptorFetch r descs dt) s₀ (s |> modRing r (fun y => { y with fetched := y.fetched ++ l }) |> goOn r)) ∧
  (∀ s₀ (r : Fin 64) bytes dt j, let s := arrive dt s₀
    s.running = true →
    txServed s = some r.val → s.on Fld.HST_LINK_bme = true → nextReading s r = some j →
    let d := (j.slots.head?.map (·.2)).getD (zeros 32)
    Desc.can d = false →
    let l := slice bytes 0 (j.slots.map (fun p => Desc.len p.2)).sum
    let v := modHost (fun h => { h with lastTx := r }) s
    let cls := (hostFrame d l r j.id v).cls
    (v.host.waitH.any (fun w => w.1 == cls) = false → Ends (.txDataRead r bytes dt) s₀ (hostAdmit r j l v)) ∧
    (v.host.waitH.any (fun w => w.1 == cls) = true → Ends (.txDataRead r bytes dt) s₀
      (v |> modHost (fun h => { h with waitH := h.waitH ++ [(cls, r.val, j.id)] })
        |> modRing r (fun x => { x with
            jobs := x.jobs.map (fun k => if k.id = j.id then { k with fate := .waiting, data := l } else k) })))) ∧
  (∀ s₀ i rest, let s := inItsTurn (whenRunning (ringWrite)) s₀
    s.running = true → s.fab.ringQueue = i :: rest → (s.ring (ringOfItem s i)).writing = none →
    let t := modFab (fun x => { x with ringQueue := (i :: rest).erase i }) s
    let r := ringOfItem t i
    ringIs t r 1 = true → (t.ring r).writing = none → (t.ring r).held = [] → 0 < freeSlots t r →
    Ends .ringWrite s₀ (beginWrite r i t)) ∧
  (∀ s₀ (r : Fin 64) e, let s := inItsTurn (whenRunning (stallExpiry r)) s₀
    s.running = true → (s.ring r).stallEnd = some e →
    inTime (isDoorbell s r) (advanceTo e s) = false →
    let t := s |> advanceTo e |> discardWriting r
    Ends (.stallWaitExpiry r) s₀ (drainHeld ((t.ring r).held.length + 1) r t)) ∧
  (∀ s₀ c rest b more, let s := inItsTurn (whenRunning (captureWrite)) s₀
    s.running = true → s.fab.captures = c :: rest → c.chain.any (fun i => s.fab.badWords.contains (0, i)) = false →
    ringIs s c.ring 3 = true → freeSlots s c.ring ≠ 0 →
    (s.ring c.ring).fetched = b :: more → 64 ≤ Desc.len b → c.data.length ≤ Desc.len b →
    Ends .captureWrite s₀
      (s |> writeHost (Desc.addr b) c.data
        |> writeBack c.ring (s.ring c.ring).cons (zeros 8 ++ le 2 c.data.length ++ [byte 0x83])
        |> modRing c.ring (fun x => x.take 1) |> count (Reg.RNG_FRAMES c.ring) |> noteWriteback c.ring
        |> modFab (fun x => { x with captures := rest }) |> ledDeliver (ledRow portM c.cls) 1 |> count Reg.MIR_CAPTURES)) ∧
  (∀ s₀ (r : Fin 64), let s := inItsTurn (whenRunning (Machine.moderationTimer r)) s₀
    s.running = true → (s.ring r).unannounced ≠ 0 →
    Ends (.moderationTimer r) s₀
      (s |> advanceTo ((s.ring r).firstUnannounced + s.getF (Fld.RNG_MOD_timer_us r) * cyclesPerUs) |> announce r))

/-- MSIX_UNMASK, MISC_ACK, WATCHDOG_KICK, WATCHDOG_EXPIRY, WATCHDOG_CONFIG, HOST_DMA_ERROR, FUNCTION_LEVEL_RESET,
PCIE_LINK_DOWN, PCIE_LINK_UP, D3HOT_ENTRY, BUS_MASTER_CLEAR and BUS_MASTER_ENABLE (R406, R409, R410, R433, R435,
R436). Model's choices where a rule leaves something open: assumption log 14, 24, 29, 31, 82, 89. -/
def Obligations.HostCommandsComplete : Prop :=
  (∀ s₀ dt, let s := arrive dt s₀
    s.reaches = true → Ends (.msixUnmask none dt) s₀ (s |> setF Fld.HST_LINK_msix_en 1 |> setF Fld.HST_LINK_fn_mask 0 |> flushMsix)) ∧
  (∀ s₀ (k : Fin 72) dt, let s := arrive dt s₀
    s.reaches = true →
    Ends (.msixUnmask (some k) dt) s₀
      (flushMsix (modHost (fun h => { h with
        unmasked := if h.unmasked.contains k.val then h.unmasked else h.unmasked ++ [k.val] }) s))) ∧
  (∀ s₀ v dt, let s := arrive dt s₀
    let w := wr Row.HST_MISC_ACK 0 Reg.HST_MISC_ACK v
    Taken s w → Ends (.miscAck v dt) s₀ (ackMisc (val w) (written s w))) ∧
  (∀ s₀ v dt, let s := arrive dt s₀
    s.reaches = true → s.on Fld.HST_WDOG_CTRL_enable = true →
    Ends (.watchdogKick v dt) s₀ (s |> setF Fld.HST_WDOG_STATUS_expired 0 |> wdogLoad)) ∧
  (∀ s₀ e, let s := inItsTurn (whenAlive (wdogExpiry)) s₀
    s.alive = true → s.host.wdogEnd = some e → inTime isKick (advanceTo e s) = false →
    let t := s |> advanceTo e |> modHost (fun h => { h with wdogEnd := none }) |> setF Fld.HST_WDOG_STATUS_expired 1
      |> latch Fld.HST_EVENT_wdog
    let u := record 0x42 (dle 2 (s.getF Fld.HST_WDOG_CTRL_timeout_ms)) t
    Ends .watchdogExpiry s₀ (whenT (s.on Fld.HST_WDOG_CTRL_resign) (trigger 7) u)) ∧
  (∀ s₀ v dt, let s := arrive dt s₀
    let w := wr Row.HST_WDOG_CTRL 0 Reg.HST_WDOG_CTRL v
    let t := written s w
    Taken s w →
    (t.on Fld.HST_WDOG_CTRL_enable = false →
      Ends (.watchdogConfig v dt) s₀ (modHost (fun h => { h with wdogEnd := none }) t)) ∧
    (t.on Fld.HST_WDOG_CTRL_enable = true → (bit (old s w) 0 = false ∨ t.host.wdogEnd.isSome = true) →
      Ends (.watchdogConfig v dt) s₀ (wdogLoad t))) ∧
  (∀ s₀ (r : Fin 64) a cpl got dt, let s := arrive dt s₀
    s.alive = true →
    (ringState s r ≠ 0 → Ends (.hostDmaError 0 r a cpl got dt) s₀
      (s |> dmaError 0 r a cpl |> setF (Fld.RNG_CTRL_err r) 1 |> forceStop (.ring (fin 64 r)))) ∧
    ((nextReading s r).isSome = true →
      Ends (.hostDmaError 1 r a cpl got dt) s₀ (s |> dmaError 1 r a cpl |> txReadFails r got)) ∧
    (imgState s ≠ 0 → imgSource s = 1 → Ends (.hostDmaError 2 r a cpl got dt) s₀ (imageReadError a cpl s))) ∧
  (∀ s₀ dt, let s := arrive dt s₀
    s.alive = true → Ends (.functionLevelReset dt) s₀ (s |> functionReset |> latch Fld.HST_EVENT_flr)) ∧
  (∀ s₀ dt, let s := arrive dt s₀
    s.alive = true →
    Ends (.pcieLinkDown dt) s₀
      (s |> functionReset |> setF Fld.HST_LINK_up 0 |> setF Fld.HST_LINK_speed 0 |> setF Fld.HST_LINK_width 0
        |> latch Fld.HST_EVENT_link_down)) ∧
  (∀ s₀ speed width (payload : Fin 3) (readMax : Fin 6) dt, let s := arrive dt s₀
    s.alive = true → s.pwr.stage ≠ .pll → s.pwr.stage ≠ .memory → lanes s ≠ 0 →
    Ends (.pcieLinkUp speed width payload readMax dt) s₀
      (s |> setF Fld.HST_LINK_up 1 |> setF Fld.HST_LINK_speed speed |> setF Fld.HST_LINK_width (min width (lanes s))
        |> setF Fld.HST_LINK_dstate 0
        |> modHost (fun h => { h with maxPayload := 128 * 2 ^ payload.val, maxRead := 128 * 2 ^ readMax.val }))) ∧
  (∀ s₀ dt, let s := arrive dt s₀
    s.alive = true → Ends (.d3hotEntry dt) s₀ (s |> functionReset |> latch Fld.HST_EVENT_d3hot |> setF Fld.HST_LINK_dstate 3)) ∧
  (∀ s₀ dt, let s := arrive dt s₀
    s.alive = true → s.on Fld.HST_LINK_bme = true →
    let t := setF Fld.HST_LINK_bme 0 s
    Ends (.busMasterClear dt) s₀
      (each ((List.range 64).filter (fun r => ringState s r != 0)) (fun r u => u |> setF (Fld.RNG_CTRL_err r) 2 |> goOn r) t)) ∧
  (∀ s₀ dt, let s := arrive dt s₀
    s.alive = true → s.on Fld.HST_LINK_up = true →
    let t := setF Fld.HST_LINK_bme 1 s
    Ends (.busMasterEnable dt) s₀
      (t |> modHost (fun h => { h with heldWrites := [], heldReads := [] })
        |> each t.host.heldWrites (fun w => emitOut (.hostWrite w.2.1 w.2.2)) |> each t.host.heldReads (fun w => readHost w.1 w.2)
        |> sendHeld |> flushMsix |> each (List.range 64) goOn))

/-! ### The local bus and the CRC units -/

/-- BAR4_WRITE, BAR4_READ, LOCAL_CYCLE_END, NO_READY, READ_TIMEOUT and PREFETCH_EXPIRY (R445, R446, R448, R450, R451,
R452). Model's choices where a rule leaves something open: assumption log 144. -/
def Obligations.LocalBusCyclesComplete : Prop :=
  (∀ s₀ (a : BitVec 26) d dt, let s := arrive dt s₀
    s.reaches = true → lbbState s ≠ 0 → wfifoUse s + ceilDiv d.length 64 ≤ 32 →
    Ends (.bar4Write a d dt) s₀ (modLbb (fun b => { b with work := b.work ++ [.write a.toNat d (ceilDiv d.length 64)] }) s)) ∧
  (∀ s₀ (a : BitVec 26) en dt, let s := arrive dt s₀
    s.reaches = true → lbbState s ≠ 0 →
    Ends (.bar4Read a en dt) s₀
      (s |> modLbb (fun b => { b with unaccepted := b.unaccepted ++ [(a.toNat, en)] }) |> acceptReads 9)) ∧
  (∀ s₀ (data : BitVec 16) ok dt c, let at_ := s₀.cycle + dt
    let s := inItsTurn (whenRunning (Machine.localCycleEnd data.toNat ok at_)) s₀
    s.running = true → s.lbb.cycle = some c →
    let e := if c.ready then max c.endMin at_ else c.endMin
    (c.ready = false ∨ e ≤ c.limitAt) →
    Ends (.localCycleEnd data ok dt) s₀ (s |> advanceTo e |> cycleDone c data.toNat ok)) ∧
  (∀ s₀ c, let s := inItsTurn (whenRunning (noReady)) s₀
    s.running = true → s.lbb.cycle = some c → c.ready = true → inTime isLocalEnd (advanceTo c.limitAt s) = false →
    Ends .noReady s₀ (s |> advanceTo c.limitAt |> cycleLost c)) ∧
  (∀ s₀ (tag : Fin 8) r, let s := inItsTurn (whenRunning (Machine.readTimeout tag)) s₀
    s.running = true → readOf s tag = some r → r.answer = none →
    lastDataInTime (advanceTo r.due s) r = false →
    let t := s |> advanceTo r.due |> busError LbbErr.timeout 0 tag r.addr
      |> modRead tag (fun q => { q with answer := some (allOnes q.len) })
    let u := advanceTo r.due s
    ((u.lbb.cycle.isSome && u.lbb.work.head? == some (.read tag)) = true →
      Ends (.readTimeout tag) s₀ (t |> putHead .dead |> flushCompletions)) ∧
    ((u.lbb.cycle.isSome && u.lbb.work.head? == some (.read tag)) = false →
      Ends (.readTimeout tag) s₀
        (t |> modLbb (fun b => { b with work := b.work.filter (fun o => o != .read tag) }) |> flushCompletions))) ∧
  (∀ s₀ (cs : Fin 4) p, let s := inItsTurn (whenRunning (Machine.prefetchExpiry cs)) s₀
    s.running = true → prefetchOf s cs = some p →
    Ends (.prefetchExpiry cs) s₀ (s |> advanceTo (p.filledAt + 10 * cyclesPerUs) |> discardPrefetch cs))

/-- BUS_REQUEST, TENURE_END, TENURE_EXPIRY, INBOUND_WRITE, INBOUND_READ, INBOUND_FLUSH, LIRQ_EDGE, CLASP_ACQUIRE,
CLASP_RELEASE and CLASP_EXPIRY (R454, R455, R456, R457, R459). Model's choices where a rule leaves something open: assumption
log 141, 142, 143. -/
def Obligations.LocalBusGuestsComplete : Prop :=
  (∀ s₀ dt, let s := arrive dt s₀
    lbbState s = 2 →
    let t := modLbb (fun b => { b with wanted := true }) s
    (t.lbb.cycle = none → Ends (.busRequest dt) s₀ t) ∧
    (∀ c, t.lbb.cycle = some c → t.cycle ≤ c.startAt → mayGrant t = true →
      Ends (.busRequest dt) s₀ (modLbb (fun b => { b with cycle := none }) t)) ∧
    (∀ c, t.lbb.cycle = some c → c.startAt < t.cycle → Ends (.busRequest dt) s₀ t)) ∧
  (∀ s₀ dt, let s := arrive dt s₀
    Ends (.tenureEnd dt) s₀ (s |> modLbb (fun b => { b with wanted := false }) |> endTenure (3 * busUnit))) ∧
  (∀ s₀ t, let s := inItsTurn (whenRunning (tenureExpiry)) s₀
    s.running = true → s.lbb.tenure = some t →
    Ends .tenureExpiry s₀ (s |> advanceTo (t + s.getF Fld.LBB_ARB_tenure_us * cyclesPerUs) |> withdraw)) ∧
  (∀ s₀ (la : BitVec 24) (data : BitVec 16) (ok : BitVec 2) dt, let s := arrive dt s₀
    s.running = true →
    isTarget s = true → s.lbb.waitingIn = none → inboundUse s < 32 → s.on Fld.LBB_INB_CFG_parity = false →
    s.lbb.block = [] → la.toNat % 2 = 0 →
    let t := pulseReady s
    Ends (.inboundWrite la false data ok dt) s₀
      (modLbb (fun b => { b with block := b.block ++ [(la.toNat, byte data.toNat)], entries := b.entries + 1,
                                 lastWrite := t.cycle }) t)) ∧
  (∀ s₀ (la : BitVec 24) upper (data : BitVec 16) (ok : BitVec 2) dt, let s := arrive dt s₀
    s.running = true → isTarget s = true → s.lbb.waitingIn = none →
    (32 ≤ inboundUse s → Ends (.inboundWrite la upper data ok dt) s₀
      (modLbb (fun b => { b with waitingIn := some (la.toNat, upper, data.toNat, ok.toNat) }) s)) ∧
    (inboundUse s < 32 → Ends (.inboundWrite la upper data ok dt) s₀ (takeInbound la.toNat upper data.toNat ok.toNat s))) ∧
  (∀ s₀ (la : BitVec 24) dt, let s := arrive dt s₀
    s.running = true → isTarget s = true →
    Ends (.inboundRead la dt) s₀ 
      (s |> pulseReady |> emitOut (.localAnswer 0xFFFF) |> busError LbbErr.inbRead 2 0 la.toNat)) ∧
  (∀ s₀, let s := inItsTurn (whenRunning (inboundFlush)) s₀
    s.running = true → s.lbb.entries ≠ 0 →
    Ends .inboundFlush s₀ (s |> advanceTo (s.lbb.lastWrite + 16 * busUnit) |> flushBlock)) ∧
  (∀ s₀ (n : Fin 8) (rising : Bool) dt, let s := arrive dt s₀
    s.running = true →
    lbbState s ≠ 0 → bit (s.getF Fld.LBB_IRQ_CFG_falling) n = !rising →
    let t := flushBlock s
    (bit (t.getF Fld.LBB_IRQ_EVENT_edge) n = true → inTime (clearsIrq n) t = false → Ends (.lirqEdge n rising dt) s₀ (count Reg.LBB_IRQ_MERGED t)) ∧
    (bit (t.getF Fld.LBB_IRQ_EVENT_edge) n = false ∨ inTime (clearsIrq n) t = true →
      Ends (.lirqEdge n rising dt) s₀
        (t |> latchBits Fld.LBB_IRQ_EVENT_edge (2 ^ n.val)
          |> whenT (bit (t.getF Fld.LBB_IRQ_EN_en) n) (msix (64 + fieldOf (t.reg Reg.LBB_IRQ_CFG) (3 * n.val) 3))))) ∧
  (∀ s₀ v dt, let s := arrive dt s₀
    let w := wr Row.LBB_CLASP_CTRL 0 Reg.LBB_CLASP_CTRL v
    Taken s w → Ends (.claspAcquire v dt) s₀ (claspCtrl (val w) (written s w)) ∧
      Ends (.claspRelease v dt) s₀ (claspCtrl (val w) (written s w))) ∧
  (∀ s₀ m e, let s := inItsTurn (whenRunning (claspExpiry)) s₀
    s.running = true → s.lbb.clasp = some (m, e) → Ends .claspExpiry s₀ (s |> advanceTo e |> endClasp true))

/-- CRC_RESTART, CRC_SEED, CRC_DATA8, CRC_DATA16 and CRC_DATA32 (R467, R469, R470). Model's choices where a rule
leaves something open: assumption log 145. -/
def Obligations.CrcCommandsComplete : Prop :=
  (∀ s₀ (u : Fin 4) v dt, let s := arrive dt s₀
    let w := wr Row.CRC_CTRL u (Reg.CRC_CTRL u) v
    Taken s w → Ends (.crcRestart u v dt) s₀ (crcCtrl u (val w) (written s w))) ∧
  (∀ s₀ (u : Fin 4) v dt, let s := arrive dt s₀
    let w := wr Row.CRC_SEED u (Reg.CRC_SEED u) v
    Taken s w → Ends (.crcSeed u v dt) s₀ (crcSeed u (val w) (written s w))) ∧
  (∀ s₀ (u : Fin 4) v dt, let s := arrive dt s₀
    let w := wr Row.CRC_DATA8 u (Reg.CRC_DATA8 u) v
    Taken s w → Ends (.crcData8 u v dt) s₀ (crcData8 u (val w) (written s w))) ∧
  (∀ s₀ (u : Fin 4) v dt, let s := arrive dt s₀
    let w := wr Row.CRC_DATA16 u (Reg.CRC_DATA16 u) v
    Taken s w → Ends (.crcData16 u v dt) s₀ (crcData16 u (val w) (written s w))) ∧
  (∀ s₀ (u : Fin 4) v dt, let s := arrive dt s₀
    let w := wr Row.CRC_DATA32 u (Reg.CRC_DATA32 u) v
    Taken s w → Ends (.crcData32 u v dt) s₀ (crcData32 u (val w) (written s w)))

/-! ### The Ilgil -/

/-- ILGIL_BLOCK_LOCK, ILGIL_LINK_LOSS, ILGIL_HELLO_SEND, ILGIL_HELLO_RECEIVE, REACH_SEND, REACH_RECEIVE and REBALANCE
(R478, R479, R480, R482). Model's choices where a rule leaves something open: assumption log 85, 131. -/
def Obligations.IlgilLinkCommandsComplete : Prop :=
  (∀ s₀ (g : Fin 2) dt, let s := arrive dt s₀
    s.alive = true → ilgPortState s g = 2 → ilgState s g < Lk.ilgHello →
    Ends (.ilgilBlockLock g dt) s₀
      (s |> setF (Fld.ILG_PORT_STATUS_lane_lock g) 15 |> setF (Fld.ILG_PORT_STATUS_lstate g) Lk.ilgHello
        |> modIlgPort g (fun x => { x with helloAt := s.cycle, hello := [] }))) ∧
  (∀ s₀ (g : Fin 2) dt, let s := arrive dt s₀
    s.alive = true →
    let u := s |> ilgDown g
    Ends (.ilgilLinkLoss g dt) s₀
      (if ilgUp s g then u |> count (Reg.ILG_LINK_DOWNS g) |> latch Fld.ILG_EVENT_link_down else u)) ∧
  (∀ s₀ (g : Fin 2), let s := inItsTurn (whenAlive (helloUnitSend g)) s₀
    s.alive = true → ilgPortState s g = 2 → ilgState s g = Lk.ilgHello →
    let t := advanceTo (s.ilgPort g).helloAt s
    let u := sendUnit g (helloUnit t g) t
    Ends (.ilgilHelloSend g) s₀ (modIlgPort g (fun x => { x with helloAt := u.cycle + cyclesPerUs }) u)) ∧
  (∀ s₀ (g : Fin 2) l dt, let s := arrive dt s₀
    s.alive = true → (plainUnit g Unit.hello l s).1 = true →
    let u := (plainUnit g Unit.hello l s).2
    ilgState u g = Lk.ilgHello → beAt l 2 1 % 16 ≠ 15 →
    let v := u |> setF (Fld.ILG_PORT_STATUS_lstate g) Lk.ilgHello |> modIlgPort g (fun x => { x with hello := l })
      |> setF (Fld.ILG_PORT_STATUS_peer_index g) (beAt l 2 1 % 16) |> setF (Fld.ILG_PORT_STATUS_peer_role g) (beAt l 1 1 % 4)
      |> setR (Reg.ILG_PEER_ID_HI g) (beAt l 4 4) |> setR (Reg.ILG_PEER_ID_LO g) (beAt l 8 4)
    isWorker v = false → ¬ (isManager v = true ∧ beAt l 1 1 % 4 = 1) →
    Ends (.ilgilHelloReceive g l dt) s₀ (if (u.ilgPort g).hello = l then ilgEnterUp g l v else v)) ∧
  (∀ s₀ (g : Fin 2), let s := inItsTurn (whenAlive (Machine.reachSend g)) s₀
    s.alive = true → ilgUp s g = true → ilgPortState s g = 2 →
    let t := if (s.ilgPort g).reachLast = reachBody s g then advanceTo ((s.ilgPort g).reachAt + 100 * cyclesPerUs) s else s
    let b := reachBody t g
    let u := sendUnit g (unitBytes ([byte Unit.reach, 0, 0] ++ b) []) t
    Ends (.reachSend g) s₀ (setIlgPort g { s.ilgPort g with reachAt := t.cycle, reachLast := b } u)) ∧
  (∀ s₀ (g : Fin 2) l dt, let s := arrive dt s₀
    s.alive = true → (plainUnit g Unit.reach l s).1 = true →
    let u := (plainUnit g Unit.reach l s).2
    ilgUp u g = true →
    let v := u |> setF (Fld.ILG_PORT_REACH_reach g) (beAt l 3 1) |> repath
    ((isWorker v = true ∧ pathOf v 0 = some g.val) → Ends (.reachReceive g l dt) s₀
      (v |> setF Fld.ILG_STATUS_quarantined (beAt l 4 1) |> setF Fld.ILG_STATUS_node_role (beAt l 5 1 % 2)
        |> setQuarantine (bit (beAt l 4 1) (ownIndex v)))) ∧
    (¬ (isWorker v = true ∧ pathOf v 0 = some g.val) → Ends (.reachReceive g l dt) s₀ v)) ∧
  (∀ s₀ v dt, let s := arrive dt s₀
    let w := wr Row.ILG_REBALANCE 0 Reg.ILG_REBALANCE v
    let t := written s w
    Taken s w → bit (val w) 0 = true →
      Ends (.rebalance v dt) s₀
        (modIlg (fun i => { i with moving := (List.range 8).filter (fun d => (pathOf t d).isSome && choosePath t d != pathOf t d) }) t))

/-- CREDIT_UNIT_SEND, CREDIT_UNIT_RECEIVE, REPLAY_TIMEOUT, CELL_UNIT_RECEIVE, TIME_UNIT_SEND, TIME_UNIT_RECEIVE and
SWITCH_UNIT_RECEIVE (R477, R484, R486, R491, R492). Model's choices where a rule leaves something open: assumption log
134, 135, 139. -/
def Obligations.IlgilUnitCommandsComplete : Prop :=
  (∀ s₀ (g : Fin 2), let s := inItsTurn (whenAlive (creditSend g)) s₀
    s.alive = true → ilgUp s g = true → creditOwed (s.ilgPort g) = true →
    let x := s.ilgPort g
    let t := if x.nak then s else advanceTo (x.creditAt + 204) s
    let give := (List.range 8).map (fun c => min 4095 (x.credits.getD c 0))
    let l := unitBytes ([byte Unit.credit] ++ be 2 ((x.rxSeq + 4095) % 4096) ++ [byte (b2n x.nak)] ++ packCredits give) []
    Ends (.creditUnitSend g) s₀
      (t |> sendUnit g l
        |> setIlgPort g { x with nak := false, ackOwed := false, creditAt := t.cycle,
                                 credits := (List.range 8).map (fun c => x.credits.getD c 0 - give.getD c 0) })) ∧
  (∀ s₀ (g : Fin 2) l dt, let s := arrive dt s₀
    s.alive = true → (plainUnit g Unit.credit l s).1 = true →
    let u := (plainUnit g Unit.credit l s).2
    ilgUp u g = true →
    let x := u.ilgPort g
    let at_ := (x.replay.map (fun r => r.seq)).idxOf (beAt l 1 2 % 2 ^ 12) + 1
    let n := if x.replay.length < at_ then 0 else at_
    let v := if n = 0 then u else setIlgPort g { x with replay := x.replay.drop n, ackAt := u.cycle, replays := 0 } u
    let delivered := each (x.replay.take n) (fun r t => match r.copy with
      | some c => deliverCopy c.1 c.2 t
      | none => t) v
    let paid := each (List.range 8) (fun c t =>
      let k := min (unpackCredit l 4 c) (t.getF (Fld.ILG_CREDIT_out g c))
      t |> setF (Fld.ILG_CREDIT_avail g c) (t.getF (Fld.ILG_CREDIT_avail g c) + k)
        |> setF (Fld.ILG_CREDIT_out g c) (t.getF (Fld.ILG_CREDIT_out g c) - k)) delivered
    Ends (.creditUnitReceive g l dt) s₀
      (drainUnits 256 g (if bit (beAt l 3 1) 0 ∧ (paid.ilgPort g).replay ≠ [] then replayOrLose g paid else paid))) ∧
  (∀ s₀ (g : Fin 2), let s := inItsTurn (whenAlive (Machine.replayTimeout g)) s₀
    s.alive = true → ilgUp s g = true → (s.ilgPort g).replay ≠ [] →
    let t := advanceTo ((s.ilgPort g).ackAt + 2 * cyclesPerUs) s
    inTime (isProgress s g) t = false → Ends (.replayTimeout g) s₀ (replayOrLose g t)) ∧
  (∀ s₀ (g : Fin 2) l dt id f, let s := arrive dt s₀
    s.alive = true → (acceptUnit g Unit.cell l s).1 = true →
    let u := (acceptUnit g Unit.cell l s).2
    let b := beAt l 3 1
    let key := 1000 + 16 * g.val + (if bit b 2 then 8 else b / 32)
    bit b 4 = false → ∀ a, Sparse.find u.fab.arriving key = some a → a.frame = some id → u.frame id = some f →
    let v := modFrame id (fun x => { x with data := f.data ++ slice l 32 (min 128 (beAt l 9 1)), cells := f.cells + 1 }) u
    Ends (.cellUnitReceive g l dt) s₀ (if bit b 3 then cellLast g key id a.line a.learn v else v)) ∧
  (∀ s₀ (g : Fin 2) l dt id, let s := arrive dt s₀
    s.alive = true → (acceptUnit g Unit.cell l s).1 = true →
    let u := (acceptUnit g Unit.cell l s).2
    let b := beAt l 3 1
    let key := 1000 + 16 * g.val + (if bit b 2 then 8 else b / 32)
    let d := slice l 32 (min 128 (beAt l 9 1))
    bit b 4 = true → isSpireFrame u d = false →
    let w := cellFan (cellFrame g l d u) (beAt l 8 1) u
    let a := dispatch w.1 w.2.1 true w.2.2
    a.1 = .taken id →
    let v := setArrival key { frame := some id, line := d, learn := cellLearn w.1 a.2, inAt := 10 * u.cycle } a.2
    Ends (.cellUnitReceive g l dt) s₀ (if bit b 3 then cellLast g key id d (cellLearn w.1 a.2) v else v)) ∧
  (∀ s₀ (g : Fin 2), let s := inItsTurn (whenAlive (Machine.timeUnitSend g)) s₀
    s.alive = true → ilgUp s g = true →
    let x := s.ilgPort g
    let t := advanceTo (x.timeAt + 100000) s
    let tx := t.stamp
    let master := isManager t || servoState t == Servo.locked
    let e := x.rxT.getD (0, 0, 0)
    let turn := if x.rxT.isSome then (tx + 2 ^ 32 - e.2.1) % 2 ^ 32 else 0
    let l := [byte Unit.time] ++ be 2 x.nextT ++ [byte (b2n x.rxT.isSome + 2 * b2n master)] ++ be 4 tx ++ be 4 turn ++
      be 2 e.1 ++ be 6 t.timeSec ++ be 4 t.timeNs ++ be 2 t.timeFrac
    Ends (.timeUnitSend g) s₀
      (t |> sendUnit g (unitBytes l [])
        |> setIlgPort g { x with timeAt := t.cycle, nextT := (x.nextT + 1) % 2 ^ 16,
                                 sentT := ((x.nextT, tx) :: x.sentT).take 64 })) ∧
  (∀ s₀ (g : Fin 2) l dt, let s := arrive dt s₀
    s.alive = true → (plainUnit g Unit.time l s).1 = true →
    let u := (plainUnit g Unit.time l s).2
    ilgUp u g = true →
    let x := u.ilgPort g
    let v := setIlgPort g { x with rxT := some (beAt l 1 2, u.stamp, beAt l 4 4),
                                   periodic := ((u.stamp, beAt l 4 4) :: x.periodic).take 2 } u
    bit (beAt l 3 1) 0 = false → (isWorker v = false ∨ pathOf v 0 ≠ some g.val ∨ bit (beAt l 3 1) 1 = false ∨ servoOwns v = false) →
    Ends (.timeUnitReceive g l dt) s₀ v) ∧
  (∀ s₀ (g : Fin 2) l dt t1, let s := arrive dt s₀
    s.alive = true → (plainUnit g Unit.time l s).1 = true →
    let u := (plainUnit g Unit.time l s).2
    ilgUp u g = true →
    let x := u.ilgPort g
    let v := setIlgPort g { x with rxT := some (beAt l 1 2, u.stamp, beAt l 4 4),
                                   periodic := ((u.stamp, beAt l 4 4) :: x.periodic).take 2 } u
    bit (beAt l 3 1) 0 = true → Sparse.find x.sentT (beAt l 12 2) = some t1 →
    let m := ilgDelay g t1 u.stamp (beAt l 8 4) v
    isWorker m = true → pathOf m 0 = some g.val → bit (beAt l 3 1) 1 = true → servoOwns m = true →
    let at_ : Int := ((beAt l 14 6 * 1000000000 + beAt l 20 4) * 65536 + beAt l 24 2 : Nat)
    let o16 : Int := m.time16 - at_ - (m.getF (Fld.ILG_PORT_DELAY_delay g) * 8192 : Nat)
    let rho := ilgRho (m.ilgPort g)
    let free := drawFree m
    let n := modTim (fun y => { y with lastGood := free.2.cycle, syncDue := some (free.2.cycle + 300000) }) free.2
    Ends (.timeUnitReceive g l dt) s₀ (servoAccept o16 125000 (signedOf 32 free.1) rho.1 rho.2 n).2) ∧
  (∀ s₀ (g : Fin 2) l dt, let s := arrive dt s₀
    s.alive = true → (acceptUnit g Unit.switch l s).1 = true →
    let u := (acceptUnit g Unit.switch l s).2
    isWorker u = true →
    (beAt l 3 1 ≠ liveEpoch u ∨ beAt l 4 1 ≠ prevEpoch u ∨ beAt l 5 1 % 64 ≠ liveTnn u ∨ beAt l 6 1 % 64 ≠ liveN u) →
    let e := endGrace u
    let t := e |> modSpr (fun x => { x with prevTnn := liveTnn e, prevDigest := liveDigest e })
      |> setF Fld.SPR_EPOCH_live (beAt l 3 1) |> setF Fld.SPR_EPOCH_previous (beAt l 4 1)
      |> setF Fld.SPR_STATUS_tnn (beAt l 5 1) |> setF Fld.SPR_STATUS_n (beAt l 6 1)
      |> each (List.range 64) (fun k q => setR (Reg.EPO_MAP k) (beAt l (32 + k) 1) q)
    let r := if bit (beAt l 7 1) 0 then
        t |> beginGrace |> modSpr (fun x => { x with graceEnd := some (t.cycle + beAt l 8 2 * cyclesPerUs) })
      else t
    let o := otherG g
    Ends (.switchUnitReceive g l dt) s₀
      (if ilgUp r o ∧ r.getF (Fld.ILG_PORT_STATUS_peer_role o) ≠ 1 then queueUnit o (slice l 0 28) (l.drop 32) r else r))

/-- ILG_MGMT_READ, ILG_MGMT_WRITE, MGMT_REQUEST_RECEIVE, MGMT_RESPONSE_RECEIVE, MGMT_TIMEOUT, WORKER_REPORT and
WORKER_GEN_WRITE (R494, R496). Model's choices where a rule leaves something open: assumption log 15, 33, 61, 132,
136. -/
def Obligations.IlgilManagementComplete : Prop :=
  (∀ s₀ v dt, let s := arrive dt s₀
    let w := wr Row.ILG_MGMT_CTRL 0 Reg.ILG_MGMT_CTRL v
    Taken s w → bit (val w) 31 = true →
    (bit (val w) 8 = false → Ends (.ilgMgmtRead v dt) s₀ (mgmtGo (val w / 2 ^ 16 % 8) false (written s w))) ∧
    (bit (val w) 8 = true → Ends (.ilgMgmtWrite v dt) s₀ (mgmtGo (val w / 2 ^ 16 % 8) true (written s w)))) ∧
  (∀ s₀ (g : Fin 2) l dt, let s := arrive dt s₀
    s.alive = true →
    let r := mgmtReceive g (fun l => !mgmtResponse l && decide (mgmtOp l ≤ 1)) l s
    r.1 = true → isWorker r.2 = true →
    (mgmtOp l = 1 →
      let a := managerWrite (beAt l 4 1 % 4) (beAt l 8 4) (BitVec.ofNat 32 (beAt l 12 4)) r.2
      Ends (.mgmtRequestReceive g l dt) s₀ (mgmtRespond g l a.1 (beAt l 12 4) a.2)) ∧
    (mgmtOp l ≠ 1 →
      let a := managerRead (beAt l 8 4) r.2
      Ends (.mgmtRequestReceive g l dt) s₀ (mgmtRespond g l 0 a.1.toNat a.2))) ∧
  (∀ s₀ (g : Fin 2) l dt e, let s := arrive dt s₀
    s.alive = true →
    let r := mgmtReceive g (fun l => mgmtResponse l && decide (mgmtOp l ≤ 1)) l s
    r.1 = true → r.2.ilg.mgmtDue = some e →
    (beAt l 5 1 ≠ r.2.ilg.tag → Ends (.mgmtResponseReceive g l dt) s₀ (count Reg.ILG_LATE_MGMT r.2)) ∧
    (beAt l 5 1 = r.2.ilg.tag → r.2.cycle ≤ e →
      Ends (.mgmtResponseReceive g l dt) s₀ (r.2 |> setR Reg.ILG_MGMT_DATA (beAt l 12 4) |> mgmtEnd (beAt l 16 1 % 16)))) ∧
  (∀ s₀ e, let s := inItsTurn (whenAlive (mgmtTimeout)) s₀
    s.alive = true → s.ilg.mgmtDue = some e → inTime (isAnswer s) s = false →
    Ends .mgmtTimeout s₀ (s |> advanceTo e |> mgmtEnd 2)) ∧
  (∀ s₀ (g : Fin 2) l dt, let s := arrive dt s₀
    s.alive = true →
    let r := mgmtReceive g (fun l => mgmtOp l == 3) l s
    let i := mgmtSource l
    r.1 = true → isManager r.2 = true → i ≠ 0 →
    let t := r.2 |> setR (Reg.ILG_WORKER_ID_HI i) (beAt l 8 4) |> setR (Reg.ILG_WORKER_ID_LO i) (beAt l 12 4)
      |> setF (Fld.ILG_WORKER_STATE_reported i) 1 |> workerSays i l
    Ends (.workerReport g l dt) s₀ (if workerCurrent t i then t else latch Fld.ILG_EVENT_stale t)) ∧
  (∀ s₀ (i : Fin 7) v dt, let s := arrive dt s₀
    let w := wr Row.ILG_WORKER_GEN i (Reg.ILG_WORKER_GEN (i + 1)) v
    Taken s w → isManager (written s w) = true →
    Ends (.workerGenWrite i v dt) s₀ (inCycles 1 (.worker (i.val + 1)) (written s w))) ∧
  (∀ s i,
    let c := workerCurrent s i
    doSoon (.worker i) s =
      (s |> setF (Fld.ILG_WORKER_STATE_current i) (b2n c)
        |> setF Fld.ILG_STATUS_quarantined (setBit (s.getF Fld.ILG_STATUS_quarantined) i (!c))))

/-- WORKER_IMAGE_START, WORKER_IMAGE_ABORT, WORKER_IMAGE_READ, IMAGE_UNIT_RECEIVE and IMAGE_RESULT_RECEIVE (R495).
Model's choices where a rule leaves something open: assumption log 62, 88. -/
def Obligations.WorkerImageCommandsComplete : Prop :=
  (∀ s₀ v dt, let s := arrive dt s₀
    let w := wr Row.ILG_IMG_CTRL 0 Reg.ILG_IMG_CTRL v
    let t := written s w
    let i := val w / 2 ^ 8 % 8
    Taken s w → bit (val w) 0 = true → bit (val w) 1 = false → t.getF Fld.ILG_IMG_STATUS_state = 0 → isManager t = true →
    pathOf t i ≠ none →
    Ends (.workerImageStart v dt) s₀
      (t |> setF Fld.ILG_IMG_STATUS_state 1 |> setF Fld.ILG_IMG_STATUS_index i |> setF Fld.ILG_IMG_STATUS_result 0
        |> modIlg (fun x => { x with imgPass := 0, imgOff := 0, imgBytes := [], imgLen := 0 }) |> imgRead 0)) ∧
  (∀ s₀ v dt, let s := arrive dt s₀
    let w := wr Row.ILG_IMG_CTRL 0 Reg.ILG_IMG_CTRL v
    let t := written s w
    Taken s w → bit (val w) 0 = false → bit (val w) 1 = true → t.getF Fld.ILG_IMG_STATUS_state ≠ 0 →
    Ends (.workerImageAbort v dt) s₀
      (t |> sendImageUnit 192 t.ilg.imgOff [] |> setF Fld.ILG_IMG_STATUS_state 2 |> modIlg (fun x => { x with imgBytes := [] }))) ∧
  (∀ s₀ l dt, let s := arrive dt s₀
    s.alive = true → s.getF Fld.ILG_IMG_STATUS_state = 1 → s.ilg.imgLen ≠ 0 →
    let t := sendImage (l.length / 128 + 3) (modIlg (fun x => { x with imgBytes := x.imgBytes ++ l }) s)
    Ends (.workerImageRead l dt) s₀
      (if t.getF Fld.ILG_IMG_STATUS_state = 1 then imgRead (t.ilg.imgOff + t.ilg.imgBytes.length) t else t)) ∧
  (∀ s₀ (g : Fin 2) l dt, let s := arrive dt s₀
    s.alive = true →
    let r := acceptUnit g Unit.image l s
    r.1 = true →
    (unitDest l ≠ ownIndex r.2 → Ends (.imageUnitReceive g l dt) s₀ (relayUnit l r.2)) ∧
    (unitDest l = ownIndex r.2 → imgState r.2 ≠ 0 → imgSource r.2 = 2 →
      (bit (beAt l 3 1) 6 = true →
        Ends (.imageUnitReceive g l dt) s₀ (imageEnd (if bit (beAt l 3 1) 7 then 0x18 else 0x17) r.2.image.index r.2)) ∧
      (bit (beAt l 3 1) 6 = false → r.2.ilg.rxPass = 1 →
        Ends (.imageUnitReceive g l dt) s₀
          (modIlg (fun x => { x with rxImage := x.rxImage.take (beAt l 4 4) ++ slice (l.drop 32) 0 128,
                                     rxPass := if bit (beAt l 3 1) 7 then 2 else 1 }) r.2)))) ∧
  (∀ s₀ (g : Fin 2) l dt, let s := arrive dt s₀
    s.alive = true →
    let r := mgmtReceive g (fun l => mgmtOp l == 2) l s
    let i := mgmtSource l
    r.1 = true → isManager r.2 = true → i ≠ 0 →
    let t := r.2 |> workerSays i l |> record 0x62 ([i, beAt l 16 1] ++ dle 4 (beAt l 17 4))
    t.getF Fld.ILG_IMG_STATUS_state ≠ 0 → t.getF Fld.ILG_IMG_STATUS_index = i →
    Ends (.imageResultReceive g l dt) s₀
      (t |> setF Fld.ILG_IMG_STATUS_result (beAt l 16 1) |> setF Fld.ILG_IMG_STATUS_state 0 |> latch Fld.ILG_EVENT_image_done
        |> modIlg (fun x => { x with imgPass := 0, imgOff := 0, imgBytes := [], imgLen := 0 })))

/-! ### Redundancy, the Locket, power and reset -/

/-- HEARTBEAT_SEND, HEARTBEAT_RECEIVE and HEARTBEAT_LOSS (R508, R509). Model's choices where a rule leaves something
open: assumption log 153. -/
def Obligations.HeartbeatCommandsComplete : Prop :=
  (∀ s₀, let s := inItsTurn (whenAlive (heartbeatSend)) s₀
    s.alive = true →
    let t := if 0 < s.red.extra then modRed (fun r => { r with extra := r.extra - 1 }) s
      else modRed (fun r => { r with nextAt := (advanceTo s.red.nextAt s).cycle + 250 * cyclesPerUs }) (advanceTo s.red.nextAt s)
    let u := modRed (fun r => { r with seq := (r.seq + 1) % 2 ^ 16 }) t
    Ends .heartbeatSend s₀ (emitOut (.heartbeat (heartbeat u)) u)) ∧
  (∀ s₀ l dt, let s := arrive dt s₀
    s.alive = true → l.length = 256 → beAt l 0 1 = 1 → beAt l 252 4 = crc32c (l.take 252) →
    let a := s
    let b := if a.red.heard.isSome ∧ !a.red.lost ∧ a.red.heardAt + hbLossCycles a < a.cycle then declareLoss a else a
    let c := if b.red.lost then count Reg.RED_HB_LATE b else b
    let d := modRed (fun r => { r with heard := some l, heardAt := c.cycle, lost := false }) c
    let e := d |> setF Fld.RED_PEER_live (beAt l 20 1) |> setF Fld.RED_PEER_role_gen (beAt l 31 1) |> setF Fld.RED_PEER_tnn (beAt l 22 1)
      |> setF Fld.RED_PEER_dir1_up (b2n (hbDirUp l 0)) |> setF Fld.RED_PEER_dir2_up (b2n (hbDirUp l 1))
      |> setF Fld.RED_PEER_eligible (b2n (bit (beAt l 1 1) 4)) |> setF Fld.RED_PEER_role (hbRole l)
    let f := if idMatch e l && tagMatch e l then e else latch Fld.RED_EVENT_sync_fail e
    let g := f |> raiseSeq 0 (beAt l 40 2) |> raiseSeq 1 (beAt l 42 2)
    let h := if redRole g = Rd.active then g
      else if bit (beAt l 1 1) 6 ∧ hbRole l = Rd.active then modRed (fun r => { r with swap := some (beAt l 32 4, beAt l 36 4) }) g
      else if redRole g = Rd.claiming then g
      else modRed (fun r => { r with swap := none }) g
    let i := judgeAdopt l h
    Ends (.heartbeatReceive l dt) s₀ (if paired h then judgeWithdraw l i else i)) ∧
  (∀ s₀, let s := inItsTurn (whenAlive (heartbeatLoss)) s₀
    s.alive = true → s.red.heard.isSome = true → s.red.lost = false →
    let t := advanceTo (s.red.heardAt + hbLossCycles s) s
    inTime isHeartbeat t = false → Ends .heartbeatLoss s₀ (declareLoss t))

/-- RESIGN_IN_CHANGE, CLAIM_WAIT_EXPIRY, CLAIM_CONFIRM, PEER_DEMAND, START_CLAIM, RED_RESIGN_CMD, RED_SWAP_CMD,
RED_CLAIM_CMD, SWAP_INSTANT, SWAP_OVERDUE and AUTO_SWAP (R505, R506, R507, R513, R516, R517, R520, R521, R523).
Model's choices where a rule leaves something open: assumption log 146, 147, 150, 152, 154. -/
def Obligations.RedundancyRoleCommandsComplete : Prop :=
  (∀ s₀ (level : Bool) dt, let s := arrive dt s₀
    level ≠ s.red.resignIn →
    let r := modRed (fun r => { r with resignIn := level, inSince := s.cycle, told := false }) s
    let u := if level then inCycles twoUs .resignLook r else r
    Ends (.resignInChange level dt) s₀
      (if !level ∧ redRole u = Rd.claiming ∧ u.red.waitEnd = none then
        modRed (fun r => { r with waitEnd := some (u.cycle + u.getF Fld.RED_TIMING_claim_wait_us * cyclesPerUs) }) u
       else u)) ∧
  (∀ s₀ e, let s := inItsTurn (whenAlive (claimWaitExpiry)) s₀
    s.alive = true → s.red.waitEnd = some e → redRole s = Rd.claiming →
    let t := s |> advanceTo e |> modRed (fun r => { r with waitEnd := none })
    ((t.red.resignIn = true ∨ inTime isRelease t = true) → Ends .claimWaitExpiry s₀ t) ∧
    (t.red.resignIn = false → inTime isRelease t = false → sideB t = true → Ends .claimWaitExpiry s₀
      (t |> resignOut false |> setRole Rd.standby |> count Reg.RED_CONFLICTS |> latch Fld.RED_EVENT_conflict)) ∧
    (t.red.resignIn = false → inTime isRelease t = false → sideB t = false → Ends .claimWaitExpiry s₀ (becomeActive t))) ∧
  (∀ s₀, let s := inItsTurn (whenAlive (claimConfirm)) s₀
    s.alive = true → dueClaim s = none → redRole s = Rd.claiming → s.red.waitEnd = none → s.red.resignIn = true →
    Ends .claimConfirm s₀ (s |> advanceTo (max s.red.claimAt s.red.inSince + twoUs) |> becomeActive)) ∧
  (∀ s₀, let s := inItsTurn (whenAlive (peerDemand)) s₀
    s.alive = true → redRole s = Rd.active → s.red.resignIn = false →
    Ends .peerDemand s₀ (s |> advanceTo (s.red.inSince + twoUs) |> trigger 9)) ∧
  (∀ s₀ t, let s := inItsTurn (whenAlive (startClaim)) s₀
    s.alive = true → s.red.startAt = some t → redRole s = Rd.none →
    let u := s |> advanceTo t |> modRed (fun r => { r with startAt := none })
    ((paired u = false ∨ u.red.resignIn = true) → Ends .startClaim s₀ (beginClaim 2 u.cycle false u)) ∧
    (paired u = true → u.red.resignIn = false → Ends .startClaim s₀ (setRole Rd.standby u))) ∧
  (∀ s₀ v dt, let s := arrive dt s₀
    let w := wr Row.RED_CMD 0 Reg.RED_CMD v
    let t := written s w |> redResignCmd (val w) |> redSwapCmd (val w) |> redClaimCmd (val w)
    Taken s w → Ends (.redResignCmd v dt) s₀ t ∧ Ends (.redSwapCmd v dt) s₀ t ∧ Ends (.redClaimCmd v dt) s₀ t) ∧
  (∀ s₀ k ph n, let s := inItsTurn (whenAlive (swapInstant)) s₀
    s.alive = true → s.red.swap = some (k, ph) → cyclesTo s 0 (k * 2 ^ 32 + ph) = some n →
    (redRole s = Rd.active → Ends .swapInstant s₀
      (advance n s |> trigger 11 |> latch Fld.RED_EVENT_swap_done |> count Reg.RED_SWAPS |> record 0x73 ([1] ++ dle 4 k ++ dle 4 ph)
        |> modRed (fun r => { r with swap := none }))) ∧
    (redRole s = Rd.standby → Ends .swapInstant s₀ (beginClaim 3 (advance n s).cycle true (advance n s)))) ∧
  (∀ s₀, let s := inItsTurn (whenAlive (swapOverdue)) s₀
    s.alive = true →
    let h := s.getF Fld.RED_SWAP_AUTO_warn_h
    h ≠ 0 → s.red.overdue = false → h * 3600 ≤ (s.reg Reg.RED_ROLE_AGE).toNat →
    Ends .swapOverdue s₀ (s |> latch Fld.RED_EVENT_swap_overdue |> modRed (fun r => { r with overdue := true }))) ∧
  (∀ s₀, let s := inItsTurn (whenAlive (autoSwap)) s₀
    s.alive = true →
    let h := s.getF Fld.RED_SWAP_AUTO_interval_h
    h ≠ 0 → redRole s = Rd.active → s.red.activeSince + h * 3600 ≤ (s.reg Reg.LKT_OPSEC).toNat →
    Ends .autoSwap s₀ (requestSwap s))

/-- PAGE_PROGRAM_DONE, ERASE_DONE, ERASE_SUSPENDED, RECORD_FETCH, RECORD_FETCH_DONE, PARTITION_WRITE,
OPERATING_SECOND, POWER_FAIL, POWER_RESTORED, FREEZE, UNFREEZE and FREEZE_LAPSE (R530, R533, R534, R535, R536, R537,
R538). Model's choices where a rule leaves something open: assumption log 67, 68, 69, 70, 71, 72, 73. -/
def Obligations.LocketCommandsComplete : Prop :=
  (∀ s₀ zeroOk dt pg, let s := arrive dt s₀
    s.alive = true → s.lkt.page = some pg →
    Ends (.pageProgramDone true zeroOk dt) s₀ (s |> pageDone pg |> flashGoesOn) ∧
    Ends (.pageProgramDone false zeroOk dt) s₀
      (s |> flashFailed pg.slot pg.count zeroOk |> modLkt (fun l => { l with page := none })
        |> moveWrite (128 - s.lkt.wrSlot % 128) |> flashGoesOn)) ∧
  (∀ s₀ (ok zeroOk : Bool) dt sec, let s := arrive dt s₀
    s.alive = true → s.lkt.erase = some sec → s.lkt.suspended = false →
    let a := s
    let b := if ok then modLkt (fun l => { l with log := l.log.filter (fun p => p.1 / 128 != sec) }) a
      else flashFailed (128 * sec) 128 zeroOk a
    Ends (.eraseDone ok zeroOk dt) s₀
      (b |> modLkt (fun l => { l with erase := none, eraseNext := [], suspending := false, suspended := false })
        |> each b.lkt.eraseNext eraseSector |> showLog |> flashGoesOn)) ∧
  (∀ s₀ dt, let s := arrive dt s₀
    s.alive = true → s.lkt.erase.isSome = true → s.lkt.suspending = true → s.lkt.suspended = false →
    Ends (.eraseSuspended dt) s₀ (s |> modLkt (fun l => { l with suspended := true }) |> startPage |> resumeErase)) ∧
  (∀ s₀ v dt, let s := arrive dt s₀
    let w := wr Row.LKT_READ_CTRL 0 Reg.LKT_READ_CTRL v
    let t := written s w
    Taken s w → bit (val w) 31 = true → t.lkt.fetch = none →
    Ends (.recordFetch v dt) s₀ (t |> setF Fld.LKT_READ_STATUS_busy 1 |> modLkt (fun l => { l with fetch := some (val w) }))) ∧
  (∀ s₀ (ok : Bool) v dt, let s := arrive dt s₀
    s.alive = true → s.lkt.fetch = some v →
    let r := fetched s v ok
    let t := s |> modLkt (fun l => { l with fetch := none }) |> setF Fld.LKT_READ_STATUS_busy 0 |> setF Fld.LKT_READ_STATUS_result r.1
    (r.2 = none → Ends (.recordFetchDone ok dt) s₀ t) ∧
    (∀ x, r.2 = some x → Ends (.recordFetchDone ok dt) s₀
      (each (List.range 8) (fun i => setR (Reg.LKT_READ_DATA i) (leAt (recordBytes x) (4 * i) 4)) t))) ∧
  (∀ s₀ v dt, let s := arrive dt s₀
    let w := wr Row.LKT_PART 0 Reg.LKT_PART v
    Taken s w → Ends (.partitionWrite v dt) s₀ (routineCopy (written s w))) ∧
  (∀ s₀ dt, let s := arrive dt s₀
    s.pwr.main = true →
    let n := ((s.reg Reg.LKT_OPSEC).toNat + 1) % 2 ^ 32
    let a := setR Reg.LKT_OPSEC n s
    let b := if redRole a = Rd.active then a else setR Reg.RED_ROLE_AGE (((a.reg Reg.RED_ROLE_AGE).toNat + 1) % 2 ^ 32) a
    Ends (.operatingSecond dt) s₀
      (if b.alive = true ∧ b.on Fld.LKT_STATUS_frozen = false ∧ n % 3600 = 0 then routineCopy b else b)) ∧
  (∀ s₀ dt, let s := arrive dt s₀
    s.alive = true → s.pwr.stage ≠ .pll → s.pwr.stage ≠ .memory → s.pwr.stage ≠ .locket →
    s.on Fld.LKT_STATUS_pfail = false →
    let a := s |> setF Fld.GLB_PINS_pfail_n 0 |> setF Fld.LKT_STATUS_pfail 1 |> latch Fld.LKT_EVENT_pfail
      |> record 0x02 (dle 2 (min (s.lkt.staging.length + s.lkt.holding.length) 0xFFFF))
    let b := if a.on Fld.LKT_STATUS_frozen || a.on Fld.LKT_STATUS_pending then lapseFreeze a else a
    Ends (.powerFail dt) s₀ (startCommit (if b.lkt.erase.isSome then askSuspend b else b))) ∧
  (∀ s₀ dt, let s := arrive dt s₀
    s.alive = true →
    Ends (.powerRestored dt) s₀ (s |> setF Fld.GLB_PINS_pfail_n 1 |> setF Fld.LKT_STATUS_pfail 0 |> resumeErase)) ∧
  (∀ s₀ v dt, let s := arrive dt s₀
    let w := wr Row.LKT_CTRL 0 Reg.LKT_CTRL v
    let t := written s w
    Taken s w →
    (t.on Fld.LKT_CTRL_freeze = true → Ends (.freeze v dt) s₀ (t |> startFreeze |> settleFreeze)) ∧
    (t.on Fld.LKT_CTRL_freeze = false → (t.on Fld.LKT_STATUS_frozen = true ∨ t.on Fld.LKT_STATUS_pending = true) →
      Ends (.unfreeze v dt) s₀ (t |> endFreeze 1 |> resumeErase))) ∧
  (∀ s₀, let s := inItsTurn (whenAlive (freezeLapse)) s₀
    s.alive = true → s.on Fld.LKT_STATUS_frozen = true →
    Ends .freezeLapse s₀
      (s |> advanceTo (s.lkt.frozenAt + s.getF Fld.LKT_CTRL_max_freeze_s * cyclesPerS) |> lapseFreeze |> resumeErase))

/-- MAIN_POWER_ON, MAIN_POWER_LOSS, RESET_ASSERT, RESET_END and PORESET_RISING_EDGE (R553, R556). Model's choices
where a rule leaves something open: assumption log 93. -/
def Obligations.PowerCommandsComplete : Prop :=
  (∀ s₀ straps dt, let s := arrive dt s₀
    s.pwr.main = false →
    let t := s |> modPwr (fun p => { p with main := true }) |> setR Reg.LKT_PCC (((s.reg Reg.LKT_PCC).toNat + 1) % 2 ^ 32)
    Ends (.mainPowerOn straps dt) s₀ (if s.pwr.poresetN then sampleStraps straps t else t)) ∧
  (∀ s₀ (vbak : Bool) dt, let s := arrive dt s₀
    let t := s |> modPwr (fun p => { p with main := false, sawPower := true }) |> hold
    Ends (.mainPowerLoss vbak dt) s₀ (if vbak then t else islandLost t)) ∧
  (∀ s₀ dt, let s := arrive dt s₀
    Ends (.resetAssert .poreset dt) s₀ (s |> modPwr (fun p => { p with poresetN := false, sawPoreset := true }) |> hold)) ∧
  (∀ s₀ dt, let s := arrive dt s₀
    s.getF Fld.GLB_STRAP_pcie ≠ 3 →
    Ends (.resetAssert .perst dt) s₀ (s |> modPwr (fun p => { p with perstN := false, sawPerst := true }) |> hold)) ∧
  (∀ s₀ dt, let s := arrive dt s₀
    s.getF Fld.GLB_STRAP_pcie = 3 → Ends (.resetAssert .perst dt) s₀ (modPwr (fun p => { p with perstN := false }) s)) ∧
  (∀ s₀ straps dt, let s := arrive dt s₀
    s.alive = false → s.pwr.main = true → tapHolds s = false →
    let a := if s.pwr.poresetN then s |> modPwr (fun p => { p with sincePor := p.sincePor + s.cycle }) |> restartClock
      else Machine.poresetRisingEdge straps s
    let b := a |> stopTime |> modPwr (fun p => { p with stage := .pll, perstN := true }) |> applyStraps |> loadResetInfo
      |> ilgilAtReset |> modPwr (fun p => { p with sawPower := false, sawPoreset := false, sawPerst := false, sawPll := false })
    let lock := b.roles.lockoutEnd.map (fun _ => lockoutSeconds (b.getF Fld.ROL_STATUS_failures) * cyclesPerS)
    let c := b |> modRoles (fun r => { r with lockoutEnd := lock })
      |> modFab (fun x => { x with tickNo := b.pwr.sincePor / cyclesPerTick })
    Ends (.resetEnd straps dt) s₀
      (c |> setF Fld.SPR_STATUS_lead (b2n c.spr.leadRaw) |> setF Fld.GLB_PINS_lead_raw (b2n c.spr.leadRaw)
        |> setF Fld.GLB_PINS_cpl1 (c.getF Fld.GLB_PINS_cpl1_raw) |> setF Fld.GLB_PINS_cpl2 (c.getF Fld.GLB_PINS_cpl2_raw))) ∧
  (∀ s₀ straps dt, let s := arrive dt s₀
    s.pwr.poresetN = false →
    Ends (.poresetRisingEdge straps dt) s₀ (s |> modPwr (fun p => { p with poresetN := true }) |> sampleStraps straps))

/-- PLL_LOCK, MEMORY_STEP_DONE, LOCKET_STEP, PHY_RESET_WRITE, TAP_BYPASS, TAP_IDCODE, TAP_SAMPLE_PRELOAD, TAP_EXTEST,
TAP_CLAMP and TAP_HIGHZ (R546, R559, R560). An instruction that drives the balls holds the device in reset. Model's
choices where a rule leaves something open: assumption log 78, 95. -/
def Obligations.ResetStepsAndTapComplete : Prop :=
  (∀ s₀ dt, let s := arrive dt s₀
    s.pwr.stage = .pll →
    Ends (.pllLock dt) s₀ (s |> modPwr (fun p => { p with stage := .memory, pll := true }) |> setF Fld.GLB_CLK_cclk_lock 1)) ∧
  (∀ s₀ temp supply clk dt, let s := arrive dt s₀
    s.pwr.stage = .memory →
    let t := modPwr (fun p => { p with stage := .locket }) s
    let u := if s.pwr.sawPower then loadResetInfo t else t
    Ends (.memoryStepDone temp supply clk dt) s₀
      (u |> setR Reg.GLB_UID_LO (Config.fusedUid.toNat % 2 ^ 32) |> setR Reg.GLB_UID_HI (Config.fusedUid.toNat / 2 ^ 32)
        |> setR Reg.GLB_MAC_BASE_LO (macBase % 2 ^ 32) |> setR Reg.GLB_MAC_BASE_HI (macBase / 2 ^ 32)
        |> clockBits clk |> monitorSample temp supply |> drivePhyPins false)) ∧
  (∀ s₀ works dt, let s := arrive dt s₀
    s.pwr.stage = .locket →
    Ends (.locketStep works dt) s₀ (s |> setF Fld.GLB_PINS_pfail_n 1 |> resetFlash |> locketWork works |> bootBegin)) ∧
  (∀ s₀ v dt, let s := arrive dt s₀
    let w := wr Row.GLB_PHY_RST 0 Reg.GLB_PHY_RST v
    Taken s w → Ends (.phyResetWrite v dt) s₀ (phyResetWritten (old s w) (written s w))) ∧
  (∀ s₀ dt, let s := arrive dt s₀
    let set := fun t => modPwr (fun p => { p with tap := t }) s
    Ends (.tapBypass dt) s₀ (set .bypass) ∧
    (let d := drawFree (set .idcode)
     Ends (.tapIdcode dt) s₀ (emitOut (.tdo (2 ^ 28 + 0x48 * 2 ^ 12 + d.1 % 2 ^ 11 * 2 + 1)) d.2)) ∧
    (∀ sampled preload, Ends (.tapSamplePreload sampled preload dt) s₀
      (emitOut (.tdo (sampled.foldr (fun b n => b2n b + 2 * n) 0)) (modPwr (fun p => { p with boundary := preload }) (set .sample)))) ∧
    Ends (.tapExtest dt) s₀ (hold (set .extest)) ∧ Ends (.tapClamp dt) s₀ (hold (set .clamp)) ∧ Ends (.tapHighz dt) s₀ (hold (set .highz)))

/-! ### The machine as a whole -/

/-- A step runs the command at the front of the queue, with the rest of the queue behind it. -/
def Obligations.StepRunsTheFrontCommand : Prop :=
  ∀ s c rest, s.pending = c :: rest → step s = exec c (s.withPending rest)

/-- On an empty queue one CCLK cycle passes, with what the device does by itself in it; where it waits to do nothing, node time
and the stamp counter alone move before the end of the step: the model's choice (assumption log 6, 170). -/
def Obligations.EmptyQueueLetsOneCyclePass : Prop :=
  ∀ s, s.pending = [] → step s = .next (finish (arrive 1 s)) ∧ (s.soon = [] → arrive 1 s = advance 1 s)

/-- Every command answers a next state: none stops (the spec gives each row of the table an effect). -/
def Obligations.EveryCommandAnswers : Prop := ∀ c s, ∃ t, exec c s = .next t

/-- The state after reset has its register file in canonical form, its drop reasons agree, and no command waits. -/
def Obligations.ResetStateIsSound : Prop :=
  Safety.Canonical State.reset ∧ Safety.DropsAgree State.reset ∧ State.reset.pending = []

/-- Every step keeps the register file canonical, and the drop reasons of every ledger row in agreement with its DROP_SUM
modulo 2^32, as R218 guarantees. -/
def Obligations.StepKeepsTheInvariant : Prop :=
  ∀ s t, Safety.Canonical s → Safety.DropsAgree s → step s = .next t → Safety.Canonical t ∧ Safety.DropsAgree t

/-- Commands run first in, first out: a step takes the front of the queue and no command adds to it. -/
def Obligations.QueueIsFirstInFirstOut : Prop :=
  ∀ s t, Safety.Canonical s → Safety.DropsAgree s → step s = .next t → t.pending = s.pending.tail

/-- From a state with the invariant, every run is safe: however many steps are taken, the register file is canonical and
the machine goes on. -/
def Obligations.RunsAreSafe : Prop := ∀ s, Safety.Canonical s → Safety.DropsAgree s → Safety.Safe s

/-- While the device is held in reset, with nothing that it still has to do by itself, a command that is not about power, reset,
the test port, operating time or the level of a pin does nothing but let time pass (R44, R77, R556). The end of a command that
leaves the device in reset leaves it nothing to do by itself. -/
def Obligations.NothingHappensInReset : Prop :=
  (∀ c s, s.alive = false → s.soon = [] → Claims.actsInReset c = false →
    ∃ u, (u = s ∨ ∃ n, u = advance n s) ∧ exec c s = .next { u with todo := [] }) ∧
  ∀ s, s.alive = false → (finish s).alive = false ∧ (finish s).soon = [] ∧ (finish s).todo = []

/-- What State.reset leaves in registers whose reset value the spec gives (R29, R40, R62, R63, R121, R230, R436, R438,
R472, R500). -/
def Obligations.RegistersAfterReset : Prop :=
  State.reset.reg Reg.GLB_TEMP_WARN = 0x460#32 ∧ State.reset.reg Reg.GLB_CLAMP_COUNT = 0#32 ∧ State.reset.role = 0 ∧
  State.reset.getF Fld.SPR_STATUS_n = 0 ∧ State.reset.getF Fld.BUF_CTRL_resign = 1 ∧ State.reset.getF Fld.FAB_HASH_seed = 0xFFFF ∧
  State.reset.reg (Reg.CRC_RESULT 0) = 0#32 ∧ State.reset.reg (Reg.CRC_RESULT 1) = 0xFFFF#32 ∧
  (∀ p : Fin 464, State.reset.getF (Fld.BUF_ROW_CFG_min_cells (p / 8) (p % 8)) = 16) ∧ State.reset.cycle = 0

/-- A reset returns every register outside the keep-alive island, the straps and the marked words of LKT_BRAM to its reset
value (R554, R556). GLB_PINS and the failure count of ROL_STATUS are not claimed. -/
def Obligations.ResetClearsTheRegisters : Prop :=
  ∀ s off, s.alive = true → keptWord off = false → off ≠ Reg.GLB_PINS → off ≠ Reg.ROL_STATUS →
    (hold s).alive = false ∧ (hold s).reg off = regReset off ∧ (hold s).pending = s.pending

/-! ### Registers, roles and the recorder -/

/-- A read of an offset that holds no register returns zero, and a write to it is ignored; so is a write whose byte
enables are not all set; no register lies at an offset that is not aligned (R45). -/
def Obligations.OffsetWithoutRegister : Prop :=
  (∀ s₀ off v be dt, let s := arrive dt s₀
    s.reaches = true → locate off = none →
    Reads (.rcRead off dt) s₀ 0 (flushPassed (touchIdle s)) ∧ Ends (.registerWrite off v be dt) s₀ (touchIdle s)) ∧
  (∀ s₀ off v be dt, let s := arrive dt s₀
    s.reaches = true → be ≠ 15#4 → Ends (.registerWrite off v be dt) s₀ (touchIdle s)) ∧
  (∀ off, off % 4 ≠ 0 → locate off = none)

/-- A denied write changes no register but the count of denied writes and the recorder's own (R10, R54, R66). -/
def Obligations.DeniedWriteChangesNoRegister : Prop :=
  ∀ s₀ off v w dt, let s := arrive dt s₀
    writeOf off v = some w → s.reaches = true → s.role = 0 → closed s off = false → w.live s = false → w.mayStore 0 s = false →
    ∃ t, Ends (.registerWrite off v 15#4 dt) s₀ t ∧ t.getF Fld.ROL_STATUS_role = 0 ∧
      ∀ a, a ≠ Reg.ROL_DENY_COUNT → a ≠ Reg.LKT_LOST → a ≠ Reg.LKT_SEQ → a ≠ Reg.LKT_OVERWRITTEN → a ≠ Reg.LKT_STATUS →
        t.reg a = s.reg a

/-- Writing 1 to ROL_DROP.drop returns the role to operator in that cycle; under the operator role the drop changes nothing;
the register is marked, so that the write is recorded (R60). -/
def Obligations.RoleDropReturnsToOperator : Prop :=
  (∀ s v, bit v 0 = true → (roleDrop v s).role = 0 ∧ (roleDrop v s).cycle = s.cycle) ∧
  (∀ s v, s.role = 0 → roleDrop v s = s) ∧ Row.ROL_DROP.marked = true

/-- A written warning threshold is clamped into −320 to 1,200 as a signed value of 12 bits (R40). -/
def Obligations.TemperatureThresholdIsClamped : Prop :=
  ∀ v : Word, let x := signedOf 12 (fieldOf v 0 12)
    signedOf 12 (clampWord Row.GLB_TEMP_WARN v).toNat = max (-320) (min x 1200) ∧
      clampedOwn Row.GLB_TEMP_WARN v = decide (x < -320 ∨ 1200 < x)

/-- A record is 32 bytes with little-endian fields, laid out as R527 has it. -/
def Obligations.RecordLayout : Prop :=
  ∀ r : Record, let l := recordBytes r
    l.length = 32 ∧ leAt l 0 4 = r.seq % 2 ^ 32 ∧ leAt l 4 4 = r.opsec % 2 ^ 32 ∧ leAt l 8 4 = r.pcc % 2 ^ 32 ∧
    leAt l 12 4 = r.ns % 2 ^ 30 + r.role % 4 * 2 ^ 30 ∧ leAt l 16 6 = r.sec % 2 ^ 48 ∧ leAt l 22 1 = r.rtype % 2 ^ 8 ∧
    ∀ i, i < 9 → slice l (23 + i) 1 = [r.data.getD i 0]

/-! ### Frames, units and heartbeats -/

/-- A frame that Spire makes is a Spire frame, and its receiver reads back the sender, the line, the type, the flags and
the sequence number of its head (R82, R83). -/
def Obligations.SpireHeadReadsBack : Prop :=
  ∀ s line type flags seq body, line < 4 → type < 16 →
    let l := spireFrame s line (spireHead s line type flags seq ++ body)
    isSpireFrame s l = true ∧ 60 ≤ l.length ∧ beAt l 14 1 = 16 + type ∧ beAt l 15 1 = flags % 2 ^ 8 ∧
      beAt l 16 2 = seq % 2 ^ 16 ∧ beAt l 18 8 = s.nodeId ∧ beAt l 26 1 = line

/-- The Backbone Epoch Tag is found again as it was inserted, directly after the source address, and its removal gives
the frame before it (R126, R127). -/
def Obligations.EpochTagReadsBack : Prop :=
  ∀ tag (b : Bet) l, 12 ≤ l.length → tag < 2 ^ 16 → b.epoch < 2 ^ 8 → b.srcTnn < 2 ^ 6 → b.dstTnn < 2 ^ 6 → b.cls < 8 →
    b.hops < 2 ^ 6 →
    betOf tag (insertBet tag b l) = some b ∧ removeBet (insertBet tag b l) = l ∧ (insertBet tag b l).length = l.length + 8

/-- A unit that a device makes with a header of its type and the length of its type passes the receiver's check (R475). -/
def Obligations.UnitsPassTheirCheck : Prop :=
  ∀ head rest, 1 ≤ head.length → head.length ≤ 28 → unitSlots (unitType head) ≠ 0 →
    rest.length + 32 = 32 * unitSlots (unitType head) → unitOk (unitBytes head rest) = true

/-- Every heartbeat a side sends is 256 bytes of version 1 with a good check, so that its peer does not count it bad
(R508, R509). -/
def Obligations.HeartbeatsAreWellFormed : Prop :=
  ∀ s, (heartbeat s).length = 256 ∧ beAt (heartbeat s) 0 1 = 1 ∧
    beAt (heartbeat s) 252 4 = crc32c ((heartbeat s).take 252) ∧ beAt (heartbeat s) 4 8 = s.nodeId

/-! ### The ledger, the statistics, time -/

/-- A frame dropped whole at the admission point moves ADMIT and one drop reason together and is never HELD: it leaves the
difference Δ of every row as it was (R214, R224). -/
def Obligations.RefusedFrameKeepsDelta : Prop :=
  ∀ s row reason n r, (s.led r).adm < 2 ^ 48 → (s.led r).deliver < 2 ^ 48 → (s.led r).dropSum < 2 ^ 48 →
    (s.led r).ret < 2 ^ 48 →
    let t := ledRefuse row reason n s
    rowDelta t r = rowDelta s r ∧ (r ≠ row → t.led r = s.led r) ∧
      (t.led row).adm = ((s.led row).adm + n) % 2 ^ 48 ∧ (t.led row).dropSum = ((s.led row).dropSum + n) % 2 ^ 48 ∧
      (t.led row).deliver = (s.led row).deliver ∧ (t.led row).ret = (s.led row).ret

/-- The counters of a MAC roll over: the byte counters at 48 bits, the others at 32 (R258). Counter k of port p alone moves. -/
def Obligations.StatisticsRollOver : Prop :=
  ∀ s p k n, p < 52 → k < 64 →
    let count := fun (t : State) (q j : Nat) =>
      if wideCounter j then (t.reg (Reg.MST_CNT_HI q j)).toNat % 2 ^ 16 * 2 ^ 32 + (t.reg (Reg.MST_CNT_LO q j)).toNat
      else (t.reg (Reg.MST_CNT_LO q j)).toNat
    count (stat p k n s) p k = (count s p k + n) % (if wideCounter k then 2 ^ 48 else 2 ^ 32) ∧
    ∀ q j, q < 52 → j < 64 → (q, j) ≠ (p, k) → count (stat p k n s) q j = count s q j

/-- Time passes evenly: a stretch of cycles in two parts is the stretch, and node time moves by its increment each cycle
(R268). The stamp counter counts 10 units per cycle, modulo 2^32; no step, rate or addend changes it (a step and a new addend
take effect in one cycle, R287, which it counts), and TIM_STAMP reads it (R269). -/
def Obligations.TimePassesEvenly : Prop :=
  (∀ s m n, advance (m + n) s = advance n (advance m s) ∧ (advance n s).stamp = (s.stamp + 10 * n) % 2 ^ 32 ∧
    (advance n s).time = (s.time + n * s.timeInc) % timeModulus ∧ (advance n s).regs = s.regs ∧ (advance n s).fab = s.fab) ∧
  (∀ s, shown Reg.TIM_STAMP s = BitVec.ofNat 32 s.stamp ∧
    (∀ r, (setRate r s).stamp = s.stamp) ∧ (∀ w, (rateWritten w s).stamp = s.stamp) ∧
    (∀ o c, (slewStart o c s).stamp = s.stamp) ∧ (slewOver s).stamp = s.stamp ∧
    (∀ o c, (stepTime o c s).stamp = (advance 1 s).stamp) ∧
    (addendWritten s).stamp = (if s.on Fld.TIM_CTRL_inc_mode then advance 1 s else s).stamp)

/-! ### The local bus and the CRC units -/

/-- Posted writes to BAR4 enter a FIFO of 32 entries: a request takes ceil(length / 64) of them and is accepted at once; one
for which the free entries are not enough is discarded whole as a WFIFO_FULL error (R448). -/
def Obligations.PostedWritesTakeEntries : Prop :=
  ∀ s₀ (a : BitVec 26) d dt, let s := arrive dt s₀
    s.reaches = true → lbbState s ≠ 0 →
    ∃ t, Ends (.bar4Write a d dt) s₀ t ∧
      (wfifoUse s + ceilDiv d.length 64 ≤ 32 →
        wfifoUse t = wfifoUse s + ceilDiv d.length 64 ∧ t.lbb.work = s.lbb.work ++ [.write a.toNat d (ceilDiv d.length 64)] ∧
          t.regs = s.regs) ∧
      (32 < wfifoUse s + ceilDiv d.length 64 → t.lbb.work = s.lbb.work ∧ t = busError LbbErr.wfifoFull 1 0 a.toNat s)

/-- A restart loads the preset's init and clears CRC_COUNT, and device reset does the same: CRC_RESULT then reads init XOR
xorout, 0x00 for unit 0, 0xFFFF for unit 1, and 0 for units 2 and 3 (R469). -/
def Obligations.CrcRestart : Prop :=
  ∀ s (u : Fin 4) v, bit v 0 = true →
    let start : Word := if u.val = 1 then 0xFFFF else 0
    (crcCtrl u v s).reg (Reg.CRC_RESULT u) = start ∧ (crcCtrl u v s).reg (Reg.CRC_COUNT u) = 0 ∧
      State.reset.reg (Reg.CRC_RESULT u) = start ∧ State.reset.reg (Reg.CRC_COUNT u) = 0

/-- The check values of the presets: the results over the nine ASCII bytes "123456789" (R466). -/
def Obligations.CrcCheckValues : Prop :=
  let l : List Byte := [0x31, 0x32, 0x33, 0x34, 0x35, 0x36, 0x37, 0x38, 0x39]
  crcFeed 0 (crcStart 0) l = 0xF4 ∧ crcFeed 1 (crcStart 1) l = 0x29B1 ∧ crcFeed 2 (crcStart 2) l = 0xCBF43926 ∧
    crcFeed 3 (crcStart 3) l = 0xE3069283

/-- CRC_RESULT is the preset's result over every byte fed since the restart, however the bytes were divided over feeds of 1,
2 and 4 bytes, and CRC_COUNT their number (R467, R468, R473). -/
def Obligations.CrcResultOverEveryByteFed : Prop :=
  ∀ s (u : Fin 4) (feeds : List (List Byte)),
    let t := feeds.foldl (fun t l => crcTake u l t) (crcCtrl u 1 s)
    (t.reg (Reg.CRC_RESULT u)).toNat = crcFeed u (crcStart u) feeds.flatten ∧
      (t.reg (Reg.CRC_COUNT u)).toNat = min feeds.flatten.length (2 ^ 32 - 1)

/-- Seeding with a result and feeding further bytes gives the preset's result over the earlier bytes followed by the further
ones (R470). -/
def Obligations.CrcSeedContinues : Prop :=
  ∀ s (u : Fin 4) (a b : List Byte),
    let t := crcSeed u (crcFeed u (crcStart u) a) s
    (t.reg (Reg.CRC_RESULT u)).toNat = crcFeed u (crcStart u) a ∧ t.reg (Reg.CRC_COUNT u) = 0 ∧
      ((crcTake u b t).reg (Reg.CRC_RESULT u)).toNat = crcFeed u (crcStart u) (a ++ b)

/-- The units serve the host alone: the effect of a restart, a seed or a feed leaves every other register and every other
part of the state as it was (R471). -/
def Obligations.CrcCommandsFrame : Prop :=
  ∀ s (u : Fin 4) v, ∀ f ∈ [crcCtrl u v, crcSeed u v, crcData8 u v, crcData16 u v, crcData32 u v],
    (∀ a, a ≠ Reg.CRC_RESULT u → a ≠ Reg.CRC_COUNT u → (f s).reg a = s.reg a) ∧ f s = { s with regs := (f s).regs }
end

