-- ==== Sys2Proof/Laws/Advance.lean ====
section
/-! SUPPORT. What reads the same after time has passed: everything that looks at neither the clock, node time nor the phase
domains' positions. -/
namespace Sys2Proof.Machine
variable {s : State} {n : Nat}

@[simp] theorem getI_advance {x1} : State.getI (advance n s) x1 = State.getI s x1 := rfl
@[simp] theorem hasRole_advance : State.hasRole (advance n s) = State.hasRole s := rfl
@[simp] theorem nodeId_advance : State.nodeId (advance n s) = State.nodeId s := rfl
@[simp] theorem macOf_advance {x1} : State.macOf (advance n s) x1 = State.macOf s x1 := rfl
@[simp] theorem logSectors_advance : logSectors (advance n s) = logSectors s := rfl
@[simp] theorem logSlots_advance : logSlots (advance n s) = logSlots s := rfl
@[simp] theorem logRecords_advance : logRecords (advance n s) = logRecords s := rfl
@[simp] theorem role_advance : State.role (advance n s) = State.role s := rfl
@[simp] theorem nextSerial_advance : nextSerial (advance n s) = nextSerial s := rfl
@[simp] theorem led_advance {x1} : State.led (advance n s) x1 = State.led s x1 := rfl
@[simp] theorem maxFrame_advance {x1} : maxFrame (advance n s) x1 = maxFrame s x1 := rfl
@[simp] theorem tagEtype_advance : tagEtype (advance n s) = tagEtype s := rfl
@[simp] theorem lineVlan_advance {x1} : lineVlan (advance n s) x1 = lineVlan s x1 := rfl
@[simp] theorem portMbps_advance {x1} : portMbps (advance n s) x1 = portMbps s x1 := rfl
@[simp] theorem portLink_advance {x1} : portLink (advance n s) x1 = portLink s x1 := rfl
@[simp] theorem portState_advance {x1} : portState (advance n s) x1 = portState s x1 := rfl
@[simp] theorem line_advance {x1} : State.line (advance n s) x1 = State.line s x1 := rfl
@[simp] theorem dir_advance {x1} : State.dir (advance n s) x1 = State.dir s x1 := rfl
@[simp] theorem lstate_advance {x1} : lstate (advance n s) x1 = lstate s x1 := rfl
@[simp] theorem isUp_advance {x1} : isUp (advance n s) x1 = isUp s x1 := rfl
@[simp] theorem upLines_advance {x1} : upLines (advance n s) x1 = upLines s x1 := rfl
@[simp] theorem dirUp_advance {x1} : dirUp (advance n s) x1 = dirUp s x1 := rfl
@[simp] theorem fsm_advance : fsm (advance n s) = fsm s := rfl
@[simp] theorem spireOn_advance : spireOn (advance n s) = spireOn s := rfl
@[simp] theorem liveEpoch_advance : liveEpoch (advance n s) = liveEpoch s := rfl
@[simp] theorem prevEpoch_advance : prevEpoch (advance n s) = prevEpoch s := rfl
@[simp] theorem liveTnn_advance : liveTnn (advance n s) = liveTnn s := rfl
@[simp] theorem liveN_advance : liveN (advance n s) = liveN s := rfl
@[simp] theorem liveDigest_advance : liveDigest (advance n s) = liveDigest s := rfl
@[simp] theorem graceOn_advance : graceOn (advance n s) = graceOn s := rfl
@[simp] theorem leadOn_advance : leadOn (advance n s) = leadOn s := rfl
@[simp] theorem inCompat_advance : inCompat (advance n s) = inCompat s := rfl
@[simp] theorem firstUp_advance {x1} : firstUp (advance n s) x1 = firstUp s x1 := rfl
@[simp] theorem dirDelay_advance {x1} : dirDelay (advance n s) x1 = dirDelay s x1 := rfl
@[simp] theorem spireHead_advance {x1 x2 x3 x4} : spireHead (advance n s) x1 x2 x3 x4 = spireHead s x1 x2 x3 x4 := rfl
@[simp] theorem spireFrame_advance {x1 x2} : spireFrame (advance n s) x1 x2 = spireFrame s x1 x2 := rfl
@[simp] theorem compatDist_advance : compatDist (advance n s) = compatDist s := rfl
@[simp] theorem currentBy_advance {x1} : currentBy (advance n s) x1 = currentBy s x1 := rfl
@[simp] theorem isCurrent_advance {x1} : isCurrent (advance n s) x1 = isCurrent s x1 := rfl
@[simp] theorem rosterFrame_advance {x1 x2} : rosterFrame (advance n s) x1 x2 = rosterFrame s x1 x2 := rfl
@[simp] theorem rosterComplete_advance {x1} : rosterComplete (advance n s) x1 = rosterComplete s x1 := rfl
@[simp] theorem outgoing_advance {x1} : outgoing (advance n s) x1 = outgoing s x1 := rfl
@[simp] theorem sameSummary_advance {x1 x2} : sameSummary (advance n s) x1 x2 = sameSummary s x1 x2 := rfl
@[simp] theorem heldUp_advance {x1} : heldUp (advance n s) x1 = heldUp s x1 := rfl
@[simp] theorem viewComplete_advance : viewComplete (advance n s) = viewComplete s := rfl
@[simp] theorem watched_advance {x1} : watched (advance n s) x1 = watched s x1 := rfl
@[simp] theorem liveBank_advance : liveBank (advance n s) = liveBank s := rfl
@[simp] theorem rosterPartial_advance : rosterPartial (advance n s) = rosterPartial s := rfl
@[simp] theorem farTnns_advance {x1 x2 x3} : farTnns (advance n s) x1 x2 x3 = farTnns s x1 x2 x3 := rfl
@[simp] theorem buildMap_advance {x1 x2} : buildMap (advance n s) x1 x2 = buildMap s x1 x2 := rfl
@[simp] theorem buildIds_advance {x1 x2} : buildIds (advance n s) x1 x2 = buildIds s x1 x2 := rfl
@[simp] theorem isSpireFrame_advance {x1} : isSpireFrame (advance n s) x1 = isSpireFrame s x1 := rfl
@[simp] theorem commitCheck_advance {x1 x2 x3} : commitCheck (advance n s) x1 x2 x3 = commitCheck s x1 x2 x3 := rfl
@[simp] theorem isRosterFrame_advance {x1} : isRosterFrame (advance n s) x1 = isRosterFrame s x1 := rfl
@[simp] theorem helloBytes_advance {x1} : helloBytes (advance n s) x1 = helloBytes s x1 := rfl
@[simp] theorem compatMatch_advance {x1 x2 x3} : compatMatch (advance n s) x1 x2 x3 = compatMatch s x1 x2 x3 := rfl
@[simp] theorem isHello_advance {x1} : isHello (advance n s) x1 = isHello s x1 := rfl
@[simp] theorem isTopology_advance {x1} : isTopology (advance n s) x1 = isTopology s x1 := rfl
@[simp] theorem canSend_advance {x1} : canSend (advance n s) x1 = canSend s x1 := rfl
@[simp] theorem ring_advance {x1} : State.ring (advance n s) x1 = State.ring s x1 := rfl
@[simp] theorem ringState_advance {x1} : ringState (advance n s) x1 = ringState s x1 := rfl
@[simp] theorem freeSlots_advance {x1} : freeSlots (advance n s) x1 = freeSlots s x1 := rfl
@[simp] theorem ringIs_advance {x1 x2} : ringIs (advance n s) x1 x2 = ringIs s x1 x2 := rfl
@[simp] theorem nextReading_advance {x1} : nextReading (advance n s) x1 = nextReading s x1 := rfl
@[simp] theorem doorbellOk_advance {x1 x2} : doorbellOk (advance n s) x1 x2 = doorbellOk s x1 x2 := rfl
@[simp] theorem frame_advance {x1} : State.frame (advance n s) x1 = State.frame s x1 := rfl
@[simp] theorem occupancy_advance {x1} : occupancy (advance n s) x1 = occupancy s x1 := rfl
@[simp] theorem headroomUse_advance {x1} : headroomUse (advance n s) x1 = headroomUse s x1 := rfl
@[simp] theorem heldCopies_advance {x1} : heldCopies (advance n s) x1 = heldCopies s x1 := rfl
@[simp] theorem ilgPort_advance {x1} : State.ilgPort (advance n s) x1 = State.ilgPort s x1 := rfl
@[simp] theorem guarantee_advance {x1} : guarantee (advance n s) x1 = guarantee s x1 := rfl
@[simp] theorem pfcOn_advance {x1} : pfcOn (advance n s) x1 = pfcOn s x1 := rfl
@[simp] theorem totalGuarantee_advance : totalGuarantee (advance n s) = totalGuarantee s := rfl
@[simp] theorem totalHeadroom_advance : totalHeadroom (advance n s) = totalHeadroom s := rfl
@[simp] theorem sharedPool_advance : sharedPool (advance n s) = sharedPool s := rfl
@[simp] theorem usedRows_advance : usedRows (advance n s) = usedRows s := rfl
@[simp] theorem sharedUse_advance : sharedUse (advance n s) = sharedUse s := rfl
@[simp] theorem depth_advance {x1 x2} : depth (advance n s) x1 x2 = depth s x1 x2 := rfl
@[simp] theorem cellsQueued_advance : cellsQueued (advance n s) = cellsQueued s := rfl
@[simp] theorem cellsTransit_advance : cellsTransit (advance n s) = cellsTransit s := rfl
@[simp] theorem cellsReserved_advance : cellsReserved (advance n s) = cellsReserved s := rfl
@[simp] theorem cellsFree_advance : cellsFree (advance n s) = cellsFree s := rfl
@[simp] theorem underThreshold_advance {x1 x2} : underThreshold (advance n s) x1 x2 = underThreshold s x1 x2 := rfl
@[simp] theorem backPressure_advance {x1} : backPressure (advance n s) x1 = backPressure s x1 := rfl
@[simp] theorem admitCheck_advance {x1} : admitCheck (advance n s) x1 = admitCheck s x1 := rfl
@[simp] theorem matchFilter_advance {x1 x2 x3 x4 x5} :
    matchFilter (advance n s) x1 x2 x3 x4 x5 = matchFilter s x1 x2 x3 x4 x5 := rfl
@[simp] theorem txQueue_advance {x1 x2} : txQueue (advance n s) x1 x2 = txQueue s x1 x2 := rfl
@[simp] theorem syncNs_advance : syncNs (advance n s) = syncNs s := rfl
@[simp] theorem syncCycles_advance : syncCycles (advance n s) = syncCycles s := rfl
@[simp] theorem timeNative_advance : timeNative (advance n s) = timeNative s := rfl
@[simp] theorem gmActive_advance : gmActive (advance n s) = gmActive s := rfl
@[simp] theorem servoOwns_advance : servoOwns (advance n s) = servoOwns s := rfl
@[simp] theorem servoState_advance : servoState (advance n s) = servoState s := rfl
@[simp] theorem slaveDir_advance : slaveDir (advance n s) = slaveDir s := rfl
@[simp] theorem permitArmed_advance : permitArmed (advance n s) = permitArmed s := rfl
@[simp] theorem isBig_advance {x1} : isBig (advance n s) x1 = isBig s x1 := rfl
@[simp] theorem mergeDir_advance : mergeDir (advance n s) = mergeDir s := rfl
@[simp] theorem joining_advance : joining (advance n s) = joining s := rfl
@[simp] theorem masters_advance : masters (advance n s) = masters s := rfl
@[simp] theorem syncFrame_advance {x1 x2 x3} : syncFrame (advance n s) x1 x2 x3 = syncFrame s x1 x2 x3 := rfl
@[simp] theorem isNativeSync_advance {x1} : isNativeSync (advance n s) x1 = isNativeSync s x1 := rfl
@[simp] theorem lineRho_advance {x1} : lineRho (advance n s) x1 = lineRho s x1 := rfl
@[simp] theorem addend_advance : addend (advance n s) = addend s := rfl
@[simp] theorem syncMode_advance {x1} : syncMode (advance n s) x1 = syncMode s x1 := rfl
@[simp] theorem syncFifo_advance {x1} : syncFifo (advance n s) x1 = syncFifo s x1 := rfl
@[simp] theorem asymApplies_advance {x1} : asymApplies (advance n s) x1 = asymApplies s x1 := rfl
@[simp] theorem asymIn_advance {x1 x2} : asymIn (advance n s) x1 x2 = asymIn s x1 x2 := rfl
@[simp] theorem tcTwoStep_advance {x1 x2} : tcTwoStep (advance n s) x1 x2 = tcTwoStep s x1 x2 := rfl
@[simp] theorem phsSource_advance {x1} : phsSource (advance n s) x1 = phsSource s x1 := rfl
@[simp] theorem lockState_advance {x1} : lockState (advance n s) x1 = lockState s x1 := rfl
@[simp] theorem domParam_advance {x1} : domParam (advance n s) x1 = domParam s x1 := rfl
@[simp] theorem domOffset_advance {x1} : domOffset (advance n s) x1 = domOffset s x1 := rfl
@[simp] theorem incClamp_advance {x1 x2} : incClamp (advance n s) x1 x2 = incClamp s x1 x2 := rfl
@[simp] theorem badWord_advance {x1 x2} : badWord (advance n s) x1 x2 = badWord s x1 x2 := rfl
@[simp] theorem fdbValid_advance {x1} : fdbValid (advance n s) x1 = fdbValid s x1 := rfl
@[simp] theorem fdbMac_advance {x1} : fdbMac (advance n s) x1 = fdbMac s x1 := rfl
@[simp] theorem fdbHas_advance {x1 x2 x3} : fdbHas (advance n s) x1 x2 x3 = fdbHas s x1 x2 x3 := rfl
@[simp] theorem fdbFind_advance {x1 x2} : fdbFind (advance n s) x1 x2 = fdbFind s x1 x2 := rfl
@[simp] theorem fdbFreeWay_advance {x1 x2} : fdbFreeWay (advance n s) x1 x2 = fdbFreeWay s x1 x2 := rfl
@[simp] theorem fdbUsed_advance : fdbUsed (advance n s) = fdbUsed s := rfl
@[simp] theorem sweepInterval_advance : sweepInterval (advance n s) = sweepInterval s := rfl
@[simp] theorem stationPort_advance {x1} : stationPort (advance n s) x1 = stationPort s x1 := rfl
@[simp] theorem badEntry_advance {x1 x2} : badEntry (advance n s) x1 x2 = badEntry s x1 x2 := rfl
@[simp] theorem flushes_advance {x1 x2} : flushes (advance n s) x1 x2 = flushes s x1 x2 := rfl
@[simp] theorem isWorker_advance : isWorker (advance n s) = isWorker s := rfl
@[simp] theorem ownIndex_advance : ownIndex (advance n s) = ownIndex s := rfl
@[simp] theorem globalPort_advance {x1} : globalPort (advance n s) x1 = globalPort s x1 := rfl
@[simp] theorem pathPort_advance {x1} : pathPort (advance n s) x1 = pathPort s x1 := rfl
@[simp] theorem quarantined_advance {x1} : quarantined (advance n s) x1 = quarantined s x1 := rfl
@[simp] theorem pcpClass_advance {x1 x2} : pcpClass (advance n s) x1 x2 = pcpClass s x1 x2 := rfl
@[simp] theorem edgeClass_advance {x1 x2} : edgeClass (advance n s) x1 x2 = edgeClass s x1 x2 := rfl
@[simp] theorem edgeVid_advance {x1 x2} : edgeVid (advance n s) x1 x2 = edgeVid s x1 x2 := rfl
@[simp] theorem vlanValid_advance {x1} : vlanValid (advance n s) x1 = vlanValid s x1 := rfl
@[simp] theorem vlanMembers_advance {x1} : vlanMembers (advance n s) x1 = vlanMembers s x1 := rfl
@[simp] theorem vlanUntag_advance {x1} : vlanUntag (advance n s) x1 = vlanUntag s x1 := rfl
@[simp] theorem vlanRefuses_advance {x1 x2 x3} : vlanRefuses (advance n s) x1 x2 x3 = vlanRefuses s x1 x2 x3 := rfl
@[simp] theorem merging_advance {x1} : merging (advance n s) x1 = merging s x1 := rfl
@[simp] theorem scheduled_advance {x1} : scheduled (advance n s) x1 = scheduled s x1 := rfl
@[simp] theorem windowsFor_advance {x1 x2} : windowsFor (advance n s) x1 x2 = windowsFor s x1 x2 := rfl
@[simp] theorem gateReg_advance {x1} : gateReg (advance n s) x1 = gateReg s x1 := rfl
@[simp] theorem mapFate_advance {x1} : mapFate (advance n s) x1 = mapFate s x1 := rfl
@[simp] theorem mapNew_advance {x1} : mapNew (advance n s) x1 = mapNew s x1 := rfl
@[simp] theorem flowHash_advance {x1 x2} : flowHash (advance n s) x1 x2 = flowHash s x1 x2 := rfl
@[simp] theorem lineFor_advance {x1 x2 x3 x4} : lineFor (advance n s) x1 x2 x3 x4 = lineFor s x1 x2 x3 x4 := rfl
@[simp] theorem routeOf_advance {x1 x2} : routeOf (advance n s) x1 x2 = routeOf s x1 x2 := rfl
@[simp] theorem passable_advance {x1} : passable (advance n s) x1 = passable s x1 := rfl
@[simp] theorem dirCopy_advance {x1 x2 x3} : dirCopy (advance n s) x1 x2 x3 = dirCopy s x1 x2 x3 := rfl
@[simp] theorem routeFan_advance {x1 x2} : routeFan (advance n s) x1 x2 = routeFan s x1 x2 := rfl
@[simp] theorem floodTargets_advance {x1} : floodTargets (advance n s) x1 = floodTargets s x1 := rfl
@[simp] theorem maskOuts_advance {x1 x2} : maskOuts (advance n s) x1 x2 = maskOuts s x1 x2 := rfl
@[simp] theorem unicastFan_advance {x1} : unicastFan (advance n s) x1 = unicastFan s x1 := rfl
@[simp] theorem tagNew_advance {x1 x2} : tagNew (advance n s) x1 x2 = tagNew s x1 x2 := rfl
@[simp] theorem backboneFan_advance {x1 x2} : backboneFan (advance n s) x1 x2 = backboneFan s x1 x2 := rfl
@[simp] theorem ilgState_advance {x1} : ilgState (advance n s) x1 = ilgState s x1 := rfl
@[simp] theorem ilgUp_advance {x1} : ilgUp (advance n s) x1 = ilgUp s x1 := rfl
@[simp] theorem ilgPortState_advance {x1} : ilgPortState (advance n s) x1 = ilgPortState s x1 := rfl
@[simp] theorem canStart_advance {x1} : canStart (advance n s) x1 = canStart s x1 := rfl
@[simp] theorem preemptActive_advance {x1} : preemptActive (advance n s) x1 = preemptActive s x1 := rfl
@[simp] theorem bareOnTrunk_advance {x1} : bareOnTrunk (advance n s) x1 = bareOnTrunk s x1 := rfl
@[simp] theorem outLen_advance {x1 x2} : outLen (advance n s) x1 x2 = outLen s x1 x2 := rfl
@[simp] theorem isExpress_advance {x1 x2} : isExpress (advance n s) x1 x2 = isExpress s x1 x2 := rfl
@[simp] theorem linkRate_advance {x1} : linkRate (advance n s) x1 = linkRate s x1 := rfl
@[simp] theorem ctWanted_advance {x1} : ctWanted (advance n s) x1 = ctWanted s x1 := rfl
@[simp] theorem ctAllowed_advance {x1 x2} : ctAllowed (advance n s) x1 x2 = ctAllowed s x1 x2 := rfl
@[simp] theorem congested_advance {x1 x2} : congested (advance n s) x1 x2 = congested s x1 x2 := rfl
@[simp] theorem quarantineDrops_advance {x1 x2} : quarantineDrops (advance n s) x1 x2 = quarantineDrops s x1 x2 := rfl
@[simp] theorem waitsAtSource_advance {x1} : waitsAtSource (advance n s) x1 = waitsAtSource s x1 := rfl
@[simp] theorem congestionDrops_advance {x1 x2 x3} :
    congestionDrops (advance n s) x1 x2 x3 = congestionDrops s x1 x2 x3 := rfl
@[simp] theorem learnOf_advance {x1 x2 x3 x4 x5 x6} :
    learnOf (advance n s) x1 x2 x3 x4 x5 x6 = learnOf s x1 x2 x3 x4 x5 x6 := rfl
@[simp] theorem timeToHost_advance {x1 x2} : timeToHost (advance n s) x1 x2 = timeToHost s x1 x2 := rfl
@[simp] theorem receives_advance {x1} : receives (advance n s) x1 = receives s x1 := rfl
@[simp] theorem takenWhole_advance {x1 x2 x3} : takenWhole (advance n s) x1 x2 x3 = takenWhole s x1 x2 x3 := rfl
@[simp] theorem presentBytes_advance {x1} : presentBytes (advance n s) x1 = presentBytes s x1 := rfl
@[simp] theorem ringCells_advance : ringCells (advance n s) = ringCells s := rfl
@[simp] theorem lockOf_advance {x1 x2} : lockOf (advance n s) x1 x2 = lockOf s x1 x2 := rfl
@[simp] theorem grantOf_advance {x1 x2 x3} : grantOf (advance n s) x1 x2 x3 = grantOf s x1 x2 x3 := rfl
@[simp] theorem matchRound_advance {x1 x2 x3} : matchRound (advance n s) x1 x2 x3 = matchRound s x1 x2 x3 := rfl
@[simp] theorem half_advance {x1} : State.half (advance n s) x1 = State.half s x1 := rfl
@[simp] theorem sendingAt_advance {x1} : sendingAt (advance n s) x1 = sendingAt s x1 := rfl
@[simp] theorem isHalf_advance {x1} : isHalf (advance n s) x1 = isHalf s x1 := rfl
@[simp] theorem onAir_advance {x1} : onAir (advance n s) x1 = onAir s x1 := rfl
@[simp] theorem shapeRate_advance {x1 x2} : shapeRate (advance n s) x1 x2 = shapeRate s x1 x2 := rfl
@[simp] theorem shapeBurst_advance {x1 x2} : shapeBurst (advance n s) x1 x2 = shapeBurst s x1 x2 := rfl
@[simp] theorem quantaCycles_advance {x1 x2} : quantaCycles (advance n s) x1 x2 = quantaCycles s x1 x2 := rfl
@[simp] theorem queuePaused_advance {x1 x2} : queuePaused (advance n s) x1 x2 = queuePaused s x1 x2 := rfl
@[simp] theorem xoffClasses_advance {x1} : xoffClasses (advance n s) x1 = xoffClasses s x1 := rfl
@[simp] theorem fcFrame_advance {x1 x2} : fcFrame (advance n s) x1 x2 = fcFrame s x1 x2 := rfl
@[simp] theorem lacksCells_advance {x1 x2} : lacksCells (advance n s) x1 x2 = lacksCells s x1 x2 := rfl
@[simp] theorem cameExpress_advance {x1 x2} : cameExpress (advance n s) x1 x2 = cameExpress s x1 x2 := rfl
@[simp] theorem returned_advance {x1} : returned (advance n s) x1 = returned s x1 := rfl
@[simp] theorem revertDue_advance {x1} : revertDue (advance n s) x1 = revertDue s x1 := rfl
@[simp] theorem classRing_advance {x1} : classRing (advance n s) x1 = classRing s x1 := rfl
@[simp] theorem ringOfCopy_advance {x1 x2} : ringOfCopy (advance n s) x1 x2 = ringOfCopy s x1 x2 := rfl
@[simp] theorem ringOfItem_advance {x1} : ringOfItem (advance n s) x1 = ringOfItem s x1 := rfl
@[simp] theorem itemCells_advance {x1} : itemCells (advance n s) x1 = itemCells s x1 := rfl
@[simp] theorem rxWriteBack_advance {x1 x2 x3 x4 x5 x6 x7} :
    rxWriteBack (advance n s) x1 x2 x3 x4 x5 x6 x7 = rxWriteBack s x1 x2 x3 x4 x5 x6 x7 := rfl
@[simp] theorem itemTagged_advance {x1} : itemTagged (advance n s) x1 = itemTagged s x1 := rfl
@[simp] theorem writeFuel_advance {x1} : writeFuel (advance n s) x1 = writeFuel s x1 := rfl
@[simp] theorem hasTxWork_advance {x1} : hasTxWork (advance n s) x1 = hasTxWork s x1 := rfl
@[simp] theorem txServed_advance : txServed (advance n s) = txServed s := rfl
@[simp] theorem chan_advance {x1} : State.chan (advance n s) x1 = State.chan s x1 := rfl
@[simp] theorem chanState_advance {x1} : chanState (advance n s) x1 = chanState s x1 := rfl
@[simp] theorem estate_advance {x1} : estate (advance n s) x1 = estate s x1 := rfl
@[simp] theorem onBus_advance {x1} : onBus (advance n s) x1 = onBus s x1 := rfl
@[simp] theorem ttState_advance : ttState (advance n s) = ttState s := rfl
@[simp] theorem isTt_advance {x1} : isTt (advance n s) x1 = isTt s x1 := rfl
@[simp] theorem ntu_advance : ntu (advance n s) = ntu s := rfl
@[simp] theorem ttCycle_advance : ttCycle (advance n s) = ttCycle s := rfl
@[simp] theorem ttCycles_advance : ttCycles (advance n s) = ttCycles s := rfl
@[simp] theorem isReference_advance {x1} : isReference (advance n s) x1 = isReference s x1 := rfl
@[simp] theorem filterHits_advance {x1 x2 x3} : filterHits (advance n s) x1 x2 x3 = filterHits s x1 x2 x3 := rfl
@[simp] theorem mailboxHits_advance {x1} : mailboxHits (advance n s) x1 = mailboxHits s x1 := rfl
@[simp] theorem canJob_advance {x1} : canJob (advance n s) x1 = canJob s x1 := rfl
@[simp] theorem mailboxFrame_advance {x1} : mailboxFrame (advance n s) x1 = mailboxFrame s x1 := rfl
@[simp] theorem referenceFrame_advance {x1} : referenceFrame (advance n s) x1 = referenceFrame s x1 := rfl
@[simp] theorem ttMaster_advance : ttMaster (advance n s) = ttMaster s := rfl
@[simp] theorem lonelyPaused_advance {x1} : lonelyPaused (advance n s) x1 = lonelyPaused s x1 := rfl
@[simp] theorem trigType_advance {x1} : trigType (advance n s) x1 = trigType s x1 := rfl
@[simp] theorem trigMark_advance {x1} : trigMark (advance n s) x1 = trigMark s x1 := rfl
@[simp] theorem trigTable_advance : trigTable (advance n s) = trigTable s := rfl
@[simp] theorem tableValid_advance : tableValid (advance n s) = tableValid s := rfl
@[simp] theorem fires_advance {x1} : fires (advance n s) x1 = fires s x1 := rfl
@[simp] theorem nextTrig_advance {x1} : nextTrig (advance n s) x1 = nextTrig s x1 := rfl
@[simp] theorem trigAt_advance {x1} : trigAt (advance n s) x1 = trigAt s x1 := rfl
@[simp] theorem tplValid_advance {x1} : tplValid (advance n s) x1 = tplValid s x1 := rfl
@[simp] theorem tplLength_advance {x1} : tplLength (advance n s) x1 = tplLength s x1 := rfl
@[simp] theorem tplBadWord_advance {x1} : tplBadWord (advance n s) x1 = tplBadWord s x1 := rfl
@[simp] theorem tplBit_advance {x1 x2} : tplBit (advance n s) x1 x2 = tplBit s x1 x2 := rfl
@[simp] theorem tplByte_advance {x1 x2} : tplByte (advance n s) x1 x2 = tplByte s x1 x2 := rfl
@[simp] theorem tplData_advance {x1} : tplData (advance n s) x1 = tplData s x1 := rfl
@[simp] theorem rescale_advance {x1 x2} : rescale (advance n s) x1 x2 = rescale s x1 x2 := rfl
@[simp] theorem packedDefault_advance {x1} : packedDefault (advance n s) x1 = packedDefault s x1 := rfl
@[simp] theorem sigBits_advance {x1} : sigBits (advance n s) x1 = sigBits s x1 := rfl
@[simp] theorem sigBadWord_advance {x1} : sigBadWord (advance n s) x1 = sigBadWord s x1 := rfl
@[simp] theorem filMatch_advance {x1} : filMatch (advance n s) x1 = filMatch s x1 := rfl
@[simp] theorem srcSignals_advance {x1} : srcSignals (advance n s) x1 = srcSignals s x1 := rfl
@[simp] theorem filRuns_advance : filRuns (advance n s) = filRuns s := rfl
@[simp] theorem tplCan_advance {x1} : tplCan (advance n s) x1 = tplCan s x1 := rfl
@[simp] theorem profileOf_advance {x1} : profileOf (advance n s) x1 = profileOf s x1 := rfl
@[simp] theorem sense_advance {x1} : State.sense (advance n s) x1 = State.sense s x1 := rfl
@[simp] theorem senseFed_advance {x1} : senseFed (advance n s) x1 = senseFed s x1 := rfl
@[simp] theorem mclkPeriod_advance {x1} : mclkPeriod (advance n s) x1 = mclkPeriod s x1 := rfl
@[simp] theorem decimation_advance {x1} : decimation (advance n s) x1 = decimation s x1 := rfl
@[simp] theorem domHeld_advance {x1} : domHeld (advance n s) x1 = domHeld s x1 := rfl
@[simp] theorem senseDom_advance {x1} : senseDom (advance n s) x1 = senseDom s x1 := rfl
@[simp] theorem isStuck_advance {x1} : isStuck (advance n s) x1 = isStuck s x1 := rfl
@[simp] theorem resultFlags_advance {x1 x2 x3 x4} :
    resultFlags (advance n s) x1 x2 x3 x4 = resultFlags s x1 x2 x3 x4 := rfl
@[simp] theorem windowRecord_advance {x1 x2 x3 x4 x5} :
    windowRecord (advance n s) x1 x2 x3 x4 x5 = windowRecord s x1 x2 x3 x4 x5 := rfl
@[simp] theorem drvMode_advance {x1} : drvMode (advance n s) x1 = drvMode s x1 := rfl
@[simp] theorem drvDom_advance {x1} : drvDom (advance n s) x1 = drvDom s x1 := rfl
@[simp] theorem hostLevel_advance {x1} : hostLevel (advance n s) x1 = hostLevel s x1 := rfl
@[simp] theorem passLevel_advance {x1 x2} : passLevel (advance n s) x1 x2 = passLevel s x1 x2 := rfl
@[simp] theorem drvState_advance : drvState (advance n s) = drvState s := rfl
@[simp] theorem drvRuns_advance : drvRuns (advance n s) = drvRuns s := rfl
@[simp] theorem ballLevel_advance {x1} : ballLevel (advance n s) x1 = ballLevel s x1 := rfl
@[simp] theorem eventBadWord_advance {x1} : eventBadWord (advance n s) x1 = eventBadWord s x1 := rfl
@[simp] theorem reached_advance {x1 x2 x3} : reached (advance n s) x1 x2 x3 = reached s x1 x2 x3 := rfl
@[simp] theorem silenced_advance : silenced (advance n s) = silenced s := rfl
@[simp] theorem gateKept_advance {x1 x2} : gateKept (advance n s) x1 x2 = gateKept s x1 x2 := rfl
@[simp] theorem safeLevel_advance {x1} : safeLevel (advance n s) x1 = safeLevel s x1 := rfl
@[simp] theorem actSuppressed_advance {x1} : actSuppressed (advance n s) x1 = actSuppressed s x1 := rfl
@[simp] theorem isManager_advance : isManager (advance n s) = isManager s := rfl
@[simp] theorem ilgDevices_advance : ilgDevices (advance n s) = ilgDevices s := rfl
@[simp] theorem ilgRing_advance : ilgRing (advance n s) = ilgRing s := rfl
@[simp] theorem pathOf_advance {x1} : pathOf (advance n s) x1 = pathOf s x1 := rfl
@[simp] theorem hears_advance {x1} : hears (advance n s) x1 = hears s x1 := rfl
@[simp] theorem ilgReach_advance {x1} : ilgReach (advance n s) x1 = ilgReach s x1 := rfl
@[simp] theorem shorterPort_advance {x1} : shorterPort (advance n s) x1 = shorterPort s x1 := rfl
@[simp] theorem choosePath_advance {x1} : choosePath (advance n s) x1 = choosePath s x1 := rfl
@[simp] theorem reportUnit_advance {x1 x2} : reportUnit (advance n s) x1 x2 = reportUnit s x1 x2 := rfl
@[simp] theorem drained_advance {x1 x2} : drained (advance n s) x1 x2 = drained s x1 x2 := rfl
@[simp] theorem helloIndex_advance {x1} : helloIndex (advance n s) x1 = helloIndex s x1 := rfl
@[simp] theorem helloUnit_advance {x1} : helloUnit (advance n s) x1 = helloUnit s x1 := rfl
@[simp] theorem targetOuts_advance {x1} : targetOuts (advance n s) x1 = targetOuts s x1 := rfl
@[simp] theorem cellLearn_advance {x0} : cellLearn x0 (advance n s) = cellLearn x0 s := rfl
@[simp] theorem reachBody_advance {x1} : reachBody (advance n s) x1 = reachBody s x1 := rfl
@[simp] theorem workerCurrent_advance {x1} : workerCurrent (advance n s) x1 = workerCurrent s x1 := rfl
@[simp] theorem imgAddr_advance : imgAddr (advance n s) = imgAddr s := rfl
@[simp] theorem lbbState_advance : lbbState (advance n s) = lbbState s := rfl
@[simp] theorem mapped_advance {x1} : mapped (advance n s) x1 = mapped s x1 := rfl
@[simp] theorem readOf_advance {x1} : readOf (advance n s) x1 = readOf s x1 := rfl
@[simp] theorem prefetchOf_advance {x1} : prefetchOf (advance n s) x1 = prefetchOf s x1 := rfl
@[simp] theorem aheadLen_advance {x1} : aheadLen (advance n s) x1 = aheadLen s x1 := rfl
@[simp] theorem busPending_advance : busPending (advance n s) = busPending s := rfl
@[simp] theorem mayGrant_advance : mayGrant (advance n s) = mayGrant s := rfl
@[simp] theorem inbBase_advance : inbBase (advance n s) = inbBase s := rfl
@[simp] theorem upstream_advance : upstream (advance n s) = upstream s := rfl
@[simp] theorem inboundUse_advance : inboundUse (advance n s) = inboundUse s := rfl
@[simp] theorem isTarget_advance : isTarget (advance n s) = isTarget s := rfl
@[simp] theorem wfifoUse_advance : wfifoUse (advance n s) = wfifoUse s := rfl
@[simp] theorem redRole_advance : redRole (advance n s) = redRole s := rfl
@[simp] theorem paired_advance : paired (advance n s) = paired s := rfl
@[simp] theorem sideB_advance : sideB (advance n s) = sideB s := rfl
@[simp] theorem idMatch_advance {x1} : idMatch (advance n s) x1 = idMatch s x1 := rfl
@[simp] theorem tagMatch_advance {x1} : tagMatch (advance n s) x1 = tagMatch s x1 := rfl
@[simp] theorem mapMatch_advance {x1} : mapMatch (advance n s) x1 = mapMatch s x1 := rfl
@[simp] theorem numberingMatch_advance {x1} : numberingMatch (advance n s) x1 = numberingMatch s x1 := rfl
@[simp] theorem hbLossCycles_advance : hbLossCycles (advance n s) = hbLossCycles s := rfl
@[simp] theorem recordAt_advance {x1} : recordAt (advance n s) x1 = recordAt s x1 := rfl
@[simp] theorem fetched_advance {x1 x2} : fetched (advance n s) x1 x2 = fetched s x1 x2 := rfl
@[simp] theorem phyBit_advance {x1} : phyBit (advance n s) x1 = phyBit s x1 := rfl
@[simp] theorem tapHolds_advance : tapHolds (advance n s) = tapHolds s := rfl
@[simp] theorem newestCopy_advance : newestCopy (advance n s) = newestCopy s := rfl
@[simp] theorem cplDue_advance {x1} : cplDue (advance n s) x1 = cplDue s x1 := rfl
@[simp] theorem heldBack_advance {x0} : heldBack x0 (advance n s) = heldBack x0 s := rfl
@[simp] theorem ringIdle_advance {x0} : ringIdle x0 (advance n s) = ringIdle x0 s := rfl
@[simp] theorem startReady_advance {x0} : startReady x0 (advance n s) = startReady x0 s := rfl
@[simp] theorem portIdle_advance {x0} : portIdle x0 (advance n s) = portIdle x0 s := rfl
@[simp] theorem bootSource_advance : bootSource (advance n s) = bootSource s := rfl
@[simp] theorem mayRun_advance {x0} : mayRun x0 (advance n s) = mayRun x0 s := rfl
@[simp] theorem isForced_advance {x0} : isForced x0 (advance n s) = isForced x0 s := rfl
@[simp] theorem derivedKey_advance {x1 x2} : derivedKey (advance n s) x1 x2 = derivedKey s x1 x2 := rfl
@[simp] theorem installerKey_advance : installerKey (advance n s) = installerKey s := rfl
@[simp] theorem makerKey_advance : makerKey (advance n s) = makerKey s := rfl
@[simp] theorem imageKey_advance : imageKey (advance n s) = imageKey s := rfl
@[simp] theorem regsLE_advance {x0 x1} : regsLE x0 x1 (advance n s) = regsLE x0 x1 s := rfl
@[simp] theorem wantedResponse_advance {x1} : wantedResponse (advance n s) x1 = wantedResponse s x1 := rfl
@[simp] theorem hmacGood_advance {x1} : hmacGood (advance n s) x1 = hmacGood s x1 := rfl
@[simp] theorem checkImage_advance {x1 x2} : checkImage (advance n s) x1 x2 = checkImage s x1 x2 := rfl
@[simp] theorem imgState_advance : imgState (advance n s) = imgState s := rfl
@[simp] theorem imgSource_advance : imgSource (advance n s) = imgSource s := rfl
@[simp] theorem hostImageAddr_advance : hostImageAddr (advance n s) = hostImageAddr s := rfl
@[simp] theorem rowDelta_advance {x1} : rowDelta (advance n s) x1 = rowDelta s x1 := rfl
@[simp] theorem dropsumOk_advance {x1} : dropsumOk (advance n s) x1 = dropsumOk s x1 := rfl
@[simp] theorem movedRows_advance : movedRows (advance n s) = movedRows s := rfl
@[simp] theorem cellsOk_advance : cellsOk (advance n s) = cellsOk s := rfl
@[simp] theorem creditsOk_advance {x1} : creditsOk (advance n s) x1 = creditsOk s x1 := rfl
@[simp] theorem conditionBroken_advance : conditionBroken (advance n s) = conditionBroken s := rfl
@[simp] theorem topCounters_advance : topCounters (advance n s) = topCounters s := rfl
@[simp] theorem nextTick_advance : nextTick (advance n s) = nextTick s := rfl
@[simp] theorem reg0_advance {x1} : State.reg0 (advance n s) x1 = State.reg0 s x1 := rfl
@[simp] theorem raised_advance {x1 x2} : raised (advance n s) x1 x2 = raised s x1 x2 := rfl
@[simp] theorem halfBits_advance {x1} : halfBits (advance n s) x1 = halfBits s x1 := rfl
@[simp] theorem causeOf_advance {x1} : causeOf (advance n s) x1 = causeOf s x1 := rfl
@[simp] theorem causeWord_advance : causeWord (advance n s) = causeWord s := rfl
@[simp] theorem causeVec_advance {x1} : causeVec (advance n s) x1 = causeVec s x1 := rfl
@[simp] theorem poolOf_advance : poolOf (advance n s) = poolOf s := rfl
@[simp] theorem poolRoom_advance {x1 x2} : poolRoom (advance n s) x1 x2 = poolRoom s x1 x2 := rfl
@[simp] theorem halfPort_advance {x1} : halfPort (advance n s) x1 = halfPort s x1 := rfl
@[simp] theorem speedOf_advance {x1} : speedOf (advance n s) x1 = speedOf s x1 := rfl
@[simp] theorem nominalClocks_advance {x1} : nominalClocks (advance n s) x1 = nominalClocks s x1 := rfl
@[simp] theorem portEvents_advance : portEvents (advance n s) = portEvents s := rfl
@[simp] theorem sourceWaits_advance {x1 x2} : sourceWaits (advance n s) x1 x2 = sourceWaits s x1 x2 := rfl
@[simp] theorem rowState_advance {x1 x2} : rowState (advance n s) x1 x2 = rowState s x1 x2 := rfl
@[simp] theorem filStatus_advance : filStatus (advance n s) = filStatus s := rfl
@[simp] theorem stored_advance {x0} : stored x0 (advance n s) = stored x0 s := rfl
@[simp] theorem withField_advance {x0 x1} : withField x0 x1 (advance n s) = withField x0 x1 s := rfl
@[simp] theorem Write.live_advance {x0} : Write.live x0 (advance n s) = Write.live x0 s := rfl
@[simp] theorem closed_advance {x1} : closed (advance n s) x1 = closed s x1 := rfl
@[simp] theorem rwBits_advance {x0} : rwBits x0 (advance n s) = rwBits x0 s := rfl
@[simp] theorem currentHead_advance : currentHead (advance n s) = currentHead s := rfl
@[simp] theorem secondBytes_advance {x0} : secondBytes x0 (advance n s) = secondBytes x0 s := rfl
@[simp] theorem reg_advance {x1} : State.reg (advance n s) x1 = State.reg s x1 := rfl
@[simp] theorem getF_advance {x1} : State.getF (advance n s) x1 = State.getF s x1 := rfl
@[simp] theorem on_advance {x1} : State.on (advance n s) x1 = State.on s x1 := rfl
@[simp] theorem awaitsSoon_advance {x0} : awaitsSoon x0 (advance n s) = awaitsSoon x0 s := rfl
@[simp] theorem alive_advance : State.alive (advance n s) = State.alive s := rfl
@[simp] theorem running_advance : State.running (advance n s) = State.running s := rfl
@[simp] theorem reaches_advance : State.reaches (advance n s) = State.reaches s := rfl
@[simp] theorem heldThatFit_advance {x0} : heldThatFit x0 (advance n s) = heldThatFit x0 s := rfl
@[simp] theorem meeting_advance : State.meeting (advance n s) = State.meeting s := rfl
@[simp] theorem inTime_advance {x0} : inTime x0 (advance n s) = inTime x0 s := rfl
@[simp] theorem takenCells_advance : takenCells (advance n s) = takenCells s := rfl
@[simp] theorem freshCells_advance {x0} : freshCells x0 (advance n s) = freshCells x0 s := rfl
@[simp] theorem chained_advance {x0} : chained x0 (advance n s) = chained x0 s := rfl
@[simp] theorem badCell_advance {x1 x2} : badCell (advance n s) x1 x2 = badCell s x1 x2 := rfl
@[simp] theorem cellOwner_advance {x1} : cellOwner (advance n s) x1 = cellOwner s x1 := rfl
@[simp] theorem fcMode_advance {x1} : fcMode (advance n s) x1 = fcMode s x1 := rfl
@[simp] theorem holdEnd_advance : holdEnd (advance n s) = holdEnd s := rfl
@[simp] theorem countDue_advance {x1} : countDue (advance n s) x1 = countDue s x1 := rfl
@[simp] theorem viewOf_advance : viewOf (advance n s) = viewOf s := rfl
@[simp] theorem trunkArrival_advance {x1} : trunkArrival (advance n s) x1 = trunkArrival s x1 := rfl
@[simp] theorem isCommitArrival_advance {x1} : isCommitArrival (advance n s) x1 = isCommitArrival s x1 := rfl
@[simp] theorem commitDir_advance {x1} : commitDir (advance n s) x1 = commitDir s x1 := rfl
@[simp] theorem commitStart_advance {x1 x2} : commitStart (advance n s) x1 x2 = commitStart s x1 x2 := rfl
@[simp] theorem commitDue_advance {x1} : commitDue (advance n s) x1 = commitDue s x1 := rfl
@[simp] theorem commitFrame_advance {x1 x2} : commitFrame (advance n s) x1 x2 = commitFrame s x1 x2 := rfl
@[simp] theorem lastBeacon_advance {x1} : lastBeacon (advance n s) x1 = lastBeacon s x1 := rfl
@[simp] theorem isBeaconArrival_advance {x1 x2} : isBeaconArrival (advance n s) x1 x2 = isBeaconArrival s x1 x2 := rfl
@[simp] theorem waitsFromS_advance {x1} : waitsFromS (advance n s) x1 = waitsFromS s x1 := rfl
@[simp] theorem isHelloArrival_advance {x1 x2} : isHelloArrival (advance n s) x1 x2 = isHelloArrival s x1 x2 := rfl
@[simp] theorem isSyncArrival_advance {x1} : isSyncArrival (advance n s) x1 = isSyncArrival s x1 := rfl
@[simp] theorem tatOut_advance {x0 x1} : tatOut x0 x1 (advance n s) = tatOut x0 x1 s := rfl
@[simp] theorem tatIn_advance {x0 x1 x2} : tatIn x0 x1 x2 (advance n s) = tatIn x0 x1 x2 s := rfl
@[simp] theorem groupPorts_advance {x1} : groupPorts (advance n s) x1 = groupPorts s x1 := rfl
@[simp] theorem stillTakes_advance {x1 x2} : stillTakes (advance n s) x1 x2 = stillTakes s x1 x2 := rfl
@[simp] theorem readsAsItComes_advance : readsAsItComes (advance n s) = readsAsItComes s := rfl
@[simp] theorem lockedOut_advance {x1} : lockedOut (advance n s) x1 = lockedOut s x1 := rfl
@[simp] theorem lineOpen_advance {x1} : lineOpen (advance n s) x1 = lineOpen s x1 := rfl
@[simp] theorem storedPart_advance {x1 x2 x3} : storedPart (advance n s) x1 x2 x3 = storedPart s x1 x2 x3 := rfl
@[simp] theorem isDoorbell_advance {x1 x2} : isDoorbell (advance n s) x1 x2 = isDoorbell s x1 x2 := rfl
@[simp] theorem ttBars_advance {x1} : ttBars (advance n s) x1 = ttBars s x1 := rfl
@[simp] theorem trigNext_advance {x1 x2} : trigNext (advance n s) x1 x2 = trigNext s x1 x2 := rfl
@[simp] theorem caseOf_advance {x1} : caseOf (advance n s) x1 = caseOf s x1 := rfl
@[simp] theorem ballCase_advance {x1} : State.ballCase (advance n s) x1 = State.ballCase s x1 := rfl
@[simp] theorem isProgress_advance {x1 x2} : isProgress (advance n s) x1 x2 = isProgress s x1 x2 := rfl
@[simp] theorem isAnswer_advance {x1} : isAnswer (advance n s) x1 = isAnswer s x1 := rfl
@[simp] theorem skewed_advance {x1 x2} : skewed (advance n s) x1 x2 = skewed s x1 x2 := rfl
@[simp] theorem heldShown_advance {x1} : heldShown (advance n s) x1 = heldShown s x1 := rfl
@[simp] theorem shownFree_advance : shownFree (advance n s) = shownFree s := rfl
@[simp] theorem shownQueued_advance : shownQueued (advance n s) = shownQueued s := rfl
@[simp] theorem shownTransit_advance : shownTransit (advance n s) = shownTransit s := rfl
@[simp] theorem shownReserved_advance : shownReserved (advance n s) = shownReserved s := rfl
@[simp] theorem lanes_advance : lanes (advance n s) = lanes s := rfl

end Sys2Proof.Machine
end

