-- ==== Sys2Proof/Laws/Exec.lean ====
section
/-! SUPPORT. What each command runs: one lemma per constructor, so that no proof takes the dispatch apart. -/
namespace Sys2Proof.Machine
variable {s : State}

@[simp] theorem exec_managementTick {temp supply upsets} :
    exec (.managementTick temp supply upsets) s = done (inTurn (whenAlive (managementTick temp supply upsets)) s) := rfl
@[simp] theorem exec_auditResult : exec .auditResult s = done (inTurn (whenAlive (auditResult)) s) := rfl
@[simp] theorem exec_clockFault {clk dt} :
    exec (.clockFault clk dt) s = done (whenAlive (clockFault clk) (arrive dt s)) := rfl
@[simp] theorem exec_roleLapse : exec .roleLapse s = done (inTurn (whenAlive (roleLapse)) s) := rfl
@[simp] theorem exec_scheduleSilence : exec .scheduleSilence s = done (inTurn (whenRunning (scheduleSilence)) s) := rfl
@[simp] theorem exec_silenceRelease {v dt} :
    exec (.silenceRelease v dt) s = done (whenHost (busWrite Reg.CAR_RELEASE v) (arrive dt s)) := rfl
@[simp] theorem exec_enableRequest {fn v dt} :
    exec (.enableRequest fn v dt) s = done (whenHost (busWrite (fnEnable fn).reg v) (arrive dt s)) := rfl
@[simp] theorem exec_sequenceComplete {fn dt} :
    exec (.sequenceComplete fn dt) s = done (whenAlive (sequenceComplete fn) (arrive dt s)) := rfl
@[simp] theorem exec_registerWrite {off v be dt} :
    exec (.registerWrite off v be dt) s = done (whenHost (busWriteBe off v be) (arrive dt s)) := rfl
@[simp] theorem exec_rcRead {off dt} : exec (.rcRead off dt) s = done (whenHost (busRead off) (arrive dt s)) := rfl
@[simp] theorem exec_snapshotRead {off dt} :
    exec (.snapshotRead off dt) s = done (whenHost (busRead off) (arrive dt s)) := rfl
@[simp] theorem exec_challenge {v dt} :
    exec (.challenge v dt) s = done (whenHost (busWrite Reg.ROL_CHALLENGE v) (arrive dt s)) := rfl
@[simp] theorem exec_nonceExpiry : exec .nonceExpiry s = done (inTurn (whenAlive (nonceExpiry)) s) := rfl
@[simp] theorem exec_unlock {v dt} : exec (.unlock v dt) s = done (whenHost (busWrite Reg.ROL_UNLOCK v) (arrive dt s)) := rfl
@[simp] theorem exec_unlockCompareDone : exec .unlockCompareDone s = done (inTurn (whenAlive (unlockCompareDone)) s) := rfl
@[simp] theorem exec_lockoutExpiry : exec .lockoutExpiry s = done (inTurn (whenAlive (lockoutExpiry)) s) := rfl
@[simp] theorem exec_roleDrop {v dt} :
    exec (.roleDrop v dt) s = done (whenHost (busWrite Reg.ROL_DROP v) (arrive dt s)) := rfl
@[simp] theorem exec_keyRotate {v dt} :
    exec (.keyRotate v dt) s = done (whenHost (busWrite Reg.ROL_ROTATE v) (arrive dt s)) := rfl
@[simp] theorem exec_rotationFlashDone {ok0 ok1 dt} :
    exec (.rotationFlashDone ok0 ok1 dt) s = done (whenAlive (rotationDone ok0 ok1) (arrive dt s)) := rfl
@[simp] theorem exec_imageStart {v dt} :
    exec (.imageStart v dt) s = done (whenHost (busWrite Reg.ROL_IMG_CTRL v) (arrive dt s)) := rfl
@[simp] theorem exec_imageAbort {v dt} :
    exec (.imageAbort v dt) s = done (whenHost (busWrite Reg.ROL_IMG_CTRL v) (arrive dt s)) := rfl
@[simp] theorem exec_imageCheckDone {slot0 slot1 dt} :
    exec (.imageCheckDone slot0 slot1 dt) s = done (whenAlive (imageCheckDone slot0 slot1) (arrive dt s)) := rfl
@[simp] theorem exec_imageRecord {bytes dt} :
    exec (.imageRecord bytes dt) s = done (whenAlive (Machine.imageRecord bytes) (arrive dt s)) := rfl
@[simp] theorem exec_pollMatch : exec .pollMatch s = done (inTurn (whenAlive (pollMatch)) s) := rfl
@[simp] theorem exec_pollTimeout : exec .pollTimeout s = done (inTurn (whenAlive (pollTimeout)) s) := rfl
@[simp] theorem exec_delayExpiry : exec .delayExpiry s = done (inTurn (whenAlive (delayExpiry)) s) := rfl
@[simp] theorem exec_imageReadError {addr cpl dt} :
    exec (.imageReadError addr cpl dt) s = done (whenAlive (imageReadError addr cpl) (arrive dt s)) := rfl
@[simp] theorem exec_trunkLinkUp {line speed dt} :
    exec (.trunkLinkUp line speed dt) s = done (whenRunning (Machine.trunkLinkUp line speed) (arrive dt s)) := rfl
@[simp] theorem exec_trunkLinkDown {line dt} :
    exec (.trunkLinkDown line dt) s = done (whenRunning (Machine.trunkLinkDown line 1) (arrive dt s)) := rfl
@[simp] theorem exec_beaconPeriod : exec .beaconPeriod s = done (inTurn (whenRunning (beaconPeriod)) s) := rfl
@[simp] theorem exec_answerBeacon {line} :
    exec (.answerBeacon line) s = done (inTurn (whenRunning (answerBeacon line)) s) := rfl
@[simp] theorem exec_beaconReceive {line bytes back dt} :
    exec (.beaconReceive line bytes back dt) s = done (whenRunning (receiveSpire line bytes back) (arrive dt s)) := rfl
@[simp] theorem exec_beaconDeadline {line} :
    exec (.beaconDeadline line) s = done (inTurn (whenRunning (beaconDeadline line)) s) := rfl
@[simp] theorem exec_countSend {dir} : exec (.countSend dir) s = done (inTurn (whenRunning (sendCount dir)) s) := rfl
@[simp] theorem exec_countReceive {line bytes dt} :
    exec (.countReceive line bytes dt) s = done (whenRunning (receiveSpire line bytes 0) (arrive dt s)) := rfl
@[simp] theorem exec_settleExpiry : exec .settleExpiry s = done (inTurn (whenRunning (settleExpiry)) s) := rfl
@[simp] theorem exec_commitSend : exec .commitSend s = done (inTurn (whenRunning (commitOut true)) s) := rfl
@[simp] theorem exec_commitReceive {line bytes back dt} :
    exec (.commitReceive line bytes back dt) s = done (whenRunning (receiveSpire line bytes back) (arrive dt s)) := rfl
@[simp] theorem exec_commitForward : exec .commitForward s = done (inTurn (whenRunning (commitOut false)) s) := rfl
@[simp] theorem exec_waitTimeout : exec .waitTimeout s = done (inTurn (whenRunning (waitTimeout)) s) := rfl
@[simp] theorem exec_switchInstant : exec .switchInstant s = done (inTurn (whenRunning (switchInstant)) s) := rfl
@[simp] theorem exec_backoffExpiry : exec .backoffExpiry s = done (inTurn (whenRunning (backoffExpiry)) s) := rfl
@[simp] theorem exec_leadInputChange {level dt} :
    exec (.leadInputChange level dt) s = done (leadInput level (arrive dt s)) := rfl
@[simp] theorem exec_leadFilterAccept : exec .leadFilterAccept s = done (inTurn (whenAlive (leadAccept)) s) := rfl
@[simp] theorem exec_compatHelloSend : exec .compatHelloSend s = done (inTurn (whenRunning (helloSend)) s) := rfl
@[simp] theorem exec_compatHelloReceive {line bytes dt} :
    exec (.compatHelloReceive line bytes dt) s = done (whenRunning (receiveHello line bytes) (arrive dt s)) := rfl
@[simp] theorem exec_compatHelloTimeout {line} :
    exec (.compatHelloTimeout line) s = done (inTurn (whenRunning (helloTimeout line)) s) := rfl
@[simp] theorem exec_topologyReceive {line bytes back dt} :
    exec (.topologyReceive line bytes back dt) s = done (whenRunning (takeTopology line bytes back) (arrive dt s)) := rfl
@[simp] theorem exec_compatCommit {v dt} :
    exec (.compatCommit v dt) s = done (whenHost (busWrite Reg.SPR_COMPAT_COMMIT v) (arrive dt s)) := rfl
@[simp] theorem exec_compatHoldExpiry : exec .compatHoldExpiry s = done (inTurn (whenRunning (holdExpiry)) s) := rfl
@[simp] theorem exec_rosterSend {dir} : exec (.rosterSend dir) s = done (inTurn (whenRunning (sendRoster dir)) s) := rfl
@[simp] theorem exec_rosterReceive {line bytes dt} :
    exec (.rosterReceive line bytes dt) s = done (whenRunning (receiveRoster line bytes) (arrive dt s)) := rfl
@[simp] theorem exec_graceExpiry : exec .graceExpiry s = done (inTurn (whenRunning (graceExpiry)) s) := rfl
@[simp] theorem exec_graceRewrite {v dt} :
    exec (.graceRewrite v dt) s = done (whenHost (busWrite Reg.EPO_GRACE v) (arrive dt s)) := rfl
@[simp] theorem exec_admissionPoint {port bytes len back dt} :
    exec (.admissionPoint port bytes len back dt) s = done (whenRunning (Machine.admissionPoint port bytes len back) (arrive dt s)) := rfl
@[simp] theorem exec_cellWrite {port bytes dt} :
    exec (.cellWrite port bytes dt) s = done (whenRunning (Machine.cellWrite port bytes) (arrive dt s)) := rfl
@[simp] theorem exec_frameEnd {port bytes err frags dt} :
    exec (.frameEnd port bytes err frags dt) s = done (whenRunning (Machine.frameEnd port bytes err frags) (arrive dt s)) := rfl
@[simp] theorem exec_learn : exec .learn s = done (inTurn (whenRunning (learnStep)) s) := rfl
@[simp] theorem exec_ageingSweep : exec .ageingSweep s = done (inTurn (whenRunning (ageingSweep)) s) := rfl
@[simp] theorem exec_cellTime : exec .cellTime s = done (inTurn (whenRunning (cellTime)) s) := rfl
@[simp] theorem exec_txFrameStart {port dt} :
    exec (.txFrameStart port dt) s = done (whenRunning (Machine.txFrameStart port) (arrive dt s)) := rfl
@[simp] theorem exec_preemption {line sent dt} :
    exec (.preemption line sent dt) s = done (whenRunning (preempt line sent) (arrive dt s)) := rfl
@[simp] theorem exec_txFrameEnd {port dt} :
    exec (.txFrameEnd port dt) s = done (whenRunning (Machine.txFrameEnd port) (arrive dt s)) := rfl
@[simp] theorem exec_revertStart {dir} :
    exec (.revertStart dir) s = done (inTurn (whenRunning (Machine.revertStart dir)) s) := rfl
@[simp] theorem exec_revertDrainMax {dir cls} :
    exec (.revertDrainMax dir cls) s = done (inTurn (whenRunning (revertForce dir cls)) s) := rfl
@[simp] theorem exec_revertEnable {v dt} :
    exec (.revertEnable v dt) s = done (whenHost (busWrite Reg.FAB_AGG_CTRL v) (arrive dt s)) := rfl
@[simp] theorem exec_fdbNop {v dt} : exec (.fdbNop v dt) s = done (whenHost (busWrite Reg.FDB_CMD v) (arrive dt s)) := rfl
@[simp] theorem exec_fdbLookup {v dt} :
    exec (.fdbLookup v dt) s = done (whenHost (busWrite Reg.FDB_CMD v) (arrive dt s)) := rfl
@[simp] theorem exec_fdbInsert {v dt} :
    exec (.fdbInsert v dt) s = done (whenHost (busWrite Reg.FDB_CMD v) (arrive dt s)) := rfl
@[simp] theorem exec_fdbDelete {v dt} :
    exec (.fdbDelete v dt) s = done (whenHost (busWrite Reg.FDB_CMD v) (arrive dt s)) := rfl
@[simp] theorem exec_fdbFlush {v dt} :
    exec (.fdbFlush v dt) s = done (whenHost (busWrite Reg.FDB_CMD v) (arrive dt s)) := rfl
@[simp] theorem exec_fdbRead {v dt} : exec (.fdbRead v dt) s = done (whenHost (busWrite Reg.FDB_CMD v) (arrive dt s)) := rfl
@[simp] theorem exec_fdbCommandDone : exec .fdbCommandDone s = done (inTurn (whenRunning (fdbDone)) s) := rfl
@[simp] theorem exec_edgeLinkChange {port up speed full dt} :
    exec (.edgeLinkChange port up speed full dt) s = done (whenRunning (edgeLink port up speed full) (arrive dt s)) := rfl
@[simp] theorem exec_pauseReceive {port bytes dt} :
    exec (.pauseReceive port bytes dt) s = done (whenRunning (Machine.pauseReceive port bytes) (arrive dt s)) := rfl
@[simp] theorem exec_pauseExpiry {port cls} :
    exec (.pauseExpiry port cls) s = done (inTurn (whenRunning (Machine.pauseExpiry port cls)) s) := rfl
@[simp] theorem exec_flowControlFrame {port} :
    exec (.flowControlFrame port) s = done (inTurn (whenRunning (Machine.flowControlFrame port)) s) := rfl
@[simp] theorem exec_fcRefresh {port} :
    exec (.fcRefresh port) s = done (inTurn (whenRunning (Machine.fcRefresh port)) s) := rfl
@[simp] theorem exec_collision {port dt} :
    exec (.collision port dt) s = done (whenRunning (Machine.collision port) (arrive dt s)) := rfl
@[simp] theorem exec_hdBackoffExpiry {port} :
    exec (.hdBackoffExpiry port) s = done (inTurn (whenRunning (backoffDone port)) s) := rfl
@[simp] theorem exec_verifySend {line} :
    exec (.verifySend line) s = done (inTurn (whenRunning (Machine.verifySend line)) s) := rfl
@[simp] theorem exec_verifyResponse {line dt} :
    exec (.verifyResponse line dt) s = done (whenRunning (Machine.verifyResponse line) (arrive dt s)) := rfl
@[simp] theorem exec_preemptConfigWrite {line v dt} :
    exec (.preemptConfigWrite line v dt) s = done (whenHost (busWrite (Reg.TPT_PREEMPT line) v) (arrive dt s)) := rfl
@[simp] theorem exec_drainExpiry {port} :
    exec (.drainExpiry port) s = done (inTurn (whenRunning (Machine.drainExpiry port)) s) := rfl
@[simp] theorem exec_drainRewrite {port v dt} :
    exec (.drainRewrite port v dt) s = done (whenHost (busWrite (Reg.EPT_CTRL port) v) (arrive dt s)) := rfl
@[simp] theorem exec_mstClear {v dt} :
    exec (.mstClear v dt) s = done (whenHost (busWrite Reg.MST_CLEAR v) (arrive dt s)) := rfl
@[simp] theorem exec_syncSend : exec .syncSend s = done (inTurn (whenRunning (syncSend)) s) := rfl
@[simp] theorem exec_syncReceive {line bytes back dt} :
    exec (.syncReceive line bytes back dt) s = done (whenRunning (receiveSync line bytes back) (arrive dt s)) := rfl
@[simp] theorem exec_slewEnd : exec .slewEnd s = done (inTurn (whenAlive (slewEnd)) s) := rfl
@[simp] theorem exec_syncTimeout : exec .syncTimeout s = done (inTurn (whenRunning (syncTimeout)) s) := rfl
@[simp] theorem exec_timeAdjust {v dt} :
    exec (.timeAdjust v dt) s = done (whenHost (busWrite Reg.TIM_ADJ_CTRL v) (arrive dt s)) := rfl
@[simp] theorem exec_rateWrite {v dt} :
    exec (.rateWrite v dt) s = done (whenHost (busWrite Reg.TIM_RATE v) (arrive dt s)) := rfl
@[simp] theorem exec_permitGrant {v dt} :
    exec (.permitGrant v dt) s = done (whenHost (busWrite Reg.TIM_PERMIT v) (arrive dt s)) := rfl
@[simp] theorem exec_permitLapse : exec .permitLapse s = done (inTurn (whenAlive (permitLapse)) s) := rfl
@[simp] theorem exec_addendWrite {v dt} :
    exec (.addendWrite v dt) s = done (whenHost (busWrite Reg.TIM_ADDEND_HI v) (arrive dt s)) := rfl
@[simp] theorem exec_mergeTimeout : exec .mergeTimeout s = done (inTurn (whenRunning (mergeTimeout)) s) := rfl
@[simp] theorem exec_mergeWaitExpiry : exec .mergeWaitExpiry s = done (inTurn (whenRunning (mergeWaitExpiry)) s) := rfl
@[simp] theorem exec_correlationLatch {v dt} :
    exec (.correlationLatch v dt) s = done (whenHost (busWrite Reg.TIM_CORR_CTRL v) (arrive dt s)) := rfl
@[simp] theorem exec_syncPinCapture {pin level dt} :
    exec (.syncPinCapture pin level dt) s = done (syncPinIn pin level (arrive dt s)) := rfl
@[simp] theorem exec_syncCapturePop {pin dt} :
    exec (.syncCapturePop pin dt) s = done (whenHost (busRead (Reg.TIM_SYNC_CAP_NS pin)) (arrive dt s)) := rfl
@[simp] theorem exec_ppsPulse {pin} : exec (.ppsPulse pin) s = done (inTurn (whenRunning (Machine.ppsPulse pin)) s) := rfl
@[simp] theorem exec_ppsEnd {pin} : exec (.ppsEnd pin) s = done (inTurn (whenRunning (Machine.ppsEnd pin)) s) := rfl
@[simp] theorem exec_phaseReference {dom kind dt} :
    exec (.phaseReference dom kind dt) s = done (whenRunning (Machine.phaseReference dom kind) (arrive dt s)) := rfl
@[simp] theorem exec_referenceMiss {dom} :
    exec (.referenceMiss dom) s = done (inTurn (whenRunning (Machine.referenceMiss dom)) s) := rfl
@[simp] theorem exec_tachStill {dom} : exec (.tachStill dom) s = done (inTurn (whenRunning (Machine.tachStill dom)) s) := rfl
@[simp] theorem exec_pd0Limit : exec .pd0Limit s = done (inTurn (whenRunning (pd0Limit)) s) := rfl
@[simp] theorem exec_phaseOffsetWrite {dom v dt} :
    exec (.phaseOffsetWrite dom v dt) s = done (whenHost (busWrite (Reg.PHS_OFFSET dom) v) (arrive dt s)) := rfl
@[simp] theorem exec_carillonFire : exec .carillonFire s = done (inTurn (whenRunning (carillonFire)) s) := rfl
@[simp] theorem exec_eventEntryWrite {ev v dt} :
    exec (.eventEntryWrite ev v dt) s = done (whenHost (busWrite (Reg.CAR_EVT1 ev) v) (arrive dt s)) := rfl
@[simp] theorem exec_canFrameReceive {ch f len dt} :
    exec (.canFrameReceive ch f len dt) s = done (whenRunning (canReceive ch f len) (arrive dt s)) := rfl
@[simp] theorem exec_canTxRecord {ring bytes dt} :
    exec (.canTxRecord ring bytes dt) s = done (whenRunning (Machine.canTxRecord ring bytes) (arrive dt s)) := rfl
@[simp] theorem exec_canArbitration {ch tdcv dt} :
    exec (.canArbitration ch tdcv dt) s = done (whenRunning (canArbitrate ch tdcv.toNat) (arrive dt s)) := rfl
@[simp] theorem exec_canTxAcknowledged {ch dt} :
    exec (.canTxAcknowledged ch dt) s = done (whenRunning (canAcked ch) (arrive dt s)) := rfl
@[simp] theorem exec_canAckError {ch dominant dt} :
    exec (.canAckError ch dominant dt) s = done (whenRunning (Machine.canAckError ch dominant) (arrive dt s)) := rfl
@[simp] theorem exec_lonelyRetry {ch} :
    exec (.lonelyRetry ch) s = done (inTurn (whenRunning (Machine.lonelyRetry ch)) s) := rfl
@[simp] theorem exec_canBusError {ch kind transmitting flag dt} :
    exec (.canBusError ch kind transmitting flag dt) s = done (whenRunning (Machine.canBusError ch kind transmitting flag) (arrive dt s)) := rfl
@[simp] theorem exec_canRecover {ch v dt} :
    exec (.canRecover ch v dt) s = done (whenHost (busWrite (Reg.CAN_CTRL ch) v) (arrive dt s)) := rfl
@[simp] theorem exec_canRecoveryDone {ch} :
    exec (.canRecoveryDone ch) s = done (inTurn (whenRunning (canRecovered ch)) s) := rfl
@[simp] theorem exec_ttTxTrigger {trig} : exec (.ttTxTrigger trig) s = done (inTurn (whenRunning (ttTx trig)) s) := rfl
@[simp] theorem exec_ttWindowEnd : exec .ttWindowEnd s = done (inTurn (whenRunning (ttWindowEnd)) s) := rfl
@[simp] theorem exec_ttRxTrigger {trig} : exec (.ttRxTrigger trig) s = done (inTurn (whenRunning (ttRx trig)) s) := rfl
@[simp] theorem exec_ttArbTrigger {trig} : exec (.ttArbTrigger trig) s = done (inTurn (whenRunning (ttArb trig)) s) := rfl
@[simp] theorem exec_ttRefTrigger {trig} : exec (.ttRefTrigger trig) s = done (inTurn (whenRunning (ttRef trig)) s) := rfl
@[simp] theorem exec_ttWatchTrigger {trig} :
    exec (.ttWatchTrigger trig) s = done (inTurn (whenRunning (ttWatch trig)) s) := rfl
@[simp] theorem exec_mailboxLoad {ring bytes dt} :
    exec (.mailboxLoad ring bytes dt) s = done (whenRunning (Machine.mailboxLoad ring bytes) (arrive dt s)) := rfl
@[simp] theorem exec_filEthFrame : exec .filEthFrame s = done (inTurn (whenRunning (filEthFrame)) s) := rfl
@[simp] theorem exec_statusSample :
    exec .statusSample s = done (inTurn (whenRunning (Machine.statusSample statusWords)) s) := rfl
@[simp] theorem exec_hostWordWrite {k v dt} :
    exec (.hostWordWrite k v dt) s = done (whenHost (busWrite (Reg.FIL_HOST_WORD k) v) (arrive dt s)) := rfl
@[simp] theorem exec_sourceJob : exec .sourceJob s = done (inTurn (whenRunning (sourceJob)) s) := rfl
@[simp] theorem exec_changeEmissionDue {tpl} :
    exec (.changeEmissionDue tpl) s = done (inTurn (whenRunning (changeDue tpl)) s) := rfl
@[simp] theorem exec_emission : exec .emission s = done (inTurn (whenRunning (emission)) s) := rfl
@[simp] theorem exec_filHold {v dt} : exec (.filHold v dt) s = done (whenHost (busWrite Reg.FIL_CTRL v) (arrive dt s)) := rfl
@[simp] theorem exec_filRelease {v dt} :
    exec (.filRelease v dt) s = done (whenHost (busWrite Reg.FIL_CTRL v) (arrive dt s)) := rfl
@[simp] theorem exec_senseSample {inp bits dt} :
    exec (.senseSample inp bits dt) s = done (whenRunning (Machine.senseSample inp bits) (arrive dt s)) := rfl
@[simp] theorem exec_inputStuck {inp level dt} :
    exec (.inputStuck inp level dt) s = done (whenRunning (Machine.inputStuck inp level) (arrive dt s)) := rfl
@[simp] theorem exec_hostConvert {v dt} :
    exec (.hostConvert v dt) s = done (whenHost (busWrite Reg.SNS_CONVERT v) (arrive dt s)) := rfl
@[simp] theorem exec_driveLevelWrite {v dt} :
    exec (.driveLevelWrite v dt) s = done (whenHost (busWrite Reg.DRV_LEVEL v) (arrive dt s)) := rfl
@[simp] theorem exec_drivePhasePass {out} :
    exec (.drivePhasePass out) s = done (inTurn (whenRunning (drivePass out)) s) := rfl
@[simp] theorem exec_readbackDelayEnd {out} :
    exec (.readbackDelayEnd out) s = done (inTurn (whenRunning (readbackStart out)) s) := rfl
@[simp] theorem exec_readbackFault {out} :
    exec (.readbackFault out) s = done (inTurn (whenRunning (Machine.readbackFault out)) s) := rfl
@[simp] theorem exec_proveWindowOpen {out} :
    exec (.proveWindowOpen out) s = done (inTurn (whenRunning (proveOpen out)) s) := rfl
@[simp] theorem exec_doorbell {ring v dt} :
    exec (.doorbell ring v dt) s = done (whenHost (doorbellArrives ring v.toNat) (arrive dt s)) := rfl
@[simp] theorem exec_txDescriptorFetch {ring descs dt} :
    exec (.txDescriptorFetch ring descs dt) s = done (whenRunning (txFetched ring descs) (arrive dt s)) := rfl
@[simp] theorem exec_txDataRead {ring bytes dt} :
    exec (.txDataRead ring bytes dt) s = done (whenRunning (Machine.txDataRead ring bytes) (arrive dt s)) := rfl
@[simp] theorem exec_ringWrite : exec .ringWrite s = done (inTurn (whenRunning (ringWrite)) s) := rfl
@[simp] theorem exec_stallWaitExpiry {ring} :
    exec (.stallWaitExpiry ring) s = done (inTurn (whenRunning (stallExpiry ring)) s) := rfl
@[simp] theorem exec_captureWrite : exec .captureWrite s = done (inTurn (whenRunning (captureWrite)) s) := rfl
@[simp] theorem exec_moderationTimer {ring} :
    exec (.moderationTimer ring) s = done (inTurn (whenRunning (Machine.moderationTimer ring)) s) := rfl
@[simp] theorem exec_msixUnmask {vec dt} :
    exec (.msixUnmask vec dt) s = done (whenHost (unmaskVectors (vec.map (·.val))) (arrive dt s)) := rfl
@[simp] theorem exec_miscAck {v dt} :
    exec (.miscAck v dt) s = done (whenHost (busWrite Reg.HST_MISC_ACK v) (arrive dt s)) := rfl
@[simp] theorem exec_watchdogKick {v dt} : exec (.watchdogKick v dt) s = done (whenHost (wdogKick) (arrive dt s)) := rfl
@[simp] theorem exec_watchdogExpiry : exec .watchdogExpiry s = done (inTurn (whenAlive (wdogExpiry)) s) := rfl
@[simp] theorem exec_watchdogConfig {v dt} :
    exec (.watchdogConfig v dt) s = done (whenHost (busWrite Reg.HST_WDOG_CTRL v) (arrive dt s)) := rfl
@[simp] theorem exec_hostDmaError {kind ring addr cpl got dt} :
    exec (.hostDmaError kind ring addr cpl got dt) s = done (whenAlive (memoryRequestError kind ring addr cpl got) (arrive dt s)) := rfl
@[simp] theorem exec_functionLevelReset {dt} :
    exec (.functionLevelReset dt) s = done (whenAlive (functionLevel) (arrive dt s)) := rfl
@[simp] theorem exec_pcieLinkDown {dt} : exec (.pcieLinkDown dt) s = done (whenAlive (linkLost) (arrive dt s)) := rfl
@[simp] theorem exec_d3hotEntry {dt} : exec (.d3hotEntry dt) s = done (whenAlive (enterD3) (arrive dt s)) := rfl
@[simp] theorem exec_busMasterClear {dt} : exec (.busMasterClear dt) s = done (whenAlive busMasterClear (arrive dt s)) := rfl
@[simp] theorem exec_pcieLinkUp {speed width payload readMax dt} :
    exec (.pcieLinkUp speed width payload readMax dt) s = done (whenAlive (linkTrained speed width (128 * 2 ^ payload.val) (128 * 2 ^ readMax.val)) (arrive dt s)) := rfl
@[simp] theorem exec_bar4Write {addr data dt} :
    exec (.bar4Write addr data dt) s = done (whenHost (Machine.bar4Write addr.toNat data) (arrive dt s)) := rfl
@[simp] theorem exec_bar4Read {addr enables dt} :
    exec (.bar4Read addr enables dt) s = done (whenHost (Machine.bar4Read addr.toNat enables) (arrive dt s)) := rfl
@[simp] theorem exec_localCycleEnd {data parityOk dt} :
    exec (.localCycleEnd data parityOk dt) s = done (inTurn (whenRunning (Machine.localCycleEnd data.toNat parityOk (s.cycle + dt))) s) := rfl
@[simp] theorem exec_noReady : exec .noReady s = done (inTurn (whenRunning (noReady)) s) := rfl
@[simp] theorem exec_readTimeout {tag} :
    exec (.readTimeout tag) s = done (inTurn (whenRunning (Machine.readTimeout tag)) s) := rfl
@[simp] theorem exec_prefetchExpiry {cs} :
    exec (.prefetchExpiry cs) s = done (inTurn (whenRunning (Machine.prefetchExpiry cs)) s) := rfl
@[simp] theorem exec_busRequest {dt} : exec (.busRequest dt) s = done (busRequest (arrive dt s)) := rfl
@[simp] theorem exec_tenureEnd {dt} : exec (.tenureEnd dt) s = done (tenureEnd (arrive dt s)) := rfl
@[simp] theorem exec_tenureExpiry : exec .tenureExpiry s = done (inTurn (whenRunning (tenureExpiry)) s) := rfl
@[simp] theorem exec_inboundWrite {addr upper data parityOk dt} :
    exec (.inboundWrite addr upper data parityOk dt) s = done (whenRunning (Machine.inboundWrite addr.toNat upper data.toNat parityOk.toNat) (arrive dt s)) := rfl
@[simp] theorem exec_inboundRead {addr dt} :
    exec (.inboundRead addr dt) s = done (whenRunning (Machine.inboundRead addr.toNat) (arrive dt s)) := rfl
@[simp] theorem exec_inboundFlush : exec .inboundFlush s = done (inTurn (whenRunning (inboundFlush)) s) := rfl
@[simp] theorem exec_lirqEdge {n rising dt} :
    exec (.lirqEdge n rising dt) s = done (whenRunning (Machine.lirqEdge n rising) (arrive dt s)) := rfl
@[simp] theorem exec_claspAcquire {v dt} :
    exec (.claspAcquire v dt) s = done (whenHost (busWrite Reg.LBB_CLASP_CTRL v) (arrive dt s)) := rfl
@[simp] theorem exec_claspRelease {v dt} :
    exec (.claspRelease v dt) s = done (whenHost (busWrite Reg.LBB_CLASP_CTRL v) (arrive dt s)) := rfl
@[simp] theorem exec_claspExpiry : exec .claspExpiry s = done (inTurn (whenRunning (claspExpiry)) s) := rfl
@[simp] theorem exec_errorLogPop {dt} :
    exec (.errorLogPop dt) s = done (whenHost (busRead Reg.LBB_ERR_INFO) (arrive dt s)) := rfl
@[simp] theorem exec_crcRestart {u v dt} :
    exec (.crcRestart u v dt) s = done (whenHost (busWrite (Reg.CRC_CTRL u) v) (arrive dt s)) := rfl
@[simp] theorem exec_crcSeed {u v dt} :
    exec (.crcSeed u v dt) s = done (whenHost (busWrite (Reg.CRC_SEED u) v) (arrive dt s)) := rfl
@[simp] theorem exec_crcData8 {u v dt} :
    exec (.crcData8 u v dt) s = done (whenHost (busWrite (Reg.CRC_DATA8 u) v) (arrive dt s)) := rfl
@[simp] theorem exec_crcData16 {u v dt} :
    exec (.crcData16 u v dt) s = done (whenHost (busWrite (Reg.CRC_DATA16 u) v) (arrive dt s)) := rfl
@[simp] theorem exec_crcData32 {u v dt} :
    exec (.crcData32 u v dt) s = done (whenHost (busWrite (Reg.CRC_DATA32 u) v) (arrive dt s)) := rfl
@[simp] theorem exec_ilgilBlockLock {g dt} :
    exec (.ilgilBlockLock g dt) s = done (whenAlive (blockLock g) (arrive dt s)) := rfl
@[simp] theorem exec_ilgilHelloSend {g} : exec (.ilgilHelloSend g) s = done (inTurn (whenAlive (helloUnitSend g)) s) := rfl
@[simp] theorem exec_ilgilHelloReceive {g bytes dt} :
    exec (.ilgilHelloReceive g bytes dt) s = done (whenAlive (helloReceive g bytes) (arrive dt s)) := rfl
@[simp] theorem exec_cellUnitReceive {g bytes dt} :
    exec (.cellUnitReceive g bytes dt) s = done (whenAlive (cellReceive g bytes) (arrive dt s)) := rfl
@[simp] theorem exec_creditUnitReceive {g bytes dt} :
    exec (.creditUnitReceive g bytes dt) s = done (whenAlive (creditReceive g bytes) (arrive dt s)) := rfl
@[simp] theorem exec_creditUnitSend {g} : exec (.creditUnitSend g) s = done (inTurn (whenAlive (creditSend g)) s) := rfl
@[simp] theorem exec_replayTimeout {g} :
    exec (.replayTimeout g) s = done (inTurn (whenAlive (Machine.replayTimeout g)) s) := rfl
@[simp] theorem exec_ilgilLinkLoss {g dt} :
    exec (.ilgilLinkLoss g dt) s = done (whenAlive (ilgLinkLoss g) (arrive dt s)) := rfl
@[simp] theorem exec_reachSend {g} : exec (.reachSend g) s = done (inTurn (whenAlive (Machine.reachSend g)) s) := rfl
@[simp] theorem exec_reachReceive {g bytes dt} :
    exec (.reachReceive g bytes dt) s = done (whenAlive (Machine.reachReceive g bytes) (arrive dt s)) := rfl
@[simp] theorem exec_rebalance {v dt} :
    exec (.rebalance v dt) s = done (whenHost (busWrite Reg.ILG_REBALANCE v) (arrive dt s)) := rfl
@[simp] theorem exec_timeUnitSend {g} :
    exec (.timeUnitSend g) s = done (inTurn (whenAlive (Machine.timeUnitSend g)) s) := rfl
@[simp] theorem exec_timeUnitReceive {g bytes dt} :
    exec (.timeUnitReceive g bytes dt) s = done (whenAlive (Machine.timeUnitReceive g bytes) (arrive dt s)) := rfl
@[simp] theorem exec_ilgMgmtRead {v dt} :
    exec (.ilgMgmtRead v dt) s = done (whenHost (busWrite Reg.ILG_MGMT_CTRL v) (arrive dt s)) := rfl
@[simp] theorem exec_ilgMgmtWrite {v dt} :
    exec (.ilgMgmtWrite v dt) s = done (whenHost (busWrite Reg.ILG_MGMT_CTRL v) (arrive dt s)) := rfl
@[simp] theorem exec_mgmtRequestReceive {g bytes dt} :
    exec (.mgmtRequestReceive g bytes dt) s = done (whenAlive (mgmtRequest g bytes) (arrive dt s)) := rfl
@[simp] theorem exec_mgmtResponseReceive {g bytes dt} :
    exec (.mgmtResponseReceive g bytes dt) s = done (whenAlive (mgmtAnswer g bytes) (arrive dt s)) := rfl
@[simp] theorem exec_mgmtTimeout : exec .mgmtTimeout s = done (inTurn (whenAlive (mgmtTimeout)) s) := rfl
@[simp] theorem exec_workerImageStart {v dt} :
    exec (.workerImageStart v dt) s = done (whenHost (busWrite Reg.ILG_IMG_CTRL v) (arrive dt s)) := rfl
@[simp] theorem exec_workerImageAbort {v dt} :
    exec (.workerImageAbort v dt) s = done (whenHost (busWrite Reg.ILG_IMG_CTRL v) (arrive dt s)) := rfl
@[simp] theorem exec_imageUnitReceive {g bytes dt} :
    exec (.imageUnitReceive g bytes dt) s = done (whenAlive (Machine.imageUnitReceive g bytes) (arrive dt s)) := rfl
@[simp] theorem exec_imageResultReceive {g bytes dt} :
    exec (.imageResultReceive g bytes dt) s = done (whenAlive (imageResult g bytes) (arrive dt s)) := rfl
@[simp] theorem exec_workerReport {g bytes dt} :
    exec (.workerReport g bytes dt) s = done (whenAlive (Machine.workerReport g bytes) (arrive dt s)) := rfl
@[simp] theorem exec_workerGenWrite {k v dt} :
    exec (.workerGenWrite k v dt) s = done (whenHost (busWrite (Reg.ILG_WORKER_GEN (k + 1)) v) (arrive dt s)) := rfl
@[simp] theorem exec_switchUnitReceive {g bytes dt} :
    exec (.switchUnitReceive g bytes dt) s = done (whenAlive (switchReceive g bytes) (arrive dt s)) := rfl
@[simp] theorem exec_heartbeatSend : exec .heartbeatSend s = done (inTurn (whenAlive (heartbeatSend)) s) := rfl
@[simp] theorem exec_heartbeatReceive {bytes dt} :
    exec (.heartbeatReceive bytes dt) s = done (whenAlive (Machine.heartbeatReceive bytes) (arrive dt s)) := rfl
@[simp] theorem exec_heartbeatLoss : exec .heartbeatLoss s = done (inTurn (whenAlive (heartbeatLoss)) s) := rfl
@[simp] theorem exec_resignInChange {level dt} :
    exec (.resignInChange level dt) s = done (Machine.resignInChange level (arrive dt s)) := rfl
@[simp] theorem exec_claimWaitExpiry : exec .claimWaitExpiry s = done (inTurn (whenAlive (claimWaitExpiry)) s) := rfl
@[simp] theorem exec_claimConfirm : exec .claimConfirm s = done (inTurn (whenAlive (claimConfirm)) s) := rfl
@[simp] theorem exec_peerDemand : exec .peerDemand s = done (inTurn (whenAlive (peerDemand)) s) := rfl
@[simp] theorem exec_startClaim : exec .startClaim s = done (inTurn (whenAlive (startClaim)) s) := rfl
@[simp] theorem exec_redResignCmd {v dt} :
    exec (.redResignCmd v dt) s = done (whenHost (busWrite Reg.RED_CMD v) (arrive dt s)) := rfl
@[simp] theorem exec_redSwapCmd {v dt} :
    exec (.redSwapCmd v dt) s = done (whenHost (busWrite Reg.RED_CMD v) (arrive dt s)) := rfl
@[simp] theorem exec_redClaimCmd {v dt} :
    exec (.redClaimCmd v dt) s = done (whenHost (busWrite Reg.RED_CMD v) (arrive dt s)) := rfl
@[simp] theorem exec_swapInstant : exec .swapInstant s = done (inTurn (whenAlive (swapInstant)) s) := rfl
@[simp] theorem exec_swapOverdue : exec .swapOverdue s = done (inTurn (whenAlive (swapOverdue)) s) := rfl
@[simp] theorem exec_autoSwap : exec .autoSwap s = done (inTurn (whenAlive (autoSwap)) s) := rfl
@[simp] theorem exec_pageProgramDone {ok zeroOk dt} :
    exec (.pageProgramDone ok zeroOk dt) s = done (whenAlive (Machine.pageProgramDone ok zeroOk) (arrive dt s)) := rfl
@[simp] theorem exec_eraseDone {ok zeroOk dt} :
    exec (.eraseDone ok zeroOk dt) s = done (whenAlive (Machine.eraseDone ok zeroOk) (arrive dt s)) := rfl
@[simp] theorem exec_powerFail {dt} : exec (.powerFail dt) s = done (whenAlive (powerFail) (arrive dt s)) := rfl
@[simp] theorem exec_powerRestored {dt} : exec (.powerRestored dt) s = done (whenAlive (powerRestored) (arrive dt s)) := rfl
@[simp] theorem exec_freeze {v dt} : exec (.freeze v dt) s = done (whenHost (busWrite Reg.LKT_CTRL v) (arrive dt s)) := rfl
@[simp] theorem exec_unfreeze {v dt} :
    exec (.unfreeze v dt) s = done (whenHost (busWrite Reg.LKT_CTRL v) (arrive dt s)) := rfl
@[simp] theorem exec_freezeLapse : exec .freezeLapse s = done (inTurn (whenAlive (freezeLapse)) s) := rfl
@[simp] theorem exec_recordFetch {v dt} :
    exec (.recordFetch v dt) s = done (whenHost (busWrite Reg.LKT_READ_CTRL v) (arrive dt s)) := rfl
@[simp] theorem exec_recordFetchDone {ok dt} :
    exec (.recordFetchDone ok dt) s = done (whenAlive (Machine.recordFetchDone ok) (arrive dt s)) := rfl
@[simp] theorem exec_partitionWrite {v dt} :
    exec (.partitionWrite v dt) s = done (whenHost (busWrite Reg.LKT_PART v) (arrive dt s)) := rfl
@[simp] theorem exec_operatingSecond {dt} : exec (.operatingSecond dt) s = done (operatingSecond (arrive dt s)) := rfl
@[simp] theorem exec_mainPowerOn {straps dt} :
    exec (.mainPowerOn straps dt) s = done (Machine.mainPowerOn straps (arrive dt s)) := rfl
@[simp] theorem exec_mainPowerLoss {vbak dt} :
    exec (.mainPowerLoss vbak dt) s = done (Machine.mainPowerLoss vbak (arrive dt s)) := rfl
@[simp] theorem exec_resetAssert {pin dt} :
    exec (.resetAssert pin dt) s = done (Machine.resetAssert pin (arrive dt s)) := rfl
@[simp] theorem exec_resetEnd {straps dt} :
    exec (.resetEnd straps dt) s = done (Machine.resetEnd straps (arrive dt s)) := rfl
@[simp] theorem exec_pllLock {dt} : exec (.pllLock dt) s = done (pllLock (arrive dt s)) := rfl
@[simp] theorem exec_memoryStepDone {temp supply clk dt} :
    exec (.memoryStepDone temp supply clk dt) s = done (Machine.memoryStepDone temp supply clk (arrive dt s)) := rfl
@[simp] theorem exec_locketStep {flashWorks dt} :
    exec (.locketStep flashWorks dt) s = done (Machine.locketStep flashWorks (arrive dt s)) := rfl
@[simp] theorem exec_phyResetWrite {v dt} :
    exec (.phyResetWrite v dt) s = done (whenHost (busWrite Reg.GLB_PHY_RST v) (arrive dt s)) := rfl
@[simp] theorem exec_tapBypass {dt} : exec (.tapBypass dt) s = done (tapSet .bypass (arrive dt s)) := rfl
@[simp] theorem exec_tapIdcode {dt} : exec (.tapIdcode dt) s = done (tapIdcode (arrive dt s)) := rfl
@[simp] theorem exec_tapSamplePreload {sampled preload dt} :
    exec (.tapSamplePreload sampled preload dt) s = done (tapSample sampled preload (arrive dt s)) := rfl
@[simp] theorem exec_tapExtest {dt} : exec (.tapExtest dt) s = done (tapSet .extest (arrive dt s)) := rfl
@[simp] theorem exec_tapClamp {dt} : exec (.tapClamp dt) s = done (tapSet .clamp (arrive dt s)) := rfl
@[simp] theorem exec_tapHighz {dt} : exec (.tapHighz dt) s = done (tapSet .highz (arrive dt s)) := rfl
@[simp] theorem exec_poresetRisingEdge {straps dt} :
    exec (.poresetRisingEdge straps dt) s = done (Machine.poresetRisingEdge straps (arrive dt s)) := rfl
@[simp] theorem exec_rxDescriptorFetch {ring descs dt} :
    exec (.rxDescriptorFetch ring descs dt) s = done (whenRunning (rxFetched ring descs) (arrive dt s)) := rfl
@[simp] theorem exec_busMasterEnable {dt} :
    exec (.busMasterEnable dt) s = done (whenAlive (busMasterEnable) (arrive dt s)) := rfl
@[simp] theorem exec_couplerInputChange {cpl level dt} :
    exec (.couplerInputChange cpl level dt) s = done (couplerInput cpl level (arrive dt s)) := rfl
@[simp] theorem exec_couplerFilterAccept {cpl} :
    exec (.couplerFilterAccept cpl) s = done (inTurn (whenAlive (couplerAccept cpl)) s) := rfl
@[simp] theorem exec_inputUnstuck {inp dt} :
    exec (.inputUnstuck inp dt) s = done (whenRunning (Machine.inputUnstuck inp) (arrive dt s)) := rfl
@[simp] theorem exec_protocolExceptionExit {ch dt} :
    exec (.protocolExceptionExit ch dt) s = done (whenRunning (pexExit ch) (arrive dt s)) := rfl
@[simp] theorem exec_carrierSense {port carrier dt} :
    exec (.carrierSense port carrier dt) s = done (Machine.carrierSense port carrier (arrive dt s)) := rfl
@[simp] theorem exec_verifyFrameReceive {line dt} :
    exec (.verifyFrameReceive line dt) s = done (whenRunning (verifyReceive line) (arrive dt s)) := rfl
@[simp] theorem exec_eraseSuspended {dt} :
    exec (.eraseSuspended dt) s = done (whenAlive (eraseSuspended) (arrive dt s)) := rfl
@[simp] theorem exec_workerImageRead {bytes dt} :
    exec (.workerImageRead bytes dt) s = done (whenAlive (Machine.workerImageRead bytes) (arrive dt s)) := rfl

/-! ### What the device does by itself -/

/-- Nothing is waiting, so nothing happens. -/
@[simp] theorem runSoon_nil {n c} (h : s.soon = []) : runSoon n c s = s := by
  cases n <;> simp [runSoon, h]

/-- What the device times itself takes place at once when nothing of its own comes first. -/
theorem inTurn_nil {f : State → State} (h : s.soon = []) : inTurn f s = f s := by simp [inTurn, h]

/-- Nothing waits to happen first, so an arrival lets its time pass. -/
theorem arrive_nil {n} (h : s.soon = []) : arrive n s = advanceTo (s.cycle + n) s := by simp [arrive, h]

end Sys2Proof.Machine
end

