-- ==== Sys2Proof/Laws/Kept.lean ====
section
/-! SUPPORT. What every operation keeps: the queue of commands, which only the step touches, the canonical form of the
register file, and the agreement of each ledger row's drop reasons with its DROP_SUM. This file holds the facts as one
predicate, its laws for sparse tables and register writes, and its rules for the ways operations are put together; the
Keeps files have one lemma per operation. -/
namespace Sys2Proof.Machine

/-- The drop reasons of a row are in canonical form, and sum to DROP_SUM, modulo 2^32, unless a memory error struck the row
(R218, R589). -/
def Led.Agrees (l : Led) : Prop :=
  Sparse.wf (fun _ => 0) l.drop = true ∧
    (l.struck = false → l.drop.foldl (fun n p => n + p.2) 0 % 2 ^ 32 = l.dropSum % 2 ^ 32)

/-- Every row of a ledger agrees. -/
def Agree (l : List (Nat × Led)) : Prop := ∀ row, (Sparse.get (fun _ => Led.zero) l row).Agrees

/-- The queue is q, the register file is canonical and the drop reasons agree. -/
def Kept (q : List Instr) (s : State) : Prop :=
  s.pending = q ∧ Sparse.wf regReset s.regs = true ∧ Agree s.fab.ledger

/-! ### The canonical form, as a property of all entries -/

/-- Keys strictly rising and no default value listed. -/
def Sparse.Canon {α : Type} (d : Nat → α) (l : List (Nat × α)) : Prop :=
  l.Pairwise (fun p r => p.1 < r.1) ∧ ∀ p ∈ l, p.2 ≠ d p.1

theorem Sparse.wf_iff {α : Type} [DecidableEq α] (d : Nat → α) (l : List (Nat × α)) :
    Sparse.wf d l = true ↔ Sparse.Canon d l := by
  induction l with
  | nil => simp [Sparse.wf, Sparse.Canon]
  | cons p t ih =>
    obtain ⟨k, v⟩ := p
    cases t with
    | nil => simp [Sparse.wf, Sparse.Canon]
    | cons r t =>
      obtain ⟨j, w⟩ := r
      rw [Sparse.wf, Bool.and_eq_true, Bool.and_eq_true, ih]
      simp only [Sparse.Canon, decide_eq_true_eq, List.pairwise_cons, List.mem_cons]
      constructor
      · rintro ⟨⟨hv, hk⟩, ⟨hp, ht⟩, hd⟩
        refine ⟨⟨?_, hp, ht⟩, ?_⟩
        · rintro a (rfl | ha)
          · exact hk
          · exact Nat.lt_trans hk (hp a ha)
        · rintro a (rfl | ha)
          · exact hv
          · exact hd a ha
      · rintro ⟨⟨hk, hp, ht⟩, hd⟩
        exact ⟨⟨hd _ (.inl rfl), hk _ (.inl rfl)⟩, ⟨hp, ht⟩, fun a ha => hd a (.inr ha)⟩

theorem Sparse.canon_filter {α : Type} {d : Nat → α} {l : List (Nat × α)} (f : Nat × α → Bool) (h : Sparse.Canon d l) :
    Sparse.Canon d (l.filter f) :=
  ⟨h.1.filter f, fun p hp => h.2 p (List.mem_filter.mp hp).1⟩

theorem Sparse.mem_ins {α : Type} {l : List (Nat × α)} {k : Nat} {v : α} {p : Nat × α} (h : p ∈ Sparse.ins l k v) :
    p = (k, v) ∨ p ∈ l := by
  induction l with
  | nil => simpa [Sparse.ins] using h
  | cons r t ih =>
    obtain ⟨j, w⟩ := r
    rw [Sparse.ins] at h
    split at h
    · rcases List.mem_cons.mp h with e | h
      · exact .inr (by simp [e])
      · exact (ih h).imp id (List.mem_cons_of_mem _)
    · rcases List.mem_cons.mp h with e | h
      · exact .inl e
      · exact .inr h

theorem Sparse.canon_ins {α : Type} {d : Nat → α} {l : List (Nat × α)} {k : Nat} {v : α} (h : Sparse.Canon d l)
    (hk : ∀ p ∈ l, p.1 ≠ k) (hv : v ≠ d k) : Sparse.Canon d (Sparse.ins l k v) := by
  refine ⟨?_, fun p hp => ?_⟩
  · induction l with
    | nil => simp [Sparse.ins]
    | cons r t ih =>
      obtain ⟨j, w⟩ := r
      have hr := List.pairwise_cons.mp h.1
      rw [Sparse.ins]
      split
      · refine List.pairwise_cons.mpr ⟨fun p hp => ?_, ih ⟨hr.2, fun p hp => h.2 p (List.mem_cons_of_mem _ hp)⟩
          (fun p hp => hk p (List.mem_cons_of_mem _ hp))⟩
        rcases Sparse.mem_ins hp with rfl | hp
        · assumption
        · exact hr.1 p hp
      · have hj : j ≠ k := hk (j, w) List.mem_cons_self
        refine List.pairwise_cons.mpr ⟨fun p hp => ?_, h.1⟩
        rcases List.mem_cons.mp hp with rfl | hp
        · show k < j; omega
        · have := hr.1 p hp; show k < p.1; simp only at this; omega
  · rcases Sparse.mem_ins hp with rfl | hp
    · exact hv
    · exact h.2 p hp

theorem Sparse.wf_filter {α : Type} [DecidableEq α] {d : Nat → α} {l : List (Nat × α)} (f : Nat × α → Bool)
    (h : Sparse.wf d l = true) : Sparse.wf d (l.filter f) = true :=
  (Sparse.wf_iff d _).mpr (Sparse.canon_filter f ((Sparse.wf_iff d l).mp h))

theorem Sparse.wf_put {α : Type} [DecidableEq α] {d : Nat → α} {l : List (Nat × α)} (k : Nat) (v : α)
    (h : Sparse.wf d l = true) : Sparse.wf d (Sparse.put d l k v) = true := by
  have hd := Sparse.canon_filter (fun p => p.1 != k) ((Sparse.wf_iff d l).mp h)
  rw [Sparse.wf_iff, Sparse.put]
  split
  · exact hd
  · exact Sparse.canon_ins hd (fun p hp => by simpa using (List.mem_filter.mp hp).2) (by assumption)

/-! ### Reading back -/

theorem Sparse.find_drop {α : Type} (l : List (Nat × α)) (k j : Nat) :
    Sparse.find (Sparse.drop l k) j = if j = k then none else Sparse.find l j := by
  induction l with
  | nil => simp [Sparse.drop, Sparse.find]
  | cons p t ih =>
    obtain ⟨i, v⟩ := p
    by_cases hi : i = k
    · subst hi
      simp only [Sparse.drop, List.filter_cons, bne_self_eq_false, Bool.false_eq_true, if_false]
      rw [← Sparse.drop, ih]
      by_cases hj : j = i
      · simp [hj]
      · have : i ≠ j := fun e => hj e.symm
        simp [hj, Sparse.find, this]
    · have hb : ((i, v).1 != k) = true := by simpa using hi
      rw [Sparse.drop, List.filter_cons, if_pos hb, ← Sparse.drop, Sparse.find, Sparse.find, ih]
      by_cases hij : i = j
      · subst hij; simp [hi]
      · simp [hij]

theorem Sparse.find_ins {α : Type} (l : List (Nat × α)) (k j : Nat) (v : α) (h : ∀ p ∈ l, p.1 ≠ k) :
    Sparse.find (Sparse.ins l k v) j = if j = k then some v else Sparse.find l j := by
  induction l with
  | nil => simp [Sparse.ins, Sparse.find, eq_comm]
  | cons p t ih =>
    obtain ⟨i, w⟩ := p
    have hi : i ≠ k := h (i, w) List.mem_cons_self
    rw [Sparse.ins]
    split
    · rw [Sparse.find, Sparse.find, ih (fun p hp => h p (List.mem_cons_of_mem _ hp))]
      by_cases hij : i = j
      · subst hij; simp [hi]
      · simp [hij]
    · rw [Sparse.find]
      by_cases hj : j = k
      · simp [hj]
      · have : k ≠ j := fun e => hj e.symm
        simp [hj, this]

/-- A table reads back what was put at a key, and every other key as before. -/
theorem Sparse.get_put {α : Type} [DecidableEq α] (d : Nat → α) (l : List (Nat × α)) (k j : Nat) (v : α) :
    Sparse.get d (Sparse.put d l k v) j = if j = k then v else Sparse.get d l j := by
  unfold Sparse.put Sparse.get
  split
  · rw [Sparse.find_drop]
    by_cases hj : j = k
    · simp_all
    · simp [hj]
  · rw [Sparse.find_ins _ _ _ _ (fun p hp => by simpa using (List.mem_filter.mp hp).2), Sparse.find_drop]
    by_cases hj : j = k <;> simp [hj]

@[simp] theorem reg_setReg (s : State) (a b : Nat) (w : Word) : (s.setReg a w).reg b = if b = a then w else s.reg b :=
  Sparse.get_put regReset s.regs a b w

@[simp] theorem reg_setR (s : State) (a b v : Nat) : (setR a v s).reg b = if b = a then BitVec.ofNat 32 v else s.reg b :=
  reg_setReg s a b _

/-! ### The drop reasons of a row -/

theorem Sparse.sum_acc (l : List (Nat × Nat)) (a : Nat) :
    l.foldl (fun n p => n + p.2) a = a + l.foldl (fun n p => n + p.2) 0 := by
  induction l generalizing a with
  | nil => rfl
  | cons p t ih => rw [List.foldl_cons, List.foldl_cons, ih, ih (0 + p.2)]; omega

theorem Sparse.sum_ins (l : List (Nat × Nat)) (k v : Nat) :
    (Sparse.ins l k v).foldl (fun n p => n + p.2) 0 = l.foldl (fun n p => n + p.2) 0 + v := by
  induction l with
  | nil => simp [Sparse.ins]
  | cons p t ih =>
    rw [Sparse.ins]
    split
    · rw [List.foldl_cons, List.foldl_cons, Sparse.sum_acc, ih, Sparse.sum_acc _ (0 + p.2)]; omega
    · rw [List.foldl_cons, Sparse.sum_acc (p :: t)]
      simp only [Nat.zero_add]; omega

/-- What a canonical table of counts adds up to, apart from one key. -/
theorem Sparse.sum_drop (l : List (Nat × Nat)) (k : Nat) (h : Sparse.Canon (fun _ => 0) l) :
    (Sparse.drop l k).foldl (fun n p => n + p.2) 0 + Sparse.get (fun _ => 0) l k = l.foldl (fun n p => n + p.2) 0 := by
  induction l with
  | nil => rfl
  | cons p t ih =>
    obtain ⟨i, v⟩ := p
    have hp := List.pairwise_cons.mp h.1
    have ht := ih ⟨hp.2, fun p hp => h.2 p (List.mem_cons_of_mem _ hp)⟩
    by_cases hi : i = k
    · subst hi
      have hd : Sparse.drop t i = t :=
        List.filter_eq_self.mpr (fun p hm => by have := hp.1 p hm; simp only at this; simp; omega)
      have hf : Sparse.drop ((i, v) :: t) i = t := by
        rw [Sparse.drop, List.filter_cons, if_neg (by simp), ← Sparse.drop, hd]
      have hg : Sparse.get (fun _ => 0) ((i, v) :: t) i = v := by simp [Sparse.get, Sparse.find]
      rw [hf, hg, List.foldl_cons, Sparse.sum_acc t (0 + v)]; omega
    · have hb : ((i, v).1 != k) = true := by simpa using hi
      have hf : Sparse.drop ((i, v) :: t) k = (i, v) :: Sparse.drop t k := by
        rw [Sparse.drop, List.filter_cons, if_pos hb, Sparse.drop]
      have hg : Sparse.get (fun _ => 0) ((i, v) :: t) k = Sparse.get (fun _ => 0) t k := by
        simp [Sparse.get, Sparse.find, hi]
      rw [hf, hg, List.foldl_cons, List.foldl_cons, Sparse.sum_acc, Sparse.sum_acc t]; omega

theorem Sparse.sum_put (l : List (Nat × Nat)) (k v : Nat) (h : Sparse.Canon (fun _ => 0) l) :
    (Sparse.put (fun _ => 0) l k v).foldl (fun n p => n + p.2) 0 + Sparse.get (fun _ => 0) l k =
      l.foldl (fun n p => n + p.2) 0 + v := by
  have hd := Sparse.sum_drop l k h
  rw [Sparse.put]
  split
  · subst v; omega
  · rw [Sparse.sum_ins]; omega

theorem Agree.put {l : List (Nat × Led)} {x : Led} (row : Nat) (h : Agree l) (hx : x.Agrees) :
    Agree (Sparse.put (fun _ => Led.zero) l row x) := by
  intro j
  rw [Sparse.get_put]
  split
  · exact hx
  · exact h j

theorem Agree.nil : Agree [] := fun _ => ⟨rfl, fun _ => rfl⟩

/-! ### How operations are put together -/

variable {q : List Instr} {s t : State} {α β : Type}

theorem Kept.setReg (h : Kept q s) (a : Nat) (w : Word) : Kept q (s.setReg a w) :=
  ⟨h.1, Sparse.wf_put _ _ h.2.1, h.2.2⟩

/-- An update of anything but the queue, the register file and the ledger. -/
theorem Kept.upd {x0 x1 x2 x3 x4 x5 x6 x7 x8 x9 x10 x11 x12 x13 x14 x15 x16 x17 x18 x19 x20 x21 x22 x23 x24 x25 x26} (h : Kept q s)
    (hx : x12.ledger = s.fab.ledger := by rfl) : Kept q
    { s with cycle := x0, time := x1, timeInc := x2, doms := x3, snaps := x4, draws := x5, out := x6, roles := x7, image := x8, lkt := x9, pwr := x10, host := x11, fab := x12, mac := x13, seqs := x14, spr := x15, tim := x16, car := x17, ilg := x18, can := x19, fil := x20, sd := x21, lbb := x22, red := x23, todo := x24, soon := x25, now := x26 } := ⟨h.1, h.2.1, hx.symm ▸ h.2.2⟩

theorem Kept.each {l : List α} {f : α → State → State} (hf : ∀ a t, Kept q t → Kept q (f a t)) (h : Kept q s) :
    Kept q (each l f s) := by
  unfold Sys2Proof.Machine.each
  induction l generalizing s with
  | nil => exact h
  | cons a l ih => exact ih (hf a s h)

theorem Kept.whenT {c : Bool} {f : State → State} (hf : ∀ t, Kept q t → Kept q (f t)) (h : Kept q s) : Kept q (whenT c f s) := by
  unfold Sys2Proof.Machine.whenT; split
  · exact hf s h
  · exact h

theorem Kept.whenHost {f : State → State} (hf : ∀ t, Kept q t → Kept q (f t)) (h : Kept q s) : Kept q (whenHost f s) := by
  unfold Sys2Proof.Machine.whenHost; split
  · exact hf _ h
  · exact h

theorem Kept.whenAlive {f : State → State} (hf : ∀ t, Kept q t → Kept q (f t)) (h : Kept q s) : Kept q (whenAlive f s) := by
  unfold Sys2Proof.Machine.whenAlive; split
  · exact hf s h
  · exact h

theorem Kept.whenRunning {f : State → State} (hf : ∀ t, Kept q t → Kept q (f t)) (h : Kept q s) : Kept q (whenRunning f s) := by
  unfold Sys2Proof.Machine.whenRunning; split
  · exact hf s h
  · exact h

/-- Both arms; the first may lean on what holds of the second. -/
theorem Kept.ite {c : Prop} [Decidable c] (ht : Kept q t) (hs : Kept q t → Kept q s) : Kept q (if c then s else t) := by
  split
  · exact hs ht
  · exact ht

/-- A local name for a state. -/
theorem Kept.let_ {f : State → State} (h : Kept q s) (hf : ∀ t, Kept q t → Kept q (f t)) : Kept q (f s) := hf s h

theorem Kept.of_eq2 {p : α × State} {a : α} (e : p = (a, t)) (h : Kept q p.2) : Kept q t := by subst e; exact h

theorem Kept.of_eq22 {p : α × β × State} {a : α} {b : β} (e : p = (a, b, t)) (h : Kept q p.2.2) : Kept q t := by subst e; exact h

theorem Kept.foldl {l : List α} {f : State → α → State} (hf : ∀ a t, Kept q t → Kept q (f t a)) (h : Kept q s) :
    Kept q (l.foldl f s) := by
  induction l generalizing s with
  | nil => exact h
  | cons a l ih => exact ih (hf a s h)

theorem Kept.foldl2 {l : List α} {f : β × State → α → β × State} {p : β × State}
    (hf : ∀ a r, Kept q r.2 → Kept q (f r a).2) (h : Kept q p.2) : Kept q (l.foldl f p).2 := by
  induction l generalizing p with
  | nil => exact h
  | cons a l ih => exact ih (hf a p h)

end Sys2Proof.Machine
end

