-- ==== Sys2Proof/Laws/KeepsBase.lean ====
section
/-! SUPPORT. What every operation keeps, one lemma each: registers, the recorder, the ledger, Spire, epochs, rings and buffers. -/
namespace Sys2Proof.Machine
set_option maxRecDepth 2000
set_option linter.unusedTactic false
set_option linter.unreachableTactic false

/-! ### Ops -/

theorem setR_kept {q s x0 x1} (h : Kept q s) : Kept q (setR x0 x1 s) := by
  unfold setR
  repeat' with_reducible first
    | assumption | apply Kept.setReg | dsimp only

theorem setF_kept {q s x0 x1} (h : Kept q s) : Kept q (setF x0 x1 s) := by
  unfold setF
  repeat' with_reducible first
    | assumption | apply Kept.setReg | dsimp only

theorem setI_kept {q s x0 x1} (h : Kept q s) : Kept q (setI x0 x1 s) := by
  unfold setI
  repeat' with_reducible first
    | assumption | apply setF_kept | dsimp only

theorem noteCount_kept {q s x0 x1} (h : Kept q s) : Kept q (noteCount x0 x1 s) := by
  unfold noteCount
  repeat' with_reducible first
    | assumption | exact fun _ => rfl | rfl | split | dsimp only | apply Kept.upd

theorem noteBits_kept {q s x0 x1} (h : Kept q s) : Kept q (noteBits x0 x1 s) := by
  unfold noteBits
  repeat' with_reducible first
    | assumption | exact fun _ => rfl | rfl | split | dsimp only | apply Kept.upd

theorem latchBits_kept {q s x0 x1} (h : Kept q s) : Kept q (latchBits x0 x1 s) := by
  unfold latchBits
  repeat' with_reducible first
    | assumption | apply noteBits_kept | apply setF_kept | split | dsimp only

theorem latch_kept {q s x0} (h : Kept q s) : Kept q (latch x0 s) := by
  unfold latch
  repeat' with_reducible first
    | assumption | apply latchBits_kept | apply setF_kept | split | dsimp only

theorem countBy_kept {q s x0 x1} (h : Kept q s) : Kept q (countBy x0 x1 s) := by
  unfold countBy
  repeat' with_reducible first
    | assumption | apply noteCount_kept | apply setR_kept | split | dsimp only

theorem count_kept {q s x0} (h : Kept q s) : Kept q (count x0 s) := by
  unfold count
  repeat' with_reducible first
    | assumption | apply countBy_kept | dsimp only

theorem emitOut_kept {q s x0} (h : Kept q s) : Kept q (emitOut x0 s) := by
  unfold emitOut
  repeat' with_reducible first
    | assumption | exact fun _ => rfl | rfl | dsimp only | apply Kept.upd

theorem drawFree_kept {q s} (h : Kept q s) : Kept q (drawFree s).2 := by
  unfold drawFree
  repeat' with_reducible first
    | assumption | exact fun _ => rfl | rfl | dsimp only | apply Kept.upd

theorem advance_kept {q s x0} (h : Kept q s) : Kept q (advance x0 s) := by
  unfold advance
  repeat' with_reducible first
    | assumption | exact fun _ => rfl | rfl | dsimp only | apply Kept.upd

theorem advanceTo_kept {q s x0} (h : Kept q s) : Kept q (advanceTo x0 s) := by
  unfold advanceTo
  repeat' with_reducible first
    | assumption | apply advance_kept | dsimp only

theorem inCycles_kept {q s x0 x1} (h : Kept q s) : Kept q (inCycles x0 x1 s) := by
  unfold inCycles
  repeat' with_reducible first
    | assumption | exact fun _ => rfl | rfl | split | dsimp only | apply Kept.upd

theorem dropSoon_kept {q s x0} (h : Kept q s) : Kept q (dropSoon x0 s) := by
  unfold dropSoon
  repeat' with_reducible first
    | assumption | exact fun _ => rfl | rfl | split | dsimp only | apply Kept.upd

/-! ### Locket -/

theorem showFills_kept {q s} (h : Kept q s) : Kept q (showFills s) := by
  unfold showFills
  repeat' with_reducible first
    | assumption | apply setF_kept | dsimp only

theorem askSuspend_kept {q s} (h : Kept q s) : Kept q (askSuspend s) := by
  unfold askSuspend
  repeat' with_reducible first
    | assumption | apply emitOut_kept | apply Kept.ite | intro _ | exact fun _ => rfl | rfl | split | dsimp only
    | apply Kept.upd

theorem startPage_kept {q s} (h : Kept q s) : Kept q (startPage s) := by
  unfold startPage
  repeat' with_reducible first
    | assumption | apply askSuspend_kept | apply emitOut_kept | apply Kept.ite | intro _ | exact fun _ => rfl | rfl
    | split | dsimp only | apply Kept.upd

theorem startCommit_kept {q s} (h : Kept q s) : Kept q (startCommit s) := by
  unfold startCommit
  repeat' with_reducible first
    | assumption | apply startPage_kept | exact fun _ => rfl | rfl | dsimp only | apply Kept.upd

theorem showLog_kept {q s} (h : Kept q s) : Kept q (showLog s) := by
  unfold showLog
  repeat' with_reducible first
    | assumption | apply setR_kept | dsimp only

theorem placeRecords_kept {q s x0} (h : Kept q s) : Kept q (placeRecords x0 s) := by
  unfold placeRecords
  repeat' with_reducible first
    | assumption | apply count_kept | apply setR_kept | apply showFills_kept | apply countBy_kept
    | apply startCommit_kept | apply Kept.ite | intro _ | exact fun _ => rfl | rfl | split | dsimp only
    | apply Kept.upd

theorem recordAs_kept {q s x0 x1 x2} (h : Kept q s) : Kept q (recordAs x0 x1 x2 s) := by
  unfold recordAs
  repeat' with_reducible first
    | assumption | apply placeRecords_kept | dsimp only

theorem record_kept {q s x0 x1} (h : Kept q s) : Kept q (record x0 x1 s) := by
  unfold record
  repeat' with_reducible first
    | assumption | apply recordAs_kept | dsimp only

theorem recordPairAs_kept {q s x0 x1 x2 x3} (h : Kept q s) : Kept q (recordPairAs x0 x1 x2 x3 s) := by
  unfold recordPairAs
  repeat' with_reducible first
    | assumption | apply placeRecords_kept | dsimp only

theorem recordPair_kept {q s x0 x1 x2} (h : Kept q s) : Kept q (recordPair x0 x1 x2 s) := by
  unfold recordPair
  repeat' with_reducible first
    | assumption | apply recordPairAs_kept | dsimp only

theorem gapIfLost_kept {q s} (h : Kept q s) : Kept q (gapIfLost s) := by
  unfold gapIfLost
  repeat' with_reducible first
    | assumption | apply latch_kept | apply record_kept | apply Kept.ite | intro _ | exact fun _ => rfl | rfl | split
    | dsimp only | apply Kept.upd

theorem stageHeld_kept {q s} (h : Kept q s) : Kept q (stageHeld s) := by
  unfold stageHeld
  repeat' with_reducible first
    | assumption | apply countBy_kept | apply showFills_kept | apply Kept.ite | intro _ | exact fun _ => rfl | rfl
    | split | dsimp only | apply Kept.upd

theorem drainHolding_kept {q s} (h : Kept q s) : Kept q (drainHolding s) := by
  unfold drainHolding
  repeat' with_reducible first
    | assumption | apply stageHeld_kept | apply gapIfLost_kept | apply showFills_kept | apply Kept.ite | intro _
    | exact fun _ => rfl | rfl | split | dsimp only | apply Kept.upd

theorem eraseSector_kept {q s x0} (h : Kept q s) : Kept q (eraseSector x0 s) := by
  unfold eraseSector
  repeat' with_reducible first
    | assumption | apply emitOut_kept | apply Kept.ite | intro _ | exact fun _ => rfl | rfl | split | dsimp only
    | apply Kept.upd

theorem enterSector_kept {q s x0 x1} (h : Kept q s) : Kept q (enterSector x0 x1 s) := by
  induction x0 generalizing s x1 with
  | zero => exact Kept.upd (eraseSector_kept h)
  | succ n ih => exact Kept.ite (Kept.upd (eraseSector_kept h)) ih

theorem moveWrite_kept {q s x0} (h : Kept q s) : Kept q (moveWrite x0 s) := by
  unfold moveWrite
  repeat' with_reducible first
    | assumption | apply enterSector_kept | apply Kept.ite | intro _ | exact fun _ => rfl | rfl | split | dsimp only
    | apply Kept.upd

theorem flashFailed_kept {q s x0 x1 x2} (h : Kept q s) : Kept q (flashFailed x0 x1 x2 s) := by
  unfold flashFailed
  repeat' with_reducible first
    | assumption | apply latch_kept | apply count_kept | apply emitOut_kept | apply setF_kept | apply Kept.each
    | apply Kept.whenT | intro _ | exact fun _ => rfl | rfl | dsimp only | apply Kept.upd

theorem pageDone_kept {q s x0} (h : Kept q s) : Kept q (pageDone x0 s) := by
  unfold pageDone
  repeat' with_reducible first
    | assumption | apply showLog_kept | apply showFills_kept | apply moveWrite_kept | apply Kept.foldl
    | apply Kept.foldl2 | intro _ | exact fun _ => rfl | rfl | dsimp only | apply Kept.upd

theorem resumeErase_kept {q s} (h : Kept q s) : Kept q (resumeErase s) := by
  unfold resumeErase
  repeat' with_reducible first
    | assumption | apply emitOut_kept | apply Kept.ite | intro _ | exact fun _ => rfl | rfl | split | dsimp only
    | apply Kept.upd

theorem writeBlock_kept {q s x0 x1 x2} (h : Kept q s) : Kept q (writeBlock x0 x1 x2 s) := by
  unfold writeBlock
  repeat' with_reducible first
    | assumption | apply emitOut_kept | apply Kept.ite | intro _ | exact fun _ => rfl | rfl | split | dsimp only
    | apply Kept.upd

theorem routineCopy_kept {q s} (h : Kept q s) : Kept q (routineCopy s) := by
  unfold routineCopy
  repeat' with_reducible first
    | assumption | apply writeBlock_kept | apply Kept.ite | intro _ | exact fun _ => rfl | rfl | split | dsimp only
    | apply Kept.upd

theorem endFreeze_kept {q s x0} (h : Kept q s) : Kept q (endFreeze x0 s) := by
  unfold endFreeze
  repeat' with_reducible first
    | assumption | apply setF_kept | apply stageHeld_kept | apply record_kept | apply gapIfLost_kept
    | apply startCommit_kept | apply showFills_kept | apply Kept.ite | intro _ | exact fun _ => rfl | rfl | split
    | dsimp only | apply Kept.upd

theorem lapseFreeze_kept {q s} (h : Kept q s) : Kept q (lapseFreeze s) := by
  unfold lapseFreeze
  repeat' with_reducible first
    | assumption | apply latch_kept | apply setF_kept | apply endFreeze_kept | dsimp only

theorem startFreeze_kept {q s} (h : Kept q s) : Kept q (startFreeze s) := by
  unfold startFreeze
  repeat' with_reducible first
    | assumption | apply record_kept | apply setF_kept | apply Kept.ite | intro _ | split | dsimp only

theorem settleFreeze_kept {q s} (h : Kept q s) : Kept q (settleFreeze s) := by
  unfold settleFreeze
  repeat' with_reducible first
    | assumption | apply setF_kept | apply Kept.ite | intro _ | exact fun _ => rfl | rfl | split | dsimp only
    | apply Kept.upd

/-! ### Ledger -/

theorem later_kept {q s x0} (h : Kept q s) : Kept q (later x0 s) := by
  unfold later
  repeat' with_reducible first
    | assumption | exact fun _ => rfl | rfl | dsimp only | apply Kept.upd

theorem trigger_kept {q s x0} (h : Kept q s) : Kept q (trigger x0 s) := by
  unfold trigger
  repeat' with_reducible first
    | assumption | apply later_kept | apply latchBits_kept | apply Kept.whenT | intro _ | dsimp only

/-- A change of a row that leaves its drops as they are. -/
theorem setLed_kept {q s row x} (h : Kept q s) (hx : x.Agrees) : Kept q (setLed row x s) :=
  ⟨h.1, h.2.1, h.2.2.put row hx⟩

theorem ledAdmit_kept {q s x0 x1} (h : Kept q s) : Kept q (ledAdmit x0 x1 s) := setLed_kept h (h.2.2 x0)

theorem ledDeliver_kept {q s x0 x1} (h : Kept q s) : Kept q (ledDeliver x0 x1 s) := setLed_kept h (h.2.2 x0)

theorem ledReturn_kept {q s x0 x1} (h : Kept q s) : Kept q (ledReturn x0 x1 s) := setLed_kept h (h.2.2 x0)

theorem ledDrop_kept {q s x0 x1 x2} (h : Kept q s) : Kept q (ledDrop x0 x1 x2 s) := by
  refine setLed_kept h ⟨Sparse.wf_put _ _ (h.2.2 x0).1, fun hn => ?_⟩
  have hs := Sparse.sum_put (s.led x0).drop x1 ((Sparse.get (fun _ => 0) (s.led x0).drop x1 + x2) % 2 ^ 32)
    ((Sparse.wf_iff _ _).mp (h.2.2 x0).1)
  have ha : (s.led x0).drop.foldl (fun n p => n + p.2) 0 % 2 ^ 32 = (s.led x0).dropSum % 2 ^ 32 := (h.2.2 x0).2 hn
  show (Sparse.put (fun _ => 0) (s.led x0).drop x1 _).foldl _ 0 % 2 ^ 32 = ((s.led x0).dropSum + x2) % 2 ^ 48 % 2 ^ 32
  omega

theorem ledRefuse_kept {q s x0 x1 x2} (h : Kept q s) : Kept q (ledRefuse x0 x1 x2 s) := by
  unfold ledRefuse
  repeat' with_reducible first
    | assumption | apply ledDrop_kept | apply ledAdmit_kept | dsimp only

theorem stat_kept {q s x0 x1 x2} (h : Kept q s) : Kept q (stat x0 x1 x2 s) := by
  unfold stat
  repeat' with_reducible first
    | assumption | apply setR_kept | apply Kept.ite | intro _ | split | dsimp only

theorem stat1_kept {q s x0 x1} (h : Kept q s) : Kept q (stat1 x0 x1 s) := by
  unfold stat1
  repeat' with_reducible first
    | assumption | apply stat_kept | dsimp only

theorem statRx_kept {q s x0 x1 x2} (h : Kept q s) : Kept q (statRx x0 x1 x2 s) := by
  unfold statRx
  repeat' with_reducible first
    | assumption | apply stat1_kept | apply stat_kept | apply Kept.whenT | apply Kept.ite | intro _ | split
    | dsimp only

theorem statTxWhole_kept {q s x0 x1} (h : Kept q s) : Kept q (statTxWhole x0 x1 s) := by
  unfold statTxWhole
  repeat' with_reducible first
    | assumption | apply stat1_kept | apply stat_kept | apply Kept.whenT | intro _ | dsimp only

/-! ### Occupancy -/

/-- A change of the fabric that leaves the ledger as it is. -/
theorem modFab_kept {q s x0} (h : Kept q s) (hx : ∀ x, (x0 x).ledger = x.ledger) : Kept q (modFab x0 s) :=
  ⟨h.1, h.2.1, (hx s.fab).symm ▸ h.2.2⟩

theorem wipeCells_kept {q s x0} (h : Kept q s) : Kept q (wipeCells x0 s) := by
  unfold wipeCells
  repeat' with_reducible first
    | assumption | apply modFab_kept | exact fun _ => rfl | rfl | split | dsimp only | apply Kept.upd

theorem putFrame_kept {q s x0 x1} (h : Kept q s) : Kept q (putFrame x0 x1 s) := by
  unfold putFrame
  repeat' with_reducible first
    | assumption | apply wipeCells_kept | apply modFab_kept | exact fun _ => rfl | rfl | split | dsimp only
    | apply Kept.upd

theorem modFrame_kept {q s x0 x1} (h : Kept q s) : Kept q (modFrame x0 x1 s) := by
  unfold modFrame
  repeat' with_reducible first
    | assumption | apply putFrame_kept | split | dsimp only

theorem holdFrame_kept {q s x0} (h : Kept q s) : Kept q (holdFrame x0 s) := by
  unfold holdFrame
  repeat' with_reducible first
    | assumption | apply putFrame_kept | apply modFab_kept | exact fun _ => rfl | rfl | split | dsimp only
    | apply Kept.upd

theorem modTim_kept {q s x0} (h : Kept q s) : Kept q (modTim x0 s) := by
  unfold modTim
  repeat' with_reducible first
    | assumption | exact fun _ => rfl | rfl | dsimp only | apply Kept.upd

theorem noteTime_kept {q s} (h : Kept q s) : Kept q (noteTime s) := by
  unfold noteTime
  repeat' with_reducible first
    | assumption | apply modTim_kept | exact fun _ => rfl | rfl | split | dsimp only | apply Kept.upd

theorem modIlg_kept {q s x0} (h : Kept q s) : Kept q (modIlg x0 s) := by
  unfold modIlg
  repeat' with_reducible first
    | assumption | exact fun _ => rfl | rfl | dsimp only | apply Kept.upd

theorem setIlgPort_kept {q s x0 x1} (h : Kept q s) : Kept q (setIlgPort x0 x1 s) := by
  unfold setIlgPort
  repeat' with_reducible first
    | assumption | apply modIlg_kept | dsimp only

theorem modIlgPort_kept {q s x0 x1} (h : Kept q s) : Kept q (modIlgPort x0 x1 s) := by
  unfold modIlgPort
  repeat' with_reducible first
    | assumption | apply setIlgPort_kept | dsimp only

theorem fcRequest_kept {q s x0 x1} (h : Kept q s) : Kept q (fcRequest x0 x1 s) := by
  unfold fcRequest
  repeat' with_reducible first
    | assumption | apply Kept.ite | intro _ | exact fun _ => rfl | rfl | split | dsimp only | apply Kept.upd

theorem xoffRequest_kept {q s x0} (h : Kept q s) : Kept q (xoffRequest x0 s) := by
  unfold xoffRequest
  repeat' with_reducible first
    | assumption | apply modFab_kept | apply fcRequest_kept | apply Kept.ite | intro _ | exact fun _ => rfl | rfl
    | split | dsimp only

theorem xonCheck_kept {q s} (h : Kept q s) : Kept q (xonCheck s) := by
  unfold xonCheck
  repeat' with_reducible first
    | assumption | apply fcRequest_kept | apply modFab_kept | apply Kept.each | apply Kept.ite | intro _
    | exact fun _ => rfl | rfl | split | dsimp only

theorem captureF_kept {q s x0 x1 x2 x3} (h : Kept q s) : Kept q (captureF x0 x1 x2 x3 s).2 := by
  unfold captureF
  repeat' with_reducible first
    | assumption | apply modFab_kept | apply count_kept | apply refuse_kept | apply ledRefuse_kept
    | apply ledAdmit_kept | apply wipeCells_kept | apply capture_kept | apply Kept.ite | intro _ | exact fun _ => rfl
    | rfl | split | dsimp only | apply Kept.upd

theorem capture_kept {q s x0 x1 x2 x3} (h : Kept q s) : Kept q (capture x0 x1 x2 x3 s) := by
  unfold capture
  repeat' with_reducible first
    | assumption | apply captureF_kept | apply modFab_kept | apply count_kept | apply ledRefuse_kept
    | apply ledAdmit_kept | apply Kept.ite | intro _ | exact fun _ => rfl | rfl | split | dsimp only

theorem captureOnce_kept {q s x0 x1 x2 x3} (h : Kept q s) : Kept q (captureOnce x0 x1 x2 x3 s) := by
  unfold captureOnce
  repeat' with_reducible first
    | assumption | apply captureF_kept | apply putFrame_kept | apply Kept.ite | refine Kept.of_eq2 ‹_› ?_
    | refine Kept.of_eq22 ‹_› ?_ | intro _ | split | dsimp only

/-! ### Spire -/

theorem setLine_kept {q s x0 x1} (h : Kept q s) : Kept q (setLine x0 x1 s) := by
  unfold setLine
  repeat' with_reducible first
    | assumption | exact fun _ => rfl | rfl | dsimp only | apply Kept.upd

theorem setDir_kept {q s x0 x1} (h : Kept q s) : Kept q (setDir x0 x1 s) := by
  unfold setDir
  repeat' with_reducible first
    | assumption | exact fun _ => rfl | rfl | dsimp only | apply Kept.upd

theorem modLine_kept {q s x0 x1} (h : Kept q s) : Kept q (modLine x0 x1 s) := by
  unfold modLine
  repeat' with_reducible first
    | assumption | apply setLine_kept | dsimp only

theorem modDir_kept {q s x0 x1} (h : Kept q s) : Kept q (modDir x0 x1 s) := by
  unfold modDir
  repeat' with_reducible first
    | assumption | apply setDir_kept | dsimp only

theorem sendFromS_kept {q s x0 x1 x2 x3} (h : Kept q s) : Kept q (sendFromS x0 x1 x2 x3 s) := by
  unfold sendFromS
  repeat' with_reducible first
    | assumption | apply refuse_kept | apply capture_kept | apply ledRefuse_kept | apply captureF_kept
    | apply ledAdmit_kept | apply holdFrame_kept | apply stat1_kept | apply statTxWhole_kept | apply stat_kept
    | apply ledDeliver_kept | apply emitOut_kept | split | dsimp only | apply Kept.upd

theorem sawForS_kept {q s x0 x1} (h : Kept q s) : Kept q (sawForS x0 x1 s) := by
  unfold sawForS
  repeat' with_reducible first
    | assumption | apply statRx_kept | apply stat1_kept | apply Kept.whenT | intro _ | split | dsimp only

theorem takeToS_kept {q s x0 x1 x2 x3} (h : Kept q s) : Kept q (takeToS x0 x1 x2 x3 s).2 := by
  unfold takeToS
  repeat' with_reducible first
    | assumption | apply sawForS_kept | apply refuse_kept | apply capture_kept | apply ledRefuse_kept
    | apply captureF_kept | apply ledAdmit_kept | apply ledDeliver_kept | apply stat1_kept | apply statRx_kept | split
    | dsimp only

theorem sendBeacon_kept {q s x0 x1 x2} (h : Kept q s) : Kept q (sendBeacon x0 x1 x2 s) := by
  unfold sendBeacon
  repeat' with_reducible first
    | assumption | apply sendFromS_kept | apply modLine_kept | dsimp only

theorem startBeacon_kept {q s x0 x1 x2} (h : Kept q s) : Kept q (startBeacon x0 x1 x2 s).2 := modLine_kept h

theorem startSpireFrame_kept {q s x0 x1 x2} (h : Kept q s) : Kept q (startSpireFrame x0 x1 x2 s).2 := by
  unfold startSpireFrame
  repeat' with_reducible first
    | assumption | apply startBeacon_kept | split | dsimp only

theorem linkUpBeacon_kept {q s x0} (h : Kept q s) : Kept q (linkUpBeacon x0 s) := by
  unfold linkUpBeacon
  repeat' with_reducible first
    | assumption | apply sendBeacon_kept | apply modLine_kept | dsimp only

theorem judgeDir_kept {q s x0} (h : Kept q s) : Kept q (judgeDir x0 s) := by
  unfold judgeDir
  repeat' with_reducible first
    | assumption | apply latch_kept | apply setF_kept | apply Kept.whenT | intro _ | dsimp only

theorem judgeDirs_kept {q s} (h : Kept q s) : Kept q (judgeDirs s) := by
  unfold judgeDirs
  repeat' with_reducible first
    | assumption | apply judgeDir_kept | dsimp only

theorem report_kept {q s x0 x1 x2} (h : Kept q s) : Kept q (report x0 x1 x2 s) := by
  unfold report
  repeat' with_reducible first
    | assumption | apply judgeDir_kept | apply modDir_kept | dsimp only

theorem queueRoster_kept {q s x0 x1} (h : Kept q s) : Kept q (queueRoster x0 x1 s) := by
  unfold queueRoster
  repeat' with_reducible first
    | assumption | apply modDir_kept | dsimp only

theorem ownEntry_kept {q s x0} (h : Kept q s) : Kept q (ownEntry x0 s) := by
  unfold ownEntry
  repeat' with_reducible first
    | assumption | apply queueRoster_kept | apply Kept.ite | intro _ | exact fun _ => rfl | rfl | split | dsimp only
    | apply Kept.upd

theorem resendRoster_kept {q s x0} (h : Kept q s) : Kept q (resendRoster x0 s) := by
  unfold resendRoster
  repeat' with_reducible first
    | assumption | apply queueRoster_kept | apply Kept.ite | intro _ | split | dsimp only

theorem oweCount_kept {q s x0} (h : Kept q s) : Kept q (oweCount x0 s) := by
  unfold oweCount
  repeat' with_reducible first
    | assumption | apply modDir_kept | apply Kept.ite | intro _ | split | dsimp only

theorem oweCounts_kept {q s} (h : Kept q s) : Kept q (oweCounts s) := by
  unfold oweCounts
  repeat' with_reducible first
    | assumption | apply oweCount_kept | dsimp only

theorem sendCount_kept {q s x0} (h : Kept q s) : Kept q (sendCount x0 s) := by
  unfold sendCount
  repeat' with_reducible first
    | assumption | apply sendFromS_kept | apply modDir_kept | apply Kept.each | intro _ | split | dsimp only

theorem setFsm_kept {q s x0} (h : Kept q s) : Kept q (setFsm x0 s) := by
  unfold setFsm
  repeat' with_reducible first
    | assumption | apply setF_kept | exact fun _ => rfl | rfl | dsimp only | apply Kept.upd

theorem showEnds_kept {q s} (h : Kept q s) : Kept q (showEnds s) := by
  unfold showEnds
  repeat' with_reducible first
    | assumption | apply setF_kept | dsimp only

theorem settleView_kept {q s} (h : Kept q s) : Kept q (settleView s) := by
  unfold settleView
  repeat' with_reducible first
    | assumption | apply setFsm_kept | apply Kept.ite | intro _ | exact fun _ => rfl | rfl | split | dsimp only
    | apply Kept.upd

theorem viewChange_kept {q s} (h : Kept q s) : Kept q (viewChange s) := by
  unfold viewChange
  repeat' with_reducible first
    | assumption | apply showEnds_kept | apply latch_kept | apply oweCounts_kept | apply settleView_kept
    | apply setFsm_kept | apply Kept.ite | intro _ | exact fun _ => rfl | rfl | split | dsimp only | apply Kept.upd

theorem putLstate_kept {q s x0 x1 x2} (h : Kept q s) : Kept q (putLstate x0 x1 x2 s) := by
  unfold putLstate
  repeat' with_reducible first
    | assumption | apply record_kept | apply latch_kept | apply setF_kept | apply later_kept | apply Kept.ite
    | intro _ | exact fun _ => rfl | rfl | split | dsimp only | apply Kept.upd

theorem freshExchange_kept {q s x0} (h : Kept q s) : Kept q (freshExchange x0 s) := by
  unfold freshExchange
  repeat' with_reducible first
    | assumption | apply modLine_kept | apply setF_kept | dsimp only

theorem forgetDir_kept {q s x0} (h : Kept q s) : Kept q (forgetDir x0 s) := by
  unfold forgetDir
  repeat' with_reducible first
    | assumption | apply modDir_kept | apply report_kept | exact fun _ => rfl | rfl | split | dsimp only
    | apply Kept.upd

theorem lineConfirmed_kept {q s x0} (h : Kept q s) : Kept q (lineConfirmed x0 s) := by
  unfold lineConfirmed
  repeat' with_reducible first
    | assumption | apply putLstate_kept | apply latch_kept | apply modDir_kept | apply report_kept
    | apply ownEntry_kept | apply resendRoster_kept | apply judgeDir_kept | apply viewChange_kept | apply Kept.ite
    | intro _ | exact fun _ => rfl | rfl | split | dsimp only | apply Kept.upd

theorem dropLine_kept {q s x0 x1 x2} (h : Kept q s) : Kept q (dropLine x0 x1 x2 s) := by
  unfold dropLine
  repeat' with_reducible first
    | assumption | apply freshExchange_kept | apply putLstate_kept | apply setF_kept | apply judgeDir_kept
    | apply forgetDir_kept | apply lineConfirmed_kept | apply viewChange_kept | apply Kept.ite | intro _ | split
    | dsimp only

theorem showDelay_kept {q s x0} (h : Kept q s) : Kept q (showDelay x0 s) := by
  unfold showDelay
  repeat' with_reducible first
    | assumption | apply setF_kept | apply Kept.ite | intro _ | split | dsimp only

theorem delaySample_kept {q s x0 x1 x2 x3} (h : Kept q s) : Kept q (delaySample x0 x1 x2 x3 s) := by
  unfold delaySample
  repeat' with_reducible first
    | assumption | apply showDelay_kept | apply modLine_kept | apply Kept.ite | intro _ | split | dsimp only

theorem clearMap_kept {q s} (h : Kept q s) : Kept q (clearMap s) := by
  unfold clearMap
  repeat' with_reducible first
    | assumption | apply setR_kept | apply Kept.each | apply Kept.ite | intro _ | split | dsimp only

theorem enterCompat_kept {q s} (h : Kept q s) : Kept q (enterCompat s) := by
  unfold enterCompat
  repeat' with_reducible first
    | assumption | apply setFsm_kept | apply clearMap_kept | apply latch_kept | apply record_kept
    | apply sendBeacon_kept | apply Kept.each | intro _ | exact fun _ => rfl | rfl | split | dsimp only
    | apply Kept.upd

theorem leaveCompat_kept {q s} (h : Kept q s) : Kept q (leaveCompat s) := by
  unfold leaveCompat
  repeat' with_reducible first
    | assumption | apply record_kept | apply setFsm_kept | apply settleView_kept | apply ownEntry_kept
    | apply oweCounts_kept | apply modDir_kept | dsimp only

theorem judgeCompat_kept {q s} (h : Kept q s) : Kept q (judgeCompat s) := by
  unfold judgeCompat
  repeat' with_reducible first
    | assumption | apply leaveCompat_kept | apply enterCompat_kept | apply Kept.ite | intro _ | exact fun _ => rfl
    | rfl | split | dsimp only | apply Kept.upd

theorem sprCtrlWritten_kept {q s} (h : Kept q s) : Kept q (sprCtrlWritten s) := by
  unfold sprCtrlWritten
  repeat' with_reducible first
    | assumption | apply judgeCompat_kept | apply Kept.ite | intro _ | exact fun _ => rfl
    | rfl | split | dsimp only | apply Kept.upd

/-! ### Epochs -/

theorem modSpr_kept {q s x0} (h : Kept q s) : Kept q (modSpr x0 s) := by
  unfold modSpr
  repeat' with_reducible first
    | assumption | exact fun _ => rfl | rfl | dsimp only | apply Kept.upd

theorem graceCount_kept {q s x0} (h : Kept q s) : Kept q (graceCount x0 s) := by
  unfold graceCount
  repeat' with_reducible first
    | assumption | apply modSpr_kept | apply Kept.ite | intro _ | split | dsimp only

theorem endGrace_kept {q s} (h : Kept q s) : Kept q (endGrace s) := by
  unfold endGrace
  repeat' with_reducible first
    | assumption | apply record_kept | apply latch_kept | apply setF_kept | apply judgeDirs_kept | apply modSpr_kept
    | apply Kept.ite | intro _ | split | dsimp only

theorem beginGrace_kept {q s} (h : Kept q s) : Kept q (beginGrace s) := by
  unfold beginGrace
  repeat' with_reducible first
    | assumption | apply setF_kept | apply modSpr_kept | dsimp only

theorem graceRewritten_kept {q s} (h : Kept q s) : Kept q (graceRewritten s) := by
  unfold graceRewritten
  repeat' with_reducible first
    | assumption | apply endGrace_kept | apply modSpr_kept | apply Kept.ite | intro _ | split | dsimp only

theorem fillRoutes_kept {q s x0 x1 x2 x3} (h : Kept q s) : Kept q (fillRoutes x0 x1 x2 x3 s) := by
  unfold fillRoutes
  repeat' with_reducible first
    | assumption | apply setR_kept | apply Kept.each | apply Kept.ite | intro _ | split | dsimp only

theorem acceptCommit_kept {q s x0 x1 x2 x3 x4 x5 x6 x7 x8} (h : Kept q s) :
    Kept q (acceptCommit x0 x1 x2 x3 x4 x5 x6 x7 x8 s) := by
  unfold acceptCommit
  repeat' with_reducible first
    | assumption | apply fillRoutes_kept | apply setF_kept | apply setFsm_kept | apply latch_kept
    | apply judgeDirs_kept | apply modSpr_kept | apply Kept.whenT | apply Kept.ite | intro _ | split | dsimp only

theorem showDir_kept {q s x0} (h : Kept q s) : Kept q (showDir x0 s) := by
  unfold showDir
  repeat' with_reducible first
    | assumption | apply setF_kept | split | dsimp only

theorem showId_kept {q s x0 x1 x2} (h : Kept q s) : Kept q (showId x0 x1 x2 s) := by
  unfold showId
  repeat' with_reducible first
    | assumption | apply setR_kept | dsimp only

theorem sendLeaving_kept {q s} (h : Kept q s) : Kept q (sendLeaving s) := by
  unfold sendLeaving
  repeat' with_reducible first
    | assumption | apply sendBeacon_kept | apply Kept.each | intro _ | split | dsimp only

theorem makeSwitch_kept {q s x0 x1} (h : Kept q s) : Kept q (makeSwitch x0 x1 s) := by
  unfold makeSwitch
  repeat' with_reducible first
    | assumption | apply endGrace_kept | apply modSpr_kept | apply setF_kept | apply setR_kept | apply showId_kept
    | apply showEnds_kept | apply showDir_kept | apply latch_kept | apply beginGrace_kept | apply count_kept
    | apply record_kept | apply judgeDirs_kept | apply later_kept | apply setFsm_kept | apply ownEntry_kept
    | apply sendLeaving_kept | apply enterCompat_kept | apply oweCounts_kept | apply settleView_kept | apply Kept.each
    | apply Kept.whenT | apply Kept.ite | intro _ | exact fun _ => rfl | rfl | split | dsimp only | apply Kept.upd

theorem abortCommit_kept {q s x0 x1 x2} (h : Kept q s) : Kept q (abortCommit x0 x1 x2 s) := by
  unfold abortCommit
  repeat' with_reducible first
    | assumption | apply record_kept | apply latch_kept | apply count_kept | apply setF_kept | apply setFsm_kept
    | apply modSpr_kept | apply Kept.whenT | intro _ | dsimp only

theorem settleExpiry_kept {q s} (h : Kept q s) : Kept q (settleExpiry s) := by
  unfold settleExpiry
  repeat' with_reducible first
    | assumption | apply modSpr_kept | apply advanceTo_kept | apply latch_kept | apply setF_kept
    | apply acceptCommit_kept | apply makeSwitch_kept | apply Kept.whenT | apply Kept.ite | intro _ | split
    | dsimp only

theorem waitTimeout_kept {q s} (h : Kept q s) : Kept q (waitTimeout s) := by
  unfold waitTimeout
  repeat' with_reducible first
    | assumption | apply abortCommit_kept | apply advanceTo_kept | split | dsimp only

theorem backoffExpiry_kept {q s} (h : Kept q s) : Kept q (backoffExpiry s) := by
  unfold backoffExpiry
  repeat' with_reducible first
    | assumption | apply settleView_kept | apply oweCounts_kept | apply modDir_kept | apply setFsm_kept
    | apply advanceTo_kept | split | dsimp only

theorem switchInstant_kept {q s} (h : Kept q s) : Kept q (switchInstant s) := by
  unfold switchInstant
  repeat' with_reducible first
    | assumption | apply advanceTo_kept | apply makeSwitch_kept | apply request_kept | apply sendBeacon_kept
    | apply Kept.each | apply Kept.ite | intro _ | split | dsimp only

theorem graceExpiry_kept {q s} (h : Kept q s) : Kept q (graceExpiry s) := by
  unfold graceExpiry
  repeat' with_reducible first
    | assumption | apply endGrace_kept | apply advanceTo_kept | split | dsimp only

theorem sendCommit_kept {q s x0} (h : Kept q s) : Kept q (sendCommit x0 s) := by
  unfold sendCommit
  repeat' with_reducible first
    | assumption | apply modSpr_kept | apply advanceTo_kept | apply sendFromS_kept | apply report_kept
    | apply Kept.each | apply Kept.ite | intro _ | split | dsimp only

theorem badSpire_kept {q s} (h : Kept q s) : Kept q (badSpire s) := by
  unfold badSpire
  repeat' with_reducible first
    | assumption | apply count_kept | dsimp only

theorem takeBeacon_kept {q s x0 x1 x2} (h : Kept q s) : Kept q (takeBeacon x0 x1 x2 s) := by
  unfold takeBeacon
  repeat' with_reducible first
    | assumption | apply modLine_kept | apply dropLine_kept | apply count_kept | apply showId_kept
    | apply delaySample_kept | apply lineConfirmed_kept | apply report_kept | apply judgeCompat_kept
    | apply Kept.whenT | apply Kept.ite | intro _ | exact fun _ => rfl | rfl | split | dsimp only | apply Kept.upd

theorem beaconDeadline_kept {q s x0} (h : Kept q s) : Kept q (beaconDeadline x0 s) := by
  unfold beaconDeadline
  repeat' with_reducible first
    | assumption | apply judgeCompat_kept | apply dropLine_kept | apply modLine_kept | apply advanceTo_kept
    | apply Kept.ite | intro _ | split | dsimp only

theorem takeCount_kept {q s x0 x1} (h : Kept q s) : Kept q (takeCount x0 x1 s) := by
  unfold takeCount
  repeat' with_reducible first
    | assumption | apply modDir_kept | apply viewChange_kept | apply settleView_kept | apply Kept.whenT
    | apply Kept.ite | intro _ | split | dsimp only

theorem takeCommit_kept {q s x0 x1 x2} (h : Kept q s) : Kept q (takeCommit x0 x1 x2 s) := by
  unfold takeCommit
  repeat' with_reducible first
    | assumption | apply count_kept | apply acceptCommit_kept | apply report_kept | apply abortCommit_kept
    | apply Kept.ite | intro _ | split | dsimp only

theorem takeSpire_kept {q s x0 x1 x2} (h : Kept q s) : Kept q (takeSpire x0 x1 x2 s) := by
  unfold takeSpire
  repeat' with_reducible first
    | assumption | apply takeToS_kept | apply badSpire_kept | apply setF_kept | apply latch_kept
    | apply takeBeacon_kept | apply takeCount_kept | apply takeCommit_kept | apply Kept.ite | intro _ | split
    | dsimp only

theorem takeRoster_kept {q s x0 x1 x2} (h : Kept q s) : Kept q (takeRoster x0 x1 x2 s) := by
  unfold takeRoster
  repeat' with_reducible first
    | assumption | apply takeToS_kept | apply badSpire_kept | apply modDir_kept | apply report_kept
    | apply queueRoster_kept | apply Kept.ite | intro _ | exact fun _ => rfl | rfl | split | dsimp only
    | apply Kept.upd

theorem sendRoster_kept {q s x0} (h : Kept q s) : Kept q (sendRoster x0 s) := by
  unfold sendRoster
  repeat' with_reducible first
    | assumption | apply modDir_kept | apply sendFromS_kept | apply Kept.each | apply Kept.ite | intro _ | split
    | dsimp only

theorem beaconPeriod_kept {q s} (h : Kept q s) : Kept q (beaconPeriod s) := by
  unfold beaconPeriod
  repeat' with_reducible first
    | assumption | apply advanceTo_kept | apply sendBeacon_kept | apply modLine_kept | apply Kept.each
    | apply Kept.whenT | apply Kept.foldl | apply Kept.foldl2 | apply Kept.ite | intro _ | split | dsimp only

theorem answerBeacon_kept {q s x0} (h : Kept q s) : Kept q (answerBeacon x0 s) := by
  unfold answerBeacon
  repeat' with_reducible first
    | assumption | apply sendBeacon_kept | apply modLine_kept | apply Kept.ite | intro _ | split | dsimp only

theorem sprLinkUp_kept {q s x0} (h : Kept q s) : Kept q (sprLinkUp x0 s) := by
  unfold sprLinkUp
  repeat' with_reducible first
    | assumption | apply modLine_kept | apply freshExchange_kept | apply putLstate_kept | apply linkUpBeacon_kept
    | apply Kept.ite | intro _ | split | dsimp only

theorem sprLinkDown_kept {q s x0 x1} (h : Kept q s) : Kept q (sprLinkDown x0 x1 s) := by
  unfold sprLinkDown
  repeat' with_reducible first
    | assumption | apply modLine_kept | apply judgeCompat_kept | apply dropLine_kept | apply Kept.ite | intro _
    | split | dsimp only

theorem startSpire_kept {q s} (h : Kept q s) : Kept q (startSpire s) := by
  unfold startSpire
  repeat' with_reducible first
    | assumption | apply showEnds_kept | apply setF_kept | apply setFsm_kept | apply modDir_kept
    | apply linkUpBeacon_kept | apply judgeCompat_kept | apply settleView_kept | apply Kept.each | apply Kept.ite
    | intro _ | split | dsimp only

theorem stoppingSpire_kept {q s} (h : Kept q s) : Kept q (stoppingSpire s) := by
  unfold stoppingSpire
  repeat' with_reducible first
    | assumption | apply sendLeaving_kept | apply Kept.ite | intro _ | split | dsimp only

theorem stopSpire_kept {q s} (h : Kept q s) : Kept q (stopSpire s) := by
  unfold stopSpire
  repeat' with_reducible first
    | assumption | apply sendBeacon_kept | apply modSpr_kept | apply setFsm_kept | apply setF_kept
    | apply modLine_kept | apply freshExchange_kept | apply putLstate_kept | apply showEnds_kept
    | apply judgeDirs_kept | apply modDir_kept | apply Kept.each | apply Kept.ite | intro _ | split | dsimp only

theorem takeLead_kept {q s} (h : Kept q s) : Kept q (takeLead s) := by
  unfold takeLead
  repeat' with_reducible first
    | assumption | apply modSpr_kept | apply setF_kept | apply viewChange_kept | apply Kept.ite | intro _ | split
    | dsimp only

theorem leadInput_kept {q s x0} (h : Kept q s) : Kept q (leadInput x0 s) := by
  unfold leadInput
  repeat' with_reducible first
    | assumption | apply setF_kept | apply modSpr_kept | apply takeLead_kept | apply Kept.ite | intro _ | split
    | dsimp only

theorem leadAccept_kept {q s} (h : Kept q s) : Kept q (leadAccept s) := by
  unfold leadAccept
  repeat' with_reducible first
    | assumption | apply takeLead_kept | apply advanceTo_kept | split | dsimp only

theorem helloSend_kept {q s} (h : Kept q s) : Kept q (helloSend s) := by
  unfold helloSend
  repeat' with_reducible first
    | assumption | apply advanceTo_kept | apply modSpr_kept | apply drawFree_kept | apply sendFromS_kept
    | apply Kept.each | apply Kept.ite | refine Kept.of_eq2 ‹_› ?_ | refine Kept.of_eq22 ‹_› ?_ | intro _ | split
    | dsimp only

theorem noteHello_kept {q s x0 x1} (h : Kept q s) : Kept q (noteHello x0 x1 s) := by
  unfold noteHello
  repeat' with_reducible first
    | assumption | apply setF_kept | apply latch_kept | apply modLine_kept | apply modSpr_kept
    | apply judgeCompat_kept | apply Kept.whenT | intro _ | exact fun _ => rfl | rfl | split | dsimp only
    | apply Kept.upd

theorem takeHello_kept {q s x0 x1 x2} (h : Kept q s) : Kept q (takeHello x0 x1 x2 s) := by
  unfold takeHello
  repeat' with_reducible first
    | assumption | apply takeToS_kept | apply noteHello_kept | split | dsimp only

theorem dropHello_kept {q s x0 x1 x2 x3} (h : Kept q s) : Kept q (dropHello x0 x1 x2 x3 s) := by
  unfold dropHello
  repeat' with_reducible first
    | assumption | apply noteHello_kept | apply ledRefuse_kept | apply capture_kept | apply count_kept | apply statRx_kept

theorem helloTimeout_kept {q s x0} (h : Kept q s) : Kept q (helloTimeout x0 s) := by
  unfold helloTimeout
  repeat' with_reducible first
    | assumption | apply latch_kept | apply setF_kept | apply modLine_kept | apply advanceTo_kept | split | dsimp only

theorem holdExpiry_kept {q s} (h : Kept q s) : Kept q (holdExpiry s) := by
  unfold holdExpiry
  repeat' with_reducible first
    | assumption | apply judgeCompat_kept | apply modSpr_kept | apply advanceTo_kept | split | dsimp only

theorem holdRewritten_kept {q s} (h : Kept q s) : Kept q (holdRewritten s) := by
  unfold holdRewritten
  repeat' with_reducible first
    | assumption | apply modSpr_kept | apply judgeCompat_kept | apply Kept.ite | intro _ | exact fun _ => rfl | rfl
    | split | dsimp only | apply Kept.upd

theorem compatCommit_kept {q s x0} (h : Kept q s) : Kept q (compatCommit x0 s) := by
  unfold compatCommit
  repeat' with_reducible first
    | assumption | apply drawFree_kept | apply inCycles_kept | apply hostSwitch_kept | apply setF_kept
    | apply makeSwitch_kept | refine Kept.of_eq22 ‹_› ?_ | refine Kept.of_eq2 ‹_› ?_ | apply Kept.ite | intro _
    | split | dsimp only | apply Kept.upd

theorem hostSwitch_kept {q s x0} (h : Kept q s) : Kept q (hostSwitch x0 s) := by
  unfold hostSwitch
  repeat' with_reducible first
    | assumption | apply makeSwitch_kept | apply setF_kept | apply Kept.ite | intro _ | split | dsimp only

/-! ### Rings -/

theorem modHost_kept {q s x0} (h : Kept q s) : Kept q (modHost x0 s) := by
  unfold modHost
  repeat' with_reducible first
    | assumption | exact fun _ => rfl | rfl | dsimp only | apply Kept.upd

theorem writeHost_kept {q s x0 x1} (h : Kept q s) : Kept q (writeHost x0 x1 s) := by
  unfold writeHost
  repeat' with_reducible first
    | assumption | apply emitOut_kept | apply Kept.each | intro _ | split | dsimp only

theorem readHost_kept {q s x0 x1} (h : Kept q s) : Kept q (readHost x0 x1 s) := by
  unfold readHost
  repeat' with_reducible first
    | assumption | apply emitOut_kept | apply modHost_kept | apply Kept.each | apply Kept.ite | intro _
    | exact fun _ => rfl | rfl | split | dsimp only | apply Kept.upd

theorem msix_kept {q s x0} (h : Kept q s) : Kept q (msix x0 s) := by
  unfold msix
  repeat' with_reducible first
    | assumption | apply emitOut_kept | apply modHost_kept | apply Kept.ite | intro _ | split | dsimp only

theorem flushMsix_kept {q s} (h : Kept q s) : Kept q (flushMsix s) := by
  unfold flushMsix
  repeat' with_reducible first
    | assumption | apply modHost_kept | apply emitOut_kept | apply Kept.each | intro _ | dsimp only

theorem setRing_kept {q s x0 x1} (h : Kept q s) : Kept q (setRing x0 x1 s) := by
  unfold setRing
  repeat' with_reducible first
    | assumption | apply modHost_kept | apply setF_kept | dsimp only

theorem modRing_kept {q s x0 x1} (h : Kept q s) : Kept q (modRing x0 x1 s) := by
  unfold modRing
  repeat' with_reducible first
    | assumption | apply setRing_kept | dsimp only

theorem ringEvent_kept {q s x0 x1} (h : Kept q s) : Kept q (ringEvent x0 x1 s) := by
  unfold ringEvent
  repeat' with_reducible first
    | assumption | apply latchBits_kept | apply latch_kept | apply Kept.ite | intro _ | split | dsimp only

theorem writeBack_kept {q s x0 x1 x2} (h : Kept q s) : Kept q (writeBack x0 x1 x2 s) := by
  unfold writeBack
  repeat' with_reducible first
    | assumption | apply emitOut_kept | apply modHost_kept | apply Kept.ite | intro _ | split | dsimp only

theorem announce_kept {q s x0} (h : Kept q s) : Kept q (announce x0 s) := by
  unfold announce
  repeat' with_reducible first
    | assumption | apply msix_kept | apply modRing_kept | dsimp only

theorem noteWriteback_kept {q s x0} (h : Kept q s) : Kept q (noteWriteback x0 s) := by
  unfold noteWriteback
  repeat' with_reducible first
    | assumption | apply announce_kept | apply modRing_kept | apply Kept.ite | intro _ | split | dsimp only

theorem moderationTimer_kept {q s x0} (h : Kept q s) : Kept q (moderationTimer x0 s) := by
  unfold moderationTimer
  repeat' with_reducible first
    | assumption | apply announce_kept | apply advanceTo_kept | apply Kept.ite | intro _ | split | dsimp only

theorem moderationWritten_kept {q s x0} (h : Kept q s) : Kept q (moderationWritten x0 s) := by
  unfold moderationWritten
  repeat' with_reducible first
    | assumption | apply announce_kept | apply Kept.whenT | intro _ | split | dsimp only

theorem badBuffer_kept {q s x0} (h : Kept q s) : Kept q (badBuffer x0 s) := by
  unfold badBuffer
  repeat' with_reducible first
    | assumption | apply writeBack_kept | apply modRing_kept | apply noteWriteback_kept | exact fun _ => rfl | rfl
    | split | dsimp only

theorem shedShort_kept {q s x0 x1} (h : Kept q s) : Kept q (shedShort x0 x1 s) := by
  induction x0 generalizing s with
  | zero => exact h
  | succ n ih =>
    unfold shedShort
    repeat' with_reducible first
      | assumption | apply ih | apply badBuffer_kept | split

theorem putEvent_kept {q s x0 x1 x2} (h : Kept q s) : Kept q (putEvent x0 x1 x2 s) := by
  unfold putEvent
  repeat' with_reducible first
    | assumption | apply announce_kept | apply count_kept | apply modRing_kept | apply writeBack_kept
    | apply Kept.whenT | intro _ | dsimp only

theorem gapEvent_kept {q s x0} (h : Kept q s) : Kept q (gapEvent x0 s) := by
  unfold gapEvent
  repeat' with_reducible first
    | assumption | apply putEvent_kept | apply modRing_kept | apply Kept.ite | intro _ | split | dsimp only

theorem loseEvent_kept {q s x0} (h : Kept q s) : Kept q (loseEvent x0 s) := by
  unfold loseEvent
  repeat' with_reducible first
    | assumption | apply modRing_kept | apply ringEvent_kept | apply count_kept | dsimp only

theorem eventRecord_kept {q s x0 x1 x2} (h : Kept q s) : Kept q (eventRecord x0 x1 x2 s) := by
  unfold eventRecord
  repeat' with_reducible first
    | assumption | apply gapEvent_kept | apply putEvent_kept | apply loseEvent_kept | apply Kept.ite | intro _ | split
    | dsimp only

theorem flushJobs_kept {q s x0 x1} (h : Kept q s) : Kept q (flushJobs x0 x1 s) := by
  induction x1 generalizing s with
  | nil =>
    unfold flushJobs
    repeat' with_reducible first
      | assumption | apply modRing_kept | apply writeBack_kept | apply count_kept | apply noteWriteback_kept
      | apply Kept.each | apply Kept.whenT | intro _ | split | dsimp only
  | cons a l ih =>
    unfold flushJobs
    repeat' with_reducible first
      | assumption | apply ih | apply modRing_kept | apply writeBack_kept | apply count_kept
      | apply noteWriteback_kept | apply Kept.each | apply Kept.whenT | intro _ | split | dsimp only

theorem txDone_kept {q s x0 x1 x2 x3 x4 x5 x6} (h : Kept q s) : Kept q (txDone x0 x1 x2 x3 x4 x5 x6 s) := by
  unfold txDone
  repeat' with_reducible first
    | assumption | apply flushJobs_kept | apply Kept.ite | intro _ | split | dsimp only

theorem txDoneOpen_kept {q s x0 x1 x2 x3} (h : Kept q s) : Kept q (txDoneOpen x0 x1 x2 x3 s) := by
  unfold txDoneOpen
  repeat' with_reducible first
    | assumption | apply drawFree_kept | apply txDone_kept | refine Kept.of_eq2 ‹_› ?_ | refine Kept.of_eq22 ‹_› ?_
    | dsimp only

theorem formJobs_kept {q s x0 x1} (h : Kept q s) : Kept q (formJobs x0 x1 s) := by
  induction x0 generalizing s with
  | zero =>
    unfold formJobs
    repeat' with_reducible first
      | assumption | apply drawFree_kept | apply modHost_kept | apply modRing_kept | apply flushJobs_kept
      | apply Kept.ite | refine Kept.of_eq2 ‹_› ?_ | refine Kept.of_eq22 ‹_› ?_ | intro _ | split | dsimp only
  | succ n ih =>
    unfold formJobs
    repeat' with_reducible first
      | assumption | apply ih | apply drawFree_kept | apply modHost_kept | apply modRing_kept | apply flushJobs_kept
      | apply Kept.ite | refine Kept.of_eq2 ‹_› ?_ | refine Kept.of_eq22 ‹_› ?_ | intro _ | split | dsimp only

theorem txFetched_kept {q s x0 x1} (h : Kept q s) : Kept q (txFetched x0 x1 s) := by
  unfold txFetched
  repeat' with_reducible first
    | assumption | apply modRing_kept | apply formJobs_kept | apply Kept.ite | intro _ | split | dsimp only

theorem setFate_kept {q s x0 x1 x2} (h : Kept q s) : Kept q (setFate x0 x1 x2 s) := by
  unfold setFate
  repeat' with_reducible first
    | assumption | apply modRing_kept | apply Kept.ite | intro _ | split | dsimp only

theorem dmaError_kept {q s x0 x1 x2 x3} (h : Kept q s) : Kept q (dmaError x0 x1 x2 x3 s) := by
  unfold dmaError
  repeat' with_reducible first
    | assumption | apply count_kept | apply latch_kept | apply setF_kept | apply setR_kept | apply record_kept
    | apply Kept.whenT | intro _ | dsimp only

theorem wdogLoad_kept {q s} (h : Kept q s) : Kept q (wdogLoad s) := by
  unfold wdogLoad
  repeat' with_reducible first
    | assumption | apply modHost_kept | dsimp only

theorem wdogKick_kept {q s} (h : Kept q s) : Kept q (wdogKick s) := by
  unfold wdogKick
  repeat' with_reducible first
    | assumption | apply wdogLoad_kept | apply setF_kept | apply Kept.ite | intro _ | split | dsimp only

theorem wdogExpiry_kept {q s} (h : Kept q s) : Kept q (wdogExpiry s) := by
  unfold wdogExpiry
  repeat' with_reducible first
    | assumption | apply modHost_kept | apply advanceTo_kept | apply trigger_kept | apply record_kept
    | apply latch_kept | apply setF_kept | apply Kept.whenT | intro _ | split | dsimp only

/-! ### Buffers -/

theorem freeFrame_kept {q s x0 x1} (h : Kept q s) : Kept q (freeFrame x0 x1 s) := by
  unfold freeFrame
  repeat' with_reducible first
    | assumption | apply modFab_kept | apply xonCheck_kept | apply modIlgPort_kept | apply Kept.ite | intro _
    | exact fun _ => rfl | rfl | split | dsimp only

theorem removeCopy_kept {q s x0 x1} (h : Kept q s) : Kept q (removeCopy x0 x1 s) := by
  unfold removeCopy
  repeat' with_reducible first
    | assumption | apply modFab_kept | apply freeFrame_kept | apply putFrame_kept | apply Kept.ite | intro _
    | exact fun _ => rfl | rfl | split | dsimp only

theorem tsResolve_kept {q s x0 x1} (h : Kept q s) : Kept q (tsResolve x0 x1 s) := by
  unfold tsResolve
  repeat' with_reducible first
    | assumption | apply txDone_kept | apply txDoneOpen_kept | apply Kept.ite | intro _ | split | dsimp only

theorem unlock_kept {q s x0 x1} (h : Kept q s) : Kept q (unlock x0 x1 s) := by
  unfold unlock
  repeat' with_reducible first
    | assumption | apply modFab_kept | exact fun _ => rfl | rfl | dsimp only

theorem dropCopy_kept {q s x0 x1 x2} (h : Kept q s) : Kept q (dropCopy x0 x1 x2 s) := by
  unfold dropCopy
  repeat' with_reducible first
    | assumption | apply captureOnce_kept | apply unlock_kept | apply ledDrop_kept | apply removeCopy_kept
    | apply tsResolve_kept | apply stat1_kept | apply Kept.whenT | apply Kept.ite | intro _ | split | dsimp only

theorem deliverCopy_kept {q s x0 x1} (h : Kept q s) : Kept q (deliverCopy x0 x1 s) := by
  unfold deliverCopy
  repeat' with_reducible first
    | assumption | apply removeCopy_kept | apply ledDeliver_kept | split | dsimp only

theorem dropFrame_kept {q s x0 x1} (h : Kept q s) : Kept q (dropFrame x0 x1 s) := by
  unfold dropFrame
  repeat' with_reducible first
    | assumption | apply modFrame_kept | apply dropCopy_kept | apply freeFrame_kept | apply Kept.each | intro _
    | split | dsimp only

theorem dropEarly_kept {q s x0 x1} (h : Kept q s) : Kept q (dropEarly x0 x1 s).2 := by
  unfold dropEarly
  repeat' with_reducible first
    | assumption | apply captureF_kept | apply ledRefuse_kept | apply Kept.foldl | apply Kept.foldl2
    | refine Kept.of_eq2 ‹_› ?_ | refine Kept.of_eq22 ‹_› ?_ | intro _ | dsimp only

theorem refuseFrame_kept {q s x0 x1 x2 x3} (h : Kept q s) : Kept q (refuseFrame x0 x1 x2 x3 s) := by
  unfold refuseFrame
  repeat' with_reducible first
    | assumption | apply ledRefuse_kept | apply capture_kept | dsimp only

theorem setTxq_kept {q s x0 x1 x2} (h : Kept q s) : Kept q (setTxq x0 x1 x2 s) := by
  unfold setTxq
  repeat' with_reducible first
    | assumption | apply modFab_kept | exact fun _ => rfl | rfl | dsimp only

theorem showAgg_kept {q s x0} (h : Kept q s) : Kept q (showAgg x0 s) := by
  unfold showAgg
  repeat' with_reducible first
    | assumption | apply setF_kept | apply Kept.ite | intro _ | split | dsimp only

end Sys2Proof.Machine
end

