-- ==== Sys2Proof/Laws/KeepsFabric.lean ====
section
/-! SUPPORT. What every operation keeps, one lemma each: time, phase, the fabric, the MACs and the ring writer. -/
namespace Sys2Proof.Machine
set_option maxRecDepth 2000
set_option linter.unusedTactic false
set_option linter.unreachableTactic false

/-! ### Time -/

theorem setServo_kept {q s x0} (h : Kept q s) : Kept q (setServo x0 s) := by
  unfold setServo
  repeat' with_reducible first
    | assumption | apply setF_kept | dsimp only

theorem settleTime_kept {q s} (h : Kept q s) : Kept q (settleTime s) := by
  unfold settleTime
  repeat' with_reducible first
    | assumption | apply setF_kept | apply modTim_kept | apply setServo_kept | apply Kept.ite | intro _ | split
    | dsimp only

theorem enterHoldover_kept {q s} (h : Kept q s) : Kept q (enterHoldover s) := by
  unfold enterHoldover
  repeat' with_reducible first
    | assumption | apply modTim_kept | apply latch_kept | apply setServo_kept | apply Kept.ite | intro _ | split
    | dsimp only

theorem takeSlave_kept {q s x0} (h : Kept q s) : Kept q (takeSlave x0 s) := by
  unfold takeSlave
  repeat' with_reducible first
    | assumption | apply modTim_kept | apply setServo_kept | apply setF_kept | dsimp only

theorem loseSlave_kept {q s} (h : Kept q s) : Kept q (loseSlave s) := by
  unfold loseSlave
  repeat' with_reducible first
    | assumption | apply enterHoldover_kept | apply setF_kept | dsimp only

theorem timeDirDown_kept {q s x0} (h : Kept q s) : Kept q (timeDirDown x0 s) := by
  unfold timeDirDown
  repeat' with_reducible first
    | assumption | apply loseSlave_kept | apply Kept.ite | intro _ | split | dsimp only

theorem useRate_kept {q s x0} (h : Kept q s) : Kept q (useRate x0 s) := by
  unfold useRate
  exact Kept.ite (Kept.upd (setI_kept h)) (fun _ => setI_kept h)

theorem setRate_kept {q s x0} (h : Kept q s) : Kept q (setRate x0 s) := by
  unfold setRate
  repeat' with_reducible first
    | assumption | apply useRate_kept | apply modTim_kept | dsimp only

theorem slewOver_kept {q s} (h : Kept q s) : Kept q (slewOver s) := by
  unfold slewOver
  repeat' with_reducible first
    | assumption | apply setRate_kept | apply setF_kept | apply modTim_kept | dsimp only

theorem slewStart_kept {q s x0 x1} (h : Kept q s) : Kept q (slewStart x0 x1 s) := by
  unfold slewStart
  repeat' with_reducible first
    | assumption | apply record_kept | apply latch_kept | apply count_kept | apply slewOver_kept | apply useRate_kept
    | apply setF_kept | apply modTim_kept | apply Kept.ite | intro _ | split | dsimp only

theorem slewEnd_kept {q s} (h : Kept q s) : Kept q (slewEnd s) := by
  unfold slewEnd
  repeat' with_reducible first
    | assumption | apply slewOver_kept | apply advanceTo_kept | split | dsimp only

theorem stepTime_kept {q s x0 x1} (h : Kept q s) : Kept q (stepTime x0 x1 s) := by
  unfold stepTime
  repeat' with_reducible first
    | assumption | apply noteTime_kept | apply advance_kept | apply setR_kept | apply count_kept | apply latch_kept
    | apply record_kept | apply modTim_kept | apply later_kept | exact fun _ => rfl | rfl | split | dsimp only
    | apply Kept.upd

theorem usePermits_kept {q s} (h : Kept q s) : Kept q (usePermits s) := by
  unfold usePermits
  repeat' with_reducible first
    | assumption | apply modTim_kept | apply setF_kept | dsimp only

theorem hostAdjust_kept {q s} (h : Kept q s) : Kept q (hostAdjust s) := by
  unfold hostAdjust
  repeat' with_reducible first
    | assumption | apply count_kept | apply stepTime_kept | apply usePermits_kept | apply slewStart_kept
    | apply Kept.ite | intro _ | split | dsimp only

theorem servoUpdate_kept {q s x0 x1} (h : Kept q s) : Kept q (servoUpdate x0 x1 s) := by
  unfold servoUpdate
  repeat' with_reducible first
    | assumption | apply setRate_kept | apply modTim_kept | dsimp only

theorem servoRequest_kept {q s x0 x1 x2 x3 x4} (h : Kept q s) : Kept q (servoRequest x0 x1 x2 x3 x4 s).2 := by
  unfold servoRequest
  repeat' with_reducible first
    | assumption | apply stepTime_kept | apply usePermits_kept | apply modTim_kept | apply setRate_kept
    | apply slewStart_kept | apply servoUpdate_kept | apply Kept.ite | intro _ | split | dsimp only

theorem servoMove_kept {q s x0 x1} (h : Kept q s) : Kept q (servoMove x0 x1 s) := by
  unfold servoMove
  repeat' with_reducible first
    | assumption | apply modTim_kept | apply setServo_kept | apply setF_kept | apply latch_kept | apply Kept.ite
    | intro _ | split | dsimp only

theorem servoNoted_kept {q s x0} (h : Kept q s) : Kept q (servoNoted x0 s) := by
  unfold servoNoted
  repeat' with_reducible first
    | assumption | apply setI_kept | apply modTim_kept | apply setServo_kept | apply Kept.ite | intro _ | split
    | dsimp only

theorem servoAccept_kept {q s x0 x1 x2 x3 x4} (h : Kept q s) : Kept q (servoAccept x0 x1 x2 x3 x4 s).2 := by
  have hn : Kept q (servoNoted x0 s) := servoNoted_kept h
  rw [servoAccept]
  generalize servoNoted x0 s = t at hn
  by_cases c : t.tim.slewEnd.isSome
  · simp only [c, if_true]; exact servoMove_kept hn
  · simp only [c]; exact servoMove_kept (servoRequest_kept hn)

theorem setMergeDir_kept {q s x0} (h : Kept q s) : Kept q (setMergeDir x0 s) := by
  unfold setMergeDir
  repeat' with_reducible first
    | assumption | apply setF_kept | dsimp only

theorem endMerge_kept {q s x0} (h : Kept q s) : Kept q (endMerge x0 s) := by
  unfold endMerge
  repeat' with_reducible first
    | assumption | apply record_kept | apply latch_kept | apply modTim_kept | apply setF_kept | apply setMergeDir_kept
    | apply Kept.ite | intro _ | split | dsimp only

theorem gmResume_kept {q s} (h : Kept q s) : Kept q (gmResume s) := by
  unfold gmResume
  repeat' with_reducible first
    | assumption | apply settleTime_kept | apply modTim_kept | apply latch_kept | apply setF_kept | dsimp only

theorem timeSwitched_kept {q s} (h : Kept q s) : Kept q (timeSwitched s) := by
  unfold timeSwitched
  repeat' with_reducible first
    | assumption | apply modDir_kept | apply latch_kept | apply setF_kept | apply record_kept | apply setMergeDir_kept
    | apply takeSlave_kept | apply modTim_kept | apply settleTime_kept | apply Kept.whenT | apply Kept.ite | intro _
    | split | dsimp only

theorem mergeTimeout_kept {q s} (h : Kept q s) : Kept q (mergeTimeout s) := by
  unfold mergeTimeout
  repeat' with_reducible first
    | assumption | apply endMerge_kept | apply advanceTo_kept | split | dsimp only

theorem mergeWaitExpiry_kept {q s} (h : Kept q s) : Kept q (mergeWaitExpiry s) := by
  unfold mergeWaitExpiry
  repeat' with_reducible first
    | assumption | apply gmResume_kept | apply loseSlave_kept | apply modTim_kept | apply advanceTo_kept
    | apply Kept.whenT | apply Kept.ite | intro _ | split | dsimp only

theorem startOwnFrame_kept {q s x0 x1} (h : Kept q s) : Kept q (startOwnFrame x0 x1 s).2 := by
  unfold startOwnFrame
  repeat' with_reducible first
    | assumption | apply startSpireFrame_kept | split | dsimp only

theorem sendSync_kept {q s x0} (h : Kept q s) : Kept q (sendSync x0 s) := by
  unfold sendSync
  repeat' with_reducible first
    | assumption | apply modTim_kept | apply sendFromS_kept | apply sendSyncLine_kept | apply Kept.each
    | apply Kept.ite | intro _ | exact fun _ => rfl | rfl | split | dsimp only | apply Kept.upd

theorem syncSend_kept {q s} (h : Kept q s) : Kept q (syncSend s) := by
  unfold syncSend
  repeat' with_reducible first
    | assumption | apply advanceTo_kept | apply modTim_kept | apply sendSync_kept | apply Kept.each | apply Kept.ite
    | intro _ | split | dsimp only

theorem syncAccept_kept {q s x0 x1 x2} (h : Kept q s) : Kept q (syncAccept x0 x1 x2 s) := by
  unfold syncAccept
  repeat' with_reducible first
    | assumption | apply takeSlave_kept | apply modTim_kept | apply servoAccept_kept | apply endMerge_kept
    | refine Kept.of_eq22 ‹_› ?_ | refine Kept.of_eq2 ‹_› ?_ | apply Kept.ite | intro _ | exact fun _ => rfl | rfl
    | split | dsimp only | apply Kept.upd

theorem takeSync_kept {q s x0 x1 x2} (h : Kept q s) : Kept q (takeSync x0 x1 x2 s) := by
  unfold takeSync
  repeat' with_reducible first
    | assumption | apply takeToS_kept | apply syncAccept_kept | apply stat1_kept | apply statRx_kept
    | apply ledRefuse_kept | apply ledDeliver_kept | apply ledAdmit_kept | apply Kept.ite | intro _ | split
    | dsimp only

theorem syncTimeout_kept {q s} (h : Kept q s) : Kept q (syncTimeout s) := by
  unfold syncTimeout
  repeat' with_reducible first
    | assumption | apply enterHoldover_kept | apply advanceTo_kept | split | dsimp only

theorem rateWritten_kept {q s x0} (h : Kept q s) : Kept q (rateWritten x0 s) := by
  unfold rateWritten
  repeat' with_reducible first
    | assumption | apply count_kept | apply setR_kept | apply setF_kept | apply modTim_kept | apply setRate_kept
    | apply Kept.ite | intro _ | split | dsimp only

theorem addendWritten_kept {q s} (h : Kept q s) : Kept q (addendWritten s) := by
  unfold addendWritten
  repeat' with_reducible first
    | assumption | apply advance_kept | apply noteTime_kept | apply Kept.ite | intro _ | exact fun _ => rfl | rfl
    | split | dsimp only | apply Kept.upd

theorem incModeWritten_kept {q s x0} (h : Kept q s) : Kept q (incModeWritten x0 s) := by
  unfold incModeWritten
  repeat' with_reducible first
    | assumption | apply setR_kept | apply setF_kept | apply modTim_kept | apply slewEnd_kept | apply noteTime_kept
    | apply setRate_kept | apply Kept.ite | intro _ | exact fun _ => rfl | rfl | split | dsimp only | apply Kept.upd

theorem permitGrant_kept {q s} (h : Kept q s) : Kept q (permitGrant s) := by
  unfold permitGrant
  repeat' with_reducible first
    | assumption | apply modTim_kept | apply setF_kept | dsimp only

theorem permitLapse_kept {q s} (h : Kept q s) : Kept q (permitLapse s) := by
  unfold permitLapse
  repeat' with_reducible first
    | assumption | apply modTim_kept | apply setF_kept | apply advanceTo_kept | split | dsimp only

theorem correlate_kept {q s} (h : Kept q s) : Kept q (correlate s) := by
  unfold correlate
  repeat' with_reducible first
    | assumption | apply setR_kept | dsimp only

theorem setFifo_kept {q s x0 x1} (h : Kept q s) : Kept q (setFifo x0 x1 s) := by
  unfold setFifo
  repeat' with_reducible first
    | assumption | apply setR_kept | apply setF_kept | apply modTim_kept | dsimp only

theorem syncCapture_kept {q s x0} (h : Kept q s) : Kept q (syncCapture x0 s) := by
  unfold syncCapture
  repeat' with_reducible first
    | assumption | apply latch_kept | apply count_kept | apply setFifo_kept | apply Kept.ite | intro _ | split
    | dsimp only

theorem syncPinIn_kept {q s x0 x1} (h : Kept q s) : Kept q (syncPinIn x0 x1 s) := by
  unfold syncPinIn
  repeat' with_reducible first
    | assumption | apply modTim_kept | apply syncCapture_kept | apply Kept.ite | intro _ | split | dsimp only

theorem syncPop_kept {q s x0} (h : Kept q s) : Kept q (syncPop x0 s) := by
  unfold syncPop
  repeat' with_reducible first
    | assumption | apply setFifo_kept | exact fun _ => rfl | rfl | dsimp only | apply Kept.upd

theorem driveSync_kept {q s x0 x1} (h : Kept q s) : Kept q (driveSync x0 x1 s) := by
  unfold driveSync
  repeat' with_reducible first
    | assumption | apply emitOut_kept | apply modTim_kept | apply Kept.ite | intro _ | split | dsimp only

theorem ppsPulse_kept {q s x0} (h : Kept q s) : Kept q (ppsPulse x0 s) := by
  unfold ppsPulse
  repeat' with_reducible first
    | assumption | apply advance_kept | apply modTim_kept | apply driveSync_kept | apply Kept.ite | intro _ | split
    | dsimp only

theorem ppsEnd_kept {q s x0} (h : Kept q s) : Kept q (ppsEnd x0 s) := by
  unfold ppsEnd
  repeat' with_reducible first
    | assumption | apply driveSync_kept | apply modTim_kept | apply advanceTo_kept | split | dsimp only

theorem syncCfgWritten_kept {q s x0 x1} (h : Kept q s) : Kept q (syncCfgWritten x0 x1 s) := by
  unfold syncCfgWritten
  repeat' with_reducible first
    | assumption | apply modTim_kept | apply driveSync_kept | apply Kept.ite | intro _ | split | dsimp only

/-! ### Phase -/

theorem setDom_kept {q s x0 x1} (h : Kept q s) : Kept q (setDom x0 x1 s) := by
  unfold setDom
  repeat' with_reducible first
    | assumption | exact fun _ => rfl | rfl | dsimp only | apply Kept.upd

theorem modDom_kept {q s x0 x1} (h : Kept q s) : Kept q (modDom x0 x1 s) := by
  unfold modDom
  repeat' with_reducible first
    | assumption | apply setDom_kept | dsimp only

theorem modCar_kept {q s x0} (h : Kept q s) : Kept q (modCar x0 s) := by
  unfold modCar
  repeat' with_reducible first
    | assumption | exact fun _ => rfl | rfl | dsimp only | apply Kept.upd

theorem corrected_kept {q s x0 x1 x2} (h : Kept q s) : Kept q (corrected x0 x1 x2 s) := by
  unfold corrected
  repeat' with_reducible first
    | assumption | apply count_kept | apply modDom_kept | apply modCar_kept | apply Kept.ite | intro _ | split
    | dsimp only

theorem phaseStepped_kept {q s x0} (h : Kept q s) : Kept q (phaseStepped x0 s) := by
  unfold phaseStepped
  repeat' with_reducible first
    | assumption | apply corrected_kept | apply Kept.each | apply Kept.ite | intro _ | split | dsimp only

theorem moveLock_kept {q s x0 x1} (h : Kept q s) : Kept q (moveLock x0 x1 s) := by
  unfold moveLock
  repeat' with_reducible first
    | assumption | apply setF_kept | apply modDom_kept | apply latchBits_kept | apply record_kept | apply modCar_kept
    | apply later_kept | apply Kept.whenT | apply Kept.ite | intro _ | split | dsimp only

theorem reacquire_kept {q s x0} (h : Kept q s) : Kept q (reacquire x0 s) := by
  unfold reacquire
  repeat' with_reducible first
    | assumption | apply moveLock_kept | apply modDom_kept | apply Kept.ite | intro _ | split | dsimp only

theorem judgePtp_kept {q s x0} (h : Kept q s) : Kept q (judgePtp x0 s) := by
  unfold judgePtp
  repeat' with_reducible first
    | assumption | apply count_kept | apply moveLock_kept | apply Kept.whenT | apply Kept.ite | intro _ | split
    | dsimp only

theorem judgeEnable_kept {q s x0} (h : Kept q s) : Kept q (judgeEnable x0 s) := by
  unfold judgeEnable
  repeat' with_reducible first
    | assumption | apply moveLock_kept | apply modDom_kept | apply Kept.ite | intro _ | split | dsimp only

theorem enableLater_kept {q s x0} (h : Kept q s) : Kept q (enableLater x0 s) := by
  unfold enableLater
  repeat' with_reducible first
    | assumption | apply inCycles_kept | apply Kept.ite | intro _ | split | dsimp only

theorem settlePhase_kept {q s} (h : Kept q s) : Kept q (settlePhase s) := by
  unfold settlePhase
  repeat' with_reducible first
    | assumption | apply enableLater_kept | apply judgePtp_kept | apply judgeEnable_kept | apply Kept.each | intro _
    | split | dsimp only

theorem firstRef_kept {q s x0 x1 x2} (h : Kept q s) : Kept q (firstRef x0 x1 x2 s) := by
  unfold firstRef
  repeat' with_reducible first
    | assumption | apply drawFree_kept | apply modDom_kept | apply Kept.ite | refine Kept.of_eq2 ‹_› ?_
    | refine Kept.of_eq22 ‹_› ?_ | intro _ | split | dsimp only

theorem pllStep_kept {q s x0 x1 x2 x3 x4 x5} (h : Kept q s) : Kept q (pllStep x0 x1 x2 x3 x4 x5 s) := by
  unfold pllStep
  repeat' with_reducible first
    | assumption | apply modDom_kept | apply Kept.ite | intro _ | split | dsimp only

theorem refLost_kept {q s x0} (h : Kept q s) : Kept q (refLost x0 s) := by
  unfold refLost
  repeat' with_reducible first
    | assumption | apply modDom_kept | apply moveLock_kept | apply Kept.ite | intro _ | split | dsimp only

theorem holdRef_kept {q s x0 x1 x2} (h : Kept q s) : Kept q (holdRef x0 x1 x2 s) := by
  unfold holdRef
  repeat' with_reducible first
    | assumption | apply modDom_kept | apply firstRef_kept | apply moveLock_kept | apply corrected_kept
    | apply Kept.ite | intro _ | split | dsimp only

theorem cyclicRef_kept {q s x0 x1} (h : Kept q s) : Kept q (cyclicRef x0 x1 s) := by
  unfold cyclicRef
  repeat' with_reducible first
    | assumption | apply holdRef_kept | apply firstRef_kept | apply refLost_kept | apply count_kept
    | apply pllStep_kept | apply modDom_kept | apply moveLock_kept | apply Kept.ite | intro _ | split | dsimp only

theorem tachEdge_kept {q s x0 x1} (h : Kept q s) : Kept q (tachEdge x0 x1 s) := by
  unfold tachEdge
  repeat' with_reducible first
    | assumption | apply firstRef_kept | apply moveLock_kept | apply corrected_kept | apply modDom_kept
    | apply pllStep_kept | apply Kept.ite | intro _ | split | dsimp only

theorem indexSeen_kept {q s x0} (h : Kept q s) : Kept q (indexSeen x0 s) := by
  unfold indexSeen
  repeat' with_reducible first
    | assumption | apply modDom_kept | apply Kept.ite | intro _ | exact fun _ => rfl | rfl | split | dsimp only
    | apply Kept.upd

theorem phaseReference_kept {q s x0 x1} (h : Kept q s) : Kept q (phaseReference x0 x1 s) := by
  unfold phaseReference
  repeat' with_reducible first
    | assumption | apply cyclicRef_kept | apply tachEdge_kept | apply indexSeen_kept | apply modDom_kept
    | apply Kept.ite | intro _ | exact fun _ => rfl | rfl | split | dsimp only | apply Kept.upd

theorem referenceMiss_kept {q s x0} (h : Kept q s) : Kept q (referenceMiss x0 s) := by
  unfold referenceMiss
  repeat' with_reducible first
    | assumption | apply refLost_kept | apply modDom_kept | apply count_kept | apply advanceTo_kept | apply Kept.ite
    | intro _ | split | dsimp only

theorem tachStill_kept {q s x0} (h : Kept q s) : Kept q (tachStill x0 s) := by
  unfold tachStill
  repeat' with_reducible first
    | assumption | apply advanceTo_kept | apply moveLock_kept | apply modDom_kept | apply Kept.ite | intro _ | split
    | dsimp only

theorem pd0Limit_kept {q s} (h : Kept q s) : Kept q (pd0Limit s) := by
  unfold pd0Limit
  repeat' with_reducible first
    | assumption | apply trigger_kept | apply latch_kept | apply modCar_kept | apply advanceTo_kept | split
    | dsimp only

theorem offsetWritten_kept {q s x0 x1} (h : Kept q s) : Kept q (offsetWritten x0 x1 s) := by
  unfold offsetWritten
  repeat' with_reducible first
    | assumption | apply corrected_kept | apply modDom_kept | apply Kept.ite | intro _ | split | dsimp only

/-! ### Fdb -/

theorem showUsed_kept {q s x0} (h : Kept q s) : Kept q (showUsed x0 s) := by
  unfold showUsed
  repeat' with_reducible first
    | assumption | apply setF_kept | dsimp only

theorem fdbPut_kept {q s x0 x1 x2 x3} (h : Kept q s) : Kept q (fdbPut x0 x1 x2 x3 s) := by
  unfold fdbPut
  repeat' with_reducible first
    | assumption | apply modFab_kept | apply showUsed_kept | apply setR_kept | exact fun _ => rfl | rfl | dsimp only

theorem fdbRemove_kept {q s x0} (h : Kept q s) : Kept q (fdbRemove x0 s) := by
  unfold fdbRemove
  repeat' with_reducible first
    | assumption | apply fdbPut_kept | dsimp only

theorem flushAt_kept {q s x0} (h : Kept q s) : Kept q (flushAt x0 s) := by
  unfold flushAt
  repeat' with_reducible first
    | assumption | apply fdbRemove_kept | apply modFab_kept | apply Kept.each | apply Kept.ite | intro _
    | exact fun _ => rfl | rfl | split | dsimp only | apply Kept.upd

theorem flushPassed_kept {q s} (h : Kept q s) : Kept q (flushPassed s) := by
  unfold flushPassed
  repeat' with_reducible first
    | assumption | apply flushAt_kept | apply fdbRemove_kept | apply modFab_kept | apply Kept.each | apply Kept.ite
    | intro _ | exact fun _ => rfl | rfl | split | dsimp only

theorem flushBefore_kept {q s} (h : Kept q s) : Kept q (flushBefore s) := by
  unfold flushBefore
  repeat' with_reducible first
    | assumption | apply flushAt_kept | split | dsimp only

theorem fdbLookup_kept {q s x0 x1} (h : Kept q s) : Kept q (fdbLookup x0 x1 s).2 := by
  unfold fdbLookup
  repeat' with_reducible first
    | assumption | apply flushPassed_kept | apply setF_kept | apply count_kept | apply fdbRemove_kept | apply Kept.ite | intro _ | split
    | dsimp only

theorem learnNow_kept {q s x0} (h : Kept q s) : Kept q (learnNow x0 s) := by
  unfold learnNow
  repeat' with_reducible first
    | assumption | apply flushBefore_kept | apply setF_kept | apply count_kept | apply fdbPut_kept | apply latch_kept
    | apply flushPassed_kept | apply Kept.ite | intro _ | split | dsimp only

theorem queueLearn_kept {q s x0} (h : Kept q s) : Kept q (queueLearn x0 s) := by
  unfold queueLearn
  repeat' with_reducible first
    | assumption | apply count_kept | apply modFab_kept | apply Kept.ite | intro _ | exact fun _ => rfl | rfl | split
    | dsimp only

theorem learnStep_kept {q s} (h : Kept q s) : Kept q (learnStep s) := by
  unfold learnStep
  repeat' with_reducible first
    | assumption | apply advanceTo_kept | apply modFab_kept | apply learnNow_kept | exact fun _ => rfl | rfl | split
    | dsimp only | apply Kept.upd

theorem ageEntry_kept {q s x0} (h : Kept q s) : Kept q (ageEntry x0 s) := by
  unfold ageEntry
  repeat' with_reducible first
    | assumption | apply setF_kept | apply count_kept | apply fdbRemove_kept | apply Kept.ite | intro _ | split
    | dsimp only

theorem ageingSweep_kept {q s} (h : Kept q s) : Kept q (ageingSweep s) := by
  unfold ageingSweep
  repeat' with_reducible first
    | assumption | apply advanceTo_kept | apply flushBefore_kept | apply modFab_kept | apply ageEntry_kept
    | apply flushPassed_kept | apply Kept.each | intro _ | exact fun _ => rfl | rfl | split | dsimp only
    | apply Kept.upd

theorem fdbCtrlWritten_kept {q s x0} (h : Kept q s) : Kept q (fdbCtrlWritten x0 s) := by
  unfold fdbCtrlWritten
  repeat' with_reducible first
    | assumption | apply modFab_kept | apply Kept.ite | intro _ | exact fun _ => rfl | rfl | split | dsimp only

theorem fdbCommand_kept {q s x0} (h : Kept q s) : Kept q (fdbCommand x0 s) := by
  unfold fdbCommand
  repeat' with_reducible first
    | assumption | apply setF_kept | apply modFab_kept | apply Kept.ite | intro _ | exact fun _ => rfl | rfl | split
    | dsimp only

theorem showEntry_kept {q s x0} (h : Kept q s) : Kept q (showEntry x0 s) := by
  unfold showEntry
  repeat' with_reducible first
    | assumption | apply setR_kept | dsimp only

theorem fdbResult_kept {q s x0 x1} (h : Kept q s) : Kept q (fdbResult x0 x1 s) := by
  unfold fdbResult
  repeat' with_reducible first
    | assumption | apply setF_kept | dsimp only

theorem fdbRun_kept {q s x0} (h : Kept q s) : Kept q (fdbRun x0 s) := by
  unfold fdbRun
  repeat' with_reducible first
    | assumption | apply fdbResult_kept | apply showEntry_kept | apply setF_kept | apply setR_kept | apply fdbPut_kept
    | apply fdbRemove_kept | apply Kept.each | apply Kept.ite | intro _ | split | dsimp only

theorem fdbDone_kept {q s} (h : Kept q s) : Kept q (fdbDone s) := by
  unfold fdbDone
  repeat' with_reducible first
    | assumption | apply advanceTo_kept | apply ageingSweep_kept | apply learnStep_kept | apply flushPassed_kept
    | apply modFab_kept | apply fdbRun_kept | apply setF_kept | apply latch_kept | apply Kept.whenT | intro _
    | exact fun _ => rfl | rfl | split | dsimp only | apply Kept.upd

/-! ### Forward -/

theorem windowCheck_kept {q s x0 x1 x2 x3} (h : Kept q s) : Kept q (windowCheck x0 x1 x2 x3 s).2 := by
  unfold windowCheck
  repeat' with_reducible first
    | assumption | apply count_kept | apply modCar_kept | apply latch_kept | apply Kept.each | intro _
    | exact fun _ => rfl | rfl | split | dsimp only | apply Kept.upd

theorem setGate_kept {q s x0 x1} (h : Kept q s) : Kept q (setGate x0 x1 s) := by
  unfold setGate
  repeat' with_reducible first
    | assumption | apply setF_kept | apply Kept.ite | intro _ | split | dsimp only

theorem countTat_kept {q s x0 x1} (h : Kept q s) : Kept q (countTat x0 x1 s).2 := by
  unfold countTat
  repeat' with_reducible first
    | assumption | apply count_kept | split | dsimp only

theorem translate_kept {q s x0} (h : Kept q s) : Kept q (translate x0 s).2.2 := by
  unfold translate
  repeat' with_reducible first
    | assumption | apply countTat_kept | apply count_kept | apply graceCount_kept | refine Kept.of_eq22 ‹_› ?_
    | refine Kept.of_eq2 ‹_› ?_ | apply Kept.ite | intro _ | split | dsimp only | apply Kept.upd

theorem noteRoute_kept {q s x0} (h : Kept q s) : Kept q (noteRoute x0 s) := by
  unfold noteRoute
  repeat' with_reducible first
    | assumption | apply count_kept | apply countBy_kept | apply Kept.whenT | intro _ | dsimp only

theorem fdbFan_kept {q s x0 x1} (h : Kept q s) : Kept q (fdbFan x0 x1 s).2.2 := by
  unfold fdbFan
  repeat' with_reducible first
    | assumption | apply fdbLookup_kept | apply noteRoute_kept | apply Kept.ite | refine Kept.of_eq2 ‹_› ?_
    | refine Kept.of_eq22 ‹_› ?_ | intro _ | split | dsimp only

theorem localFan_kept {q s x0} (h : Kept q s) : Kept q (localFan x0 s).2.2 := by
  unfold localFan
  repeat' with_reducible first
    | assumption | apply fdbFan_kept | refine Kept.of_eq2 ‹_› ?_ | refine Kept.of_eq22 ‹_› ?_ | dsimp only

/-! ### Units -/

theorem sendUnit_kept {q s x0 x1} (h : Kept q s) : Kept q (sendUnit x0 x1 s) := by
  unfold sendUnit
  repeat' with_reducible first
    | assumption | apply emitOut_kept | dsimp only

theorem sendReliable_kept {q s x0 x1 x2 x3} (h : Kept q s) : Kept q (sendReliable x0 x1 x2 x3 s) := by
  unfold sendReliable
  repeat' with_reducible first
    | assumption | apply sendUnit_kept | apply setIlgPort_kept | apply Kept.ite | intro _ | split | dsimp only

theorem spendCredit_kept {q s x0 x1} (h : Kept q s) : Kept q (spendCredit x0 x1 s) := by
  unfold spendCredit
  repeat' with_reducible first
    | assumption | apply setF_kept | dsimp only

theorem sendCell_kept {q s x0 x1 x2 x3 x4 x5} (h : Kept q s) : Kept q (sendCell x0 x1 x2 x3 x4 x5 s) := by
  unfold sendCell
  repeat' with_reducible first
    | assumption | apply sendReliable_kept | apply spendCredit_kept | apply Kept.ite | intro _ | split | dsimp only

/-! ### Fabric -/

theorem orphanNote_kept {q s x0} (h : Kept q s) : Kept q (orphanNote x0 s) := by
  unfold orphanNote
  repeat' with_reducible first
    | assumption | apply graceCount_kept | apply latch_kept | apply count_kept | dsimp only

theorem ecnMark_kept {q s x0 x1} (h : Kept q s) : Kept q (ecnMark x0 x1 s).2 := by
  unfold ecnMark
  repeat' with_reducible first
    | assumption | apply count_kept | apply Kept.ite | intro _ | split | dsimp only

theorem storeFrame_kept {q s x0 x1 x2 x3} (h : Kept q s) : Kept q (storeFrame x0 x1 x2 x3 s).2 := by
  unfold storeFrame
  repeat' with_reducible first
    | assumption | apply count_kept | apply orphanNote_kept | apply ledAdmit_kept | apply captureF_kept
    | apply holdFrame_kept | apply putFrame_kept | apply modFab_kept | refine Kept.of_eq22 ‹_› ?_
    | refine Kept.of_eq2 ‹_› ?_ | apply Kept.whenT | intro _ | exact fun _ => rfl | rfl | split | dsimp only
    | apply Kept.upd

theorem dispatch_kept {q s x0 x1 x2} (h : Kept q s) : Kept q (dispatch x0 x1 x2 s).2 := by
  unfold dispatch
  repeat' with_reducible first
    | assumption | apply refuseFrame_kept | apply dropEarly_kept | apply refuse_kept | apply xoffRequest_kept
    | apply ecnMark_kept | apply storeFrame_kept | apply ledRefuse_kept | apply captureF_kept
    | refine Kept.of_eq22 ‹_› ?_ | refine Kept.of_eq2 ‹_› ?_ | apply Kept.whenT | apply Kept.ite | intro _
    | exact fun _ => rfl | rfl | split | dsimp only | apply Kept.upd

theorem checkWindows_kept {q s x0 x1 x2} (h : Kept q s) : Kept q (checkWindows x0 x1 x2 s).2 := by
  unfold checkWindows
  repeat' with_reducible first
    | assumption | apply windowCheck_kept | refine Kept.of_eq22 ‹_› ?_ | refine Kept.of_eq2 ‹_› ?_ | split
    | dsimp only

theorem ingressEdge_kept {q s x0 x1 x2 x3} (h : Kept q s) : Kept q (ingressEdge x0 x1 x2 x3 s).2.2 := by
  unfold ingressEdge
  repeat' with_reducible first
    | assumption | apply refuseFrame_kept | apply checkWindows_kept | apply fdbFan_kept | apply dispatch_kept
    | refine Kept.of_eq22 ‹_› ?_ | refine Kept.of_eq2 ‹_› ?_ | apply Kept.ite | intro _ | split | dsimp only

theorem backboneOuts_kept {q s x0 x1} (h : Kept q s) : Kept q (backboneOuts x0 x1 s).2.2 := by
  unfold backboneOuts
  repeat' with_reducible first
    | assumption | apply noteRoute_kept | apply localFan_kept | apply Kept.ite | refine Kept.of_eq2 ‹_› ?_
    | refine Kept.of_eq22 ‹_› ?_ | intro _ | split | dsimp only

theorem judgeEpoch_kept {q s x0 x1 x2} (h : Kept q s) : Kept q (judgeEpoch x0 x1 x2 s).2.2 := by
  unfold judgeEpoch
  repeat' with_reducible first
    | assumption | apply backboneOuts_kept | apply translate_kept | refine Kept.of_eq22 ‹_› ?_
    | refine Kept.of_eq2 ‹_› ?_ | apply Kept.ite | intro _ | split | dsimp only | apply Kept.upd

theorem ingressTrunk_kept {q s x0 x1 x2 x3} (h : Kept q s) : Kept q (ingressTrunk x0 x1 x2 x3 s).2.2 := by
  unfold ingressTrunk
  repeat' with_reducible first
    | assumption | apply checkWindows_kept | apply refuseFrame_kept | apply dispatch_kept | apply count_kept
    | apply refuse_kept | apply latch_kept | apply judgeEpoch_kept | refine Kept.of_eq22 ‹_› ?_
    | refine Kept.of_eq2 ‹_› ?_ | apply Kept.ite | intro _ | split | dsimp only | apply Kept.upd

theorem intoS_kept {q s x0 x1 x2 x3 x4} (h : Kept q s) (hf : ∀ a l t, Kept q t → Kept q (x4 a l t)) :
    Kept q (intoS x0 x1 x2 x3 x4 s) := by
  unfold intoS
  repeat' with_reducible first
    | assumption | apply checkWindows_kept | apply sawForS_kept | apply refuseFrame_kept | apply hf | split | dsimp only

theorem spireIn_kept {q s x0 x1 x2} (h : Kept q s) : Kept q (spireIn x0 x1 x2 s) := by
  unfold spireIn
  repeat' with_reducible first
    | assumption | apply intoS_kept | apply takeSpire_kept | apply Kept.ite | intro _ | split | dsimp only

theorem rosterIn_kept {q s x0 x1 x2} (h : Kept q s) : Kept q (rosterIn x0 x1 x2 s) := by
  unfold rosterIn
  repeat' with_reducible first
    | assumption | apply intoS_kept | apply takeRoster_kept | apply Kept.ite | intro _ | split | dsimp only

theorem syncIn_kept {q s x0 x1 x2} (h : Kept q s) : Kept q (syncIn x0 x1 x2 s) := by
  unfold syncIn
  repeat' with_reducible first
    | assumption | apply intoS_kept | apply takeSync_kept | apply Kept.ite | intro _ | split | dsimp only

theorem helloIn_kept {q s x0 x1 x2} (h : Kept q s) : Kept q (helloIn x0 x1 x2 s) := by
  unfold helloIn
  repeat' with_reducible first
    | assumption | apply intoS_kept | apply takeHello_kept | apply dropHello_kept | apply Kept.ite | intro _ | split | dsimp only

theorem spireAtEdge_kept {q s x0 x1 x2} (h : Kept q s) : Kept q (spireAtEdge x0 x1 x2 s) := by
  unfold spireAtEdge
  repeat' with_reducible first
    | assumption | apply intoS_kept | apply takeToS_kept | apply badSpire_kept | apply Kept.ite | intro _ | split
    | dsimp only

theorem receiveSpire_kept {q s x0 x1 x2} (h : Kept q s) : Kept q (receiveSpire x0 x1 x2 s) := by
  unfold receiveSpire
  repeat' with_reducible first
    | assumption | apply spireIn_kept | split | dsimp only

theorem receiveSync_kept {q s x0 x1 x2} (h : Kept q s) : Kept q (receiveSync x0 x1 x2 s) := by
  unfold receiveSync
  repeat' with_reducible first
    | assumption | apply syncIn_kept | split | dsimp only

theorem receiveRoster_kept {q s x0 x1} (h : Kept q s) : Kept q (receiveRoster x0 x1 s) := by
  unfold receiveRoster
  repeat' with_reducible first
    | assumption | apply rosterIn_kept | split | dsimp only

theorem receiveHello_kept {q s x0 x1} (h : Kept q s) : Kept q (receiveHello x0 x1 s) := by
  unfold receiveHello
  repeat' with_reducible first
    | assumption | apply helloIn_kept | split | dsimp only

theorem setArrival_kept {q s x0 x1} (h : Kept q s) : Kept q (setArrival x0 x1 s) := by
  unfold setArrival
  repeat' with_reducible first
    | assumption | apply modFab_kept | exact fun _ => rfl | rfl | dsimp only

theorem endArrival_kept {q s x0} (h : Kept q s) : Kept q (endArrival x0 s) := by
  unfold endArrival
  repeat' with_reducible first
    | assumption | apply modFab_kept | exact fun _ => rfl | rfl | dsimp only

theorem admissionPoint_kept {q s x0 x1 x2 x3} (h : Kept q s) : Kept q (admissionPoint x0 x1 x2 x3 s) := by
  unfold admissionPoint
  repeat' with_reducible first
    | assumption | apply setArrival_kept | apply ingressTrunk_kept | apply ingressEdge_kept | split | dsimp only

theorem unqueue_kept {q s x0 x1} (h : Kept q s) : Kept q (unqueue x0 x1 s) := by
  unfold unqueue
  repeat' with_reducible first
    | assumption | apply modFab_kept | apply Kept.ite | intro _ | exact fun _ => rfl | rfl | split | dsimp only

theorem modCopy_kept {q s x0 x1 x2} (h : Kept q s) : Kept q (modCopy x0 x1 x2 s) := by
  unfold modCopy
  repeat' with_reducible first
    | assumption | apply modFrame_kept | apply Kept.ite | intro _ | split | dsimp only

theorem divertCopy_kept {q s x0 x1 x2} (h : Kept q s) : Kept q (divertCopy x0 x1 x2 s) := by
  unfold divertCopy
  repeat' with_reducible first
    | assumption | apply modCopy_kept | apply orphanNote_kept | apply unlock_kept | apply unqueue_kept
    | apply modFab_kept | apply Kept.whenT | apply Kept.ite | intro _ | exact fun _ => rfl | rfl | split | dsimp only

theorem moveLine_kept {q s x0 x1} (h : Kept q s) : Kept q (moveLine x0 x1 s) := by
  unfold moveLine
  repeat' with_reducible first
    | assumption | apply count_kept | apply setTxq_kept | apply modCopy_kept | apply unlock_kept | apply unqueue_kept
    | apply Kept.whenT | apply Kept.ite | intro _ | split | dsimp only

theorem takeFirst_kept {q s x0 x1} (h : Kept q s) : Kept q (takeFirst x0 x1 s).2 := by
  unfold takeFirst
  repeat' with_reducible first
    | assumption | apply moveLine_kept | apply dropCopy_kept | apply divertCopy_kept | apply Kept.ite | intro _
    | split | dsimp only

theorem enqueue_kept {q s x0 x1 x2 x3} (h : Kept q s) : Kept q (enqueue x0 x1 x2 x3 s) := by
  unfold enqueue
  repeat' with_reducible first
    | assumption | apply setTxq_kept | apply Kept.ite | intro _ | split | dsimp only

theorem tookLast_kept {q s x0 x1} (h : Kept q s) : Kept q (tookLast x0 x1 s) := by
  unfold tookLast
  repeat' with_reducible first
    | assumption | apply modFab_kept | apply modCopy_kept | apply setTxq_kept | apply deliverCopy_kept
    | apply Kept.ite | intro _ | exact fun _ => rfl | rfl | split | dsimp only

theorem crossOne_kept {q s x0} (h : Kept q s) : Kept q (crossOne x0 s) := by
  unfold crossOne
  repeat' with_reducible first
    | assumption | apply dropFrame_kept | apply takeFirst_kept | apply captureOnce_kept | apply enqueue_kept
    | apply modCopy_kept | apply modFab_kept | apply sendCell_kept | apply tookLast_kept | apply setTxq_kept
    | refine Kept.of_eq22 ‹_› ?_ | refine Kept.of_eq2 ‹_› ?_ | apply Kept.whenT | apply Kept.ite | intro _
    | exact fun _ => rfl | rfl | split | dsimp only | apply Kept.upd

theorem countSplit_kept {q s x0} (h : Kept q s) : Kept q (countSplit x0 s) := by
  unfold countSplit
  repeat' with_reducible first
    | assumption | apply count_kept | apply Kept.each | apply Kept.whenT | intro _ | split | dsimp only

theorem cellTime_kept {q s} (h : Kept q s) : Kept q (cellTime s) := by
  unfold cellTime
  repeat' with_reducible first
    | assumption | apply advanceTo_kept | apply modFab_kept | apply crossOne_kept | apply countSplit_kept
    | apply Kept.each | intro _ | exact fun _ => rfl | rfl | dsimp only

/-! ### Macs -/

theorem modMac_kept {q s x0} (h : Kept q s) : Kept q (modMac x0 s) := by
  unfold modMac
  repeat' with_reducible first
    | assumption | exact fun _ => rfl | rfl | dsimp only | apply Kept.upd

theorem setHalf_kept {q s x0 x1} (h : Kept q s) : Kept q (setHalf x0 x1 s) := by
  unfold setHalf
  repeat' with_reducible first
    | assumption | apply modMac_kept | dsimp only

theorem setSending_kept {q s x0 x1} (h : Kept q s) : Kept q (setSending x0 x1 s) := by
  unfold setSending
  repeat' with_reducible first
    | assumption | apply modFab_kept | exact fun _ => rfl | rfl | dsimp only

theorem clearSending_kept {q s x0} (h : Kept q s) : Kept q (clearSending x0 s) := by
  unfold clearSending
  repeat' with_reducible first
    | assumption | apply modFab_kept | exact fun _ => rfl | rfl | dsimp only

theorem spendShaper_kept {q s x0 x1 x2} (h : Kept q s) : Kept q (spendShaper x0 x1 x2 s) := by
  unfold spendShaper
  repeat' with_reducible first
    | assumption | apply modMac_kept | apply Kept.ite | intro _ | split | dsimp only

theorem shapeWritten_kept {q s x0 x1} (h : Kept q s) : Kept q (shapeWritten x0 x1 s) := by
  unfold shapeWritten
  repeat' with_reducible first
    | assumption | apply modMac_kept | dsimp only

theorem showPause_kept {q s x0} (h : Kept q s) : Kept q (showPause x0 s) := by
  unfold showPause
  repeat' with_reducible first
    | assumption | apply setF_kept | apply Kept.foldl | apply Kept.foldl2 | intro _ | dsimp only

theorem setPause_kept {q s x0 x1 x2} (h : Kept q s) : Kept q (setPause x0 x1 x2 s) := by
  unfold setPause
  repeat' with_reducible first
    | assumption | apply modMac_kept | apply Kept.ite | intro _ | split | dsimp only

theorem clearPauses_kept {q s x0} (h : Kept q s) : Kept q (clearPauses x0 s) := by
  unfold clearPauses
  repeat' with_reducible first
    | assumption | apply showPause_kept | apply modMac_kept | dsimp only

theorem takeControl_kept {q s x0 x1} (h : Kept q s) : Kept q (takeControl x0 x1 s) := by
  unfold takeControl
  repeat' with_reducible first
    | assumption | apply stat1_kept | apply statRx_kept | apply showPause_kept | apply setPause_kept | apply Kept.each
    | apply Kept.whenT | apply Kept.ite | intro _ | split | dsimp only

theorem pauseReceive_kept {q s x0 x1} (h : Kept q s) : Kept q (pauseReceive x0 x1 s) := by
  unfold pauseReceive
  repeat' with_reducible first
    | assumption | apply takeControl_kept | apply Kept.ite | intro _ | split | dsimp only

theorem pauseExpiry_kept {q s x0 x1} (h : Kept q s) : Kept q (pauseExpiry x0 x1 s) := by
  unfold pauseExpiry
  repeat' with_reducible first
    | assumption | apply showPause_kept | apply setPause_kept | apply advanceTo_kept | split | dsimp only

theorem flowControlFrame_kept {q s x0} (h : Kept q s) : Kept q (flowControlFrame x0 s) := by
  unfold flowControlFrame
  repeat' with_reducible first
    | assumption | apply stat1_kept | apply statTxWhole_kept | apply stat_kept | apply emitOut_kept
    | apply modMac_kept | apply Kept.ite | intro _ | split | dsimp only

theorem fcRefresh_kept {q s x0} (h : Kept q s) : Kept q (fcRefresh x0 s) := by
  unfold fcRefresh
  repeat' with_reducible first
    | assumption | apply advanceTo_kept | apply modMac_kept | apply Kept.ite | intro _ | split | dsimp only

theorem fcWritten_kept {q s x0} (h : Kept q s) : Kept q (fcWritten x0 s) := by
  unfold fcWritten
  repeat' with_reducible first
    | assumption | apply modMac_kept | apply Kept.ite | intro _ | exact fun _ => rfl | rfl | split | dsimp only
    | apply Kept.upd

theorem fcLinkUp_kept {q s x0} (h : Kept q s) : Kept q (fcLinkUp x0 s) := by
  unfold fcLinkUp
  repeat' with_reducible first
    | assumption | apply setF_kept | apply fcWritten_kept | apply modMac_kept | apply Kept.ite | intro _
    | exact fun _ => rfl | rfl | split | dsimp only | apply Kept.upd

theorem lineBytes_kept {q s x0 x1} (h : Kept q s) : Kept q (lineBytes x0 x1 s).2.2 := by
  unfold lineBytes
  repeat' with_reducible first
    | assumption | apply startOwnFrame_kept | apply countTat_kept | apply count_kept | apply Kept.whenT | intro _ | split
    | dsimp only

theorem judgeStart_kept {q s x0 x1} (h : Kept q s) : Kept q (judgeStart x0 x1 s).2 := by
  unfold judgeStart
  repeat' with_reducible first
    | assumption | apply translate_kept | refine Kept.of_eq22 ‹_› ?_ | refine Kept.of_eq2 ‹_› ?_ | apply Kept.ite
    | intro _ | split | dsimp only

theorem startFrom_kept {q s x0 x1 x2} (h : Kept q s) : Kept q (startFrom x0 x1 x2 s).2 := by
  induction x0 generalizing s with
  | zero => exact h
  | succ n ih =>
    unfold startFrom
    repeat' with_reducible first
      | assumption | apply ih | apply setTxq_kept | apply dropCopy_kept | apply divertCopy_kept | apply modFrame_kept
      | apply judgeStart_kept | exact fun _ => rfl | split | dsimp only

theorem pickStart_kept {q s x0 x1} (h : Kept q s) : Kept q (pickStart x0 x1 s).2 := by
  induction x1 generalizing s with
  | nil =>
    unfold pickStart
    repeat' with_reducible first
      | assumption | apply startFrom_kept | refine Kept.of_eq2 ‹_› ?_ | refine Kept.of_eq22 ‹_› ?_ | split
      | dsimp only
  | cons a l ih =>
    unfold pickStart
    repeat' with_reducible first
      | assumption | apply ih | apply startFrom_kept | refine Kept.of_eq2 ‹_› ?_ | refine Kept.of_eq22 ‹_› ?_ | split
      | dsimp only

theorem putOnLine_kept {q s x0 x1 x2 x3 x4 x5 x6} (h : Kept q s) : Kept q (putOnLine x0 x1 x2 x3 x4 x5 x6 s) := by
  unfold putOnLine
  repeat' with_reducible first
    | assumption | apply lineBytes_kept | apply stat_kept | apply spendShaper_kept | apply modFrame_kept
    | apply setTxq_kept | apply setSending_kept | refine Kept.of_eq22 ‹_› ?_ | refine Kept.of_eq2 ‹_› ?_
    | apply Kept.whenT | intro _ | exact fun _ => rfl | rfl | split | dsimp only | apply Kept.upd

theorem startHead_kept {q s x0} (h : Kept q s) : Kept q (startHead x0 s) := by
  unfold startHead
  repeat' with_reducible first
    | assumption | apply pickStart_kept | apply setHalf_kept | apply putOnLine_kept | apply Kept.whenT | intro _
    | split | dsimp only | apply Kept.upd

theorem startHalf_kept {q s x0} (h : Kept q s) : Kept q (startHalf x0 s) := by
  unfold startHalf
  repeat' with_reducible first
    | assumption | apply pickStart_kept | apply setHalf_kept | apply stat1_kept | apply advanceTo_kept
    | apply startHead_kept | apply Kept.ite | intro _ | exact fun _ => rfl | rfl | split | dsimp only | apply Kept.upd

theorem txFrameStart_kept {q s x0} (h : Kept q s) : Kept q (txFrameStart x0 s) := by
  unfold txFrameStart
  repeat' with_reducible first
    | assumption | apply clearSending_kept | apply setHalf_kept | apply advanceTo_kept | apply putOnLine_kept
    | apply startHalf_kept | apply startHead_kept | apply pickStart_kept | apply stat1_kept
    | refine Kept.of_eq22 ‹_› ?_ | refine Kept.of_eq2 ‹_› ?_ | apply Kept.whenT | apply Kept.ite | intro _
    | exact fun _ => rfl | rfl | split | dsimp only | apply Kept.upd

theorem cutFrame_kept {q s x0 x1} (h : Kept q s) : Kept q (cutFrame x0 x1 s) := by
  unfold cutFrame
  repeat' with_reducible first
    | assumption | apply emitOut_kept | apply stat1_kept | apply clearSending_kept | apply dropCopy_kept
    | apply Kept.whenT | intro _ | split | dsimp only

theorem afterExpress_kept {q s x0 x1 x2} (h : Kept q s) : Kept q (afterExpress x0 x1 x2 s) := by
  unfold afterExpress
  repeat' with_reducible first
    | assumption | apply startFrom_kept | apply putOnLine_kept | apply setSending_kept | refine Kept.of_eq2 ‹_› ?_
    | refine Kept.of_eq22 ‹_› ?_ | split | dsimp only

theorem txFrameEnd_kept {q s x0} (h : Kept q s) : Kept q (txFrameEnd x0 s) := by
  unfold txFrameEnd
  repeat' with_reducible first
    | assumption | apply clearSending_kept | apply advanceTo_kept | apply dropCopy_kept | apply stat1_kept
    | apply emitOut_kept | apply deliverCopy_kept | apply tsResolve_kept | apply statTxWhole_kept | apply setHalf_kept
    | apply afterExpress_kept | apply Kept.whenT | apply Kept.ite | intro _ | split | dsimp only

theorem giveUp_kept {q s x0 x1} (h : Kept q s) : Kept q (giveUp x0 x1 s) := by
  unfold giveUp
  repeat' with_reducible first
    | assumption | apply dropCopy_kept | apply setHalf_kept | apply clearSending_kept | split | dsimp only

theorem collision_kept {q s x0} (h : Kept q s) : Kept q (collision x0 s) := by
  unfold collision
  repeat' with_reducible first
    | assumption | apply stat1_kept | apply giveUp_kept | apply latch_kept | apply setHalf_kept | apply Kept.ite
    | intro _ | split | dsimp only

theorem backoffDone_kept {q s x0} (h : Kept q s) : Kept q (backoffDone x0 s) := by
  unfold backoffDone
  repeat' with_reducible first
    | assumption | apply advanceTo_kept | apply setHalf_kept | apply clearSending_kept | apply putOnLine_kept
    | apply Kept.whenT | apply Kept.ite | intro _ | split | dsimp only

theorem carrierSense_kept {q s x0 x1} (h : Kept q s) : Kept q (carrierSense x0 x1 s) := by
  unfold carrierSense
  repeat' with_reducible first
    | assumption | apply setHalf_kept | apply Kept.ite | intro _ | split | dsimp only

theorem statFrags_kept {q s x0 x1 x2} (h : Kept q s) : Kept q (statFrags x0 x1 x2 s) := by
  unfold statFrags
  repeat' with_reducible first
    | assumption | apply stat1_kept | apply stat_kept | apply Kept.whenT | intro _ | dsimp only

theorem statEnd_kept {q s x0 x1 x2 x3} (h : Kept q s) : Kept q (statEnd x0 x1 x2 x3 s) := by
  unfold statEnd
  repeat' with_reducible first
    | assumption | apply stat1_kept | apply stat_kept | apply statRx_kept | apply statFrags_kept | split | dsimp only

theorem takeWhole_kept {q s x0 x1 x2 x3 x4} (h : Kept q s) : Kept q (takeWhole x0 x1 x2 x3 x4 s) := by
  unfold takeWhole
  repeat' with_reducible first
    | assumption | apply statEnd_kept | apply statFrags_kept | apply latch_kept | apply refuseFrame_kept
    | apply takeControl_kept | apply spireAtEdge_kept | apply spireIn_kept | apply rosterIn_kept | apply syncIn_kept
    | apply helloIn_kept | apply ledRefuse_kept | apply badSpire_kept | apply takeSpire_kept | apply takeRoster_kept
    | apply takeSync_kept | apply takeHello_kept | apply Kept.whenT | apply Kept.ite | intro _ | split | dsimp only
    | apply Kept.upd

theorem abortFrame_kept {q s x0 x1} (h : Kept q s) : Kept q (abortFrame x0 x1 s) := by
  unfold abortFrame
  repeat' with_reducible first
    | assumption | apply cutFrame_kept | apply dropFrame_kept | apply Kept.each | apply Kept.ite | intro _ | split
    | dsimp only

theorem closeFragments_kept {q s x0} (h : Kept q s) : Kept q (closeFragments x0 s) := by
  unfold closeFragments
  repeat' with_reducible first
    | assumption | apply setSending_kept | apply stat1_kept | apply Kept.each | apply Kept.ite | intro _
    | exact fun _ => rfl | rfl | split | dsimp only | apply Kept.upd

theorem cellWrite_kept {q s x0 x1} (h : Kept q s) : Kept q (cellWrite x0 x1 s) := by
  unfold cellWrite
  repeat' with_reducible first
    | assumption | apply setArrival_kept | apply closeFragments_kept | apply abortFrame_kept | apply count_kept
    | apply modFrame_kept | apply Kept.ite | intro _ | exact fun _ => rfl | rfl | split | dsimp only | apply Kept.upd

theorem endBad_kept {q s x0 x1 x2 x3} (h : Kept q s) : Kept q (endBad x0 x1 x2 x3 s) := by
  unfold endBad
  repeat' with_reducible first
    | assumption | apply latch_kept | apply modFrame_kept | apply count_kept | apply dropCopy_kept
    | apply dropFrame_kept | apply Kept.each | apply Kept.whenT | apply Kept.ite | intro _ | split | dsimp only

theorem endGood_kept {q s x0 x1} (h : Kept q s) : Kept q (endGood x0 x1 s) := by
  unfold endGood
  repeat' with_reducible first
    | assumption | apply modFrame_kept | apply modFab_kept | apply modCopy_kept | apply Kept.each | apply Kept.ite
    | intro _ | exact fun _ => rfl | rfl | split | dsimp only

theorem frameEnd_kept {q s x0 x1 x2 x3} (h : Kept q s) : Kept q (frameEnd x0 x1 x2 x3 s) := by
  unfold frameEnd
  repeat' with_reducible first
    | assumption | apply statEnd_kept | apply endArrival_kept | apply takeWhole_kept | apply stat1_kept
    | apply queueLearn_kept | apply closeFragments_kept | apply abortFrame_kept | apply count_kept
    | apply modFrame_kept | apply endGood_kept | apply endBad_kept | apply Kept.whenT | apply Kept.ite | intro _
    | exact fun _ => rfl | rfl | split | dsimp only | apply Kept.upd

theorem cutArrival_kept {q s x0} (h : Kept q s) : Kept q (cutArrival x0 s) := by
  unfold cutArrival
  repeat' with_reducible first
    | assumption | apply frameEnd_kept | dsimp only

theorem discardQueued_kept {q s x0 x1} (h : Kept q s) : Kept q (discardQueued x0 x1 s) := by
  unfold discardQueued
  repeat' with_reducible first
    | assumption | apply dropCopy_kept | apply Kept.each | intro _ | dsimp only

theorem setWord_kept {q s x0 x1} (h : Kept q s) : Kept q (setWord x0 x1 s) := by
  unfold setWord
  repeat' with_reducible first
    | assumption | apply modMac_kept | split | dsimp only

theorem edgeDown_kept {q s x0} (h : Kept q s) : Kept q (edgeDown x0 s) := by
  unfold edgeDown
  repeat' with_reducible first
    | assumption | apply setHalf_kept | apply clearPauses_kept | apply discardQueued_kept | apply cutFrame_kept
    | apply cutArrival_kept | apply setWord_kept | apply latch_kept | apply setF_kept | apply Kept.whenT | intro _
    | dsimp only

theorem badMode_kept {q s x0} (h : Kept q s) : Kept q (badMode x0 s) := by
  unfold badMode
  repeat' with_reducible first
    | assumption | apply edgeDown_kept | apply setWord_kept | apply setF_kept | apply latch_kept | exact fun _ => rfl
    | rfl | split | dsimp only

theorem edgeLink_kept {q s x0 x1 x2 x3} (h : Kept q s) : Kept q (edgeLink x0 x1 x2 x3 s) := by
  unfold edgeLink
  repeat' with_reducible first
    | assumption | apply badMode_kept | apply edgeDown_kept | apply setWord_kept | apply setF_kept | apply latch_kept
    | apply fcLinkUp_kept | apply Kept.whenT | apply Kept.ite | intro _ | exact fun _ => rfl | rfl | split
    | dsimp only

theorem setVerify_kept {q s x0 x1} (h : Kept q s) : Kept q (setVerify x0 x1 s) := by
  unfold setVerify
  repeat' with_reducible first
    | assumption | apply modMac_kept | split | dsimp only

theorem startPreemption_kept {q s x0} (h : Kept q s) : Kept q (startPreemption x0 s) := by
  unfold startPreemption
  repeat' with_reducible first
    | assumption | apply setF_kept | apply setVerify_kept | apply Kept.ite | intro _ | split | dsimp only

theorem settlePreemption_kept {q s x0} (h : Kept q s) : Kept q (settlePreemption x0 s) := by
  unfold settlePreemption
  repeat' with_reducible first
    | assumption | apply startPreemption_kept | apply Kept.ite | intro _ | split | dsimp only

theorem verifyOut_kept {q s x0 x1} (h : Kept q s) : Kept q (verifyOut x0 x1 s) := by
  unfold verifyOut
  repeat' with_reducible first
    | assumption | apply stat1_kept | apply emitOut_kept | dsimp only

theorem verifySend_kept {q s x0} (h : Kept q s) : Kept q (verifySend x0 s) := by
  unfold verifySend
  repeat' with_reducible first
    | assumption | apply advanceTo_kept | apply setVerify_kept | apply setF_kept | apply verifyOut_kept
    | apply latch_kept | apply Kept.ite | intro _ | split | dsimp only

theorem verifyResponse_kept {q s x0} (h : Kept q s) : Kept q (verifyResponse x0 s) := by
  unfold verifyResponse
  repeat' with_reducible first
    | assumption | apply stat1_kept | apply setF_kept | apply setVerify_kept | apply Kept.ite | intro _ | split
    | dsimp only

theorem verifyReceive_kept {q s x0} (h : Kept q s) : Kept q (verifyReceive x0 s) := by
  unfold verifyReceive
  repeat' with_reducible first
    | assumption | apply verifyOut_kept | apply stat1_kept | apply Kept.ite | intro _ | split | dsimp only

theorem preemptWritten_kept {q s x0 x1} (h : Kept q s) : Kept q (preemptWritten x0 x1 s) := by
  unfold preemptWritten
  repeat' with_reducible first
    | assumption | apply settlePreemption_kept | apply setVerify_kept | apply Kept.ite | intro _ | split | dsimp only

theorem preempt_kept {q s x0 x1} (h : Kept q s) : Kept q (preempt x0 x1 s) := by
  unfold preempt
  repeat' with_reducible first
    | assumption | apply startFrom_kept | apply stat1_kept | apply putOnLine_kept | apply Kept.ite
    | refine Kept.of_eq2 ‹_› ?_ | refine Kept.of_eq22 ‹_› ?_ | intro _ | split | dsimp only

theorem clearLine_kept {q s x0} (h : Kept q s) : Kept q (clearLine x0 s) := by
  unfold clearLine
  repeat' with_reducible first
    | assumption | apply txFrameStart_kept | apply preempt_kept | split | dsimp only

theorem commitOnLine_kept {q s x0 x1} (h : Kept q s) : Kept q (commitOnLine x0 x1 s) := by
  unfold commitOnLine
  repeat' with_reducible first
    | assumption | apply dropCopy_kept | apply captureOnce_kept | apply modCopy_kept | apply setTxq_kept
    | apply clearLine_kept | apply Kept.each | apply Kept.ite | intro _ | exact fun _ => rfl | rfl | split
    | dsimp only | apply Kept.upd

theorem commitOut_kept {q s x0} (h : Kept q s) : Kept q (commitOut x0 s) := by
  unfold commitOut
  repeat' with_reducible first
    | assumption | apply sendCommit_kept | apply commitOnLine_kept | apply Kept.each | intro _ | split | dsimp only

theorem trunkLinkUp_kept {q s x0 x1} (h : Kept q s) : Kept q (trunkLinkUp x0 x1 s) := by
  unfold trunkLinkUp
  repeat' with_reducible first
    | assumption | apply sprLinkUp_kept | apply startPreemption_kept | apply latch_kept | apply setF_kept
    | apply setWord_kept | apply Kept.ite | intro _ | split | dsimp only

theorem dropOwn_kept {q s x0} (h : Kept q s) : Kept q (dropOwn x0 s) := by
  unfold dropOwn
  repeat' with_reducible first
    | assumption | apply dropCopy_kept | apply Kept.each | intro _ | split | dsimp only

theorem trunkLinkDown_kept {q s x0 x1} (h : Kept q s) : Kept q (trunkLinkDown x0 x1 s) := by
  unfold trunkLinkDown
  repeat' with_reducible first
    | assumption | apply cutArrival_kept | apply cutFrame_kept | apply dropOwn_kept | apply sprLinkDown_kept
    | apply setWord_kept | apply setVerify_kept | apply setF_kept | apply latch_kept | apply Kept.ite | intro _
    | split | dsimp only

theorem endRevert_kept {q s x0} (h : Kept q s) : Kept q (endRevert x0 s) := by
  unfold endRevert
  repeat' with_reducible first
    | assumption | apply setF_kept | apply modFab_kept | exact fun _ => rfl | rfl | dsimp only

theorem lineLost_kept {q s x0 x1} (h : Kept q s) : Kept q (lineLost x0 x1 s) := by
  unfold lineLost
  repeat' with_reducible first
    | assumption | apply endRevert_kept | apply showAgg_kept | apply latch_kept | apply cutFrame_kept
    | apply modFab_kept | apply moveLine_kept | apply divertCopy_kept | apply Kept.each | apply Kept.whenT
    | apply Kept.ite | intro _ | exact fun _ => rfl | rfl | split | dsimp only

theorem lineBack_kept {q s x0} (h : Kept q s) : Kept q (lineBack x0 s) := by
  unfold lineBack
  repeat' with_reducible first
    | assumption | apply showAgg_kept | apply modFab_kept | apply Kept.whenT | intro _ | exact fun _ => rfl | rfl
    | split | dsimp only | apply Kept.upd

theorem revertCheck_kept {q s x0} (h : Kept q s) : Kept q (revertCheck x0 s) := by
  unfold revertCheck
  repeat' with_reducible first
    | assumption | apply modFab_kept | apply endRevert_kept | apply Kept.ite | intro _ | exact fun _ => rfl | rfl
    | split | dsimp only

theorem beginRevert_kept {q s x0} (h : Kept q s) : Kept q (beginRevert x0 s) := by
  unfold beginRevert
  repeat' with_reducible first
    | assumption | apply revertCheck_kept | apply setF_kept | apply modFab_kept | exact fun _ => rfl | rfl
    | dsimp only

theorem revertStart_kept {q s x0} (h : Kept q s) : Kept q (revertStart x0 s) := by
  unfold revertStart
  repeat' with_reducible first
    | assumption | apply beginRevert_kept | apply advanceTo_kept | apply Kept.ite | intro _ | split | dsimp only

theorem revertWritten_kept {q s} (h : Kept q s) : Kept q (revertWritten s) := by
  unfold revertWritten
  repeat' with_reducible first
    | assumption | apply beginRevert_kept | apply Kept.each | apply Kept.ite | intro _ | split | dsimp only

theorem revertForce_kept {q s x0 x1} (h : Kept q s) : Kept q (revertForce x0 x1 s) := by
  unfold revertForce
  repeat' with_reducible first
    | assumption | apply revertCheck_kept | apply advanceTo_kept | apply modFab_kept | apply count_kept
    | apply latch_kept | apply Kept.ite | intro _ | exact fun _ => rfl | rfl | split | dsimp only

theorem drainOver_kept {q s x0} (h : Kept q s) : Kept q (drainOver x0 s) := by
  unfold drainOver
  repeat' with_reducible first
    | assumption | apply modMac_kept | apply dropCopy_kept | apply Kept.each | intro _ | dsimp only

theorem drainExpiry_kept {q s x0} (h : Kept q s) : Kept q (drainExpiry x0 s) := by
  unfold drainExpiry
  repeat' with_reducible first
    | assumption | apply drainOver_kept | apply advanceTo_kept | split | dsimp only

theorem drainWritten_kept {q s x0} (h : Kept q s) : Kept q (drainWritten x0 s) := by
  unfold drainWritten
  repeat' with_reducible first
    | assumption | apply drainOver_kept | apply Kept.ite | intro _ | split | dsimp only

theorem mstClear_kept {q s x0} (h : Kept q s) : Kept q (mstClear x0 s) := by
  unfold mstClear
  repeat' with_reducible first
    | assumption | apply setR_kept | apply Kept.each | apply Kept.ite | intro _ | split | dsimp only

/-! ### RingWriter -/

theorem noteTat_kept {q s x0 x1} (h : Kept q s) : Kept q (noteTat x0 x1 s) := by
  unfold noteTat
  repeat' with_reducible first
    | assumption | apply count_kept | apply modFrame_kept | apply Kept.ite | intro _ | exact fun _ => rfl | rfl
    | split | dsimp only | apply Kept.upd

theorem itemData_kept {q s x0} (h : Kept q s) : Kept q (itemData x0 s).2 := by
  unfold itemData
  repeat' with_reducible first
    | assumption | apply tatIn_kept | apply noteTat_kept | refine Kept.of_eq22 ‹_› ?_ | refine Kept.of_eq2 ‹_› ?_
    | apply Kept.ite | intro _ | split | dsimp only | apply Kept.upd

theorem loseItem_kept {q s x0 x1} (h : Kept q s) : Kept q (loseItem x0 x1 s) := by
  unfold loseItem
  repeat' with_reducible first
    | assumption | apply latch_kept | apply count_kept | apply dropCopy_kept | apply Kept.ite | intro _ | split
    | dsimp only

theorem itemWritten_kept {q s x0} (h : Kept q s) : Kept q (itemWritten x0 s) := by
  unfold itemWritten
  repeat' with_reducible first
    | assumption | apply deliverCopy_kept | apply removeCopy_kept | apply ledReturn_kept | apply Kept.ite | intro _
    | split | dsimp only

theorem writeBacks_kept {q s x0 x1 x2 x3 x4} (h : Kept q s) : Kept q (writeBacks x0 x1 x2 x3 x4 s) := by
  unfold writeBacks
  repeat' with_reducible first
    | assumption | apply writeBack_kept | apply Kept.each | apply Kept.ite | intro _ | split | dsimp only

theorem discardWriting_kept {q s x0} (h : Kept q s) : Kept q (discardWriting x0 s) := by
  unfold discardWriting
  repeat' with_reducible first
    | assumption | apply loseItem_kept | apply noteWriteback_kept | apply ringEvent_kept | apply count_kept
    | apply modRing_kept | apply writeBacks_kept | split | dsimp only

theorem progress_kept {q s x0 x1} (h : Kept q s) : Kept q (progress x0 x1 s) := by
  induction x0 generalizing s with
  | zero => exact h
  | succ n ih =>
    unfold progress
    repeat' with_reducible first
      | assumption | apply ih | apply shedShort_kept | apply itemWritten_kept | apply noteWriteback_kept | apply count_kept
      | apply modRing_kept | apply writeBacks_kept | apply discardWriting_kept | apply badBuffer_kept | apply writeHost_kept
      | apply gapEvent_kept | apply Kept.whenT | intro _ | split | dsimp only

theorem beginWrite_kept {q s x0 x1} (h : Kept q s) : Kept q (beginWrite x0 x1 s) := by
  unfold beginWrite
  repeat' with_reducible first
    | assumption | apply itemData_kept | apply modRing_kept | apply progress_kept | refine Kept.of_eq2 ‹_› ?_
    | refine Kept.of_eq22 ‹_› ?_ | dsimp only

theorem drainHeld_kept {q s x0 x1} (h : Kept q s) : Kept q (drainHeld x0 x1 s) := by
  induction x0 generalizing s with
  | zero =>
    unfold drainHeld
    repeat' with_reducible first
      | assumption | apply beginWrite_kept | apply modRing_kept | apply Kept.ite | intro _ | split | dsimp only
  | succ n ih =>
    unfold drainHeld
    repeat' with_reducible first
      | assumption | apply ih | apply beginWrite_kept | apply modRing_kept | apply Kept.ite | intro _ | split
      | dsimp only

theorem goOn_kept {q s x0} (h : Kept q s) : Kept q (goOn x0 s) := by
  unfold goOn
  repeat' with_reducible first
    | assumption | apply gapEvent_kept | apply progress_kept | apply drainHeld_kept | split | dsimp only

theorem dropForRing_kept {q s x0 x1} (h : Kept q s) : Kept q (dropForRing x0 x1 s) := by
  unfold dropForRing
  repeat' with_reducible first
    | assumption | apply loseItem_kept | apply ringEvent_kept | apply count_kept | apply Kept.whenT | intro _ | split
    | dsimp only

theorem policyFate_kept {q s x0 x1} (h : Kept q s) : Kept q (policyFate x0 x1 s) := by
  unfold policyFate
  repeat' with_reducible first
    | assumption | apply modRing_kept | apply dropForRing_kept | apply Kept.ite | intro _ | split | dsimp only

theorem ringWrite_kept {q s} (h : Kept q s) : Kept q (ringWrite s) := by
  unfold ringWrite
  repeat' with_reducible first
    | assumption | apply modFab_kept | apply dropForRing_kept | apply policyFate_kept | apply beginWrite_kept
    | apply loseItem_kept | apply Kept.ite | intro _ | exact fun _ => rfl | rfl | split | dsimp only | apply Kept.upd

theorem stallExpiry_kept {q s x0} (h : Kept q s) : Kept q (stallExpiry x0 s) := by
  unfold stallExpiry
  repeat' with_reducible first
    | assumption | apply discardWriting_kept | apply advanceTo_kept | apply drainHeld_kept | split | dsimp only

theorem rxFetched_kept {q s x0 x1} (h : Kept q s) : Kept q (rxFetched x0 x1 s) := by
  unfold rxFetched
  repeat' with_reducible first
    | assumption | apply goOn_kept | apply modRing_kept | apply Kept.ite | intro _ | split | dsimp only

theorem doorbell_kept {q s x0 x1} (h : Kept q s) : Kept q (doorbell x0 x1 s) := by
  unfold doorbell
  repeat' with_reducible first
    | assumption | apply ringEvent_kept | apply count_kept | apply goOn_kept | apply modRing_kept | apply Kept.whenT
    | apply Kept.ite | intro _ | split | dsimp only

theorem doorbellArrives_kept {q s x0 x1} (h : Kept q s) : Kept q (doorbellArrives x0 x1 s) := by
  unfold doorbellArrives
  repeat' with_reducible first
    | assumption | apply modHost_kept | apply doorbell_kept | apply Kept.ite | intro _ | exact fun _ => rfl | rfl
    | split | dsimp only | apply Kept.upd

theorem bellsFirst_kept {q s x0} (h : Kept q s) : Kept q (bellsFirst x0 s) := by
  unfold bellsFirst
  repeat' with_reducible first
    | assumption | apply doorbell_kept | apply modHost_kept | apply Kept.each | intro _ | exact fun _ => rfl | rfl
    | split | dsimp only | apply Kept.upd

theorem captureWrite_kept {q s} (h : Kept q s) : Kept q (captureWrite s) := by
  unfold captureWrite
  repeat' with_reducible first
    | assumption | apply modFab_kept | apply ledDrop_kept | apply count_kept | apply badBuffer_kept
    | apply writeBack_kept | apply modRing_kept | apply noteWriteback_kept | apply writeHost_kept
    | apply ledDeliver_kept | apply xonCheck_kept | apply emitOut_kept | apply Kept.ite | intro _ | exact fun _ => rfl
    | rfl | split | dsimp only | apply Kept.upd

theorem hostFan_kept {q s x0 x1} (h : Kept q s) : Kept q (hostFan x0 x1 s).2.2 := by
  unfold hostFan
  repeat' with_reducible first
    | assumption | apply fdbFan_kept | apply Kept.ite | refine Kept.of_eq2 ‹_› ?_ | refine Kept.of_eq22 ‹_› ?_
    | intro _ | split | dsimp only

theorem hostAdmit_kept {q s x0 x1 x2} (h : Kept q s) : Kept q (hostAdmit x0 x1 x2 s) := by
  unfold hostAdmit
  repeat' with_reducible first
    | assumption | apply hostFan_kept | apply dispatch_kept | apply modHost_kept | apply modRing_kept
    | apply txDoneOpen_kept | apply setFate_kept | apply Kept.ite | refine Kept.of_eq2 ‹_› ?_
    | refine Kept.of_eq22 ‹_› ?_ | intro _ | split | dsimp only

theorem txDataRead_kept {q s x0 x1} (h : Kept q s) : Kept q (txDataRead x0 x1 s) := by
  unfold txDataRead
  repeat' with_reducible first
    | assumption | apply modHost_kept | apply modRing_kept | apply hostAdmit_kept | apply Kept.ite | intro _ | split
    | dsimp only

theorem retryClass_kept {q s x0 x1} (h : Kept q s) : Kept q (retryClass x0 x1 s) := by
  induction x0 generalizing s with
  | zero =>
    unfold retryClass
    repeat' with_reducible first
      | assumption | apply modHost_kept | apply hostAdmit_kept | split | dsimp only
  | succ n ih =>
    unfold retryClass
    repeat' with_reducible first
      | assumption | apply ih | apply modHost_kept | apply hostAdmit_kept | split | dsimp only

theorem retryHost_kept {q s} (h : Kept q s) : Kept q (retryHost s) := by
  unfold retryHost
  repeat' with_reducible first
    | assumption | apply retryClass_kept | apply Kept.each | apply Kept.ite | intro _ | split | dsimp only

theorem txReadError_kept {q s x0} (h : Kept q s) : Kept q (txReadError x0 s) := by
  unfold txReadError
  repeat' with_reducible first
    | assumption | apply txDoneOpen_kept | split | dsimp only

end Sys2Proof.Machine
end

