-- ==== Sys2Proof/Laws/KeepsUnits.lean ====
section
/-! SUPPORT. What every operation keeps, one lemma each: CAN, Filigree, sense and drive, Carillon, Ilgil, the local bus, CRC and redundancy. -/
namespace Sys2Proof.Machine
set_option maxRecDepth 2000
set_option linter.unusedTactic false
set_option linter.unreachableTactic false

/-! ### Can -/

theorem setChan_kept {q s x0 x1} (h : Kept q s) : Kept q (setChan x0 x1 s) := by
  unfold setChan
  repeat' with_reducible first
    | assumption | exact fun _ => rfl | rfl | dsimp only | apply Kept.upd

theorem modChan_kept {q s x0 x1} (h : Kept q s) : Kept q (modChan x0 x1 s) := by
  unfold modChan
  repeat' with_reducible first
    | assumption | apply setChan_kept | dsimp only

theorem modTt_kept {q s x0} (h : Kept q s) : Kept q (modTt x0 s) := by
  unfold modTt
  repeat' with_reducible first
    | assumption | exact fun _ => rfl | rfl | dsimp only | apply Kept.upd

theorem ttCause_kept {q s x0} (h : Kept q s) : Kept q (ttCause x0 s) := by
  unfold ttCause
  repeat' with_reducible first
    | assumption | apply modTt_kept | apply latch_kept | apply setF_kept | apply record_kept | apply Kept.ite
    | intro _ | split | dsimp only

theorem putErrs_kept {q s x0 x1 x2} (h : Kept q s) : Kept q (putErrs x0 x1 x2 s) := by
  unfold putErrs
  repeat' with_reducible first
    | assumption | apply ttCause_kept | apply latch_kept | apply setF_kept | apply Kept.whenT | apply Kept.ite
    | intro _ | split | dsimp only

theorem busOff_kept {q s x0} (h : Kept q s) : Kept q (busOff x0 s) := by
  unfold busOff
  repeat' with_reducible first
    | assumption | apply setChan_kept | apply countBy_kept | apply record_kept | apply count_kept | apply latch_kept
    | apply setF_kept | apply ttCause_kept | apply Kept.whenT | intro _ | dsimp only

theorem addErrs_kept {q s x0 x1 x2} (h : Kept q s) : Kept q (addErrs x0 x1 x2 s) := by
  unfold addErrs
  repeat' with_reducible first
    | assumption | apply putErrs_kept | apply busOff_kept | apply Kept.whenT | apply Kept.ite | intro _ | split
    | dsimp only

theorem receivedWell_kept {q s x0} (h : Kept q s) : Kept q (receivedWell x0 s) := by
  unfold receivedWell
  repeat' with_reducible first
    | assumption | apply drawFree_kept | apply putErrs_kept | apply Kept.ite | refine Kept.of_eq2 ‹_› ?_
    | refine Kept.of_eq22 ‹_› ?_ | intro _ | split | dsimp only

theorem notLonely_kept {q s x0} (h : Kept q s) : Kept q (notLonely x0 s) := by
  unfold notLonely
  repeat' with_reducible first
    | assumption | apply setF_kept | apply modChan_kept | dsimp only

theorem newCycle_kept {q s x0 x1 x2 x3} (h : Kept q s) : Kept q (newCycle x0 x1 x2 x3 s) := by
  unfold newCycle
  repeat' with_reducible first
    | assumption | apply ttCause_kept | apply modTt_kept | apply setR_kept | apply setF_kept | apply Kept.whenT
    | apply Kept.ite | intro _ | split | dsimp only

theorem filEvent_kept {q s x0} (h : Kept q s) : Kept q (filEvent x0 s) := by
  unfold filEvent
  repeat' with_reducible first
    | assumption | apply latch_kept | apply count_kept | apply Kept.ite | intro _ | exact fun _ => rfl | rfl | split
    | dsimp only | apply Kept.upd

theorem takeCan_kept {q s x0 x1 x2} (h : Kept q s) : Kept q (takeCan x0 x1 x2 s) := by
  unfold takeCan
  repeat' with_reducible first
    | assumption | apply count_kept | apply filEvent_kept | apply modFab_kept | apply Kept.whenT | apply Kept.ite
    | intro _ | exact fun _ => rfl | rfl | split | dsimp only

theorem ttReceive_kept {q s x0 x1 x2} (h : Kept q s) : Kept q (ttReceive x0 x1 x2 s) := by
  unfold ttReceive
  repeat' with_reducible first
    | assumption | apply modTt_kept | apply newCycle_kept | apply Kept.ite | intro _ | split | dsimp only

theorem offBus_kept {q s x0} (h : Kept q s) : Kept q (offBus x0 s) := by
  unfold offBus
  repeat' with_reducible first
    | assumption | apply modTt_kept | apply modChan_kept | apply Kept.whenT | intro _ | split | dsimp only

theorem canReceive_kept {q s x0 x1 x2} (h : Kept q s) : Kept q (canReceive x0 x1 x2 s) := by
  unfold canReceive
  repeat' with_reducible first
    | assumption | apply offBus_kept | apply modChan_kept | apply latch_kept | apply count_kept | apply ttReceive_kept
    | apply takeCan_kept | apply notLonely_kept | apply receivedWell_kept | apply Kept.whenT | apply Kept.ite
    | intro _ | split | dsimp only

theorem pexExit_kept {q s x0} (h : Kept q s) : Kept q (pexExit x0 s) := by
  unfold pexExit
  repeat' with_reducible first
    | assumption | apply modChan_kept | dsimp only

theorem putHost_kept {q s x0 x1 x2 x3} (h : Kept q s) : Kept q (putHost x0 x1 x2 x3 s) := by
  unfold putHost
  repeat' with_reducible first
    | assumption | apply modChan_kept | dsimp only

theorem retryCan_kept {q s} (h : Kept q s) : Kept q (retryCan s) := by
  unfold retryCan
  repeat' with_reducible first
    | assumption | apply putHost_kept | apply Kept.each | apply Kept.ite | intro _ | exact fun _ => rfl | rfl | split
    | dsimp only | apply Kept.upd

theorem canTxRecord_kept {q s x0 x1} (h : Kept q s) : Kept q (canTxRecord x0 x1 s) := by
  unfold canTxRecord
  repeat' with_reducible first
    | assumption | apply modHost_kept | apply txDoneOpen_kept | apply count_kept | apply setFate_kept
    | apply putHost_kept | apply Kept.ite | intro _ | exact fun _ => rfl | rfl | split | dsimp only | apply Kept.upd

theorem mailboxLoad_kept {q s x0 x1} (h : Kept q s) : Kept q (mailboxLoad x0 x1 s) := by
  unfold mailboxLoad
  repeat' with_reducible first
    | assumption | apply modHost_kept | apply txDoneOpen_kept | apply setF_kept | apply setR_kept | apply Kept.each
    | apply Kept.ite | intro _ | split | dsimp only

theorem canArbitrate_kept {q s x0 x1} (h : Kept q s) : Kept q (canArbitrate x0 x1 s) := by
  unfold canArbitrate
  repeat' with_reducible first
    | assumption | apply setChan_kept | apply emitOut_kept | apply setF_kept | apply modTt_kept | apply Kept.whenT
    | apply Kept.ite | intro _ | split | dsimp only

theorem canAcked_kept {q s x0} (h : Kept q s) : Kept q (canAcked x0 s) := by
  unfold canAcked
  repeat' with_reducible first
    | assumption | apply notLonely_kept | apply count_kept | apply modChan_kept | apply putErrs_kept
    | apply txDone_kept | apply setR_kept | apply newCycle_kept | apply retryCan_kept | apply takeCan_kept
    | apply Kept.whenT | apply Kept.ite | intro _ | split | dsimp only

theorem canAckError_kept {q s x0 x1} (h : Kept q s) : Kept q (canAckError x0 x1 s) := by
  unfold canAckError
  repeat' with_reducible first
    | assumption | apply modChan_kept | apply count_kept | apply offBus_kept | apply addErrs_kept | apply latch_kept
    | apply setF_kept | apply Kept.whenT | intro _ | split | dsimp only

theorem lonelyRetry_kept {q s x0} (h : Kept q s) : Kept q (lonelyRetry x0 s) := by
  unfold lonelyRetry
  repeat' with_reducible first
    | assumption | apply modChan_kept | apply advanceTo_kept | apply Kept.ite | intro _ | split | dsimp only

theorem canBusError_kept {q s x0 x1 x2 x3} (h : Kept q s) : Kept q (canBusError x0 x1 x2 x3 s) := by
  unfold canBusError
  repeat' with_reducible first
    | assumption | apply offBus_kept | apply modChan_kept | apply count_kept | apply addErrs_kept | apply Kept.whenT
    | apply Kept.ite | intro _ | exact fun _ => rfl | rfl | split | dsimp only | apply Kept.upd

theorem canRecover_kept {q s x0} (h : Kept q s) : Kept q (canRecover x0 s) := by
  unfold canRecover
  repeat' with_reducible first
    | assumption | apply setF_kept | apply Kept.whenT | apply Kept.ite | intro _ | split | dsimp only

theorem canRecovered_kept {q s x0} (h : Kept q s) : Kept q (canRecovered x0 s) := by
  unfold canRecovered
  repeat' with_reducible first
    | assumption | apply latch_kept | apply putErrs_kept | apply setF_kept | apply Kept.ite | intro _ | split
    | dsimp only

theorem canStarting_kept {q s x0} (h : Kept q s) : Kept q (canStarting x0 s) := by
  unfold canStarting
  repeat' with_reducible first
    | assumption | apply setF_kept | apply modChan_kept | apply Kept.whenT | intro _ | dsimp only

theorem canStarted_kept {q s x0} (h : Kept q s) : Kept q (canStarted x0 s) := by
  unfold canStarted
  repeat' with_reducible first
    | assumption | apply canRecovered_kept | dsimp only

theorem canStopped_kept {q s x0} (h : Kept q s) : Kept q (canStopped x0 s) := by
  unfold canStopped
  repeat' with_reducible first
    | assumption | apply offBus_kept | apply retryCan_kept | apply txDoneOpen_kept | apply setF_kept
    | apply setChan_kept | apply countBy_kept | apply Kept.each | intro _ | dsimp only

theorem canWithdraw_kept {q s x0} (h : Kept q s) : Kept q (canWithdraw x0 s) := by
  unfold canWithdraw
  repeat' with_reducible first
    | assumption | apply txDoneOpen_kept | apply setChan_kept | apply retryCan_kept | apply Kept.each | apply Kept.ite
    | intro _ | exact fun _ => rfl | rfl | split | dsimp only | apply Kept.upd

theorem canEmit_kept {q s x0 x1} (h : Kept q s) : Kept q (canEmit x0 x1 s) := by
  unfold canEmit
  repeat' with_reducible first
    | assumption | apply count_kept | apply setChan_kept | apply Kept.ite | intro _ | split | dsimp only

theorem endWindow_kept {q s} (h : Kept q s) : Kept q (endWindow s) := by
  unfold endWindow
  repeat' with_reducible first
    | assumption | apply modTt_kept | apply count_kept | apply ttCause_kept | apply Kept.ite | intro _ | split
    | dsimp only

theorem ttWindowEnd_kept {q s} (h : Kept q s) : Kept q (ttWindowEnd s) := by
  unfold ttWindowEnd
  repeat' with_reducible first
    | assumption | apply endWindow_kept | apply advanceTo_kept | split | dsimp only

theorem endPast_kept {q s x0} (h : Kept q s) : Kept q (endPast x0 s) := by
  unfold endPast
  repeat' with_reducible first
    | assumption | apply advanceTo_kept | apply endWindow_kept | apply Kept.ite | intro _ | split | dsimp only

theorem trigger1_kept {q s x0 x1 x2} (hf : ∀ t, Kept q t → Kept q (x2 t)) (h : Kept q s) : Kept q (trigger1 x0 x1 x2 s) := by
  unfold trigger1
  exact Kept.ite (hf _ (modTt_kept (Kept.whenT (fun _ => endWindow_kept) (advanceTo_kept (endPast_kept h))))) (fun _ => h)

theorem ttTx_kept {q s x0} (h : Kept q s) : Kept q (ttTx x0 s) := by
  unfold ttTx
  repeat' with_reducible first
    | assumption | apply trigger1_kept | apply setF_kept | apply latch_kept | apply count_kept | apply modTt_kept
    | apply Kept.ite | intro _ | split | dsimp only

theorem ttRx_kept {q s x0} (h : Kept q s) : Kept q (ttRx x0 s) := by
  unfold ttRx
  repeat' with_reducible first
    | assumption | apply trigger1_kept | apply modTt_kept | apply latch_kept | apply count_kept | apply Kept.ite
    | intro _ | split | dsimp only

theorem ttArb_kept {q s x0} (h : Kept q s) : Kept q (ttArb x0 s) := by
  unfold ttArb
  repeat' with_reducible first
    | assumption | apply trigger1_kept | apply modTt_kept | intro _ | dsimp only

theorem oweReference_kept {q s} (h : Kept q s) : Kept q (oweReference s) := by
  unfold oweReference
  repeat' with_reducible first
    | assumption | apply modTt_kept | apply Kept.ite | intro _ | split | dsimp only

theorem ttRef_kept {q s x0} (h : Kept q s) : Kept q (ttRef x0 s) := by
  unfold ttRef
  repeat' with_reducible first
    | assumption | apply trigger1_kept | apply oweReference_kept | intro _ | dsimp only

theorem ttWatch_kept {q s x0} (h : Kept q s) : Kept q (ttWatch x0 s) := by
  unfold ttWatch
  repeat' with_reducible first
    | assumption | apply trigger1_kept | apply count_kept | apply ttCause_kept | apply oweReference_kept
    | apply Kept.ite | intro _ | split | dsimp only

theorem ttStarting_kept {q s} (h : Kept q s) : Kept q (ttStarting s) := by
  unfold ttStarting
  repeat' with_reducible first
    | assumption | apply modTt_kept | apply setF_kept | apply ttCause_kept | apply Kept.whenT | intro _ | dsimp only

theorem ttStarted_kept {q s} (h : Kept q s) : Kept q (ttStarted s) := by
  unfold ttStarted
  repeat' with_reducible first
    | assumption | apply modTt_kept | apply ttCause_kept | apply Kept.whenT | intro _ | exact fun _ => rfl | rfl
    | split | dsimp only | apply Kept.upd

theorem ttStopped_kept {q s} (h : Kept q s) : Kept q (ttStopped s) := by
  unfold ttStopped
  repeat' with_reducible first
    | assumption | apply setF_kept | apply modTt_kept | dsimp only

/-! ### Filigree -/

theorem modFil_kept {q s x0} (h : Kept q s) : Kept q (modFil x0 s) := by
  unfold modFil
  repeat' with_reducible first
    | assumption | exact fun _ => rfl | rfl | dsimp only | apply Kept.upd

theorem setTplBit_kept {q s x0 x1 x2} (h : Kept q s) : Kept q (setTplBit x0 x1 x2 s) := by
  unfold setTplBit
  repeat' with_reducible first
    | assumption | apply setF_kept | dsimp only

theorem setTplByte_kept {q s x0 x1 x2} (h : Kept q s) : Kept q (setTplByte x0 x1 x2 s) := by
  unfold setTplByte
  repeat' with_reducible first
    | assumption | apply setF_kept | dsimp only

theorem setTplBytes_kept {q s x0 x1 x2} (h : Kept q s) : Kept q (setTplBytes x0 x1 x2 s) := by
  unfold setTplBytes
  repeat' with_reducible first
    | assumption | apply setTplByte_kept | apply Kept.each | intro _ | dsimp only

theorem tplBad_kept {q s} (h : Kept q s) : Kept q (tplBad s) := by
  unfold tplBad
  repeat' with_reducible first
    | assumption | apply latch_kept | apply count_kept | dsimp only

theorem packInto_kept {q s x0 x1} (h : Kept q s) : Kept q (packInto x0 x1 s).2 := by
  unfold packInto
  repeat' with_reducible first
    | assumption | apply tplBad_kept | apply setTplBit_kept | apply Kept.each | apply Kept.ite | intro _ | split
    | dsimp only

theorem makePending_kept {q s x0} (h : Kept q s) : Kept q (makePending x0 s) := by
  unfold makePending
  repeat' with_reducible first
    | assumption | apply modFil_kept | apply Kept.ite | intro _ | split | dsimp only

theorem clearPending_kept {q s x0} (h : Kept q s) : Kept q (clearPending x0 s) := by
  unfold clearPending
  repeat' with_reducible first
    | assumption | apply modFil_kept | dsimp only

theorem queueEmission_kept {q s x0 x1} (h : Kept q s) : Kept q (queueEmission x0 x1 s) := by
  unfold queueEmission
  repeat' with_reducible first
    | assumption | apply clearPending_kept | apply latch_kept | apply count_kept | apply modFil_kept
    | apply Kept.whenT | apply Kept.ite | intro _ | split | dsimp only

theorem emitAction_kept {q s x0} (h : Kept q s) : Kept q (emitAction x0 s) := by
  unfold emitAction
  repeat' with_reducible first
    | assumption | apply queueEmission_kept | apply count_kept | apply Kept.ite | intro _ | split | dsimp only

theorem changeDue_kept {q s x0} (h : Kept q s) : Kept q (changeDue x0 s) := by
  unfold changeDue
  repeat' with_reducible first
    | assumption | apply advanceTo_kept | apply queueEmission_kept | apply count_kept | apply clearPending_kept
    | apply Kept.ite | intro _ | split | dsimp only

theorem showHash_kept {q s} (h : Kept q s) : Kept q (showHash s) := by
  unfold showHash
  repeat' with_reducible first
    | assumption | apply setF_kept | split | dsimp only

theorem refresh_kept {q s x0 x1} (h : Kept q s) : Kept q (refresh x0 x1 s) := by
  unfold refresh
  repeat' with_reducible first
    | assumption | apply count_kept | apply packInto_kept | apply makePending_kept | apply setF_kept
    | apply Kept.whenT | apply Kept.ite | refine Kept.of_eq2 ‹_› ?_ | refine Kept.of_eq22 ‹_› ?_ | intro _ | split
    | dsimp only

theorem sourceJob_kept {q s} (h : Kept q s) : Kept q (sourceJob s) := by
  unfold sourceJob
  repeat' with_reducible first
    | assumption | apply modFil_kept | apply count_kept | apply advance_kept | apply setF_kept | apply refresh_kept
    | apply Kept.each | apply Kept.ite | intro _ | split | dsimp only

theorem walkOne_kept {q s x0 x1 x2} (h : Kept q s) : Kept q (walkOne x0 x1 x2 s).2 := by
  unfold walkOne
  repeat' with_reducible first
    | assumption | apply latch_kept | apply count_kept | apply setF_kept | apply packInto_kept | apply setTplBit_kept
    | apply Kept.whenT | apply Kept.ite | refine Kept.of_eq2 ‹_› ?_ | refine Kept.of_eq22 ‹_› ?_ | intro _ | split
    | dsimp only

theorem walk_kept {q s x0 x1 x2 x3} (h : Kept q s) : Kept q (walk x0 x1 x2 x3 s).2 := by
  induction x0 generalizing s x2 x3 with
  | zero =>
    unfold walk
    repeat' with_reducible first
      | assumption | apply walkOne_kept | refine Kept.of_eq2 ‹_› ?_ | refine Kept.of_eq22 ‹_› ?_ | split | dsimp only
  | succ n ih =>
    unfold walk
    repeat' with_reducible first
      | assumption | apply ih | apply walkOne_kept | refine Kept.of_eq2 ‹_› ?_ | refine Kept.of_eq22 ‹_› ?_ | split
      | dsimp only

theorem writeWithin_kept {q s x0 x1 x2} (h : Kept q s) : Kept q (writeWithin x0 x1 x2 s) := by
  unfold writeWithin
  repeat' with_reducible first
    | assumption | apply setTplBytes_kept | dsimp only

theorem tplSeq_kept {q s x0} (h : Kept q s) : Kept q (tplSeq x0 s) := by
  unfold tplSeq
  repeat' with_reducible first
    | assumption | apply setF_kept | apply writeWithin_kept | apply Kept.ite | intro _ | split | dsimp only

theorem tplCheck_kept {q s x0} (h : Kept q s) : Kept q (tplCheck x0 s) := by
  unfold tplCheck
  repeat' with_reducible first
    | assumption | apply tplBad_kept | apply setTplBytes_kept | apply Kept.ite | intro _ | split | dsimp only

theorem tplUdp_kept {q s x0} (h : Kept q s) : Kept q (tplUdp x0 s) := by
  unfold tplUdp
  repeat' with_reducible first
    | assumption | apply writeWithin_kept | apply Kept.ite | intro _ | split | dsimp only

theorem filAdmit_kept {q s x0} (h : Kept q s) : Kept q (filAdmit x0 s).2 := by
  unfold filAdmit
  repeat' with_reducible first
    | assumption | apply fdbFan_kept | apply dispatch_kept | refine Kept.of_eq2 ‹_› ?_ | refine Kept.of_eq22 ‹_› ?_
    | split | dsimp only

theorem filSend_kept {q s x0} (h : Kept q s) : Kept q (filSend x0 s) := by
  unfold filSend
  repeat' with_reducible first
    | assumption | apply filAdmit_kept | apply modFab_kept | apply Kept.ite | refine Kept.of_eq2 ‹_› ?_
    | refine Kept.of_eq22 ‹_› ?_ | intro _ | exact fun _ => rfl | rfl | split | dsimp only

theorem retryFil_kept {q s} (h : Kept q s) : Kept q (retryFil s) := by
  unfold retryFil
  repeat' with_reducible first
    | assumption | apply filAdmit_kept | apply modFab_kept | apply Kept.foldl | apply Kept.foldl2 | apply Kept.ite
    | refine Kept.of_eq2 ‹_› ?_ | refine Kept.of_eq22 ‹_› ?_ | intro _ | exact fun _ => rfl | rfl | split | dsimp only

theorem emission_kept {q s} (h : Kept q s) : Kept q (emission s) := by
  unfold emission
  repeat' with_reducible first
    | assumption | apply modFil_kept | apply clearPending_kept | apply count_kept | apply advance_kept
    | apply walk_kept | apply writeWithin_kept | apply tplUdp_kept | apply tplCheck_kept | apply tplSeq_kept
    | apply setF_kept | apply filSend_kept | apply canEmit_kept | apply Kept.whenT | apply Kept.ite
    | refine Kept.of_eq2 ‹_› ?_ | refine Kept.of_eq22 ‹_› ?_ | intro _ | split | dsimp only

theorem filTake_kept {q s x0} (h : Kept q s) : Kept q (filTake x0 s) := by
  unfold filTake
  repeat' with_reducible first
    | assumption | apply count_kept | apply filEvent_kept | apply Kept.ite | intro _ | split | dsimp only

theorem filEthFrame_kept {q s} (h : Kept q s) : Kept q (filEthFrame s) := by
  unfold filEthFrame
  repeat' with_reducible first
    | assumption | apply setTxq_kept | apply tatIn_kept | apply noteTat_kept | apply deliverCopy_kept
    | apply filTake_kept | refine Kept.of_eq22 ‹_› ?_ | refine Kept.of_eq2 ‹_› ?_ | apply Kept.ite | intro _ | split
    | dsimp only

theorem statusEvent_kept {q s x0 x1} (h : Kept q s) : Kept q (statusEvent x0 x1 s) := by
  unfold statusEvent
  repeat' with_reducible first
    | assumption | apply filEvent_kept | dsimp only

theorem statusSample_kept {q s x0} (h : Kept q s) : Kept q (statusSample x0 s) := by
  unfold statusSample
  repeat' with_reducible first
    | assumption | apply advanceTo_kept | apply modFil_kept | apply statusEvent_kept | apply Kept.each
    | apply Kept.ite | intro _ | split | dsimp only

theorem filStarting_kept {q s} (h : Kept q s) : Kept q (filStarting s) := by
  unfold filStarting
  repeat' with_reducible first
    | assumption | apply modFil_kept | dsimp only

theorem filStopped_kept {q s} (h : Kept q s) : Kept q (filStopped s) := by
  unfold filStopped
  repeat' with_reducible first
    | assumption | apply modFil_kept | apply latch_kept | apply countBy_kept | apply Kept.whenT | intro _ | dsimp only

/-! ### Sense -/

theorem modSd_kept {q s x0} (h : Kept q s) : Kept q (modSd x0 s) := by
  unfold modSd
  repeat' with_reducible first
    | assumption | exact fun _ => rfl | rfl | dsimp only | apply Kept.upd

theorem setSense_kept {q s x0 x1} (h : Kept q s) : Kept q (setSense x0 x1 s) := by
  unfold setSense
  repeat' with_reducible first
    | assumption | apply modSd_kept | dsimp only

theorem modSense_kept {q s x0 x1} (h : Kept q s) : Kept q (modSense x0 x1 s) := by
  unfold modSense
  repeat' with_reducible first
    | assumption | apply setSense_kept | dsimp only

theorem offerSense_kept {q s x0 x1 x2} (h : Kept q s) : Kept q (offerSense x0 x1 x2 s) := by
  unfold offerSense
  repeat' with_reducible first
    | assumption | apply filEvent_kept | dsimp only

theorem yield_kept {q s x0 x1 x2 x3 x4} (h : Kept q s) : Kept q (yield x0 x1 x2 x3 x4 s) := by
  unfold yield
  repeat' with_reducible first
    | assumption | apply offerSense_kept | apply setR_kept | apply Kept.each | apply Kept.whenT | intro _ | dsimp only

theorem showConv_kept {q s x0} (h : Kept q s) : Kept q (showConv x0 s) := by
  unfold showConv
  repeat' with_reducible first
    | assumption | apply setF_kept | split | dsimp only

theorem convertStart_kept {q s x0 x1} (h : Kept q s) : Kept q (convertStart x0 x1 s) := by
  unfold convertStart
  repeat' with_reducible first
    | assumption | apply count_kept | apply showConv_kept | apply modSense_kept | apply Kept.ite | intro _ | split
    | dsimp only

theorem hostConvert_kept {q s x0} (h : Kept q s) : Kept q (hostConvert x0 s) := by
  unfold hostConvert
  repeat' with_reducible first
    | assumption | apply convertStart_kept | apply Kept.each | intro _ | dsimp only

theorem convSample_kept {q s x0 x1 x2 x3} (h : Kept q s) : Kept q (convSample x0 x1 x2 x3 s) := by
  unfold convSample
  repeat' with_reducible first
    | assumption | apply showConv_kept | apply modSense_kept | apply yield_kept | apply Kept.ite | intro _ | split
    | dsimp only

theorem closeCycle_kept {q s x0 x1 x2} (h : Kept q s) : Kept q (closeCycle x0 x1 x2 s) := by
  unfold closeCycle
  repeat' with_reducible first
    | assumption | apply yield_kept | apply Kept.ite | intro _ | split | dsimp only

theorem cycleSample_kept {q s x0 x1 x2 x3} (h : Kept q s) : Kept q (cycleSample x0 x1 x2 x3 s) := by
  unfold cycleSample
  repeat' with_reducible first
    | assumption | apply modSense_kept | apply closeCycle_kept | apply Kept.ite | intro _ | split | dsimp only

theorem crossing_kept {q s x0 x1 x2} (h : Kept q s) : Kept q (crossing x0 x1 x2 s) := by
  unfold crossing
  repeat' with_reducible first
    | assumption | apply yield_kept | apply modSd_kept | apply modSense_kept | split | dsimp only

theorem zeroSample_kept {q s x0 x1 x2 x3} (h : Kept q s) : Kept q (zeroSample x0 x1 x2 x3 s) := by
  unfold zeroSample
  repeat' with_reducible first
    | assumption | apply modSense_kept | apply crossing_kept | apply Kept.ite | intro _ | split | dsimp only

theorem verdict_kept {q s x0 x1 x2} (h : Kept q s) : Kept q (verdict x0 x1 x2 s) := by
  unfold verdict
  repeat' with_reducible first
    | assumption | apply record_kept | apply latch_kept | apply count_kept | apply latchBits_kept
    | apply offerSense_kept | apply setF_kept | apply modSd_kept | apply Kept.whenT | apply Kept.ite | intro _ | split
    | dsimp only

theorem proveSample_kept {q s x0 x1 x2 x3} (h : Kept q s) : Kept q (proveSample x0 x1 x2 x3 s) := by
  unfold proveSample
  repeat' with_reducible first
    | assumption | apply modSd_kept | apply verdict_kept | apply Kept.each | apply Kept.ite | intro _ | split
    | dsimp only

theorem feedBits_kept {q s x0 x1} (h : Kept q s) : Kept q (feedBits x0 x1 s) := by
  unfold feedBits
  repeat' with_reducible first
    | assumption | apply modSense_kept | exact fun _ => rfl | rfl | split | dsimp only | apply Kept.upd

theorem senseSample_kept {q s x0 x1} (h : Kept q s) : Kept q (senseSample x0 x1 s) := by
  unfold senseSample
  repeat' with_reducible first
    | assumption | apply feedBits_kept | apply setSense_kept | apply setF_kept | apply latch_kept
    | apply convSample_kept | apply cycleSample_kept | apply zeroSample_kept | apply proveSample_kept
    | apply modSense_kept | apply Kept.whenT | apply Kept.ite | intro _ | exact fun _ => rfl | rfl | split
    | dsimp only | apply Kept.upd

theorem inputStuck_kept {q s x0 x1} (h : Kept q s) : Kept q (inputStuck x0 x1 s) := by
  unfold inputStuck
  repeat' with_reducible first
    | assumption | apply record_kept | apply latch_kept | apply count_kept | apply setF_kept | apply Kept.ite
    | intro _ | split | dsimp only

theorem clearStuck_kept {q s x0} (h : Kept q s) : Kept q (clearStuck x0 s) := by
  unfold clearStuck
  repeat' with_reducible first
    | assumption | apply setF_kept | split | dsimp only

theorem inputUnstuck_kept {q s x0} (h : Kept q s) : Kept q (inputUnstuck x0 s) := by
  unfold inputUnstuck
  repeat' with_reducible first
    | assumption | apply clearStuck_kept | apply setF_kept | apply Kept.ite | intro _ | split | dsimp only

theorem freshInput_kept {q s x0} (h : Kept q s) : Kept q (freshInput x0 s) := by
  unfold freshInput
  repeat' with_reducible first
    | assumption | apply modSense_kept | dsimp only

theorem chCfgWritten_kept {q s x0 x1} (h : Kept q s) : Kept q (chCfgWritten x0 x1 s) := by
  unfold chCfgWritten
  repeat' with_reducible first
    | assumption | apply modSense_kept | apply freshInput_kept | apply Kept.whenT | intro _ | dsimp only

theorem settleMclk1_kept {q s x0} (h : Kept q s) : Kept q (settleMclk1 x0 s) := by
  unfold settleMclk1
  repeat' with_reducible first
    | assumption | apply emitOut_kept | apply modSd_kept | apply freshInput_kept | apply Kept.each | apply Kept.whenT
    | apply Kept.ite | intro _ | exact fun _ => rfl | rfl | split | dsimp only | apply Kept.upd

theorem dropCycle_kept {q s x0} (h : Kept q s) : Kept q (dropCycle x0 s) := by
  unfold dropCycle
  repeat' with_reducible first
    | assumption | apply modSense_kept | apply Kept.ite | intro _ | exact fun _ => rfl | rfl | split | dsimp only
    | apply Kept.upd

theorem settleSense_kept {q s} (h : Kept q s) : Kept q (settleSense s) := by
  unfold settleSense
  repeat' with_reducible first
    | assumption | apply settleMclk1_kept | apply dropCycle_kept | apply Kept.each | intro _ | split | dsimp only

theorem senseStopping_kept {q s} (h : Kept q s) : Kept q (senseStopping s) := by
  unfold senseStopping
  repeat' with_reducible first
    | assumption | apply modSense_kept | apply showConv_kept | apply clearStuck_kept | apply modSd_kept
    | apply inputUnstuck_kept | apply Kept.each | intro _ | exact fun _ => rfl | rfl | split | dsimp only
    | apply Kept.upd

theorem setCmd_kept {q s x0 x1} (h : Kept q s) : Kept q (setCmd x0 x1 s) := by
  unfold setCmd
  repeat' with_reducible first
    | assumption | apply setF_kept | dsimp only

theorem setPassed_kept {q s x0 x1} (h : Kept q s) : Kept q (setPassed x0 x1 s) := by
  unfold setPassed
  repeat' with_reducible first
    | assumption | apply modSd_kept | dsimp only

theorem released_kept {q s x0} (h : Kept q s) : Kept q (released x0 s) := by
  unfold released
  repeat' with_reducible first
    | assumption | apply modSd_kept | dsimp only

theorem takePassing_kept {q s x0} (h : Kept q s) : Kept q (takePassing x0 s) := by
  unfold takePassing
  repeat' with_reducible first
    | assumption | apply setPassed_kept | apply setCmd_kept | apply released_kept | apply modSd_kept

theorem drivePass_kept {q s x0} (h : Kept q s) : Kept q (drivePass x0 s) := by
  unfold drivePass
  repeat' with_reducible first
    | assumption | apply advance_kept | apply takePassing_kept | split | dsimp only

theorem levelWritten_kept {q s} (h : Kept q s) : Kept q (levelWritten s) := by
  unfold levelWritten
  repeat' with_reducible first
    | assumption | apply setCmd_kept | apply inCycles_kept | apply Kept.each | apply Kept.ite | intro _ | split
    | dsimp only

theorem hostFollows_kept {q s} (h : Kept q s) : Kept q (hostFollows s) := by
  unfold hostFollows
  repeat' with_reducible first
    | assumption | apply modSd_kept | exact fun _ => rfl | rfl | split | dsimp only | apply Kept.upd

theorem driveAction_kept {q s x0 x1} (h : Kept q s) : Kept q (driveAction x0 x1 s) := by
  unfold driveAction
  repeat' with_reducible first
    | assumption | apply count_kept | apply released_kept | apply setCmd_kept | apply modSd_kept | apply Kept.ite
    | intro _ | split | dsimp only

theorem noteCase_kept {q s x0} (h : Kept q s) : Kept q (noteCase x0 s) := by
  unfold noteCase
  repeat' with_reducible first
    | assumption | apply modSd_kept | apply Kept.ite | intro _ | exact fun _ => rfl | rfl | split | dsimp only
    | apply Kept.upd

theorem rbRestart_kept {q s x0} (h : Kept q s) : Kept q (rbRestart x0 s) := by
  unfold rbRestart
  repeat' with_reducible first
    | assumption | apply modSd_kept | apply Kept.ite | intro _ | split | dsimp only

theorem abandonProve_kept {q s x0} (h : Kept q s) : Kept q (abandonProve x0 s) := by
  unfold abandonProve
  repeat' with_reducible first
    | assumption | apply modSd_kept | apply count_kept | split | dsimp only

theorem proveChange_kept {q s x0 x1} (h : Kept q s) : Kept q (proveChange x0 x1 s) := by
  unfold proveChange
  repeat' with_reducible first
    | assumption | apply abandonProve_kept | apply modSd_kept | apply Kept.ite | intro _ | split | dsimp only

theorem outChanges_kept {q s x0 x1} (h : Kept q s) : Kept q (outChanges x0 x1 s) := by
  unfold outChanges
  repeat' with_reducible first
    | assumption | apply proveChange_kept | apply rbRestart_kept | apply emitOut_kept | apply setF_kept | dsimp only

theorem settleDrive1_kept {q s x0} (h : Kept q s) : Kept q (settleDrive1 x0 s) := by
  unfold settleDrive1
  repeat' with_reducible first
    | assumption | apply setCmd_kept | apply released_kept | apply modSd_kept | apply noteCase_kept
    | apply outChanges_kept | apply Kept.ite | intro _ | exact fun _ => rfl | rfl | split | dsimp only
    | apply Kept.upd

theorem settleDrive_kept {q s} (h : Kept q s) : Kept q (settleDrive s) := by
  unfold settleDrive
  repeat' with_reducible first
    | assumption | apply settleDrive1_kept | apply Kept.each | intro _ | dsimp only

theorem readbackStart_kept {q s x0} (h : Kept q s) : Kept q (readbackStart x0 s) := by
  unfold readbackStart
  repeat' with_reducible first
    | assumption | apply advanceTo_kept | apply modSd_kept | split | dsimp only

theorem readbackCompletes_kept {q s x0 x1} (h : Kept q s) : Kept q (readbackCompletes x0 x1 s) := by
  unfold readbackCompletes
  repeat' with_reducible first
    | assumption | apply modSd_kept | apply setF_kept | apply latchBits_kept | apply count_kept | apply latch_kept
    | apply record_kept | apply Kept.ite | intro _ | exact fun _ => rfl | rfl | split | dsimp only | apply Kept.upd

theorem readbackFault_kept {q s x0} (h : Kept q s) : Kept q (readbackFault x0 s) := by
  unfold readbackFault
  repeat' with_reducible first
    | assumption | apply advanceTo_kept | apply inCycles_kept | apply record_kept | apply latch_kept
    | apply count_kept | apply latchBits_kept | apply setF_kept | apply Kept.ite | intro _ | split | dsimp only

theorem proveOpen_kept {q s x0} (h : Kept q s) : Kept q (proveOpen x0 s) := by
  unfold proveOpen
  repeat' with_reducible first
    | assumption | apply advanceTo_kept | apply modSd_kept | apply Kept.ite | intro _ | split | dsimp only

theorem drvPhaseWritten_kept {q s x0} (h : Kept q s) : Kept q (drvPhaseWritten x0 s) := by
  unfold drvPhaseWritten
  repeat' with_reducible first
    | assumption | apply setPassed_kept | split | dsimp only

theorem drvCfgWritten_kept {q s x0 x1} (h : Kept q s) : Kept q (drvCfgWritten x0 x1 s) := by
  unfold drvCfgWritten
  repeat' with_reducible first
    | assumption | apply modSd_kept | apply rbRestart_kept | apply setPassed_kept | apply Kept.whenT | intro _
    | dsimp only

theorem driveStarting_kept {q s} (h : Kept q s) : Kept q (driveStarting s) := by
  unfold driveStarting
  repeat' with_reducible first
    | assumption | apply rbRestart_kept | apply Kept.each | intro _ | dsimp only

theorem driveStopping_kept {q s} (h : Kept q s) : Kept q (driveStopping s) := by
  unfold driveStopping
  repeat' with_reducible first
    | assumption | apply abandonProve_kept | apply Kept.each | intro _ | dsimp only

/-! ### Carillon -/

theorem selectOne_kept {q s x0 x1 x2} (h : Kept q s) : Kept q (selectOne x0 x1 x2 s) := by
  unfold selectOne
  repeat' with_reducible first
    | assumption | apply modCar_kept | apply latch_kept | apply count_kept | apply hold_kept | apply Kept.whenT
    | apply Kept.ite | intro _ | exact fun _ => rfl | rfl | split | dsimp only | apply Kept.upd

theorem selectDom_kept {q s x0} (h : Kept q s) : Kept q (selectDom x0 s) := by
  unfold selectDom
  repeat' with_reducible first
    | assumption | apply modDom_kept | apply selectOne_kept | apply Kept.each | apply Kept.ite | intro _ | split
    | dsimp only

theorem gateAction_kept {q s x0 x1} (h : Kept q s) : Kept q (gateAction x0 x1 s) := by
  unfold gateAction
  repeat' with_reducible first
    | assumption | apply setGate_kept | apply Kept.each | apply Kept.foldl | apply Kept.foldl2 | apply Kept.ite
    | intro _ | split | dsimp only

theorem syncAction_kept {q s x0 x1} (h : Kept q s) : Kept q (syncAction x0 x1 s) := by
  unfold syncAction
  repeat' with_reducible first
    | assumption | apply driveSync_kept | apply modTim_kept | apply Kept.ite | intro _ | split | dsimp only

theorem applyAct_kept {q s x0} (h : Kept q s) : Kept q (applyAct x0 s) := by
  unfold applyAct
  repeat' with_reducible first
    | assumption | apply count_kept | apply gateAction_kept | apply emitAction_kept | apply convertStart_kept
    | apply driveAction_kept | apply eventRecord_kept | apply correlate_kept | apply syncAction_kept | apply Kept.each
    | apply Kept.ite | intro _ | split | dsimp only

theorem applyHead_kept {q s} (h : Kept q s) : Kept q (applyHead s) := by
  unfold applyHead
  repeat' with_reducible first
    | assumption | apply modCar_kept | apply applyAct_kept | exact fun _ => rfl | rfl | split | dsimp only
    | apply Kept.upd

theorem deferRest_kept {q s} (h : Kept q s) : Kept q (deferRest s) := by
  unfold deferRest
  repeat' with_reducible first
    | assumption | apply modCar_kept | apply latch_kept | apply countBy_kept | apply Kept.whenT | intro _ | dsimp only

theorem scheduleActs_kept {q s} (h : Kept q s) : Kept q (scheduleActs s) := by
  unfold scheduleActs
  repeat' with_reducible first
    | assumption | apply carAct_kept | apply inCycles_kept | apply Kept.ite | intro _ | split | dsimp only

theorem carAct_kept {q s} (h : Kept q s) : Kept q (carAct s) := by
  unfold carAct
  repeat' with_reducible first
    | assumption | apply applyHead_kept | apply deferRest_kept | apply scheduleActs_kept | apply Kept.whenT | intro _
    | split | dsimp only

theorem carillonFire_kept {q s} (h : Kept q s) : Kept q (carillonFire s) := by
  unfold carillonFire
  repeat' with_reducible first
    | assumption | apply advanceTo_kept | apply modCar_kept | apply selectDom_kept | apply scheduleActs_kept
    | apply deferRest_kept | apply applyActs_kept | apply Kept.each | apply Kept.ite | intro _ | exact fun _ => rfl
    | rfl | split | dsimp only | apply Kept.upd

theorem eventWritten_kept {q s x0} (h : Kept q s) : Kept q (eventWritten x0 s) := by
  unfold eventWritten
  repeat' with_reducible first
    | assumption | apply setF_kept | apply modCar_kept | apply Kept.whenT | apply Kept.ite | intro _ | split
    | dsimp only

theorem carTick_kept {q s} (h : Kept q s) : Kept q (carTick s) := by
  unfold carTick
  repeat' with_reducible first
    | assumption | apply setI_kept | apply modCar_kept | apply setF_kept | apply Kept.each | apply Kept.foldl
    | apply Kept.foldl2 | apply Kept.ite | intro _ | split | dsimp only

theorem silenceRecord_kept {q s x0} (h : Kept q s) : Kept q (silenceRecord x0 s) := by
  unfold silenceRecord
  repeat' with_reducible first
    | assumption | apply record_kept | dsimp only

theorem silenceGates_kept {q s x0} (h : Kept q s) : Kept q (silenceGates x0 s) := by
  unfold silenceGates
  repeat' with_reducible first
    | assumption | apply setGate_kept | apply Kept.each | intro _ | split | dsimp only

theorem scheduleSilence_kept {q s} (h : Kept q s) : Kept q (scheduleSilence s) := by
  unfold scheduleSilence
  repeat' with_reducible first
    | assumption | apply setF_kept | apply latch_kept | apply silenceRecord_kept | apply silenceGates_kept
    | apply trigger_kept | apply setGate_kept | apply Kept.each | apply Kept.whenT | apply Kept.ite | intro _ | split
    | dsimp only

theorem silenceRelease_kept {q s} (h : Kept q s) : Kept q (silenceRelease s) := by
  unfold silenceRelease
  repeat' with_reducible first
    | assumption | apply modCar_kept | apply silenceRecord_kept | apply latch_kept | apply setF_kept | apply Kept.ite
    | intro _ | split | dsimp only

theorem carStarting_kept {q s} (h : Kept q s) : Kept q (carStarting s) := by
  unfold carStarting
  repeat' with_reducible first
    | assumption | apply silenceGates_kept | apply modDom_kept | apply modCar_kept | apply Kept.each
    | apply Kept.whenT | apply Kept.ite | intro _ | exact fun _ => rfl | rfl | split | dsimp only | apply Kept.upd

theorem safePins_kept {q s} (h : Kept q s) : Kept q (safePins s) := by
  unfold safePins
  repeat' with_reducible first
    | assumption | apply driveSync_kept | apply Kept.each | intro _ | dsimp only

theorem carStopping_kept {q s} (h : Kept q s) : Kept q (carStopping s) := by
  unfold carStopping
  repeat' with_reducible first
    | assumption | apply applyHead_kept | apply dropSoon_kept | apply carAct_kept | apply setGate_kept
    | apply modSd_kept | apply setCmd_kept | apply safePins_kept | apply applyActs_kept | apply Kept.each
    | apply Kept.ite | intro _ | exact fun _ => rfl | rfl | split | dsimp only | apply Kept.upd

theorem settlePins_kept {q s} (h : Kept q s) : Kept q (settlePins s) := by
  unfold settlePins
  repeat' with_reducible first
    | assumption | apply safePins_kept | apply Kept.ite | intro _ | split | dsimp only

/-! ### Ilgil -/

theorem queueUnit_kept {q s x0 x1 x2} (h : Kept q s) : Kept q (queueUnit x0 x1 x2 s) := by
  unfold queueUnit
  repeat' with_reducible first
    | assumption | apply sendReliable_kept | apply modIlgPort_kept | apply Kept.ite | intro _ | split | dsimp only

theorem drainUnits_kept {q s x0 x1} (h : Kept q s) : Kept q (drainUnits x0 x1 s) := by
  induction x0 generalizing s with
  | zero =>
    unfold drainUnits
    repeat' with_reducible first
      | assumption | apply sendReliable_kept | apply modIlgPort_kept | apply Kept.ite | intro _ | split | dsimp only
  | succ n ih =>
    unfold drainUnits
    repeat' with_reducible first
      | assumption | apply ih | apply sendReliable_kept | apply modIlgPort_kept | apply Kept.ite | intro _ | split
      | dsimp only

theorem replayAll_kept {q s x0} (h : Kept q s) : Kept q (replayAll x0 s) := by
  unfold replayAll
  repeat' with_reducible first
    | assumption | apply modIlgPort_kept | apply count_kept | apply sendUnit_kept | apply Kept.each | intro _
    | dsimp only

theorem acceptUnit_kept {q s x0 x1 x2} (h : Kept q s) : Kept q (acceptUnit x0 x1 x2 s).2 := by
  unfold acceptUnit
  repeat' with_reducible first
    | assumption | apply modIlgPort_kept | apply count_kept | apply Kept.ite | intro _ | split | dsimp only

theorem plainUnit_kept {q s x0 x1 x2} (h : Kept q s) : Kept q (plainUnit x0 x1 x2 s).2 := by
  unfold plainUnit
  repeat' with_reducible first
    | assumption | apply count_kept | apply Kept.ite | intro _ | split | dsimp only

theorem timePath_kept {q s x0} (h : Kept q s) : Kept q (timePath x0 s) := by
  unfold timePath
  repeat' with_reducible first
    | assumption | apply modTim_kept | apply setServo_kept | apply setF_kept | apply enterHoldover_kept | split
    | dsimp only

theorem sendReport_kept {q s x0} (h : Kept q s) : Kept q (sendReport x0 s) := by
  unfold sendReport
  repeat' with_reducible first
    | assumption | apply queueUnit_kept | split | dsimp only

theorem setPath_kept {q s x0 x1} (h : Kept q s) : Kept q (setPath x0 x1 s) := by
  unfold setPath
  repeat' with_reducible first
    | assumption | apply modIlg_kept | apply latch_kept | apply setF_kept | apply timePath_kept
    | apply sendReport_kept | apply Kept.whenT | apply Kept.ite | intro _ | split | dsimp only

theorem repathOne_kept {q s x0} (h : Kept q s) : Kept q (repathOne x0 s) := by
  unfold repathOne
  repeat' with_reducible first
    | assumption | apply setPath_kept | apply Kept.ite | intro _ | split | dsimp only

theorem repath_kept {q s} (h : Kept q s) : Kept q (repath s) := by
  unfold repath
  repeat' with_reducible first
    | assumption | apply setF_kept | apply repathOne_kept | apply Kept.each | intro _ | dsimp only

theorem rebalance_kept {q s x0} (h : Kept q s) : Kept q (rebalance x0 s) := by
  unfold rebalance
  repeat' with_reducible first
    | assumption | apply modIlg_kept | apply Kept.ite | intro _ | split | dsimp only

theorem settleMoves_kept {q s} (h : Kept q s) : Kept q (settleMoves s) := by
  unfold settleMoves
  repeat' with_reducible first
    | assumption | apply modIlg_kept | apply setPath_kept | apply Kept.each | apply Kept.ite | intro _ | split
    | dsimp only

theorem blockLock_kept {q s x0} (h : Kept q s) : Kept q (blockLock x0 s) := by
  unfold blockLock
  repeat' with_reducible first
    | assumption | apply modIlgPort_kept | apply setF_kept | apply Kept.ite | intro _ | split | dsimp only

theorem helloUnitSend_kept {q s x0} (h : Kept q s) : Kept q (helloUnitSend x0 s) := by
  unfold helloUnitSend
  repeat' with_reducible first
    | assumption | apply advanceTo_kept | apply modIlgPort_kept | apply sendUnit_kept | apply Kept.ite | intro _
    | split | dsimp only

theorem refuse_kept {q s x0 x1} (h : Kept q s) : Kept q (refuse x0 x1 s) := by
  unfold refuse
  repeat' with_reducible first
    | assumption | apply latch_kept | apply setF_kept | dsimp only

theorem ilgEnterUp_kept {q s x0 x1} (h : Kept q s) : Kept q (ilgEnterUp x0 x1 s) := by
  unfold ilgEnterUp
  repeat' with_reducible first
    | assumption | apply setF_kept | apply setIlgPort_kept | apply repath_kept | apply record_kept | apply latch_kept
    | apply setR_kept | apply Kept.each | apply Kept.ite | intro _ | split | dsimp only

theorem helloReceive_kept {q s x0 x1} (h : Kept q s) : Kept q (helloReceive x0 x1 s) := by
  unfold helloReceive
  repeat' with_reducible first
    | assumption | apply plainUnit_kept | apply setR_kept | apply setF_kept | apply modIlgPort_kept
    | apply refuse_kept | apply modIlg_kept | apply ilgEnterUp_kept | apply Kept.ite | refine Kept.of_eq2 ‹_› ?_
    | refine Kept.of_eq22 ‹_› ?_ | intro _ | split | dsimp only

theorem ilgDrop_kept {q s x0} (h : Kept q s) : Kept q (ilgDrop x0 s) := by
  unfold ilgDrop
  repeat' with_reducible first
    | assumption | apply dropCopy_kept | apply endArrival_kept | apply abortFrame_kept | apply Kept.each | intro _
    | split | dsimp only

theorem ilgDown_kept {q s x0} (h : Kept q s) : Kept q (ilgDown x0 s) := by
  unfold ilgDown
  repeat' with_reducible first
    | assumption | apply ilgDrop_kept | apply modIlgPort_kept | apply setR_kept | apply setF_kept | apply later_kept
    | apply repath_kept | apply record_kept | apply Kept.whenT | apply Kept.ite | intro _ | split | dsimp only

theorem ilgLinkLoss_kept {q s x0} (h : Kept q s) : Kept q (ilgLinkLoss x0 s) := by
  unfold ilgLinkLoss
  repeat' with_reducible first
    | assumption | apply latch_kept | apply count_kept | apply ilgDown_kept | apply Kept.whenT | intro _ | dsimp only

theorem replayOrLose_kept {q s x0} (h : Kept q s) : Kept q (replayOrLose x0 s) := by
  unfold replayOrLose
  repeat' with_reducible first
    | assumption | apply replayAll_kept | apply ilgLinkLoss_kept | apply Kept.ite | intro _ | split | dsimp only

theorem replayTimeout_kept {q s x0} (h : Kept q s) : Kept q (replayTimeout x0 s) := by
  unfold replayTimeout
  repeat' with_reducible first
    | assumption | apply replayOrLose_kept | apply advanceTo_kept | apply Kept.ite | intro _ | split | dsimp only

theorem creditReceive_kept {q s x0 x1} (h : Kept q s) : Kept q (creditReceive x0 x1 s) := by
  unfold creditReceive
  repeat' with_reducible first
    | assumption | apply plainUnit_kept | apply setIlgPort_kept | apply deliverCopy_kept | apply setF_kept
    | apply replayOrLose_kept | apply drainUnits_kept | apply Kept.each | apply Kept.ite | refine Kept.of_eq2 ‹_› ?_
    | refine Kept.of_eq22 ‹_› ?_ | intro _ | split | dsimp only

theorem creditSend_kept {q s x0} (h : Kept q s) : Kept q (creditSend x0 s) := by
  unfold creditSend
  repeat' with_reducible first
    | assumption | apply advanceTo_kept | apply setIlgPort_kept | apply sendUnit_kept | apply Kept.ite | intro _
    | split | dsimp only

theorem cellFan_kept {q s x0 x1} (h : Kept q s) : Kept q (cellFan x0 x1 s).2.2 := by
  unfold cellFan
  repeat' with_reducible first
    | assumption | apply judgeEpoch_kept | apply fdbFan_kept | apply Kept.ite | refine Kept.of_eq2 ‹_› ?_
    | refine Kept.of_eq22 ‹_› ?_ | intro _ | split | dsimp only

theorem cellFreed_kept {q s x0 x1} (h : Kept q s) : Kept q (cellFreed x0 x1 s) := by
  unfold cellFreed
  repeat' with_reducible first
    | assumption | apply modIlgPort_kept | dsimp only

theorem cellLast_kept {q s x0 x1 x2 x3 x4} (h : Kept q s) : Kept q (cellLast x0 x1 x2 x3 x4 s) := by
  unfold cellLast
  repeat' with_reducible first
    | assumption | apply endArrival_kept | apply modFrame_kept | apply queueLearn_kept | apply endGood_kept
    | apply endBad_kept | apply Kept.ite | intro _ | exact fun _ => rfl | rfl | split | dsimp only | apply Kept.upd

theorem cellReceive_kept {q s x0 x1} (h : Kept q s) : Kept q (cellReceive x0 x1 s) := by
  unfold cellReceive
  repeat' with_reducible first
    | assumption | apply acceptUnit_kept | apply cellFan_kept | apply badSpire_kept | apply dispatch_kept
    | apply setArrival_kept | apply cellLast_kept | apply cellFreed_kept | apply modFrame_kept | apply endArrival_kept
    | apply Kept.ite | refine Kept.of_eq2 ‹_› ?_ | refine Kept.of_eq22 ‹_› ?_ | intro _ | split | dsimp only

theorem reachSend_kept {q s x0} (h : Kept q s) : Kept q (reachSend x0 s) := by
  unfold reachSend
  repeat' with_reducible first
    | assumption | apply advanceTo_kept | apply setIlgPort_kept | apply sendUnit_kept | apply Kept.ite | intro _
    | split | dsimp only

theorem setQuarantine_kept {q s x0} (h : Kept q s) : Kept q (setQuarantine x0 s) := by
  unfold setQuarantine
  repeat' with_reducible first
    | assumption | apply later_kept | apply record_kept | apply latch_kept | apply setF_kept | apply Kept.ite
    | intro _ | split | dsimp only

theorem reachReceive_kept {q s x0 x1} (h : Kept q s) : Kept q (reachReceive x0 x1 s) := by
  unfold reachReceive
  repeat' with_reducible first
    | assumption | apply plainUnit_kept | apply repath_kept | apply setF_kept | apply setQuarantine_kept
    | apply Kept.ite | refine Kept.of_eq2 ‹_› ?_ | refine Kept.of_eq22 ‹_› ?_ | intro _ | split | dsimp only

theorem timeUnitSend_kept {q s x0} (h : Kept q s) : Kept q (timeUnitSend x0 s) := by
  unfold timeUnitSend
  repeat' with_reducible first
    | assumption | apply advanceTo_kept | apply setIlgPort_kept | apply sendUnit_kept | apply Kept.ite | intro _
    | split | dsimp only

theorem ilgDelay_kept {q s x0 x1 x2 x3} (h : Kept q s) : Kept q (ilgDelay x0 x1 x2 x3 s) := by
  unfold ilgDelay
  repeat' with_reducible first
    | assumption | apply setF_kept | apply setIlgPort_kept | dsimp only

theorem timeUnitReceive_kept {q s x0 x1} (h : Kept q s) : Kept q (timeUnitReceive x0 x1 s) := by
  unfold timeUnitReceive
  repeat' with_reducible first
    | assumption | apply plainUnit_kept | apply setIlgPort_kept | apply ilgDelay_kept | apply drawFree_kept
    | apply modTim_kept | apply servoAccept_kept | apply Kept.ite | refine Kept.of_eq2 ‹_› ?_
    | refine Kept.of_eq22 ‹_› ?_ | intro _ | split | dsimp only

theorem judgeWorker_kept {q s x0} (h : Kept q s) : Kept q (judgeWorker x0 s) := by
  unfold judgeWorker
  repeat' with_reducible first
    | assumption | apply setF_kept | dsimp only

theorem workerGenWritten_kept {q s x0} (h : Kept q s) : Kept q (workerGenWritten x0 s) := by
  unfold workerGenWritten
  repeat' with_reducible first
    | assumption | apply inCycles_kept | apply judgeWorker_kept | apply advance_kept | apply Kept.ite | intro _
    | split | dsimp only

theorem relayUnit_kept {q s x0} (h : Kept q s) : Kept q (relayUnit x0 s) := by
  unfold relayUnit
  repeat' with_reducible first
    | assumption | apply queueUnit_kept | split | dsimp only

theorem mgmtReceive_kept {q s x0 x1 x2} (h : Kept q s) : Kept q (mgmtReceive x0 x1 x2 s).2 := by
  unfold mgmtReceive
  repeat' with_reducible first
    | assumption | apply acceptUnit_kept | apply relayUnit_kept | apply Kept.ite | refine Kept.of_eq2 ‹_› ?_
    | refine Kept.of_eq22 ‹_› ?_ | intro _ | split | dsimp only

theorem mgmtGo_kept {q s x0 x1} (h : Kept q s) : Kept q (mgmtGo x0 x1 s) := by
  unfold mgmtGo
  repeat' with_reducible first
    | assumption | apply setF_kept | apply queueUnit_kept | apply modIlg_kept | apply Kept.ite | intro _ | split
    | dsimp only

theorem mgmtCtrl_kept {q s x0} (h : Kept q s) : Kept q (mgmtCtrl x0 s) := by
  unfold mgmtCtrl
  repeat' with_reducible first
    | assumption | apply mgmtGo_kept | apply Kept.ite | intro _ | split | dsimp only

theorem mgmtEnd_kept {q s x0} (h : Kept q s) : Kept q (mgmtEnd x0 s) := by
  unfold mgmtEnd
  repeat' with_reducible first
    | assumption | apply modIlg_kept | apply setF_kept | dsimp only

theorem mgmtTimeout_kept {q s} (h : Kept q s) : Kept q (mgmtTimeout s) := by
  unfold mgmtTimeout
  repeat' with_reducible first
    | assumption | apply mgmtEnd_kept | apply advanceTo_kept | split | dsimp only

theorem mgmtAnswer_kept {q s x0 x1} (h : Kept q s) : Kept q (mgmtAnswer x0 x1 s) := by
  unfold mgmtAnswer
  repeat' with_reducible first
    | assumption | apply mgmtReceive_kept | apply count_kept | apply mgmtEnd_kept | apply setR_kept | apply Kept.ite
    | refine Kept.of_eq2 ‹_› ?_ | refine Kept.of_eq22 ‹_› ?_ | intro _ | split | dsimp only

theorem workerSays_kept {q s x0 x1} (h : Kept q s) : Kept q (workerSays x0 x1 s) := by
  unfold workerSays
  repeat' with_reducible first
    | assumption | apply judgeWorker_kept | apply setR_kept | apply setF_kept | dsimp only

theorem workerReport_kept {q s x0 x1} (h : Kept q s) : Kept q (workerReport x0 x1 s) := by
  unfold workerReport
  repeat' with_reducible first
    | assumption | apply mgmtReceive_kept | apply workerSays_kept | apply setF_kept | apply setR_kept
    | apply latch_kept | apply Kept.whenT | apply Kept.ite | refine Kept.of_eq2 ‹_› ?_ | refine Kept.of_eq22 ‹_› ?_
    | intro _ | split | dsimp only

theorem imageResult_kept {q s x0 x1} (h : Kept q s) : Kept q (imageResult x0 x1 s) := by
  unfold imageResult
  repeat' with_reducible first
    | assumption | apply mgmtReceive_kept | apply record_kept | apply workerSays_kept | apply modIlg_kept
    | apply latch_kept | apply setF_kept | apply Kept.ite | refine Kept.of_eq2 ‹_› ?_ | refine Kept.of_eq22 ‹_› ?_
    | intro _ | split | dsimp only

theorem sendImageUnit_kept {q s x0 x1 x2} (h : Kept q s) : Kept q (sendImageUnit x0 x1 x2 s) := by
  unfold sendImageUnit
  repeat' with_reducible first
    | assumption | apply queueUnit_kept | split | dsimp only

theorem workerImageEnd_kept {q s x0} (h : Kept q s) : Kept q (workerImageEnd x0 s) := by
  unfold workerImageEnd
  repeat' with_reducible first
    | assumption | apply modIlg_kept | apply setF_kept | apply sendImageUnit_kept | apply Kept.ite | intro _ | split
    | dsimp only

theorem imgRead_kept {q s x0} (h : Kept q s) : Kept q (imgRead x0 s) := by
  unfold imgRead
  repeat' with_reducible first
    | assumption | apply workerImageEnd_kept | apply readHost_kept | apply emitOut_kept | apply Kept.ite | intro _
    | split | dsimp only

theorem workerImageStart_kept {q s x0} (h : Kept q s) : Kept q (workerImageStart x0 s) := by
  unfold workerImageStart
  repeat' with_reducible first
    | assumption | apply imgRead_kept | apply modIlg_kept | apply setF_kept | apply Kept.ite | intro _ | split
    | dsimp only

theorem workerImageAbort_kept {q s x0} (h : Kept q s) : Kept q (workerImageAbort x0 s) := by
  unfold workerImageAbort
  repeat' with_reducible first
    | assumption | apply workerImageEnd_kept | apply Kept.ite | intro _ | split | dsimp only

theorem sendImage_kept {q s x0} (h : Kept q s) : Kept q (sendImage x0 s) := by
  induction x0 generalizing s with
  | zero =>
    unfold sendImage
    repeat' with_reducible first
      | assumption | apply modIlg_kept | apply sendImageUnit_kept | apply setF_kept | apply Kept.ite | intro _ | split
      | dsimp only
  | succ n ih =>
    unfold sendImage
    repeat' with_reducible first
      | assumption | apply ih | apply modIlg_kept | apply sendImageUnit_kept | apply setF_kept | apply Kept.ite
      | intro _ | split | dsimp only

theorem workerImageRead_kept {q s x0} (h : Kept q s) : Kept q (workerImageRead x0 s) := by
  unfold workerImageRead
  repeat' with_reducible first
    | assumption | apply modIlg_kept | apply sendImage_kept | apply imgRead_kept | apply Kept.ite | intro _ | split
    | dsimp only

theorem sendSwitch_kept {q s} (h : Kept q s) : Kept q (sendSwitch s) := by
  unfold sendSwitch
  repeat' with_reducible first
    | assumption | apply queueUnit_kept | apply Kept.each | apply Kept.ite | intro _ | split | dsimp only

theorem switchReceive_kept {q s x0 x1} (h : Kept q s) : Kept q (switchReceive x0 x1 s) := by
  unfold switchReceive
  repeat' with_reducible first
    | assumption | apply acceptUnit_kept | apply endGrace_kept | apply modSpr_kept | apply setR_kept | apply setF_kept
    | apply beginGrace_kept | apply queueUnit_kept | apply Kept.each | apply Kept.ite | refine Kept.of_eq2 ‹_› ?_
    | refine Kept.of_eq22 ‹_› ?_ | intro _ | split | dsimp only

theorem ilgStarting_kept {q s x0} (h : Kept q s) : Kept q (ilgStarting x0 s) := by
  unfold ilgStarting
  repeat' with_reducible first
    | assumption | apply modIlgPort_kept | dsimp only

theorem ilgStarted_kept {q s x0} (h : Kept q s) : Kept q (ilgStarted x0 s) := by
  unfold ilgStarted
  repeat' with_reducible first
    | assumption | apply setF_kept | split | dsimp only

theorem ilgStopping_kept {q s x0} (h : Kept q s) : Kept q (ilgStopping x0 s) := by
  unfold ilgStopping
  repeat' with_reducible first
    | assumption | apply modIlgPort_kept | exact fun _ => rfl | rfl | split | dsimp only | apply Kept.upd

theorem ilgStopped_kept {q s x0} (h : Kept q s) : Kept q (ilgStopped x0 s) := by
  unfold ilgStopped
  repeat' with_reducible first
    | assumption | apply setIlgPort_kept | apply ilgDown_kept | dsimp only

/-! ### LocalBus -/

theorem modLbb_kept {q s x0} (h : Kept q s) : Kept q (modLbb x0 s) := by
  unfold modLbb
  repeat' with_reducible first
    | assumption | exact fun _ => rfl | rfl | dsimp only | apply Kept.upd

theorem busError_kept {q s x0 x1 x2 x3} (h : Kept q s) : Kept q (busError x0 x1 x2 x3 s) := by
  unfold busError
  repeat' with_reducible first
    | assumption | apply latch_kept | apply count_kept | apply modLbb_kept | apply Kept.ite | intro _ | split
    | dsimp only

theorem errorPop_kept {q s} (h : Kept q s) : Kept q (errorPop s) := by
  unfold errorPop
  repeat' with_reducible first
    | assumption | apply setR_kept | apply modLbb_kept | exact fun _ => rfl | rfl | split | dsimp only
    | apply Kept.upd

theorem modRead_kept {q s x0 x1} (h : Kept q s) : Kept q (modRead x0 x1 s) := by
  unfold modRead
  repeat' with_reducible first
    | assumption | apply modLbb_kept | apply Kept.ite | intro _ | split | dsimp only

theorem acceptReads_kept {q s x0} (h : Kept q s) : Kept q (acceptReads x0 s) := by
  induction x0 generalizing s with
  | zero =>
    unfold acceptReads
    repeat' with_reducible first
      | assumption | apply modLbb_kept | apply Kept.ite | intro _ | split | dsimp only
  | succ n ih =>
    unfold acceptReads
    repeat' with_reducible first
      | assumption | apply ih | apply modLbb_kept | apply Kept.ite | intro _ | split | dsimp only

theorem sendCompletion_kept {q s x0 x1 x2} (h : Kept q s) : Kept q (sendCompletion x0 x1 x2 s) := by
  unfold sendCompletion
  repeat' with_reducible first
    | assumption | apply emitOut_kept | apply Kept.each | intro _ | split | dsimp only

theorem flushReads_kept {q s x0} (h : Kept q s) : Kept q (flushReads x0 s) := by
  induction x0 generalizing s with
  | nil => exact modLbb_kept h
  | cons a l ih =>
    unfold flushReads
    split
    · exact ih (sendCompletion_kept h)
    · exact modLbb_kept h

theorem flushCompletions_kept {q s} (h : Kept q s) : Kept q (flushCompletions s) := by
  unfold flushCompletions
  repeat' with_reducible first
    | assumption | apply acceptReads_kept | apply flushReads_kept | dsimp only

theorem answerRead_kept {q s x0 x1} (h : Kept q s) : Kept q (answerRead x0 x1 s) := by
  unfold answerRead
  repeat' with_reducible first
    | assumption | apply flushCompletions_kept | apply modRead_kept | apply drawFree_kept | apply Kept.ite
    | refine Kept.of_eq2 ‹_› ?_ | refine Kept.of_eq22 ‹_› ?_ | intro _ | split | dsimp only

theorem dropHead_kept {q s} (h : Kept q s) : Kept q (dropHead s) := by
  unfold dropHead
  repeat' with_reducible first
    | assumption | apply modLbb_kept | dsimp only

theorem putHead_kept {q s x0} (h : Kept q s) : Kept q (putHead x0 s) := by
  unfold putHead
  repeat' with_reducible first
    | assumption | apply modLbb_kept | dsimp only

theorem failRead_kept {q s x0 x1 x2} (h : Kept q s) : Kept q (failRead x0 x1 x2 s) := by
  unfold failRead
  repeat' with_reducible first
    | assumption | apply answerRead_kept | apply dropHead_kept | apply busError_kept | dsimp only

theorem discardPrefetch_kept {q s x0} (h : Kept q s) : Kept q (discardPrefetch x0 s) := by
  unfold discardPrefetch
  repeat' with_reducible first
    | assumption | apply count_kept | apply modLbb_kept | apply Kept.whenT | intro _ | split | dsimp only

theorem discardAll_kept {q s} (h : Kept q s) : Kept q (discardAll s) := by
  unfold discardAll
  repeat' with_reducible first
    | assumption | apply discardPrefetch_kept | apply count_kept | apply modLbb_kept | apply Kept.each
    | apply Kept.whenT | intro _ | split | dsimp only

theorem prefetchExpiry_kept {q s x0} (h : Kept q s) : Kept q (prefetchExpiry x0 s) := by
  unfold prefetchExpiry
  repeat' with_reducible first
    | assumption | apply discardPrefetch_kept | apply advanceTo_kept | split | dsimp only

theorem endClasp_kept {q s x0} (h : Kept q s) : Kept q (endClasp x0 s) := by
  unfold endClasp
  repeat' with_reducible first
    | assumption | apply record_kept | apply latch_kept | apply count_kept | apply emitOut_kept | apply modLbb_kept
    | apply Kept.whenT | intro _ | split | dsimp only

theorem beginClasp_kept {q s x0} (h : Kept q s) : Kept q (beginClasp x0 s) := by
  unfold beginClasp
  repeat' with_reducible first
    | assumption | apply modLbb_kept | apply emitOut_kept | apply discardAll_kept | split | dsimp only

theorem claspCtrl_kept {q s x0} (h : Kept q s) : Kept q (claspCtrl x0 s) := by
  unfold claspCtrl
  repeat' with_reducible first
    | assumption | apply modLbb_kept | apply Kept.whenT | apply Kept.ite | intro _ | split | dsimp only

theorem claspExpiry_kept {q s} (h : Kept q s) : Kept q (claspExpiry s) := by
  unfold claspExpiry
  repeat' with_reducible first
    | assumption | apply endClasp_kept | apply advanceTo_kept | split | dsimp only

theorem grant_kept {q s} (h : Kept q s) : Kept q (grant s) := by
  unfold grant
  repeat' with_reducible first
    | assumption | apply discardAll_kept | apply modLbb_kept | apply inCycles_kept | apply emitOut_kept
    | exact fun _ => rfl | rfl | split | dsimp only | apply Kept.upd

theorem grantFalls_kept {q s x0} (h : Kept q s) : Kept q (grantFalls x0 s) := by
  unfold grantFalls
  repeat' with_reducible first
    | assumption | apply emitOut_kept | apply Kept.ite | intro _ | split | dsimp only

theorem sendRuns_kept {q s x0 x1} (h : Kept q s) : Kept q (sendRuns x0 x1 s) := by
  unfold sendRuns
  repeat' with_reducible first
    | assumption | apply writeHost_kept | apply emitOut_kept | apply Kept.each | intro _ | split | dsimp only

theorem flushBlock_kept {q s} (h : Kept q s) : Kept q (flushBlock s) := by
  unfold flushBlock
  repeat' with_reducible first
    | assumption | apply modLbb_kept | apply sendRuns_kept | apply Kept.ite | intro _ | split | dsimp only

theorem sendHeld_kept {q s} (h : Kept q s) : Kept q (sendHeld s) := by
  unfold sendHeld
  repeat' with_reducible first
    | assumption | apply sendRuns_kept | apply modLbb_kept | apply Kept.each | apply Kept.ite | intro _ | split
    | dsimp only

theorem busRequest_kept {q s} (h : Kept q s) : Kept q (busRequest s) := by
  unfold busRequest
  repeat' with_reducible first
    | assumption | apply modLbb_kept | apply Kept.ite | intro _ | split | dsimp only

theorem endTenure_kept {q s x0} (h : Kept q s) : Kept q (endTenure x0 s) := by
  unfold endTenure
  repeat' with_reducible first
    | assumption | apply emitOut_kept | apply modLbb_kept | apply flushBlock_kept | split | dsimp only

theorem tenureEnd_kept {q s} (h : Kept q s) : Kept q (tenureEnd s) := by
  unfold tenureEnd
  repeat' with_reducible first
    | assumption | apply endTenure_kept | apply modLbb_kept | dsimp only

theorem withdraw_kept {q s} (h : Kept q s) : Kept q (withdraw s) := by
  unfold withdraw
  repeat' with_reducible first
    | assumption | apply endTenure_kept | apply latch_kept | apply count_kept | dsimp only

theorem tenureExpiry_kept {q s} (h : Kept q s) : Kept q (tenureExpiry s) := by
  unfold tenureExpiry
  repeat' with_reducible first
    | assumption | apply withdraw_kept | apply advanceTo_kept | split | dsimp only

theorem pulseReady_kept {q s} (h : Kept q s) : Kept q (pulseReady s) := by
  unfold pulseReady
  repeat' with_reducible first
    | assumption | apply emitOut_kept | split | dsimp only

theorem takeInbound_kept {q s x0 x1 x2 x3} (h : Kept q s) : Kept q (takeInbound x0 x1 x2 x3 s) := by
  unfold takeInbound
  repeat' with_reducible first
    | assumption | apply pulseReady_kept | apply busError_kept | apply flushBlock_kept | apply modLbb_kept
    | apply Kept.each | apply Kept.ite | intro _ | exact fun _ => rfl | rfl | split | dsimp only | apply Kept.upd

theorem inboundWrite_kept {q s x0 x1 x2 x3} (h : Kept q s) : Kept q (inboundWrite x0 x1 x2 x3 s) := by
  unfold inboundWrite
  repeat' with_reducible first
    | assumption | apply modLbb_kept | apply takeInbound_kept | apply busError_kept | apply flushBlock_kept
    | apply Kept.whenT | apply Kept.ite | intro _ | exact fun _ => rfl | rfl | split | dsimp only | apply Kept.upd

theorem inboundWaits_kept {q s} (h : Kept q s) : Kept q (inboundWaits s) := by
  unfold inboundWaits
  repeat' with_reducible first
    | assumption | apply modLbb_kept | apply takeInbound_kept | apply Kept.ite | intro _ | exact fun _ => rfl | rfl
    | split | dsimp only | apply Kept.upd

theorem inboundRead_kept {q s x0} (h : Kept q s) : Kept q (inboundRead x0 s) := by
  unfold inboundRead
  repeat' with_reducible first
    | assumption | apply pulseReady_kept | apply emitOut_kept | apply busError_kept | apply Kept.ite | intro _ | split
    | dsimp only

theorem inboundFlush_kept {q s} (h : Kept q s) : Kept q (inboundFlush s) := by
  unfold inboundFlush
  repeat' with_reducible first
    | assumption | apply flushBlock_kept | apply advanceTo_kept | apply Kept.ite | intro _ | split | dsimp only

theorem lirqEdge_kept {q s x0 x1} (h : Kept q s) : Kept q (lirqEdge x0 x1 s) := by
  unfold lirqEdge
  repeat' with_reducible first
    | assumption | apply flushBlock_kept | apply count_kept | apply msix_kept | apply latchBits_kept
    | apply Kept.whenT | apply Kept.ite | intro _ | split | dsimp only

theorem bar4Write_kept {q s x0 x1} (h : Kept q s) : Kept q (bar4Write x0 x1 s) := by
  unfold bar4Write
  repeat' with_reducible first
    | assumption | apply busError_kept | apply modLbb_kept | apply Kept.ite | intro _ | split | dsimp only

theorem bar4Read_kept {q s x0 x1} (h : Kept q s) : Kept q (bar4Read x0 x1 s) := by
  unfold bar4Read
  repeat' with_reducible first
    | assumption | apply busError_kept | apply sendCompletion_kept | apply modLbb_kept | apply acceptReads_kept
    | apply emitOut_kept | apply Kept.ite | intro _ | exact fun _ => rfl | rfl | split | dsimp only | apply Kept.upd

theorem workOn_kept {q s x0} (h : Kept q s) : Kept q (workOn x0 s) := by
  unfold workOn
  repeat' with_reducible first
    | assumption | apply dropHead_kept | apply beginClasp_kept | apply endClasp_kept | apply discardPrefetch_kept
    | apply putHead_kept | apply busError_kept | apply modLbb_kept | apply answerRead_kept | apply failRead_kept
    | apply Kept.whenT | apply Kept.ite | intro _ | split | dsimp only

theorem releaseEarly_kept {q s} (h : Kept q s) : Kept q (releaseEarly s) := by
  unfold releaseEarly
  repeat' with_reducible first
    | assumption | apply modLbb_kept | apply endClasp_kept | exact fun _ => rfl | rfl | split | dsimp only
    | apply Kept.upd

theorem goOnBus_kept {q s x0} (h : Kept q s) : Kept q (goOnBus x0 s) := by
  induction x0 generalizing s with
  | zero => exact h
  | succ n ih =>
    have h := releaseEarly_kept h
    unfold goOnBus
    repeat' with_reducible first
      | assumption | apply ih | apply grant_kept | apply modLbb_kept | apply workOn_kept | split | dsimp only

theorem settleBus_kept {q s} (h : Kept q s) : Kept q (settleBus s) := by
  unfold settleBus
  repeat' with_reducible first
    | assumption | apply sendHeld_kept | apply inboundWaits_kept | apply goOnBus_kept | apply Kept.ite | intro _
    | split | dsimp only

theorem cycleOver_kept {q s x0 x1} (h : Kept q s) : Kept q (cycleOver x0 x1 s) := by
  unfold cycleOver
  repeat' with_reducible first
    | assumption | apply modLbb_kept | apply emitOut_kept | dsimp only

theorem readDone_kept {q s x0} (h : Kept q s) : Kept q (readDone x0 s) := by
  unfold readDone
  repeat' with_reducible first
    | assumption | apply dropHead_kept | apply putHead_kept | apply answerRead_kept | apply Kept.ite | intro _ | split
    | dsimp only

theorem cycleDone_kept {q s x0 x1 x2} (h : Kept q s) : Kept q (cycleDone x0 x1 x2 s) := by
  unfold cycleDone
  repeat' with_reducible first
    | assumption | apply cycleOver_kept | apply putHead_kept | apply dropHead_kept | apply failRead_kept
    | apply modRead_kept | apply readDone_kept | apply count_kept | apply busError_kept | apply modLbb_kept
    | apply Kept.whenT | apply Kept.ite | intro _ | split | dsimp only

theorem cycleLost_kept {q s x0} (h : Kept q s) : Kept q (cycleLost x0 s) := by
  unfold cycleLost
  repeat' with_reducible first
    | assumption | apply cycleOver_kept | apply putHead_kept | apply busError_kept | apply dropHead_kept
    | apply failRead_kept | apply count_kept | apply Kept.whenT | intro _ | split | dsimp only

theorem noReady_kept {q s} (h : Kept q s) : Kept q (noReady s) := by
  unfold noReady
  repeat' with_reducible first
    | assumption | apply cycleLost_kept | apply advanceTo_kept | apply Kept.ite | intro _ | split | dsimp only

theorem localCycleEnd_kept {q s x0 x1 x2} (h : Kept q s) : Kept q (localCycleEnd x0 x1 x2 s) := by
  unfold localCycleEnd
  repeat' with_reducible first
    | assumption | apply advance_kept | apply cycleLost_kept | apply advanceTo_kept | apply cycleDone_kept
    | apply Kept.ite | intro _ | split | dsimp only

theorem readTimeout_kept {q s x0} (h : Kept q s) : Kept q (readTimeout x0 s) := by
  unfold readTimeout
  repeat' with_reducible first
    | assumption | apply advanceTo_kept | apply flushCompletions_kept | apply putHead_kept | apply modLbb_kept
    | apply modRead_kept | apply busError_kept | apply Kept.ite | intro _ | split | dsimp only

theorem lbbStarting_kept {q s} (h : Kept q s) : Kept q (lbbStarting s) := by
  unfold lbbStarting
  repeat' with_reducible first
    | assumption | apply modLbb_kept | apply emitOut_kept | dsimp only

theorem lbbStopping_kept {q s} (h : Kept q s) : Kept q (lbbStopping s) := by
  unfold lbbStopping
  repeat' with_reducible first
    | assumption | apply modLbb_kept | apply endClasp_kept | apply withdraw_kept | apply Kept.whenT | intro _
    | dsimp only

theorem lbbStopped_kept {q s} (h : Kept q s) : Kept q (lbbStopped s) := by
  unfold lbbStopped
  repeat' with_reducible first
    | assumption | apply modLbb_kept | apply flushBlock_kept | apply discardPrefetch_kept | apply Kept.each | intro _
    | dsimp only

/-! ### Crc -/

theorem crcTake_kept {q s x0 x1} (h : Kept q s) : Kept q (crcTake x0 x1 s) := by
  unfold crcTake
  repeat' with_reducible first
    | assumption | apply countBy_kept | apply setR_kept | dsimp only

theorem crcCtrl_kept {q s x0 x1} (h : Kept q s) : Kept q (crcCtrl x0 x1 s) := by
  unfold crcCtrl
  repeat' with_reducible first
    | assumption | apply setR_kept | apply Kept.ite | intro _ | split | dsimp only

theorem crcSeed_kept {q s x0 x1} (h : Kept q s) : Kept q (crcSeed x0 x1 s) := by
  unfold crcSeed
  repeat' with_reducible first
    | assumption | apply setR_kept | dsimp only

theorem crcData8_kept {q s x0 x1} (h : Kept q s) : Kept q (crcData8 x0 x1 s) := by
  unfold crcData8
  repeat' with_reducible first
    | assumption | apply crcTake_kept | dsimp only

theorem crcData16_kept {q s x0 x1} (h : Kept q s) : Kept q (crcData16 x0 x1 s) := by
  unfold crcData16
  repeat' with_reducible first
    | assumption | apply crcTake_kept | dsimp only

theorem crcData32_kept {q s x0 x1} (h : Kept q s) : Kept q (crcData32 x0 x1 s) := by
  unfold crcData32
  repeat' with_reducible first
    | assumption | apply crcTake_kept | dsimp only

/-! ### Redundancy -/

theorem modRed_kept {q s x0} (h : Kept q s) : Kept q (modRed x0 s) := by
  unfold modRed
  repeat' with_reducible first
    | assumption | exact fun _ => rfl | rfl | dsimp only | apply Kept.upd

theorem setRole_kept {q s x0} (h : Kept q s) : Kept q (setRole x0 s) := by
  unfold setRole
  repeat' with_reducible first
    | assumption | apply setF_kept | dsimp only

theorem resignOut_kept {q s x0} (h : Kept q s) : Kept q (resignOut x0 s) := by
  unfold resignOut
  repeat' with_reducible first
    | assumption | apply emitOut_kept | apply setF_kept | apply Kept.ite | intro _ | split | dsimp only

theorem showRed_kept {q s} (h : Kept q s) : Kept q (showRed s) := by
  unfold showRed
  repeat' with_reducible first
    | assumption | apply setF_kept | apply latch_kept | apply Kept.whenT | intro _ | split | dsimp only

theorem resign_kept {q s x0} (h : Kept q s) : Kept q (resign x0 s) := by
  unfold resign
  repeat' with_reducible first
    | assumption | apply modRed_kept | apply record_kept | apply count_kept | apply latch_kept | apply resignOut_kept
    | apply setRole_kept | apply Kept.ite | intro _ | split | dsimp only

theorem rejoin_kept {q s} (h : Kept q s) : Kept q (rejoin s) := by
  unfold rejoin
  repeat' with_reducible first
    | assumption | apply setF_kept | apply linkUpBeacon_kept | apply freshExchange_kept | apply Kept.each
    | apply Kept.ite | intro _ | split | dsimp only

theorem withdrawSide_kept {q s} (h : Kept q s) : Kept q (withdrawSide s) := by
  unfold withdrawSide
  repeat' with_reducible first
    | assumption | apply latchBits_kept | apply resign_kept | apply sendBeacon_kept | apply setF_kept
    | apply latch_kept | apply dropLine_kept | apply trigger_kept | apply Kept.each | apply Kept.ite | intro _ | split
    | dsimp only

theorem judgeWithdraw_kept {q s x0} (h : Kept q s) : Kept q (judgeWithdraw x0 s) := by
  unfold judgeWithdraw
  repeat' with_reducible first
    | assumption | apply rejoin_kept | apply withdrawSide_kept | apply Kept.ite | intro _ | split | dsimp only

theorem beginClaim_kept {q s x0 x1 x2} (h : Kept q s) : Kept q (beginClaim x0 x1 x2 s) := by
  unfold beginClaim
  repeat' with_reducible first
    | assumption | apply modRed_kept | apply resignOut_kept | apply setRole_kept | apply Kept.ite | intro _ | split
    | dsimp only

theorem becomeActive_kept {q s} (h : Kept q s) : Kept q (becomeActive s) := by
  unfold becomeActive
  repeat' with_reducible first
    | assumption | apply setR_kept | apply record_kept | apply count_kept | apply latch_kept | apply setF_kept
    | apply setRole_kept | apply modRed_kept | apply rejoin_kept | apply Kept.ite | intro _ | split | dsimp only

theorem settleRed_kept {q s} (h : Kept q s) : Kept q (settleRed s) := by
  unfold settleRed
  repeat' with_reducible first
    | assumption | apply setF_kept | apply setRole_kept | apply beginClaim_kept | apply modRed_kept | apply latch_kept
    | apply showRed_kept | apply Kept.ite | intro _ | split | dsimp only

theorem claimConfirm_kept {q s} (h : Kept q s) : Kept q (claimConfirm s) := by
  unfold claimConfirm
  repeat' with_reducible first
    | assumption | apply beginClaim_kept | apply advanceTo_kept | apply becomeActive_kept | apply Kept.ite | intro _
    | split | dsimp only

theorem claimWaitExpiry_kept {q s} (h : Kept q s) : Kept q (claimWaitExpiry s) := by
  unfold claimWaitExpiry
  repeat' with_reducible first
    | assumption | apply modRed_kept | apply advanceTo_kept | apply latch_kept | apply count_kept | apply setRole_kept
    | apply resignOut_kept | apply becomeActive_kept | apply Kept.ite | intro _ | split | dsimp only

theorem resignInChange_kept {q s x0} (h : Kept q s) : Kept q (resignInChange x0 s) := by
  unfold resignInChange
  repeat' with_reducible first
    | assumption | apply modRed_kept | apply inCycles_kept | apply Kept.whenT | apply Kept.ite | intro _
    | exact fun _ => rfl | rfl | split | dsimp only | apply Kept.upd

theorem redBooted_kept {q s} (h : Kept q s) : Kept q (redBooted s) := by
  unfold redBooted
  repeat' with_reducible first
    | assumption | apply modRed_kept | apply Kept.ite | intro _ | split | dsimp only

theorem startClaim_kept {q s} (h : Kept q s) : Kept q (startClaim s) := by
  unfold startClaim
  repeat' with_reducible first
    | assumption | apply modRed_kept | apply advanceTo_kept | apply beginClaim_kept | apply setRole_kept
    | apply Kept.ite | intro _ | split | dsimp only

theorem peerDemand_kept {q s} (h : Kept q s) : Kept q (peerDemand s) := by
  unfold peerDemand
  repeat' with_reducible first
    | assumption | apply trigger_kept | apply advanceTo_kept | apply Kept.ite | intro _ | split | dsimp only

theorem cancelSwap_kept {q s} (h : Kept q s) : Kept q (cancelSwap s) := by
  unfold cancelSwap
  repeat' with_reducible first
    | assumption | apply modRed_kept | apply record_kept | split | dsimp only

theorem requestSwap_kept {q s} (h : Kept q s) : Kept q (requestSwap s) := by
  unfold requestSwap
  repeat' with_reducible first
    | assumption | apply modRed_kept | apply record_kept | apply Kept.ite | intro _ | split | dsimp only

theorem swapInstant_kept {q s} (h : Kept q s) : Kept q (swapInstant s) := by
  unfold swapInstant
  repeat' with_reducible first
    | assumption | apply advance_kept | apply modRed_kept | apply record_kept | apply count_kept | apply latch_kept
    | apply trigger_kept | apply beginClaim_kept | apply Kept.ite | intro _ | split | dsimp only

theorem swapOverdue_kept {q s} (h : Kept q s) : Kept q (swapOverdue s) := by
  unfold swapOverdue
  repeat' with_reducible first
    | assumption | apply modRed_kept | apply latch_kept | apply Kept.ite | intro _ | split | dsimp only

theorem autoSwap_kept {q s} (h : Kept q s) : Kept q (autoSwap s) := by
  unfold autoSwap
  repeat' with_reducible first
    | assumption | apply requestSwap_kept | apply Kept.ite | intro _ | split | dsimp only

theorem redResignCmd_kept {q s x0} (h : Kept q s) : Kept q (redResignCmd x0 s) := by
  unfold redResignCmd
  repeat' with_reducible first
    | assumption | apply trigger_kept | apply Kept.ite | intro _ | split | dsimp only

theorem redSwapCmd_kept {q s x0} (h : Kept q s) : Kept q (redSwapCmd x0 s) := by
  unfold redSwapCmd
  repeat' with_reducible first
    | assumption | apply requestSwap_kept | apply Kept.ite | intro _ | split | dsimp only

theorem redClaimCmd_kept {q s x0} (h : Kept q s) : Kept q (redClaimCmd x0 s) := by
  unfold redClaimCmd
  repeat' with_reducible first
    | assumption | apply beginClaim_kept | apply Kept.ite | intro _ | split | dsimp only

theorem redCmd_kept {q s x0} (h : Kept q s) : Kept q (redCmd x0 s) := by
  unfold redCmd
  repeat' with_reducible first
    | assumption | apply redClaimCmd_kept | apply redSwapCmd_kept | apply redResignCmd_kept | dsimp only

theorem heartbeatSend_kept {q s} (h : Kept q s) : Kept q (heartbeatSend s) := by
  unfold heartbeatSend
  repeat' with_reducible first
    | assumption | apply modRed_kept | apply advanceTo_kept | apply emitOut_kept | apply Kept.ite | intro _ | split
    | dsimp only

theorem declareLoss_kept {q s} (h : Kept q s) : Kept q (declareLoss s) := by
  unfold declareLoss
  repeat' with_reducible first
    | assumption | apply latch_kept | apply count_kept | apply setF_kept | apply modRed_kept | apply beginClaim_kept
    | apply Kept.ite | intro _ | split | dsimp only

theorem heartbeatLoss_kept {q s} (h : Kept q s) : Kept q (heartbeatLoss s) := by
  unfold heartbeatLoss
  repeat' with_reducible first
    | assumption | apply declareLoss_kept | apply advanceTo_kept | apply Kept.ite | intro _ | split | dsimp only

theorem adopt_kept {q s x0} (h : Kept q s) : Kept q (adopt x0 s) := by
  unfold adopt
  repeat' with_reducible first
    | assumption | apply endGrace_kept | apply advance_kept | apply modSpr_kept | apply showId_kept | apply setR_kept
    | apply setF_kept | apply fillRoutes_kept | apply modDir_kept | apply beginGrace_kept | apply modRed_kept
    | apply record_kept | apply judgeDirs_kept | apply setFsm_kept | apply Kept.each | apply Kept.whenT
    | apply Kept.ite | intro _ | split | dsimp only

theorem judgeAdopt_kept {q s x0} (h : Kept q s) : Kept q (judgeAdopt x0 s) := by
  unfold judgeAdopt
  repeat' with_reducible first
    | assumption | apply modRed_kept | apply adopt_kept | apply Kept.ite | intro _ | split | dsimp only

theorem raiseSeq_kept {q s x0 x1} (h : Kept q s) : Kept q (raiseSeq x0 x1 s) := by
  unfold raiseSeq
  repeat' with_reducible first
    | assumption | apply modDir_kept | apply Kept.ite | intro _ | split | dsimp only

theorem heartbeatReceive_kept {q s x0} (h : Kept q s) : Kept q (heartbeatReceive x0 s) := by
  unfold heartbeatReceive
  repeat' with_reducible first
    | assumption | apply count_kept | apply declareLoss_kept | apply modRed_kept | apply setF_kept | apply latch_kept
    | apply raiseSeq_kept | apply judgeWithdraw_kept | apply judgeAdopt_kept | apply Kept.whenT | apply Kept.ite
    | intro _ | split | dsimp only

end Sys2Proof.Machine
end

