-- ==== Sys2Proof/Laws/KeepsDevice.lean ====
section
/-! SUPPORT. What every operation keeps, one lemma each: power, sequences, images, the management tick, the end of a command, register accesses and links. -/
namespace Sys2Proof.Machine
set_option maxRecDepth 2000
set_option linter.unusedTactic false
set_option linter.unreachableTactic false

/-! ### Power -/

theorem modLkt_kept {q s x0} (h : Kept q s) : Kept q (modLkt x0 s) := by
  unfold modLkt
  repeat' with_reducible first
    | assumption | exact fun _ => rfl | rfl | dsimp only | apply Kept.upd

theorem modPwr_kept {q s x0} (h : Kept q s) : Kept q (modPwr x0 s) := by
  unfold modPwr
  repeat' with_reducible first
    | assumption | exact fun _ => rfl | rfl | dsimp only | apply Kept.upd

theorem flashGoesOn_kept {q s} (h : Kept q s) : Kept q (flashGoesOn s) := by
  unfold flashGoesOn
  repeat' with_reducible first
    | assumption | apply drainHolding_kept | apply settleFreeze_kept | apply modLkt_kept | apply resumeErase_kept
    | apply startPage_kept | apply Kept.whenT | intro _ | dsimp only

theorem pageProgramDone_kept {q s x0 x1} (h : Kept q s) : Kept q (pageProgramDone x0 x1 s) := by
  unfold pageProgramDone
  repeat' with_reducible first
    | assumption | apply flashGoesOn_kept | apply pageDone_kept | apply moveWrite_kept | apply modLkt_kept
    | apply flashFailed_kept | apply Kept.ite | intro _ | split | dsimp only

theorem eraseDone_kept {q s x0 x1} (h : Kept q s) : Kept q (eraseDone x0 x1 s) := by
  unfold eraseDone
  repeat' with_reducible first
    | assumption | apply modLkt_kept | apply flashFailed_kept | apply flashGoesOn_kept | apply showLog_kept
    | apply eraseSector_kept | apply Kept.each | apply Kept.ite | intro _ | split | dsimp only

theorem eraseSuspended_kept {q s} (h : Kept q s) : Kept q (eraseSuspended s) := by
  unfold eraseSuspended
  repeat' with_reducible first
    | assumption | apply resumeErase_kept | apply startPage_kept | apply modLkt_kept | apply Kept.ite | intro _
    | split | dsimp only

theorem powerFail_kept {q s} (h : Kept q s) : Kept q (powerFail s) := by
  unfold powerFail
  repeat' with_reducible first
    | assumption | apply setF_kept | apply record_kept | apply latch_kept | apply lapseFreeze_kept
    | apply startCommit_kept | apply askSuspend_kept | apply Kept.whenT | apply Kept.ite | intro _ | split
    | dsimp only

theorem powerRestored_kept {q s} (h : Kept q s) : Kept q (powerRestored s) := by
  unfold powerRestored
  repeat' with_reducible first
    | assumption | apply resumeErase_kept | apply setF_kept | dsimp only

theorem lktCtrl_kept {q s} (h : Kept q s) : Kept q (lktCtrl s) := by
  unfold lktCtrl
  repeat' with_reducible first
    | assumption | apply settleFreeze_kept | apply startFreeze_kept | apply resumeErase_kept | apply endFreeze_kept
    | apply Kept.ite | intro _ | split | dsimp only

theorem freezeLapse_kept {q s} (h : Kept q s) : Kept q (freezeLapse s) := by
  unfold freezeLapse
  repeat' with_reducible first
    | assumption | apply resumeErase_kept | apply lapseFreeze_kept | apply advanceTo_kept | apply Kept.ite | intro _
    | split | dsimp only

theorem recordFetch_kept {q s x0} (h : Kept q s) : Kept q (recordFetch x0 s) := by
  unfold recordFetch
  repeat' with_reducible first
    | assumption | apply modLkt_kept | apply setF_kept | apply Kept.ite | intro _ | split | dsimp only

theorem recordFetchDone_kept {q s x0} (h : Kept q s) : Kept q (recordFetchDone x0 s) := by
  unfold recordFetchDone
  repeat' with_reducible first
    | assumption | apply setF_kept | apply modLkt_kept | apply setR_kept | apply Kept.each | intro _ | split
    | dsimp only

theorem operatingSecond_kept {q s} (h : Kept q s) : Kept q (operatingSecond s) := by
  unfold operatingSecond
  repeat' with_reducible first
    | assumption | apply setR_kept | apply routineCopy_kept | apply Kept.whenT | apply Kept.ite | intro _ | split
    | dsimp only

theorem monitorSees_kept {q s x0} (h : Kept q s) : Kept q (monitorSees x0 s) := by
  unfold monitorSees
  repeat' with_reducible first
    | assumption | apply latchBits_kept | apply record_kept | apply modFab_kept | apply trigger_kept
    | apply Kept.whenT | intro _ | exact fun _ => rfl | rfl | split | dsimp only | apply Kept.upd

theorem monitorSample_kept {q s x0 x1} (h : Kept q s) : Kept q (monitorSample x0 x1 s) := by
  unfold monitorSample
  repeat' with_reducible first
    | assumption | apply setR_kept | apply setF_kept | apply monitorSees_kept | dsimp only

theorem clockBits_kept {q s x0} (h : Kept q s) : Kept q (clockBits x0 s) := by
  unfold clockBits
  repeat' with_reducible first
    | assumption | apply monitorSees_kept | apply setR_kept | apply Kept.whenT | intro _ | dsimp only

theorem drivePhyPins_kept {q s x0} (h : Kept q s) : Kept q (drivePhyPins x0 s) := by
  unfold drivePhyPins
  repeat' with_reducible first
    | assumption | apply emitOut_kept | apply Kept.each | intro _ | dsimp only

theorem pinsInReset_kept {q s} (h : Kept q s) : Kept q (pinsInReset s) := by
  unfold pinsInReset
  repeat' with_reducible first
    | assumption | apply resignOut_kept | apply drivePhyPins_kept | apply emitOut_kept | apply Kept.each | intro _

theorem enterReset_kept {q s} (h : Kept q s) : Kept q (enterReset s) := by
  have hk := pinsInReset_kept h
  unfold enterReset
  generalize pinsInReset s = t at hk
  exact setR_kept (setF_kept ⟨hk.1, Sparse.wf_filter _ hk.2.1, Agree.nil⟩)

theorem hold_kept {q s} (h : Kept q s) : Kept q (hold s) := by
  unfold hold
  repeat' with_reducible first
    | assumption | apply enterReset_kept | apply Kept.ite | intro _ | split | dsimp only

theorem resetAssert_kept {q s x0} (h : Kept q s) : Kept q (resetAssert x0 s) := by
  unfold resetAssert
  repeat' with_reducible first
    | assumption | apply hold_kept | apply modPwr_kept | apply Kept.ite | intro _ | split | dsimp only

theorem clockFault_kept {q s x0} (h : Kept q s) : Kept q (clockFault x0 s) := by
  unfold clockFault
  repeat' with_reducible first
    | assumption | apply clockBits_kept | apply hold_kept | apply modPwr_kept | apply Kept.ite | intro _ | split
    | dsimp only

theorem islandLost_kept {q s} (h : Kept q s) : Kept q (islandLost s) := by
  unfold islandLost
  repeat' with_reducible first
    | assumption | apply drawFree_kept | apply setF_kept | apply Kept.each | refine Kept.of_eq2 ‹_› ?_
    | refine Kept.of_eq22 ‹_› ?_ | intro _ | exact fun _ => rfl | rfl | dsimp only | apply Kept.upd

theorem mainPowerLoss_kept {q s x0} (h : Kept q s) : Kept q (mainPowerLoss x0 s) := by
  unfold mainPowerLoss
  repeat' with_reducible first
    | assumption | apply islandLost_kept | apply hold_kept | apply modPwr_kept | apply Kept.whenT | intro _
    | dsimp only

theorem sampleStraps_kept {q s x0} (h : Kept q s) : Kept q (sampleStraps x0 s) := by
  unfold sampleStraps
  repeat' with_reducible first
    | assumption | apply setR_kept | exact fun _ => rfl | rfl | dsimp only | apply Kept.upd

theorem mainPowerOn_kept {q s x0} (h : Kept q s) : Kept q (mainPowerOn x0 s) := by
  unfold mainPowerOn
  repeat' with_reducible first
    | assumption | apply setR_kept | apply modPwr_kept | apply sampleStraps_kept | apply Kept.whenT | apply Kept.ite
    | intro _ | split | dsimp only

theorem poresetRisingEdge_kept {q s x0} (h : Kept q s) : Kept q (poresetRisingEdge x0 s) := by
  unfold poresetRisingEdge
  repeat' with_reducible first
    | assumption | apply sampleStraps_kept | apply modPwr_kept | apply Kept.ite | intro _ | split | dsimp only

theorem applyStraps_kept {q s} (h : Kept q s) : Kept q (applyStraps s) := by
  unfold applyStraps
  repeat' with_reducible first
    | assumption | apply setF_kept | apply Kept.each | apply Kept.ite | intro _ | split | dsimp only

theorem ilgilAtReset_kept {q s} (h : Kept q s) : Kept q (ilgilAtReset s) := by
  unfold ilgilAtReset
  repeat' with_reducible first
    | assumption | apply judgeWorker_kept | apply setF_kept | apply Kept.each | apply Kept.ite | intro _ | split
    | dsimp only

theorem loadResetInfo_kept {q s} (h : Kept q s) : Kept q (loadResetInfo s) := by
  unfold loadResetInfo
  repeat' with_reducible first
    | assumption | apply setF_kept | apply Kept.ite | intro _ | split | dsimp only

theorem modRoles_kept {q s x0} (h : Kept q s) : Kept q (modRoles x0 s) := by
  unfold modRoles
  repeat' with_reducible first
    | assumption | exact fun _ => rfl | rfl | dsimp only | apply Kept.upd

theorem restartClock_kept {q s} (h : Kept q s) : Kept q (restartClock s) := by
  unfold restartClock
  repeat' with_reducible first
    | assumption | exact fun _ => rfl | rfl | dsimp only | apply Kept.upd

theorem stopTime_kept {q s} (h : Kept q s) : Kept q (stopTime s) := by
  unfold stopTime
  repeat' with_reducible first
    | assumption | exact fun _ => rfl | rfl | dsimp only | apply Kept.upd

theorem clockAtReset_kept {q s x0} (h : Kept q s) : Kept q (clockAtReset x0 s) := by
  unfold clockAtReset
  repeat' with_reducible first
    | assumption | apply restartClock_kept | apply modPwr_kept | apply poresetRisingEdge_kept | apply stopTime_kept
    | apply Kept.ite | intro _ | split | dsimp only

theorem timersAtReset_kept {q s} (h : Kept q s) : Kept q (timersAtReset s) := by
  unfold timersAtReset
  repeat' with_reducible first
    | assumption | apply modFab_kept | apply modRoles_kept | exact fun _ => rfl | rfl | dsimp only

theorem resetEnd_kept {q s x0} (h : Kept q s) : Kept q (resetEnd x0 s) := by
  unfold resetEnd
  repeat' with_reducible first
    | assumption | apply timersAtReset_kept | apply modPwr_kept | apply ilgilAtReset_kept | apply loadResetInfo_kept
    | apply applyStraps_kept | apply clockAtReset_kept | apply setF_kept | apply Kept.ite | intro _ | split
    | dsimp only

theorem pllLock_kept {q s} (h : Kept q s) : Kept q (pllLock s) := by
  unfold pllLock
  repeat' with_reducible first
    | assumption | apply setF_kept | apply modPwr_kept | apply Kept.ite | intro _ | split | dsimp only

theorem memoryStepDone_kept {q s x0 x1 x2} (h : Kept q s) : Kept q (memoryStepDone x0 x1 x2 s) := by
  unfold memoryStepDone
  repeat' with_reducible first
    | assumption | apply drivePhyPins_kept | apply monitorSample_kept | apply clockBits_kept | apply setR_kept
    | apply loadResetInfo_kept | apply modPwr_kept | apply Kept.whenT | apply Kept.ite | intro _ | split | dsimp only

theorem phyResetWritten_kept {q s x0} (h : Kept q s) : Kept q (phyResetWritten x0 s) := by
  unfold phyResetWritten
  repeat' with_reducible first
    | assumption | apply emitOut_kept | apply edgeLink_kept | apply trunkLinkDown_kept | apply Kept.each
    | apply Kept.ite | intro _ | split | dsimp only

theorem restoreCounters_kept {q s x0} (h : Kept q s) : Kept q (restoreCounters x0 s) := by
  unfold restoreCounters
  repeat' with_reducible first
    | assumption | apply setF_kept | apply latch_kept | apply setR_kept | apply Kept.foldl | apply Kept.foldl2
    | apply Kept.ite | intro _ | split | dsimp only

theorem findWritePoint_kept {q s} (h : Kept q s) : Kept q (findWritePoint s) := by
  unfold findWritePoint
  repeat' with_reducible first
    | assumption | apply modLkt_kept | apply moveWrite_kept | apply Kept.ite | intro _ | split | dsimp only

theorem restartErases_kept {q s} (h : Kept q s) : Kept q (restartErases s) := by
  unfold restartErases
  repeat' with_reducible first
    | assumption | apply eraseSector_kept | apply modLkt_kept | apply Kept.each | intro _ | dsimp only

theorem resetFlash_kept {q s} (h : Kept q s) : Kept q (resetFlash s) := by
  unfold resetFlash
  repeat' with_reducible first
    | assumption | apply emitOut_kept | apply Kept.each | intro _ | split | dsimp only

theorem locketWork_kept {q s x0} (h : Kept q s) : Kept q (locketWork x0 s) := by
  unfold locketWork
  repeat' with_reducible first
    | assumption | apply setF_kept | apply restoreCounters_kept | apply showLog_kept | apply findWritePoint_kept
    | apply restartErases_kept | apply modLkt_kept | apply setR_kept | apply record_kept | apply routineCopy_kept
    | apply latch_kept | apply Kept.whenT | apply Kept.ite | intro _ | split | dsimp only

theorem setCplDue_kept {q s x0 x1} (h : Kept q s) : Kept q (setCplDue x0 x1 s) := by
  unfold setCplDue
  repeat' with_reducible first
    | assumption | apply modPwr_kept | apply Kept.ite | intro _ | split | dsimp only

theorem couplerInput_kept {q s x0 x1} (h : Kept q s) : Kept q (couplerInput x0 x1 s) := by
  unfold couplerInput
  repeat' with_reducible first
    | assumption | apply setF_kept | apply setCplDue_kept | apply Kept.ite | intro _ | split | dsimp only

theorem couplerAccept_kept {q s x0} (h : Kept q s) : Kept q (couplerAccept x0 s) := by
  unfold couplerAccept
  repeat' with_reducible first
    | assumption | apply setF_kept | apply setCplDue_kept | apply advanceTo_kept | split | dsimp only

theorem tapSet_kept {q s x0} (h : Kept q s) : Kept q (tapSet x0 s) := by
  unfold tapSet
  repeat' with_reducible first
    | assumption | apply modPwr_kept | apply hold_kept | apply Kept.ite | intro _ | split | dsimp only

theorem tapIdcode_kept {q s} (h : Kept q s) : Kept q (tapIdcode s) := by
  unfold tapIdcode
  repeat' with_reducible first
    | assumption | apply drawFree_kept | apply tapSet_kept | apply emitOut_kept | refine Kept.of_eq2 ‹_› ?_
    | refine Kept.of_eq22 ‹_› ?_ | dsimp only

theorem tapSample_kept {q s x0 x1} (h : Kept q s) : Kept q (tapSample x0 x1 s) := by
  unfold tapSample
  repeat' with_reducible first
    | assumption | apply modPwr_kept | apply tapSet_kept | apply emitOut_kept | dsimp only

/-! ### Sequences -/

theorem stateDone_kept {q s x0} (h : Kept q s) : Kept q (stateDone x0 s) := by
  unfold stateDone
  repeat' with_reducible first
    | assumption | apply latch_kept | apply ringEvent_kept | split | dsimp only

theorem ringStarting_kept {q s x0} (h : Kept q s) : Kept q (ringStarting x0 s) := by
  unfold ringStarting
  repeat' with_reducible first
    | assumption | apply modHost_kept | apply setF_kept | apply setRing_kept | exact fun _ => rfl | rfl | split
    | dsimp only | apply Kept.upd

theorem ringStarted_kept {q s x0} (h : Kept q s) : Kept q (ringStarted x0 s) := by
  unfold ringStarted
  repeat' with_reducible first
    | assumption | apply setRing_kept | split | dsimp only

theorem ringStopping_kept {q s x0} (h : Kept q s) : Kept q (ringStopping x0 s) := by
  unfold ringStopping
  repeat' with_reducible first
    | assumption | apply canWithdraw_kept | apply modHost_kept | apply modRing_kept | apply txDoneOpen_kept
    | apply discardWriting_kept | apply dropForRing_kept | apply Kept.each | apply Kept.whenT | apply Kept.ite
    | intro _ | split | dsimp only

theorem ringStopped_kept {q s x0} (h : Kept q s) : Kept q (ringStopped x0 s) := by
  unfold ringStopped
  repeat' with_reducible first
    | assumption | apply announce_kept | apply Kept.whenT | intro _ | dsimp only

theorem startWork_kept {q s x0} (h : Kept q s) : Kept q (startWork x0 s) := by
  unfold startWork
  repeat' with_reducible first
    | assumption | apply carStarting_kept | apply ttStarting_kept | apply filStarting_kept | apply senseStarting_kept
    | apply driveStarting_kept | apply lbbStarting_kept | apply canStarting_kept | apply ilgStarting_kept
    | apply ringStarting_kept | split | dsimp only

theorem startedWork_kept {q s x0} (h : Kept q s) : Kept q (startedWork x0 s) := by
  unfold startedWork
  repeat' with_reducible first
    | assumption | apply startSpire_kept | apply canStarted_kept | apply ttStarted_kept | apply ringStarted_kept
    | apply ilgStarted_kept | split | dsimp only

theorem trunkStopping_kept {q s x0} (h : Kept q s) : Kept q (trunkStopping x0 s) := by
  unfold trunkStopping
  repeat' with_reducible first
    | assumption | apply modMac_kept | apply sendBeacon_kept | apply dropLine_kept | apply setF_kept
    | apply modLine_kept | apply judgeCompat_kept | apply Kept.whenT | apply Kept.ite | intro _ | exact fun _ => rfl
    | rfl | split | dsimp only | apply Kept.upd

theorem stopWork_kept {q s x0} (h : Kept q s) : Kept q (stopWork x0 s) := by
  unfold stopWork
  repeat' with_reducible first
    | assumption | apply modMac_kept | apply trunkStopping_kept | apply carStopping_kept | apply senseStopping_kept
    | apply driveStopping_kept | apply lbbStopping_kept | apply ringStopping_kept | apply stoppingSpire_kept
    | apply ilgStopping_kept | exact fun _ => rfl | rfl | split | dsimp only | apply Kept.upd

theorem stoppedWork_kept {q s x0} (h : Kept q s) : Kept q (stoppedWork x0 s) := by
  unfold stoppedWork
  repeat' with_reducible first
    | assumption | apply stopSpire_kept | apply edgeDown_kept | apply modMac_kept | apply trunkLinkDown_kept
    | apply canStopped_kept | apply ttStopped_kept | apply filStopped_kept | apply lbbStopped_kept
    | apply ilgStopped_kept | apply ringStopped_kept | split | dsimp only

theorem beginStart_kept {q s x0} (h : Kept q s) : Kept q (beginStart x0 s) := by
  unfold beginStart
  repeat' with_reducible first
    | assumption | apply startWork_kept | apply setF_kept | apply Kept.ite | intro _ | split | dsimp only

theorem beginStop_kept {q s x0} (h : Kept q s) : Kept q (beginStop x0 s) := by
  unfold beginStop
  repeat' with_reducible first
    | assumption | apply stopWork_kept | apply setF_kept | dsimp only

theorem request_kept {q s x0} (h : Kept q s) : Kept q (request x0 s) := by
  unfold request
  repeat' with_reducible first
    | assumption | apply beginStart_kept | apply beginStop_kept | apply bellsFirst_kept | apply Kept.ite | intro _
    | split | dsimp only

theorem heldRequest_kept {q s x0} (h : Kept q s) : Kept q (heldRequest x0 s) := by
  unfold heldRequest
  repeat' with_reducible first
    | assumption | apply inCycles_kept | apply request_kept | apply advance_kept | apply Kept.ite | intro _ | split
    | dsimp only

theorem setForced_kept {q s x0 x1} (h : Kept q s) : Kept q (setForced x0 x1 s) := by
  unfold setForced
  repeat' with_reducible first
    | assumption | apply Kept.ite | intro _ | exact fun _ => rfl | rfl | split | dsimp only | apply Kept.upd

theorem sequenceComplete_kept {q s x0} (h : Kept q s) : Kept q (sequenceComplete x0 s) := by
  unfold sequenceComplete
  repeat' with_reducible first
    | assumption | apply startedWork_kept | apply setF_kept | apply beginStop_kept | apply setForced_kept
    | apply heldRequest_kept | apply stateDone_kept | apply stoppedWork_kept | apply Kept.ite | intro _ | split
    | dsimp only

theorem forceStop_kept {q s x0} (h : Kept q s) : Kept q (forceStop x0 s) := by
  unfold forceStop
  repeat' with_reducible first
    | assumption | apply setF_kept | apply dropSoon_kept | apply beginStop_kept | apply setForced_kept
    | apply Kept.ite | intro _ | split | dsimp only

theorem quarantineChange_kept {q s x0} (h : Kept q s) : Kept q (quarantineChange x0 s) := by
  unfold quarantineChange
  repeat' with_reducible first
    | assumption | apply forceStop_kept | apply request_kept | apply Kept.each | apply Kept.ite | intro _ | split
    | dsimp only

theorem functionsStart_kept {q s} (h : Kept q s) : Kept q (functionsStart s) := by
  unfold functionsStart
  repeat' with_reducible first
    | assumption | apply redBooted_kept | apply request_kept | apply Kept.each | intro _ | dsimp only

theorem roleToOperator_kept {q s} (h : Kept q s) : Kept q (roleToOperator s) := by
  unfold roleToOperator
  repeat' with_reducible first
    | assumption | apply setF_kept | dsimp only

theorem ringClear_kept {q s x0} (h : Kept q s) : Kept q (ringClear x0 s) := by
  unfold ringClear
  repeat' with_reducible first
    | assumption | apply canWithdraw_kept | apply modHost_kept | apply loseItem_kept | apply Kept.each
    | apply Kept.whenT | intro _ | dsimp only

theorem hostRegsReset_kept {q s} (h : Kept q s) : Kept q (hostRegsReset s) :=
  Kept.setReg (s := { s with regs := s.regs.filter (fun p => !inBlock 0x20000 0x100000 p.1) }) ⟨h.1, Sparse.wf_filter _ h.2.1, h.2.2⟩ _ _

theorem ringForced_kept {q s x0 x1} (h : Kept q s) : Kept q (ringForced x0 x1 s) := by
  unfold ringForced
  repeat' with_reducible first
    | assumption | apply setF_kept | apply dropSoon_kept | apply setForced_kept | apply Kept.whenT | apply Kept.ite
    | intro _ | split | dsimp only

theorem functionReset_kept {q s} (h : Kept q s) : Kept q (functionReset s) := by
  unfold functionReset
  repeat' with_reducible first
    | assumption | apply ringClear_kept | apply hostRegsReset_kept | apply modHost_kept | apply ringForced_kept
    | apply setF_kept | apply roleToOperator_kept | apply Kept.each | intro _ | exact fun _ => rfl | rfl | split
    | dsimp only | apply Kept.upd

theorem linkLost_kept {q s} (h : Kept q s) : Kept q (linkLost s) := by
  unfold linkLost
  repeat' with_reducible first
    | assumption | apply latch_kept | apply setF_kept | apply functionReset_kept | dsimp only

theorem busMasterClear_kept {q s} (h : Kept q s) : Kept q (busMasterClear s) := by
  unfold busMasterClear
  repeat' with_reducible first
    | assumption | apply setF_kept | apply goOn_kept | apply Kept.each | apply Kept.ite | intro _ | split | dsimp only

theorem busMasterEnable_kept {q s} (h : Kept q s) : Kept q (busMasterEnable s) := by
  unfold busMasterEnable
  repeat' with_reducible first
    | assumption | apply setF_kept | apply modHost_kept | apply emitOut_kept | apply readHost_kept
    | apply sendHeld_kept | apply flushMsix_kept | apply goOn_kept | apply Kept.each | apply Kept.ite | intro _
    | exact fun _ => rfl | rfl | split | dsimp only | apply Kept.upd

/-! ### Images -/

theorem modImage_kept {q s x0} (h : Kept q s) : Kept q (modImage x0 s) := by
  unfold modImage
  repeat' with_reducible first
    | assumption | exact fun _ => rfl | rfl | dsimp only | apply Kept.upd

theorem dropNonce_kept {q s} (h : Kept q s) : Kept q (dropNonce s) := by
  unfold dropNonce
  repeat' with_reducible first
    | assumption | apply setF_kept | dsimp only

theorem challenge_kept {q s x0} (h : Kept q s) : Kept q (challenge x0 s) := by
  unfold challenge
  repeat' with_reducible first
    | assumption | apply setF_kept | apply setR_kept | apply modRoles_kept | apply Kept.each | apply Kept.ite
    | intro _ | split | dsimp only

theorem nonceExpiry_kept {q s} (h : Kept q s) : Kept q (nonceExpiry s) := by
  unfold nonceExpiry
  repeat' with_reducible first
    | assumption | apply dropNonce_kept | apply advanceTo_kept | apply Kept.ite | intro _ | split | dsimp only

theorem roleUnlock_kept {q s x0} (h : Kept q s) : Kept q (roleUnlock x0 s) := by
  unfold roleUnlock
  repeat' with_reducible first
    | assumption | apply modRoles_kept | apply dropNonce_kept | apply Kept.ite | intro _ | split | dsimp only

theorem unlockCompareDone_kept {q s} (h : Kept q s) : Kept q (unlockCompareDone s) := by
  unfold unlockCompareDone
  repeat' with_reducible first
    | assumption | apply modRoles_kept | apply advanceTo_kept | apply record_kept | apply setF_kept | apply Kept.ite
    | intro _ | split | dsimp only

theorem lockoutExpiry_kept {q s} (h : Kept q s) : Kept q (lockoutExpiry s) := by
  unfold lockoutExpiry
  repeat' with_reducible first
    | assumption | apply modRoles_kept | apply advanceTo_kept | split | dsimp only

theorem roleDrop_kept {q s x0} (h : Kept q s) : Kept q (roleDrop x0 s) := by
  unfold roleDrop
  repeat' with_reducible first
    | assumption | apply record_kept | apply roleToOperator_kept | apply Kept.ite | intro _ | split | dsimp only

theorem touchIdle_kept {q s} (h : Kept q s) : Kept q (touchIdle s) := by
  unfold touchIdle
  repeat' with_reducible first
    | assumption | apply setF_kept | apply Kept.ite | intro _ | split | dsimp only

theorem idleTick_kept {q s} (h : Kept q s) : Kept q (idleTick s) := by
  unfold idleTick
  repeat' with_reducible first
    | assumption | apply setF_kept | apply Kept.ite | intro _ | split | dsimp only

theorem roleLapse_kept {q s} (h : Kept q s) : Kept q (roleLapse s) := by
  unfold roleLapse
  repeat' with_reducible first
    | assumption | apply latch_kept | apply record_kept | apply roleToOperator_kept | apply Kept.ite | intro _ | split
    | dsimp only

theorem keyRotate_kept {q s x0} (h : Kept q s) : Kept q (keyRotate x0 s) := by
  unfold keyRotate
  repeat' with_reducible first
    | assumption | apply modRoles_kept | apply setF_kept | apply Kept.ite | intro _ | split | dsimp only

theorem rotationDone_kept {q s x0 x1} (h : Kept q s) : Kept q (rotationDone x0 x1 s) := by
  unfold rotationDone
  repeat' with_reducible first
    | assumption | apply writeBlock_kept | apply modRoles_kept | apply roleToOperator_kept | apply record_kept
    | apply setR_kept | apply latch_kept | apply count_kept | apply setF_kept | apply Kept.whenT | apply Kept.ite
    | intro _ | split | dsimp only

theorem beginImage_kept {q s x0} (h : Kept q s) : Kept q (beginImage x0 s) := by
  unfold beginImage
  repeat' with_reducible first
    | assumption | apply modImage_kept | apply setF_kept | dsimp only

theorem startHostImage_kept {q s} (h : Kept q s) : Kept q (startHostImage s) := by
  unfold startHostImage
  repeat' with_reducible first
    | assumption | apply beginImage_kept | apply readHost_kept | apply emitOut_kept | split | dsimp only

theorem imageEnd_kept {q s x0 x1} (h : Kept q s) : Kept q (imageEnd x0 x1 s) := by
  unfold imageEnd
  repeat' with_reducible first
    | assumption | apply modImage_kept | apply recordPair_kept | apply latch_kept | apply setR_kept | apply setF_kept
    | apply sendReport_kept | apply functionsStart_kept | apply modPwr_kept | apply Kept.whenT | apply Kept.ite
    | intro _ | exact fun _ => rfl | rfl | split | dsimp only | apply Kept.upd

theorem imageCtrl_kept {q s x0} (h : Kept q s) : Kept q (imageCtrl x0 s) := by
  unfold imageCtrl
  repeat' with_reducible first
    | assumption | apply modImage_kept | apply startHostImage_kept | apply Kept.whenT | apply Kept.ite | intro _
    | split | dsimp only

theorem bootBegin_kept {q s} (h : Kept q s) : Kept q (bootBegin s) := by
  unfold bootBegin
  repeat' with_reducible first
    | assumption | apply modPwr_kept | apply beginImage_kept | apply modImage_kept | apply imageCtrl_kept
    | apply request_kept | apply Kept.ite | intro _ | split | dsimp only

theorem locketStep_kept {q s x0} (h : Kept q s) : Kept q (locketStep x0 s) := by
  unfold locketStep
  repeat' with_reducible first
    | assumption | apply setF_kept | apply resetFlash_kept | apply locketWork_kept | apply bootBegin_kept
    | apply Kept.ite | intro _ | split | dsimp only

theorem imageChecked_kept {q s x0 x1} (h : Kept q s) : Kept q (imageChecked x0 x1 s) := by
  unfold imageChecked
  repeat' with_reducible first
    | assumption | apply modImage_kept | apply imageEnd_kept | apply setF_kept | apply Kept.ite | intro _ | split
    | dsimp only

theorem imageCheckDone_kept {q s x0 x1} (h : Kept q s) : Kept q (imageCheckDone x0 x1 s) := by
  unfold imageCheckDone
  repeat' with_reducible first
    | assumption | apply imageChecked_kept | apply setF_kept | apply Kept.ite | intro _ | split | dsimp only

theorem imageReadError_kept {q s x0 x1} (h : Kept q s) : Kept q (imageReadError x0 x1 s) := by
  unfold imageReadError
  repeat' with_reducible first
    | assumption | apply imageEnd_kept | apply dmaError_kept | apply Kept.ite | intro _ | split | dsimp only

theorem imageUnitReceive_kept {q s x0 x1} (h : Kept q s) : Kept q (imageUnitReceive x0 x1 s) := by
  unfold imageUnitReceive
  repeat' with_reducible first
    | assumption | apply acceptUnit_kept | apply relayUnit_kept | apply modImage_kept | apply beginImage_kept
    | apply imageEnd_kept | apply Kept.ite | refine Kept.of_eq2 ‹_› ?_ | refine Kept.of_eq22 ‹_› ?_ | intro _
    | exact fun _ => rfl | rfl | split | dsimp only | apply Kept.upd

theorem imageLinkLost_kept {q s} (h : Kept q s) : Kept q (imageLinkLost s) := by
  unfold imageLinkLost
  repeat' with_reducible first
    | assumption | apply imageEnd_kept | apply Kept.ite | intro _ | split | dsimp only

/-! ### Tick -/

theorem showRow_kept {q s x0} (h : Kept q s) : Kept q (showRow x0 s) := by
  unfold showRow
  repeat' with_reducible first
    | assumption | apply setR_kept | apply Kept.each | intro _ | dsimp only

theorem showSnapshot_kept {q s x0} (h : Kept q s) : Kept q (showSnapshot x0 s) := by
  unfold showSnapshot
  repeat' with_reducible first
    | assumption | apply setR_kept | apply showRow_kept | apply Kept.each | apply Kept.ite | intro _ | split
    | dsimp only

theorem ledgerTask_kept {q s} (h : Kept q s) : Kept q (ledgerTask s) := by
  unfold ledgerTask
  repeat' with_reducible first
    | assumption | apply showSnapshot_kept | apply modFab_kept | apply walkResult_kept | exact fun _ => rfl | rfl
    | split | dsimp only | apply Kept.upd

theorem walkEnd_kept {q s x0} (h : Kept q s) : Kept q (walkEnd x0 s) := by
  unfold walkEnd
  repeat' with_reducible first
    | assumption | apply countBy_kept | apply modFab_kept | apply Kept.ite | intro _ | exact fun _ => rfl | rfl
    | split | dsimp only | apply Kept.upd

theorem auditResult_kept {q s} (h : Kept q s) : Kept q (auditResult s) := by
  unfold auditResult
  repeat' with_reducible first
    | assumption | apply advanceTo_kept | apply walkEnd_kept | apply setR_kept | apply modFab_kept
    | apply latchBits_kept | apply record_kept | apply trigger_kept | apply countBy_kept | apply Kept.whenT
    | apply Kept.ite | intro _ | exact fun _ => rfl | rfl | split | dsimp only | apply Kept.upd

theorem halfScan_kept {q s} (h : Kept q s) : Kept q (halfScan s) := by
  unfold halfScan
  repeat' with_reducible first
    | assumption | apply latchBits_kept | apply modFab_kept | apply Kept.each | apply Kept.ite | intro _
    | exact fun _ => rfl | rfl | split | dsimp only

theorem wrongAccount_kept {q s x0} (h : Kept q s) : Kept q (wrongAccount x0 s) := by
  have hd : Kept q (drawFree s).2 := drawFree_kept h
  have hr := hd.2.2 (x0 % 464)
  unfold wrongAccount
  dsimp only
  split
  · exact setLed_kept hd ⟨hr.1, fun hn => nomatch hn⟩
  · exact setLed_kept hd ⟨hr.1, fun hn => nomatch hn⟩
  · exact setLed_kept hd ⟨hr.1, fun hn => nomatch hn⟩
  · exact setLed_kept hd ⟨hr.1, fun hn => nomatch hn⟩
  · exact modFab_kept hd (fun _ => rfl)
  · split
    · exact setLed_kept hd ⟨Sparse.wf_put _ _ hr.1, fun hn => nomatch hn⟩
    · repeat' with_reducible first
        | assumption | apply modFab_kept | apply setF_kept | exact fun _ => rfl | split

theorem loseCells_kept {q s x0} (h : Kept q s) : Kept q (loseCells x0 s) := by
  unfold loseCells
  repeat' with_reducible first
    | assumption | apply modFab_kept | exact fun _ => rfl | rfl | split | dsimp only | apply Kept.upd

theorem badLink_kept {q s x0} (h : Kept q s) : Kept q (badLink x0 s) := by
  unfold badLink
  repeat' with_reducible first
    | assumption | apply dropFrame_kept | apply loseCells_kept | apply modFab_kept | apply ledDrop_kept
    | apply Kept.ite | intro _ | exact fun _ => rfl | rfl | split | dsimp only | apply Kept.upd

theorem memoryError_kept {q s x0 x1} (h : Kept q s) : Kept q (memoryError x0 x1 s) := by
  unfold memoryError
  repeat' with_reducible first
    | assumption | apply record_kept | apply modFab_kept | apply badLink_kept | apply dropFrame_kept
    | apply wrongAccount_kept | apply trigger_kept | apply Kept.whenT | apply Kept.ite | intro _ | exact fun _ => rfl
    | rfl | split | dsimp only | apply Kept.upd

theorem managementTick_kept {q s x0 x1 x2} (h : Kept q s) : Kept q (managementTick x0 x1 x2 s) := by
  unfold managementTick
  repeat' with_reducible first
    | assumption | apply advanceTo_kept | apply modFab_kept | apply memoryError_kept | apply ledgerTask_kept
    | apply halfScan_kept | apply drainHolding_kept | apply startCommit_kept | apply monitorSample_kept
    | apply idleTick_kept | apply carTick_kept | apply Kept.each | intro _ | exact fun _ => rfl | rfl | split
    | dsimp only | apply Kept.upd

/-! ### Finish -/

theorem doTodo_kept {q s x0} (h : Kept q s) : Kept q (doTodo x0 s) := by
  unfold doTodo
  repeat' with_reducible first
    | assumption | apply lineLost_kept | apply timeDirDown_kept | apply lineBack_kept | apply timeSwitched_kept
    | apply sendSwitch_kept | apply trigger_kept | apply resign_kept | apply cancelSwap_kept | apply phaseStepped_kept
    | apply quarantineChange_kept | apply imageLinkLost_kept | apply showAgg_kept | apply Kept.ite | intro _ | split
    | dsimp only

theorem runTodo_kept {q s x0} (h : Kept q s) : Kept q (runTodo x0 s) := by
  induction x0 generalizing s with
  | zero =>
    unfold runTodo
    repeat' with_reducible first
      | assumption | apply doTodo_kept | exact fun _ => rfl | rfl | split | dsimp only | apply Kept.upd
  | succ n ih =>
    unfold runTodo
    repeat' with_reducible first
      | assumption | apply ih | apply doTodo_kept | exact fun _ => rfl | rfl | split | dsimp only | apply Kept.upd

theorem settle_kept {q s} (h : Kept q s) : Kept q (settle s) := by
  unfold settle
  repeat' with_reducible first
    | assumption | apply xonCheck_kept | apply settleTime_kept | apply settlePhase_kept | apply settlePreemption_kept
    | apply revertCheck_kept | apply retryHost_kept | apply retryFil_kept | apply settleMoves_kept
    | apply settleBus_kept | apply settleRed_kept | apply judgeCompat_kept | apply settleSense_kept
    | apply settleDrive_kept | apply settlePins_kept | apply Kept.each | intro _ | split | dsimp only

theorem showCauses_kept {q s} (h : Kept q s) : Kept q (showCauses s) := by
  unfold showCauses
  repeat' with_reducible first
    | assumption | apply modHost_kept | apply setF_kept | apply msix_kept | apply Kept.each | apply Kept.ite | intro _
    | split | dsimp only

theorem ackMisc_kept {q s x0} (h : Kept q s) : Kept q (ackMisc x0 s) := by
  unfold ackMisc
  repeat' with_reducible first
    | assumption | apply msix_kept | apply Kept.each | intro _ | dsimp only

theorem conclude_kept {q s} (h : Kept q s) : Kept q (conclude s) := by
  unfold conclude
  repeat' with_reducible first
    | assumption | apply settle_kept | apply runTodo_kept | apply showCauses_kept | apply Kept.ite | intro _
    | exact fun _ => rfl | rfl | split | dsimp only | apply Kept.upd

theorem doSoon_kept {q s x0} (h : Kept q s) : Kept q (doSoon x0 s) := by
  unfold doSoon
  repeat' with_reducible first
    | assumption | apply request_kept | apply hostSwitch_kept | apply judgeEnable_kept | apply carAct_kept
    | apply hostFollows_kept | apply readbackCompletes_kept | apply showHash_kept | apply judgeWorker_kept
    | apply grantFalls_kept | split | dsimp only

theorem runSoon_kept {q s x0 x1} (h : Kept q s) : Kept q (runSoon x0 x1 s) := by
  induction x0 generalizing s with
  | zero => exact h
  | succ n ih =>
    unfold runSoon
    split
    · exact h
    · split
      · exact ih (conclude_kept (doSoon_kept (advanceTo_kept (Kept.upd h))))
      · exact h

theorem finish_kept {q s} (h : Kept q s) : Kept q (finish s) := runSoon_kept (conclude_kept h)

theorem arrive_kept {q s x0} (h : Kept q s) : Kept q (arrive x0 s) := advanceTo_kept (runSoon_kept h)

theorem inTurn_kept {q s x0} (hf : ∀ t, Kept q t → Kept q (x0 t)) (h : Kept q s) : Kept q (inTurn x0 s) :=
  hf _ (runSoon_kept h)

/-! ### Legal -/

theorem forceTat_kept {q s x0 x1 x2} (h : Kept q s) : Kept q (forceTat x0 x1 x2 s) := by
  unfold forceTat
  repeat' with_reducible first
    | assumption | apply setR_kept | apply setF_kept | dsimp only

theorem forceVlan_kept {q s x0 x1 x2} (h : Kept q s) : Kept q (forceVlan x0 x1 x2 s) := by
  unfold forceVlan
  repeat' with_reducible first
    | assumption | apply setR_kept | apply Kept.ite | intro _ | split | dsimp only

theorem forcePool_kept {q s x0 x1} (h : Kept q s) : Kept q (forcePool x0 x1 s) := by
  unfold forcePool
  repeat' with_reducible first
    | assumption | apply setF_kept | apply Kept.ite | intro _ | split | dsimp only

theorem forceMinCells_kept {q s x0 x1 x2} (h : Kept q s) : Kept q (forceMinCells x0 x1 x2 s) := by
  unfold forceMinCells
  repeat' with_reducible first
    | assumption | apply forcePool_kept | dsimp only

theorem forceHeadroom_kept {q s x0 x1 x2} (h : Kept q s) : Kept q (forceHeadroom x0 x1 x2 s) := by
  unfold forceHeadroom
  repeat' with_reducible first
    | assumption | apply forcePool_kept | dsimp only

theorem forceFc_kept {q s x0 x1 x2} (h : Kept q s) : Kept q (forceFc x0 x1 x2 s) := by
  unfold forceFc
  repeat' with_reducible first
    | assumption | apply setF_kept | apply Kept.each | apply Kept.ite | intro _ | split | dsimp only

theorem forceRate_kept {q s x0 x1} (h : Kept q s) : Kept q (forceRate x0 x1 s) := by
  unfold forceRate
  repeat' with_reducible first
    | assumption | apply setF_kept | dsimp only

theorem forceEdgeShape_kept {q s x0 x1 x2} (h : Kept q s) : Kept q (forceEdgeShape x0 x1 x2 s) := by
  unfold forceEdgeShape
  repeat' with_reducible first
    | assumption | apply forceRate_kept | dsimp only

theorem forceTrunkShape_kept {q s x0 x1 x2} (h : Kept q s) : Kept q (forceTrunkShape x0 x1 x2 s) := by
  unfold forceTrunkShape
  repeat' with_reducible first
    | assumption | apply forceRate_kept | dsimp only

theorem useMode_kept {q s x0} (h : Kept q s) : Kept q (useMode x0 s) := by
  unfold useMode
  repeat' with_reducible first
    | assumption | apply setF_kept | apply Kept.ite | intro _ | split | dsimp only

theorem forceEdgeMode_kept {q s x0 x1 x2} (h : Kept q s) : Kept q (forceEdgeMode x0 x1 x2 s) := by
  unfold forceEdgeMode
  repeat' with_reducible first
    | assumption | apply setF_kept | apply useMode_kept | apply Kept.each | apply Kept.ite | intro _ | split
    | dsimp only

theorem forceTrunkMode_kept {q s x0 x1 x2} (h : Kept q s) : Kept q (forceTrunkMode x0 x1 x2 s) := by
  unfold forceTrunkMode
  repeat' with_reducible first
    | assumption | apply useMode_kept | apply setF_kept | apply Kept.each | intro _ | dsimp only

theorem forceServo_kept {q s x0 x1 x2} (h : Kept q s) : Kept q (forceServo x0 x1 x2 s) := by
  unfold forceServo
  repeat' with_reducible first
    | assumption | apply setF_kept | dsimp only

theorem forceAddend_kept {q s x0 x1 x2} (h : Kept q s) : Kept q (forceAddend x0 x1 x2 s) := by
  unfold forceAddend
  repeat' with_reducible first
    | assumption | apply setR_kept | dsimp only

theorem forcePhase_kept {q s x0 x1 x2} (h : Kept q s) : Kept q (forcePhase x0 x1 x2 s) := by
  unfold forcePhase
  repeat' with_reducible first
    | assumption | apply setF_kept | apply setR_kept | apply Kept.whenT | apply Kept.ite | intro _ | split
    | dsimp only

theorem forceEvent_kept {q s x0 x1 x2} (h : Kept q s) : Kept q (forceEvent x0 x1 x2 s) := by
  unfold forceEvent
  repeat' with_reducible first
    | assumption | apply setF_kept | apply Kept.ite | intro _ | split | dsimp only

theorem forceCan_kept {q s x0 x1 x2} (h : Kept q s) : Kept q (forceCan x0 x1 x2 s) := by
  unfold forceCan
  repeat' with_reducible first
    | assumption | apply setF_kept | apply Kept.ite | intro _ | split | dsimp only

theorem forceTemplate_kept {q s x0 x1 x2} (h : Kept q s) : Kept q (forceTemplate x0 x1 x2 s) := by
  unfold forceTemplate
  repeat' with_reducible first
    | assumption | apply setF_kept | apply Kept.ite | intro _ | split | dsimp only

theorem forceIlgil_kept {q s x0 x1 x2} (h : Kept q s) : Kept q (forceIlgil x0 x1 x2 s) := by
  unfold forceIlgil
  repeat' with_reducible first
    | assumption | apply setF_kept | apply Kept.ite | intro _ | split | dsimp only

theorem forceRules_kept {q s i j b} : ∀ p ∈ forceRules, Kept q s → Kept q (p.2 i j b s) := by
  simp only [forceRules, List.forall_mem_cons, List.not_mem_nil, false_implies, implies_true, and_true]
  repeat' with_reducible first
    | assumption | apply And.intro | apply forceTat_kept | apply forceVlan_kept | apply forceMinCells_kept
    | apply forceHeadroom_kept | apply forceFc_kept | apply forceEdgeShape_kept | apply forceTrunkShape_kept
    | apply forceEdgeMode_kept | apply forceTrunkMode_kept | apply forceServo_kept | apply forceAddend_kept
    | apply forcePhase_kept | apply forceEvent_kept | apply forceCan_kept | apply forceTemplate_kept
    | apply forceIlgil_kept | apply Kept.whenT | intro _

theorem force_kept {q s x0 x1 x2 x3} (h : Kept q s) : Kept q (force x0 x1 x2 x3 s) := by
  unfold force
  split
  · exact forceRules_kept _ (List.mem_of_find?_eq_some ‹_›) h
  · exact h

theorem Write.plain_kept {q s x0} (h : Kept q s) : Kept q (Write.plain x0 s) := Kept.setReg h _ _

theorem Write.store_kept {q s x0} (h : Kept q s) : Kept q (Write.store x0 s) := by
  unfold Write.store
  repeat' with_reducible first
    | assumption | apply force_kept | apply Write.plain_kept | apply Kept.setReg | split | dsimp only

/-! ### Hooks -/

theorem hookEnable_kept {q s x0 x1 x2 x3 x4} (h : Kept q s) : Kept q (hookEnable x0 x1 x2 x3 x4 s) := by
  unfold hookEnable
  repeat' with_reducible first
    | assumption | apply request_kept | dsimp only

theorem hookWord_kept {q s x0 x1 x2 x3 x4} (hf : ∀ v t, Kept q t → Kept q (x0 v t)) (h : Kept q s) : Kept q (hookWord x0 x1 x2 x3 x4 s) :=
  hf x4 s h

theorem hookEdgeCtrl_kept {q s x0 x1 x2 x3} (h : Kept q s) : Kept q (hookEdgeCtrl x0 x1 x2 x3 s) := by
  unfold hookEdgeCtrl
  repeat' with_reducible first
    | assumption | apply drainWritten_kept | apply request_kept | dsimp only

theorem hookSprCtrl_kept {q s x0 x1 x2 x3} (h : Kept q s) : Kept q (hookSprCtrl x0 x1 x2 x3 s) := by
  unfold hookSprCtrl
  repeat' with_reducible first
    | assumption | apply sprCtrlWritten_kept | apply request_kept | dsimp only

theorem hookCanCtrl_kept {q s x0 x1 x2 x3} (h : Kept q s) : Kept q (hookCanCtrl x0 x1 x2 x3 s) := by
  unfold hookCanCtrl
  repeat' with_reducible first
    | assumption | apply canRecover_kept | apply request_kept | apply Kept.whenT | intro _ | dsimp only

theorem hookFilter_kept {q s x0 x1 x2 x3} (h : Kept q s) : Kept q (hookFilter x0 x1 x2 x3 s) := by
  unfold hookFilter
  repeat' with_reducible first
    | assumption | apply modFab_kept | apply Kept.ite | intro _ | exact fun _ => rfl | rfl | split | dsimp only

theorem hookWatchdog_kept {q s x0 x1 x2 x3} (h : Kept q s) : Kept q (hookWatchdog x0 x1 x2 x3 s) := by
  unfold hookWatchdog
  repeat' with_reducible first
    | assumption | apply modHost_kept | apply wdogLoad_kept | apply Kept.ite | intro _ | split | dsimp only

theorem hookHostWord_kept {q s x0 x1 x2 x3} (h : Kept q s) : Kept q (hookHostWord x0 x1 x2 x3 s) := by
  unfold hookHostWord
  repeat' with_reducible first
    | assumption | apply statusEvent_kept | dsimp only

theorem edgeModeWritten_kept {q s x0} (h : Kept q s) : Kept q (edgeModeWritten x0 s) := by
  unfold edgeModeWritten
  repeat' with_reducible first
    | assumption | apply badMode_kept | apply useMode_kept | apply fcWritten_kept | apply Kept.ite | intro _ | split
    | dsimp only

theorem hookResp_kept {q s x0 x1 x2 x3} (h : Kept q s) : Kept q (hookResp x0 x1 x2 x3 s) := by
  unfold hookResp
  repeat' with_reducible first
    | assumption | apply setR_kept | dsimp only

theorem hookPhase_kept {q s x0 x1 x2 x3} (h : Kept q s) : Kept q (hookPhase x0 x1 x2 x3 s) := by
  unfold hookPhase
  repeat' with_reducible first
    | assumption | apply reacquire_kept | apply Kept.ite | intro _ | split | dsimp only

theorem hookPeriod_kept {q s x0 x1 x2 x3} (h : Kept q s) : Kept q (hookPeriod x0 x1 x2 x3 s) := by
  unfold hookPeriod
  repeat' with_reducible first
    | assumption | apply reacquire_kept | apply Kept.ite | intro _ | split | dsimp only

theorem hooks_kept {q s i j old v} : ∀ p ∈ hooks, Kept q s → Kept q (p.2 i j old v s) := by
  simp only [hooks, hooks1, hooks2, hooks3, List.cons_append, List.nil_append, List.forall_mem_cons, List.not_mem_nil, false_implies, implies_true, and_true]
  repeat' with_reducible first
    | assumption | apply And.intro | apply phyResetWritten_kept | apply hookWord_kept | apply challenge_kept
    | apply roleUnlock_kept | apply hookResp_kept | apply roleDrop_kept | apply keyRotate_kept | apply imageCtrl_kept
    | apply hookSprCtrl_kept | apply hookEnable_kept | apply compatCommit_kept | apply graceRewritten_kept | apply holdRewritten_kept | apply fcWritten_kept | apply inCycles_kept | apply drvPhaseWritten_kept
    | apply moderationWritten_kept | apply revertWritten_kept
    | apply fdbCtrlWritten_kept | apply fdbCommand_kept | apply hookFilter_kept | apply hookEdgeCtrl_kept
    | apply edgeModeWritten_kept | apply shapeWritten_kept | apply useMode_kept | apply preemptWritten_kept
    | apply mstClear_kept | apply incModeWritten_kept | apply rateWritten_kept | apply addendWritten_kept
    | apply hostAdjust_kept | apply permitGrant_kept | apply correlate_kept | apply syncCfgWritten_kept
    | apply offsetWritten_kept | apply hookPhase_kept | apply hookPeriod_kept | apply eventWritten_kept
    | apply silenceRelease_kept | apply hookCanCtrl_kept | apply hookHostWord_kept | apply hostConvert_kept
    | apply mclkWritten_kept | apply chCfgWritten_kept | apply levelWritten_kept | apply drvCfgWritten_kept
    | apply ackMisc_kept | apply hookWatchdog_kept | apply claspCtrl_kept | apply crcCtrl_kept | apply crcSeed_kept
    | apply crcData8_kept | apply crcData16_kept | apply crcData32_kept | apply rebalance_kept | apply mgmtCtrl_kept
    | apply workerImageAbort_kept | apply workerImageStart_kept | apply workerGenWritten_kept | apply redCmd_kept
    | apply lktCtrl_kept | apply recordFetch_kept | apply routineCopy_kept | apply Kept.whenT | intro _

theorem hook_kept {q s x0 x1 x2 x3 x4} (h : Kept q s) : Kept q (hook x0 x1 x2 x3 x4 s) := by
  unfold hook
  split
  · exact hooks_kept _ (List.mem_of_find?_eq_some ‹_›) h
  · exact h

/-! ### Access -/

theorem setSnap_kept {q s x0 x1} (h : Kept q s) : Kept q (setSnap x0 x1 s) := by
  unfold setSnap
  repeat' with_reducible first
    | assumption | exact fun _ => rfl | rfl | dsimp only | apply Kept.upd

theorem takeSnapshot_kept {q s x0 x1 x2} (h : Kept q s) : Kept q (takeSnapshot x0 x1 x2 s) := by
  unfold takeSnapshot
  repeat' with_reducible first
    | assumption | apply setSnap_kept | apply Kept.each | intro _ | dsimp only

theorem clearRc_kept {q s x0 x1} (h : Kept q s) : Kept q (clearRc x0 x1 s) := by
  unfold clearRc
  repeat' with_reducible first
    | assumption | apply setR_kept | apply Kept.foldl | apply Kept.foldl2 | apply Kept.setReg | apply Kept.ite
    | intro _ | exact fun _ => rfl | rfl | split | dsimp only | apply Kept.upd

theorem readReg_kept {q s x0} (h : Kept q s) : Kept q (readReg x0 s).2 := by
  unfold readReg
  repeat' with_reducible first
    | assumption | apply flushPassed_kept | apply errorPop_kept | apply syncPop_kept | apply clearRc_kept | apply takeSnapshot_kept
    | apply Kept.ite | intro _ | split | dsimp only

theorem busRead_kept {q s x0} (h : Kept q s) : Kept q (busRead x0 s) := by
  unfold busRead
  repeat' with_reducible first
    | assumption | apply readReg_kept | apply touchIdle_kept | refine Kept.of_eq2 ‹_› ?_ | refine Kept.of_eq22 ‹_› ?_
    | exact fun _ => rfl | rfl | dsimp only | apply Kept.upd

theorem deny_kept {q s x0 x1 x2 x3} (h : Kept q s) : Kept q (deny x0 x1 x2 x3 s) := by
  unfold deny
  repeat' with_reducible first
    | assumption | apply recordPairAs_kept | apply count_kept | dsimp only

theorem noteWrite_kept {q s x0 x1 x2 x3} (h : Kept q s) : Kept q (noteWrite x0 x1 x2 x3 s) := by
  unfold noteWrite
  repeat' with_reducible first
    | assumption | apply recordPairAs_kept | apply Kept.ite | intro _ | split | dsimp only

theorem storeWrite_kept {q s x0} (h : Kept q s) : Kept q (storeWrite x0 s) := by
  unfold storeWrite
  repeat' with_reducible first
    | assumption | apply modFab_kept | apply dropSnap_kept | apply count_kept | apply Write.store_kept
    | apply Kept.whenT | intro _ | exact fun _ => rfl | rfl | dsimp only

theorem applyWrite_kept {q s x0 x1 x2 x3} (h : Kept q s) : Kept q (applyWrite x0 x1 x2 x3 s) := by
  unfold applyWrite
  repeat' with_reducible first
    | assumption | apply count_kept | apply deny_kept | apply storeWrite_kept | apply noteWrite_kept | apply hook_kept
    | apply Kept.ite | intro _ | split | dsimp only

theorem busWrite_kept {q s x0 x1} (h : Kept q s) : Kept q (busWrite x0 x1 s) := by
  unfold busWrite
  repeat' with_reducible first
    | assumption | apply touchIdle_kept | apply deny_kept | apply applyWrite_kept | apply Kept.ite | intro _ | split
    | dsimp only

theorem busWriteBe_kept {q s x0 x1 x2} (h : Kept q s) : Kept q (busWriteBe x0 x1 x2 s) := by
  unfold busWriteBe
  repeat' with_reducible first
    | assumption | apply busWrite_kept | apply touchIdle_kept | apply Kept.ite | intro _ | split | dsimp only

theorem imageWrite_kept {q s x0 x1 x2} (h : Kept q s) : Kept q (imageWrite x0 x1 x2 s) := by
  unfold imageWrite
  repeat' with_reducible first
    | assumption | apply deny_kept | apply count_kept | apply hook_kept | apply storeWrite_kept | apply Kept.ite
    | intro _ | split | dsimp only

theorem maskedWrite_kept {q s x0 x1 x2 x3} (h : Kept q s) : Kept q (maskedWrite x0 x1 x2 x3 s) := by
  unfold maskedWrite
  repeat' with_reducible first
    | assumption | apply imageWrite_kept | dsimp only

theorem nextRecord_kept {q s x0} (h : Kept q s) : Kept q (nextRecord x0 s) := by
  unfold nextRecord
  repeat' with_reducible first
    | assumption | apply modImage_kept | apply imageEnd_kept | apply Kept.ite | intro _ | split | dsimp only

theorem doRecord_kept {q s x0 x1 x2} (h : Kept q s) : Kept q (doRecord x0 x1 x2 s) := by
  unfold doRecord
  repeat' with_reducible first
    | assumption | apply nextRecord_kept | apply maskedWrite_kept | apply imageWrite_kept | apply modImage_kept
    | apply Kept.each | apply Kept.ite | intro _ | split | dsimp only

theorem imageRecord_kept {q s x0} (h : Kept q s) : Kept q (imageRecord x0 s) := by
  unfold imageRecord
  repeat' with_reducible first
    | assumption | apply imageEnd_kept | apply modImage_kept | apply nextRecord_kept | apply doRecord_kept
    | apply Kept.ite | intro _ | split | dsimp only

theorem pollMatch_kept {q s} (h : Kept q s) : Kept q (pollMatch s) := by
  unfold pollMatch
  repeat' with_reducible first
    | assumption | apply advanceTo_kept | apply nextRecord_kept | apply Kept.ite | intro _ | split | dsimp only

theorem pollTimeout_kept {q s} (h : Kept q s) : Kept q (pollTimeout s) := by
  unfold pollTimeout
  repeat' with_reducible first
    | assumption | apply advanceTo_kept | apply nextRecord_kept | apply imageEnd_kept | apply Kept.ite | intro _
    | split | dsimp only

theorem delayExpiry_kept {q s} (h : Kept q s) : Kept q (delayExpiry s) := by
  unfold delayExpiry
  repeat' with_reducible first
    | assumption | apply nextRecord_kept | apply advanceTo_kept | split | dsimp only

theorem managerWrite_kept {q s x0 x1 x2} (h : Kept q s) : Kept q (managerWrite x0 x1 x2 s).2 := by
  unfold managerWrite
  repeat' with_reducible first
    | assumption | apply deny_kept | apply applyWrite_kept | apply Kept.ite | intro _ | split | dsimp only

theorem managerRead_kept {q s x0} (h : Kept q s) : Kept q (managerRead x0 s).2 := by
  unfold managerRead
  repeat' with_reducible first
    | assumption | apply readReg_kept | refine Kept.of_eq2 ‹_› ?_ | refine Kept.of_eq22 ‹_› ?_ | exact fun _ => rfl
    | rfl | dsimp only | apply Kept.upd

theorem mgmtRespond_kept {q s x0 x1 x2 x3} (h : Kept q s) : Kept q (mgmtRespond x0 x1 x2 x3 s) := by
  unfold mgmtRespond
  repeat' with_reducible first
    | assumption | apply queueUnit_kept | dsimp only

theorem mgmtRequest_kept {q s x0 x1} (h : Kept q s) : Kept q (mgmtRequest x0 x1 s) := by
  unfold mgmtRequest
  repeat' with_reducible first
    | assumption | apply mgmtReceive_kept | apply managerWrite_kept | apply mgmtRespond_kept | apply managerRead_kept
    | apply Kept.ite | refine Kept.of_eq2 ‹_› ?_ | refine Kept.of_eq22 ‹_› ?_ | intro _ | split | dsimp only

/-! ### Links -/

theorem laterCells_kept {q s x0 x1 x2} (h : Kept q s) : Kept q (laterCells x0 x1 x2 s) := by
  induction x0 generalizing s x2 with
  | zero =>
    unfold laterCells
    repeat' with_reducible first
      | assumption | apply cellWrite_kept | apply Kept.ite | intro _ | split | dsimp only
  | succ n ih =>
    unfold laterCells
    repeat' with_reducible first
      | assumption | apply ih | apply cellWrite_kept | apply Kept.ite | intro _ | split | dsimp only

theorem takeTopology_kept {q s x0 x1 x2} (h : Kept q s) : Kept q (takeTopology x0 x1 x2 s) := by
  unfold takeTopology
  repeat' with_reducible first
    | assumption | apply admissionPoint_kept | apply laterCells_kept | apply frameEnd_kept | apply Kept.ite | intro _
    | split | dsimp only

theorem cutHostFrame_kept {q s x0 x1 x2} (h : Kept q s) : Kept q (cutHostFrame x0 x1 x2 s) := by
  unfold cutHostFrame
  repeat' with_reducible first
    | assumption | apply hostFan_kept | apply dispatch_kept | apply dropFrame_kept | refine Kept.of_eq2 ‹_› ?_
    | refine Kept.of_eq22 ‹_› ?_ | split | dsimp only

theorem txReadFails_kept {q s x0 x1} (h : Kept q s) : Kept q (txReadFails x0 x1 s) := by
  unfold txReadFails
  repeat' with_reducible first
    | assumption | apply txReadError_kept | apply cutHostFrame_kept | apply Kept.whenT | intro _ | split | dsimp only

theorem memoryRequestError_kept {q s x0 x1 x2 x3 x4} (h : Kept q s) :
    Kept q (memoryRequestError x0 x1 x2 x3 x4 s) := by
  unfold memoryRequestError
  repeat' with_reducible first
    | assumption | apply forceStop_kept | apply setF_kept | apply dmaError_kept | apply txReadFails_kept
    | apply imageReadError_kept | apply workerImageEnd_kept | apply Kept.ite | intro _ | split | dsimp only

theorem functionLevel_kept {q s} (h : Kept q s) : Kept q (functionLevel s) := by
  unfold functionLevel
  repeat' with_reducible first
    | assumption | apply latch_kept | apply functionReset_kept | dsimp only

theorem enterD3_kept {q s} (h : Kept q s) : Kept q (enterD3 s) := by
  unfold enterD3
  repeat' with_reducible first
    | assumption | apply setF_kept | apply latch_kept | apply functionReset_kept | dsimp only

theorem linkTrained_kept {q s x0 x1 x2 x3} (h : Kept q s) : Kept q (linkTrained x0 x1 x2 x3 s) := by
  unfold linkTrained
  repeat' with_reducible first
    | assumption | apply setF_kept | apply modHost_kept | apply Kept.ite | intro _ | exact fun _ => rfl | rfl | split
    | dsimp only | apply Kept.upd

theorem unmaskVectors_kept {q s x0} (h : Kept q s) : Kept q (unmaskVectors x0 s) := by
  unfold unmaskVectors
  repeat' with_reducible first
    | assumption | apply flushMsix_kept | apply setF_kept | apply modHost_kept | apply Kept.ite | intro _ | split
    | dsimp only

end Sys2Proof.Machine
end

