-- ==== Sys2Proof/Laws/ExecKeeps.lean ====
section
/-! SUPPORT. Every command answers a next state, in which the queue, the canonical register file and the agreement of the
drop reasons are kept: one lemma per constructor of Instr, and `exec_kept` over all. -/
namespace Sys2Proof.Machine

theorem exec_managementTick_kept {q s} (h : Kept q s) :
    ∀ temp supply upsets, ∃ t, exec (.managementTick temp supply upsets) s = .next t ∧ Kept q t := by
  intros; simp only [exec_managementTick, done]; refine ⟨_, rfl, ?_⟩
  repeat' with_reducible first
    | assumption | apply finish_kept | apply inTurn_kept | apply Kept.whenAlive | intro _
    | apply managementTick_kept
theorem exec_auditResult_kept {q s} (h : Kept q s) : ∃ t, exec .auditResult s = .next t ∧ Kept q t := by
  simp only [exec_auditResult, done]; refine ⟨_, rfl, ?_⟩
  repeat' with_reducible first
    | assumption | apply finish_kept | apply inTurn_kept | apply Kept.whenAlive | intro _ | apply auditResult_kept
theorem exec_clockFault_kept {q s} (h : Kept q s) : ∀ clk dt, ∃ t, exec (.clockFault clk dt) s = .next t ∧ Kept q t := by
  intros; simp only [exec_clockFault, done]; refine ⟨_, rfl, ?_⟩
  repeat' with_reducible first
    | assumption | apply finish_kept | apply arrive_kept | apply Kept.whenAlive | intro _ | apply clockFault_kept
theorem exec_roleLapse_kept {q s} (h : Kept q s) : ∃ t, exec .roleLapse s = .next t ∧ Kept q t := by
  simp only [exec_roleLapse, done]; refine ⟨_, rfl, ?_⟩
  repeat' with_reducible first
    | assumption | apply finish_kept | apply inTurn_kept | apply Kept.whenAlive | intro _ | apply roleLapse_kept
theorem exec_scheduleSilence_kept {q s} (h : Kept q s) : ∃ t, exec .scheduleSilence s = .next t ∧ Kept q t := by
  simp only [exec_scheduleSilence, done]; refine ⟨_, rfl, ?_⟩
  repeat' with_reducible first
    | assumption | apply finish_kept | apply inTurn_kept | apply Kept.whenRunning | intro _
    | apply scheduleSilence_kept
theorem exec_silenceRelease_kept {q s} (h : Kept q s) : ∀ v dt, ∃ t, exec (.silenceRelease v dt) s = .next t ∧ Kept q t := by
  intros; simp only [exec_silenceRelease, done]; refine ⟨_, rfl, ?_⟩
  repeat' with_reducible first
    | assumption | apply finish_kept | apply arrive_kept | apply Kept.whenHost | intro _ | apply busWrite_kept
theorem exec_enableRequest_kept {q s} (h : Kept q s) :
    ∀ fn v dt, ∃ t, exec (.enableRequest fn v dt) s = .next t ∧ Kept q t := by
  intros; simp only [exec_enableRequest, done]; refine ⟨_, rfl, ?_⟩
  repeat' with_reducible first
    | assumption | apply finish_kept | apply arrive_kept | apply Kept.whenHost | intro _ | apply busWrite_kept
theorem exec_sequenceComplete_kept {q s} (h : Kept q s) :
    ∀ fn dt, ∃ t, exec (.sequenceComplete fn dt) s = .next t ∧ Kept q t := by
  intros; simp only [exec_sequenceComplete, done]; refine ⟨_, rfl, ?_⟩
  repeat' with_reducible first
    | assumption | apply finish_kept | apply arrive_kept | apply Kept.whenAlive | intro _
    | apply sequenceComplete_kept
theorem exec_registerWrite_kept {q s} (h : Kept q s) :
    ∀ off v be dt, ∃ t, exec (.registerWrite off v be dt) s = .next t ∧ Kept q t := by
  intros; simp only [exec_registerWrite, done]; refine ⟨_, rfl, ?_⟩
  repeat' with_reducible first
    | assumption | apply finish_kept | apply arrive_kept | apply Kept.whenHost | intro _ | apply busWriteBe_kept
theorem exec_rcRead_kept {q s} (h : Kept q s) : ∀ off dt, ∃ t, exec (.rcRead off dt) s = .next t ∧ Kept q t := by
  intros; simp only [exec_rcRead, done]; refine ⟨_, rfl, ?_⟩
  repeat' with_reducible first
    | assumption | apply finish_kept | apply arrive_kept | apply Kept.whenHost | intro _ | apply busRead_kept
theorem exec_snapshotRead_kept {q s} (h : Kept q s) : ∀ off dt, ∃ t, exec (.snapshotRead off dt) s = .next t ∧ Kept q t := by
  intros; simp only [exec_snapshotRead, done]; refine ⟨_, rfl, ?_⟩
  repeat' with_reducible first
    | assumption | apply finish_kept | apply arrive_kept | apply Kept.whenHost | intro _ | apply busRead_kept
theorem exec_challenge_kept {q s} (h : Kept q s) : ∀ v dt, ∃ t, exec (.challenge v dt) s = .next t ∧ Kept q t := by
  intros; simp only [exec_challenge, done]; refine ⟨_, rfl, ?_⟩
  repeat' with_reducible first
    | assumption | apply finish_kept | apply arrive_kept | apply Kept.whenHost | intro _ | apply busWrite_kept
theorem exec_nonceExpiry_kept {q s} (h : Kept q s) : ∃ t, exec .nonceExpiry s = .next t ∧ Kept q t := by
  simp only [exec_nonceExpiry, done]; refine ⟨_, rfl, ?_⟩
  repeat' with_reducible first
    | assumption | apply finish_kept | apply inTurn_kept | apply Kept.whenAlive | intro _ | apply nonceExpiry_kept
theorem exec_unlock_kept {q s} (h : Kept q s) : ∀ v dt, ∃ t, exec (.unlock v dt) s = .next t ∧ Kept q t := by
  intros; simp only [exec_unlock, done]; refine ⟨_, rfl, ?_⟩
  repeat' with_reducible first
    | assumption | apply finish_kept | apply arrive_kept | apply Kept.whenHost | intro _ | apply busWrite_kept
theorem exec_unlockCompareDone_kept {q s} (h : Kept q s) : ∃ t, exec .unlockCompareDone s = .next t ∧ Kept q t := by
  simp only [exec_unlockCompareDone, done]; refine ⟨_, rfl, ?_⟩
  repeat' with_reducible first
    | assumption | apply finish_kept | apply inTurn_kept | apply Kept.whenAlive | intro _
    | apply unlockCompareDone_kept
theorem exec_lockoutExpiry_kept {q s} (h : Kept q s) : ∃ t, exec .lockoutExpiry s = .next t ∧ Kept q t := by
  simp only [exec_lockoutExpiry, done]; refine ⟨_, rfl, ?_⟩
  repeat' with_reducible first
    | assumption | apply finish_kept | apply inTurn_kept | apply Kept.whenAlive | intro _ | apply lockoutExpiry_kept
theorem exec_roleDrop_kept {q s} (h : Kept q s) : ∀ v dt, ∃ t, exec (.roleDrop v dt) s = .next t ∧ Kept q t := by
  intros; simp only [exec_roleDrop, done]; refine ⟨_, rfl, ?_⟩
  repeat' with_reducible first
    | assumption | apply finish_kept | apply arrive_kept | apply Kept.whenHost | intro _ | apply busWrite_kept
theorem exec_keyRotate_kept {q s} (h : Kept q s) : ∀ v dt, ∃ t, exec (.keyRotate v dt) s = .next t ∧ Kept q t := by
  intros; simp only [exec_keyRotate, done]; refine ⟨_, rfl, ?_⟩
  repeat' with_reducible first
    | assumption | apply finish_kept | apply arrive_kept | apply Kept.whenHost | intro _ | apply busWrite_kept
theorem exec_rotationFlashDone_kept {q s} (h : Kept q s) :
    ∀ ok0 ok1 dt, ∃ t, exec (.rotationFlashDone ok0 ok1 dt) s = .next t ∧ Kept q t := by
  intros; simp only [exec_rotationFlashDone, done]; refine ⟨_, rfl, ?_⟩
  repeat' with_reducible first
    | assumption | apply finish_kept | apply arrive_kept | apply Kept.whenAlive | intro _ | apply rotationDone_kept
theorem exec_imageStart_kept {q s} (h : Kept q s) : ∀ v dt, ∃ t, exec (.imageStart v dt) s = .next t ∧ Kept q t := by
  intros; simp only [exec_imageStart, done]; refine ⟨_, rfl, ?_⟩
  repeat' with_reducible first
    | assumption | apply finish_kept | apply arrive_kept | apply Kept.whenHost | intro _ | apply busWrite_kept
theorem exec_imageAbort_kept {q s} (h : Kept q s) : ∀ v dt, ∃ t, exec (.imageAbort v dt) s = .next t ∧ Kept q t := by
  intros; simp only [exec_imageAbort, done]; refine ⟨_, rfl, ?_⟩
  repeat' with_reducible first
    | assumption | apply finish_kept | apply arrive_kept | apply Kept.whenHost | intro _ | apply busWrite_kept
theorem exec_imageCheckDone_kept {q s} (h : Kept q s) :
    ∀ slot0 slot1 dt, ∃ t, exec (.imageCheckDone slot0 slot1 dt) s = .next t ∧ Kept q t := by
  intros; simp only [exec_imageCheckDone, done]; refine ⟨_, rfl, ?_⟩
  repeat' with_reducible first
    | assumption | apply finish_kept | apply arrive_kept | apply Kept.whenAlive | intro _
    | apply imageCheckDone_kept
theorem exec_imageRecord_kept {q s} (h : Kept q s) :
    ∀ bytes dt, ∃ t, exec (.imageRecord bytes dt) s = .next t ∧ Kept q t := by
  intros; simp only [exec_imageRecord, done]; refine ⟨_, rfl, ?_⟩
  repeat' with_reducible first
    | assumption | apply finish_kept | apply arrive_kept | apply Kept.whenAlive | intro _ | apply imageRecord_kept
theorem exec_pollMatch_kept {q s} (h : Kept q s) : ∃ t, exec .pollMatch s = .next t ∧ Kept q t := by
  simp only [exec_pollMatch, done]; refine ⟨_, rfl, ?_⟩
  repeat' with_reducible first
    | assumption | apply finish_kept | apply inTurn_kept | apply Kept.whenAlive | intro _ | apply pollMatch_kept
theorem exec_pollTimeout_kept {q s} (h : Kept q s) : ∃ t, exec .pollTimeout s = .next t ∧ Kept q t := by
  simp only [exec_pollTimeout, done]; refine ⟨_, rfl, ?_⟩
  repeat' with_reducible first
    | assumption | apply finish_kept | apply inTurn_kept | apply Kept.whenAlive | intro _ | apply pollTimeout_kept
theorem exec_delayExpiry_kept {q s} (h : Kept q s) : ∃ t, exec .delayExpiry s = .next t ∧ Kept q t := by
  simp only [exec_delayExpiry, done]; refine ⟨_, rfl, ?_⟩
  repeat' with_reducible first
    | assumption | apply finish_kept | apply inTurn_kept | apply Kept.whenAlive | intro _ | apply delayExpiry_kept
theorem exec_imageReadError_kept {q s} (h : Kept q s) :
    ∀ addr cpl dt, ∃ t, exec (.imageReadError addr cpl dt) s = .next t ∧ Kept q t := by
  intros; simp only [exec_imageReadError, done]; refine ⟨_, rfl, ?_⟩
  repeat' with_reducible first
    | assumption | apply finish_kept | apply arrive_kept | apply Kept.whenAlive | intro _
    | apply imageReadError_kept
theorem exec_trunkLinkUp_kept {q s} (h : Kept q s) :
    ∀ line speed dt, ∃ t, exec (.trunkLinkUp line speed dt) s = .next t ∧ Kept q t := by
  intros; simp only [exec_trunkLinkUp, done]; refine ⟨_, rfl, ?_⟩
  repeat' with_reducible first
    | assumption | apply finish_kept | apply arrive_kept | apply Kept.whenRunning | intro _ | apply trunkLinkUp_kept
theorem exec_trunkLinkDown_kept {q s} (h : Kept q s) :
    ∀ line dt, ∃ t, exec (.trunkLinkDown line dt) s = .next t ∧ Kept q t := by
  intros; simp only [exec_trunkLinkDown, done]; refine ⟨_, rfl, ?_⟩
  repeat' with_reducible first
    | assumption | apply finish_kept | apply arrive_kept | apply Kept.whenRunning | intro _
    | apply trunkLinkDown_kept
theorem exec_beaconPeriod_kept {q s} (h : Kept q s) : ∃ t, exec .beaconPeriod s = .next t ∧ Kept q t := by
  simp only [exec_beaconPeriod, done]; refine ⟨_, rfl, ?_⟩
  repeat' with_reducible first
    | assumption | apply finish_kept | apply inTurn_kept | apply Kept.whenRunning | intro _
    | apply beaconPeriod_kept
theorem exec_answerBeacon_kept {q s} (h : Kept q s) : ∀ line, ∃ t, exec (.answerBeacon line) s = .next t ∧ Kept q t := by
  intros; simp only [exec_answerBeacon, done]; refine ⟨_, rfl, ?_⟩
  repeat' with_reducible first
    | assumption | apply finish_kept | apply inTurn_kept | apply Kept.whenRunning | intro _
    | apply answerBeacon_kept
theorem exec_beaconReceive_kept {q s} (h : Kept q s) :
    ∀ line bytes back dt, ∃ t, exec (.beaconReceive line bytes back dt) s = .next t ∧ Kept q t := by
  intros; simp only [exec_beaconReceive, done]; refine ⟨_, rfl, ?_⟩
  repeat' with_reducible first
    | assumption | apply finish_kept | apply arrive_kept | apply Kept.whenRunning | intro _
    | apply receiveSpire_kept
theorem exec_beaconDeadline_kept {q s} (h : Kept q s) : ∀ line, ∃ t, exec (.beaconDeadline line) s = .next t ∧ Kept q t := by
  intros; simp only [exec_beaconDeadline, done]; refine ⟨_, rfl, ?_⟩
  repeat' with_reducible first
    | assumption | apply finish_kept | apply inTurn_kept | apply Kept.whenRunning | intro _
    | apply beaconDeadline_kept
theorem exec_countSend_kept {q s} (h : Kept q s) : ∀ dir, ∃ t, exec (.countSend dir) s = .next t ∧ Kept q t := by
  intros; simp only [exec_countSend, done]; refine ⟨_, rfl, ?_⟩
  repeat' with_reducible first
    | assumption | apply finish_kept | apply inTurn_kept | apply Kept.whenRunning | intro _ | apply sendCount_kept
theorem exec_countReceive_kept {q s} (h : Kept q s) :
    ∀ line bytes dt, ∃ t, exec (.countReceive line bytes dt) s = .next t ∧ Kept q t := by
  intros; simp only [exec_countReceive, done]; refine ⟨_, rfl, ?_⟩
  repeat' with_reducible first
    | assumption | apply finish_kept | apply arrive_kept | apply Kept.whenRunning | intro _
    | apply receiveSpire_kept
theorem exec_settleExpiry_kept {q s} (h : Kept q s) : ∃ t, exec .settleExpiry s = .next t ∧ Kept q t := by
  simp only [exec_settleExpiry, done]; refine ⟨_, rfl, ?_⟩
  repeat' with_reducible first
    | assumption | apply finish_kept | apply inTurn_kept | apply Kept.whenRunning | intro _
    | apply settleExpiry_kept
theorem exec_commitSend_kept {q s} (h : Kept q s) : ∃ t, exec .commitSend s = .next t ∧ Kept q t := by
  simp only [exec_commitSend, done]; refine ⟨_, rfl, ?_⟩
  repeat' with_reducible first
    | assumption | apply finish_kept | apply inTurn_kept | apply Kept.whenRunning | intro _ | apply commitOut_kept
theorem exec_commitReceive_kept {q s} (h : Kept q s) :
    ∀ line bytes back dt, ∃ t, exec (.commitReceive line bytes back dt) s = .next t ∧ Kept q t := by
  intros; simp only [exec_commitReceive, done]; refine ⟨_, rfl, ?_⟩
  repeat' with_reducible first
    | assumption | apply finish_kept | apply arrive_kept | apply Kept.whenRunning | intro _
    | apply receiveSpire_kept
theorem exec_commitForward_kept {q s} (h : Kept q s) : ∃ t, exec .commitForward s = .next t ∧ Kept q t := by
  simp only [exec_commitForward, done]; refine ⟨_, rfl, ?_⟩
  repeat' with_reducible first
    | assumption | apply finish_kept | apply inTurn_kept | apply Kept.whenRunning | intro _ | apply commitOut_kept
theorem exec_waitTimeout_kept {q s} (h : Kept q s) : ∃ t, exec .waitTimeout s = .next t ∧ Kept q t := by
  simp only [exec_waitTimeout, done]; refine ⟨_, rfl, ?_⟩
  repeat' with_reducible first
    | assumption | apply finish_kept | apply inTurn_kept | apply Kept.whenRunning | intro _ | apply waitTimeout_kept
theorem exec_switchInstant_kept {q s} (h : Kept q s) : ∃ t, exec .switchInstant s = .next t ∧ Kept q t := by
  simp only [exec_switchInstant, done]; refine ⟨_, rfl, ?_⟩
  repeat' with_reducible first
    | assumption | apply finish_kept | apply inTurn_kept | apply Kept.whenRunning | intro _
    | apply switchInstant_kept
theorem exec_backoffExpiry_kept {q s} (h : Kept q s) : ∃ t, exec .backoffExpiry s = .next t ∧ Kept q t := by
  simp only [exec_backoffExpiry, done]; refine ⟨_, rfl, ?_⟩
  repeat' with_reducible first
    | assumption | apply finish_kept | apply inTurn_kept | apply Kept.whenRunning | intro _
    | apply backoffExpiry_kept
theorem exec_leadInputChange_kept {q s} (h : Kept q s) :
    ∀ level dt, ∃ t, exec (.leadInputChange level dt) s = .next t ∧ Kept q t := by
  intros; simp only [exec_leadInputChange, done]; refine ⟨_, rfl, ?_⟩
  repeat' with_reducible first
    | assumption | apply finish_kept | apply arrive_kept | intro _ | apply leadInput_kept
theorem exec_leadFilterAccept_kept {q s} (h : Kept q s) : ∃ t, exec .leadFilterAccept s = .next t ∧ Kept q t := by
  simp only [exec_leadFilterAccept, done]; refine ⟨_, rfl, ?_⟩
  repeat' with_reducible first
    | assumption | apply finish_kept | apply inTurn_kept | apply Kept.whenAlive | intro _ | apply leadAccept_kept
theorem exec_compatHelloSend_kept {q s} (h : Kept q s) : ∃ t, exec .compatHelloSend s = .next t ∧ Kept q t := by
  simp only [exec_compatHelloSend, done]; refine ⟨_, rfl, ?_⟩
  repeat' with_reducible first
    | assumption | apply finish_kept | apply inTurn_kept | apply Kept.whenRunning | intro _ | apply helloSend_kept
theorem exec_compatHelloReceive_kept {q s} (h : Kept q s) :
    ∀ line bytes dt, ∃ t, exec (.compatHelloReceive line bytes dt) s = .next t ∧ Kept q t := by
  intros; simp only [exec_compatHelloReceive, done]; refine ⟨_, rfl, ?_⟩
  repeat' with_reducible first
    | assumption | apply finish_kept | apply arrive_kept | apply Kept.whenRunning | intro _
    | apply receiveHello_kept
theorem exec_compatHelloTimeout_kept {q s} (h : Kept q s) :
    ∀ line, ∃ t, exec (.compatHelloTimeout line) s = .next t ∧ Kept q t := by
  intros; simp only [exec_compatHelloTimeout, done]; refine ⟨_, rfl, ?_⟩
  repeat' with_reducible first
    | assumption | apply finish_kept | apply inTurn_kept | apply Kept.whenRunning | intro _
    | apply helloTimeout_kept
theorem exec_topologyReceive_kept {q s} (h : Kept q s) :
    ∀ line bytes back dt, ∃ t, exec (.topologyReceive line bytes back dt) s = .next t ∧ Kept q t := by
  intros; simp only [exec_topologyReceive, done]; refine ⟨_, rfl, ?_⟩
  repeat' with_reducible first
    | assumption | apply finish_kept | apply arrive_kept | apply Kept.whenRunning | intro _
    | apply takeTopology_kept
theorem exec_compatCommit_kept {q s} (h : Kept q s) : ∀ v dt, ∃ t, exec (.compatCommit v dt) s = .next t ∧ Kept q t := by
  intros; simp only [exec_compatCommit, done]; refine ⟨_, rfl, ?_⟩
  repeat' with_reducible first
    | assumption | apply finish_kept | apply arrive_kept | apply Kept.whenHost | intro _ | apply busWrite_kept
theorem exec_compatHoldExpiry_kept {q s} (h : Kept q s) : ∃ t, exec .compatHoldExpiry s = .next t ∧ Kept q t := by
  simp only [exec_compatHoldExpiry, done]; refine ⟨_, rfl, ?_⟩
  repeat' with_reducible first
    | assumption | apply finish_kept | apply inTurn_kept | apply Kept.whenRunning | intro _ | apply holdExpiry_kept
theorem exec_rosterSend_kept {q s} (h : Kept q s) : ∀ dir, ∃ t, exec (.rosterSend dir) s = .next t ∧ Kept q t := by
  intros; simp only [exec_rosterSend, done]; refine ⟨_, rfl, ?_⟩
  repeat' with_reducible first
    | assumption | apply finish_kept | apply inTurn_kept | apply Kept.whenRunning | intro _ | apply sendRoster_kept
theorem exec_rosterReceive_kept {q s} (h : Kept q s) :
    ∀ line bytes dt, ∃ t, exec (.rosterReceive line bytes dt) s = .next t ∧ Kept q t := by
  intros; simp only [exec_rosterReceive, done]; refine ⟨_, rfl, ?_⟩
  repeat' with_reducible first
    | assumption | apply finish_kept | apply arrive_kept | apply Kept.whenRunning | intro _
    | apply receiveRoster_kept
theorem exec_graceExpiry_kept {q s} (h : Kept q s) : ∃ t, exec .graceExpiry s = .next t ∧ Kept q t := by
  simp only [exec_graceExpiry, done]; refine ⟨_, rfl, ?_⟩
  repeat' with_reducible first
    | assumption | apply finish_kept | apply inTurn_kept | apply Kept.whenRunning | intro _ | apply graceExpiry_kept
theorem exec_graceRewrite_kept {q s} (h : Kept q s) : ∀ v dt, ∃ t, exec (.graceRewrite v dt) s = .next t ∧ Kept q t := by
  intros; simp only [exec_graceRewrite, done]; refine ⟨_, rfl, ?_⟩
  repeat' with_reducible first
    | assumption | apply finish_kept | apply arrive_kept | apply Kept.whenHost | intro _ | apply busWrite_kept
theorem exec_admissionPoint_kept {q s} (h : Kept q s) :
    ∀ port bytes len back dt, ∃ t, exec (.admissionPoint port bytes len back dt) s = .next t ∧ Kept q t := by
  intros; simp only [exec_admissionPoint, done]; refine ⟨_, rfl, ?_⟩
  repeat' with_reducible first
    | assumption | apply finish_kept | apply arrive_kept | apply Kept.whenRunning | intro _
    | apply admissionPoint_kept
theorem exec_cellWrite_kept {q s} (h : Kept q s) :
    ∀ port bytes dt, ∃ t, exec (.cellWrite port bytes dt) s = .next t ∧ Kept q t := by
  intros; simp only [exec_cellWrite, done]; refine ⟨_, rfl, ?_⟩
  repeat' with_reducible first
    | assumption | apply finish_kept | apply arrive_kept | apply Kept.whenRunning | intro _ | apply cellWrite_kept
theorem exec_frameEnd_kept {q s} (h : Kept q s) :
    ∀ port bytes err frags dt, ∃ t, exec (.frameEnd port bytes err frags dt) s = .next t ∧ Kept q t := by
  intros; simp only [exec_frameEnd, done]; refine ⟨_, rfl, ?_⟩
  repeat' with_reducible first
    | assumption | apply finish_kept | apply arrive_kept | apply Kept.whenRunning | intro _ | apply frameEnd_kept
theorem exec_learn_kept {q s} (h : Kept q s) : ∃ t, exec .learn s = .next t ∧ Kept q t := by
  simp only [exec_learn, done]; refine ⟨_, rfl, ?_⟩
  repeat' with_reducible first
    | assumption | apply finish_kept | apply inTurn_kept | apply Kept.whenRunning | intro _ | apply learnStep_kept
theorem exec_ageingSweep_kept {q s} (h : Kept q s) : ∃ t, exec .ageingSweep s = .next t ∧ Kept q t := by
  simp only [exec_ageingSweep, done]; refine ⟨_, rfl, ?_⟩
  repeat' with_reducible first
    | assumption | apply finish_kept | apply inTurn_kept | apply Kept.whenRunning | intro _ | apply ageingSweep_kept
theorem exec_cellTime_kept {q s} (h : Kept q s) : ∃ t, exec .cellTime s = .next t ∧ Kept q t := by
  simp only [exec_cellTime, done]; refine ⟨_, rfl, ?_⟩
  repeat' with_reducible first
    | assumption | apply finish_kept | apply inTurn_kept | apply Kept.whenRunning | intro _ | apply cellTime_kept
theorem exec_txFrameStart_kept {q s} (h : Kept q s) :
    ∀ port dt, ∃ t, exec (.txFrameStart port dt) s = .next t ∧ Kept q t := by
  intros; simp only [exec_txFrameStart, done]; refine ⟨_, rfl, ?_⟩
  repeat' with_reducible first
    | assumption | apply finish_kept | apply arrive_kept | apply Kept.whenRunning | intro _
    | apply txFrameStart_kept
theorem exec_preemption_kept {q s} (h : Kept q s) :
    ∀ line sent dt, ∃ t, exec (.preemption line sent dt) s = .next t ∧ Kept q t := by
  intros; simp only [exec_preemption, done]; refine ⟨_, rfl, ?_⟩
  repeat' with_reducible first
    | assumption | apply finish_kept | apply arrive_kept | apply Kept.whenRunning | intro _ | apply preempt_kept
theorem exec_txFrameEnd_kept {q s} (h : Kept q s) : ∀ port dt, ∃ t, exec (.txFrameEnd port dt) s = .next t ∧ Kept q t := by
  intros; simp only [exec_txFrameEnd, done]; refine ⟨_, rfl, ?_⟩
  repeat' with_reducible first
    | assumption | apply finish_kept | apply arrive_kept | apply Kept.whenRunning | intro _ | apply txFrameEnd_kept
theorem exec_revertStart_kept {q s} (h : Kept q s) : ∀ dir, ∃ t, exec (.revertStart dir) s = .next t ∧ Kept q t := by
  intros; simp only [exec_revertStart, done]; refine ⟨_, rfl, ?_⟩
  repeat' with_reducible first
    | assumption | apply finish_kept | apply inTurn_kept | apply Kept.whenRunning | intro _ | apply revertStart_kept
theorem exec_revertDrainMax_kept {q s} (h : Kept q s) :
    ∀ dir cls, ∃ t, exec (.revertDrainMax dir cls) s = .next t ∧ Kept q t := by
  intros; simp only [exec_revertDrainMax, done]; refine ⟨_, rfl, ?_⟩
  repeat' with_reducible first
    | assumption | apply finish_kept | apply inTurn_kept | apply Kept.whenRunning | intro _ | apply revertForce_kept
theorem exec_revertEnable_kept {q s} (h : Kept q s) : ∀ v dt, ∃ t, exec (.revertEnable v dt) s = .next t ∧ Kept q t := by
  intros; simp only [exec_revertEnable, done]; refine ⟨_, rfl, ?_⟩
  repeat' with_reducible first
    | assumption | apply finish_kept | apply arrive_kept | apply Kept.whenHost | intro _ | apply busWrite_kept
theorem exec_fdbNop_kept {q s} (h : Kept q s) : ∀ v dt, ∃ t, exec (.fdbNop v dt) s = .next t ∧ Kept q t := by
  intros; simp only [exec_fdbNop, done]; refine ⟨_, rfl, ?_⟩
  repeat' with_reducible first
    | assumption | apply finish_kept | apply arrive_kept | apply Kept.whenHost | intro _ | apply busWrite_kept
theorem exec_fdbLookup_kept {q s} (h : Kept q s) : ∀ v dt, ∃ t, exec (.fdbLookup v dt) s = .next t ∧ Kept q t := by
  intros; simp only [exec_fdbLookup, done]; refine ⟨_, rfl, ?_⟩
  repeat' with_reducible first
    | assumption | apply finish_kept | apply arrive_kept | apply Kept.whenHost | intro _ | apply busWrite_kept
theorem exec_fdbInsert_kept {q s} (h : Kept q s) : ∀ v dt, ∃ t, exec (.fdbInsert v dt) s = .next t ∧ Kept q t := by
  intros; simp only [exec_fdbInsert, done]; refine ⟨_, rfl, ?_⟩
  repeat' with_reducible first
    | assumption | apply finish_kept | apply arrive_kept | apply Kept.whenHost | intro _ | apply busWrite_kept
theorem exec_fdbDelete_kept {q s} (h : Kept q s) : ∀ v dt, ∃ t, exec (.fdbDelete v dt) s = .next t ∧ Kept q t := by
  intros; simp only [exec_fdbDelete, done]; refine ⟨_, rfl, ?_⟩
  repeat' with_reducible first
    | assumption | apply finish_kept | apply arrive_kept | apply Kept.whenHost | intro _ | apply busWrite_kept
theorem exec_fdbFlush_kept {q s} (h : Kept q s) : ∀ v dt, ∃ t, exec (.fdbFlush v dt) s = .next t ∧ Kept q t := by
  intros; simp only [exec_fdbFlush, done]; refine ⟨_, rfl, ?_⟩
  repeat' with_reducible first
    | assumption | apply finish_kept | apply arrive_kept | apply Kept.whenHost | intro _ | apply busWrite_kept
theorem exec_fdbRead_kept {q s} (h : Kept q s) : ∀ v dt, ∃ t, exec (.fdbRead v dt) s = .next t ∧ Kept q t := by
  intros; simp only [exec_fdbRead, done]; refine ⟨_, rfl, ?_⟩
  repeat' with_reducible first
    | assumption | apply finish_kept | apply arrive_kept | apply Kept.whenHost | intro _ | apply busWrite_kept
theorem exec_fdbCommandDone_kept {q s} (h : Kept q s) : ∃ t, exec .fdbCommandDone s = .next t ∧ Kept q t := by
  simp only [exec_fdbCommandDone, done]; refine ⟨_, rfl, ?_⟩
  repeat' with_reducible first
    | assumption | apply finish_kept | apply inTurn_kept | apply Kept.whenRunning | intro _ | apply fdbDone_kept
theorem exec_edgeLinkChange_kept {q s} (h : Kept q s) :
    ∀ port up speed full dt, ∃ t, exec (.edgeLinkChange port up speed full dt) s = .next t ∧ Kept q t := by
  intros; simp only [exec_edgeLinkChange, done]; refine ⟨_, rfl, ?_⟩
  repeat' with_reducible first
    | assumption | apply finish_kept | apply arrive_kept | apply Kept.whenRunning | intro _ | apply edgeLink_kept
theorem exec_pauseReceive_kept {q s} (h : Kept q s) :
    ∀ port bytes dt, ∃ t, exec (.pauseReceive port bytes dt) s = .next t ∧ Kept q t := by
  intros; simp only [exec_pauseReceive, done]; refine ⟨_, rfl, ?_⟩
  repeat' with_reducible first
    | assumption | apply finish_kept | apply arrive_kept | apply Kept.whenRunning | intro _
    | apply pauseReceive_kept
theorem exec_pauseExpiry_kept {q s} (h : Kept q s) :
    ∀ port cls, ∃ t, exec (.pauseExpiry port cls) s = .next t ∧ Kept q t := by
  intros; simp only [exec_pauseExpiry, done]; refine ⟨_, rfl, ?_⟩
  repeat' with_reducible first
    | assumption | apply finish_kept | apply inTurn_kept | apply Kept.whenRunning | intro _ | apply pauseExpiry_kept
theorem exec_flowControlFrame_kept {q s} (h : Kept q s) :
    ∀ port, ∃ t, exec (.flowControlFrame port) s = .next t ∧ Kept q t := by
  intros; simp only [exec_flowControlFrame, done]; refine ⟨_, rfl, ?_⟩
  repeat' with_reducible first
    | assumption | apply finish_kept | apply inTurn_kept | apply Kept.whenRunning | intro _
    | apply flowControlFrame_kept
theorem exec_fcRefresh_kept {q s} (h : Kept q s) : ∀ port, ∃ t, exec (.fcRefresh port) s = .next t ∧ Kept q t := by
  intros; simp only [exec_fcRefresh, done]; refine ⟨_, rfl, ?_⟩
  repeat' with_reducible first
    | assumption | apply finish_kept | apply inTurn_kept | apply Kept.whenRunning | intro _ | apply fcRefresh_kept
theorem exec_collision_kept {q s} (h : Kept q s) : ∀ port dt, ∃ t, exec (.collision port dt) s = .next t ∧ Kept q t := by
  intros; simp only [exec_collision, done]; refine ⟨_, rfl, ?_⟩
  repeat' with_reducible first
    | assumption | apply finish_kept | apply arrive_kept | apply Kept.whenRunning | intro _ | apply collision_kept
theorem exec_hdBackoffExpiry_kept {q s} (h : Kept q s) :
    ∀ port, ∃ t, exec (.hdBackoffExpiry port) s = .next t ∧ Kept q t := by
  intros; simp only [exec_hdBackoffExpiry, done]; refine ⟨_, rfl, ?_⟩
  repeat' with_reducible first
    | assumption | apply finish_kept | apply inTurn_kept | apply Kept.whenRunning | intro _ | apply backoffDone_kept
theorem exec_verifySend_kept {q s} (h : Kept q s) : ∀ line, ∃ t, exec (.verifySend line) s = .next t ∧ Kept q t := by
  intros; simp only [exec_verifySend, done]; refine ⟨_, rfl, ?_⟩
  repeat' with_reducible first
    | assumption | apply finish_kept | apply inTurn_kept | apply Kept.whenRunning | intro _ | apply verifySend_kept
theorem exec_verifyResponse_kept {q s} (h : Kept q s) :
    ∀ line dt, ∃ t, exec (.verifyResponse line dt) s = .next t ∧ Kept q t := by
  intros; simp only [exec_verifyResponse, done]; refine ⟨_, rfl, ?_⟩
  repeat' with_reducible first
    | assumption | apply finish_kept | apply arrive_kept | apply Kept.whenRunning | intro _
    | apply verifyResponse_kept
theorem exec_preemptConfigWrite_kept {q s} (h : Kept q s) :
    ∀ line v dt, ∃ t, exec (.preemptConfigWrite line v dt) s = .next t ∧ Kept q t := by
  intros; simp only [exec_preemptConfigWrite, done]; refine ⟨_, rfl, ?_⟩
  repeat' with_reducible first
    | assumption | apply finish_kept | apply arrive_kept | apply Kept.whenHost | intro _ | apply busWrite_kept
theorem exec_drainExpiry_kept {q s} (h : Kept q s) : ∀ port, ∃ t, exec (.drainExpiry port) s = .next t ∧ Kept q t := by
  intros; simp only [exec_drainExpiry, done]; refine ⟨_, rfl, ?_⟩
  repeat' with_reducible first
    | assumption | apply finish_kept | apply inTurn_kept | apply Kept.whenRunning | intro _ | apply drainExpiry_kept
theorem exec_drainRewrite_kept {q s} (h : Kept q s) :
    ∀ port v dt, ∃ t, exec (.drainRewrite port v dt) s = .next t ∧ Kept q t := by
  intros; simp only [exec_drainRewrite, done]; refine ⟨_, rfl, ?_⟩
  repeat' with_reducible first
    | assumption | apply finish_kept | apply arrive_kept | apply Kept.whenHost | intro _ | apply busWrite_kept
theorem exec_mstClear_kept {q s} (h : Kept q s) : ∀ v dt, ∃ t, exec (.mstClear v dt) s = .next t ∧ Kept q t := by
  intros; simp only [exec_mstClear, done]; refine ⟨_, rfl, ?_⟩
  repeat' with_reducible first
    | assumption | apply finish_kept | apply arrive_kept | apply Kept.whenHost | intro _ | apply busWrite_kept
theorem exec_syncSend_kept {q s} (h : Kept q s) : ∃ t, exec .syncSend s = .next t ∧ Kept q t := by
  simp only [exec_syncSend, done]; refine ⟨_, rfl, ?_⟩
  repeat' with_reducible first
    | assumption | apply finish_kept | apply inTurn_kept | apply Kept.whenRunning | intro _ | apply syncSend_kept
theorem exec_syncReceive_kept {q s} (h : Kept q s) :
    ∀ line bytes back dt, ∃ t, exec (.syncReceive line bytes back dt) s = .next t ∧ Kept q t := by
  intros; simp only [exec_syncReceive, done]; refine ⟨_, rfl, ?_⟩
  repeat' with_reducible first
    | assumption | apply finish_kept | apply arrive_kept | apply Kept.whenRunning | intro _ | apply receiveSync_kept
theorem exec_slewEnd_kept {q s} (h : Kept q s) : ∃ t, exec .slewEnd s = .next t ∧ Kept q t := by
  simp only [exec_slewEnd, done]; refine ⟨_, rfl, ?_⟩
  repeat' with_reducible first
    | assumption | apply finish_kept | apply inTurn_kept | apply Kept.whenAlive | intro _ | apply slewEnd_kept
theorem exec_syncTimeout_kept {q s} (h : Kept q s) : ∃ t, exec .syncTimeout s = .next t ∧ Kept q t := by
  simp only [exec_syncTimeout, done]; refine ⟨_, rfl, ?_⟩
  repeat' with_reducible first
    | assumption | apply finish_kept | apply inTurn_kept | apply Kept.whenRunning | intro _ | apply syncTimeout_kept
theorem exec_timeAdjust_kept {q s} (h : Kept q s) : ∀ v dt, ∃ t, exec (.timeAdjust v dt) s = .next t ∧ Kept q t := by
  intros; simp only [exec_timeAdjust, done]; refine ⟨_, rfl, ?_⟩
  repeat' with_reducible first
    | assumption | apply finish_kept | apply arrive_kept | apply Kept.whenHost | intro _ | apply busWrite_kept
theorem exec_rateWrite_kept {q s} (h : Kept q s) : ∀ v dt, ∃ t, exec (.rateWrite v dt) s = .next t ∧ Kept q t := by
  intros; simp only [exec_rateWrite, done]; refine ⟨_, rfl, ?_⟩
  repeat' with_reducible first
    | assumption | apply finish_kept | apply arrive_kept | apply Kept.whenHost | intro _ | apply busWrite_kept
theorem exec_permitGrant_kept {q s} (h : Kept q s) : ∀ v dt, ∃ t, exec (.permitGrant v dt) s = .next t ∧ Kept q t := by
  intros; simp only [exec_permitGrant, done]; refine ⟨_, rfl, ?_⟩
  repeat' with_reducible first
    | assumption | apply finish_kept | apply arrive_kept | apply Kept.whenHost | intro _ | apply busWrite_kept
theorem exec_permitLapse_kept {q s} (h : Kept q s) : ∃ t, exec .permitLapse s = .next t ∧ Kept q t := by
  simp only [exec_permitLapse, done]; refine ⟨_, rfl, ?_⟩
  repeat' with_reducible first
    | assumption | apply finish_kept | apply inTurn_kept | apply Kept.whenAlive | intro _ | apply permitLapse_kept
theorem exec_addendWrite_kept {q s} (h : Kept q s) : ∀ v dt, ∃ t, exec (.addendWrite v dt) s = .next t ∧ Kept q t := by
  intros; simp only [exec_addendWrite, done]; refine ⟨_, rfl, ?_⟩
  repeat' with_reducible first
    | assumption | apply finish_kept | apply arrive_kept | apply Kept.whenHost | intro _ | apply busWrite_kept
theorem exec_mergeTimeout_kept {q s} (h : Kept q s) : ∃ t, exec .mergeTimeout s = .next t ∧ Kept q t := by
  simp only [exec_mergeTimeout, done]; refine ⟨_, rfl, ?_⟩
  repeat' with_reducible first
    | assumption | apply finish_kept | apply inTurn_kept | apply Kept.whenRunning | intro _
    | apply mergeTimeout_kept
theorem exec_mergeWaitExpiry_kept {q s} (h : Kept q s) : ∃ t, exec .mergeWaitExpiry s = .next t ∧ Kept q t := by
  simp only [exec_mergeWaitExpiry, done]; refine ⟨_, rfl, ?_⟩
  repeat' with_reducible first
    | assumption | apply finish_kept | apply inTurn_kept | apply Kept.whenRunning | intro _
    | apply mergeWaitExpiry_kept
theorem exec_correlationLatch_kept {q s} (h : Kept q s) :
    ∀ v dt, ∃ t, exec (.correlationLatch v dt) s = .next t ∧ Kept q t := by
  intros; simp only [exec_correlationLatch, done]; refine ⟨_, rfl, ?_⟩
  repeat' with_reducible first
    | assumption | apply finish_kept | apply arrive_kept | apply Kept.whenHost | intro _ | apply busWrite_kept
theorem exec_syncPinCapture_kept {q s} (h : Kept q s) :
    ∀ pin level dt, ∃ t, exec (.syncPinCapture pin level dt) s = .next t ∧ Kept q t := by
  intros; simp only [exec_syncPinCapture, done]; refine ⟨_, rfl, ?_⟩
  repeat' with_reducible first
    | assumption | apply finish_kept | apply arrive_kept | intro _ | apply syncPinIn_kept
theorem exec_syncCapturePop_kept {q s} (h : Kept q s) :
    ∀ pin dt, ∃ t, exec (.syncCapturePop pin dt) s = .next t ∧ Kept q t := by
  intros; simp only [exec_syncCapturePop, done]; refine ⟨_, rfl, ?_⟩
  repeat' with_reducible first
    | assumption | apply finish_kept | apply arrive_kept | apply Kept.whenHost | intro _ | apply busRead_kept
theorem exec_ppsPulse_kept {q s} (h : Kept q s) : ∀ pin, ∃ t, exec (.ppsPulse pin) s = .next t ∧ Kept q t := by
  intros; simp only [exec_ppsPulse, done]; refine ⟨_, rfl, ?_⟩
  repeat' with_reducible first
    | assumption | apply finish_kept | apply inTurn_kept | apply Kept.whenRunning | intro _ | apply ppsPulse_kept
theorem exec_ppsEnd_kept {q s} (h : Kept q s) : ∀ pin, ∃ t, exec (.ppsEnd pin) s = .next t ∧ Kept q t := by
  intros; simp only [exec_ppsEnd, done]; refine ⟨_, rfl, ?_⟩
  repeat' with_reducible first
    | assumption | apply finish_kept | apply inTurn_kept | apply Kept.whenRunning | intro _ | apply ppsEnd_kept
theorem exec_phaseReference_kept {q s} (h : Kept q s) :
    ∀ dom kind dt, ∃ t, exec (.phaseReference dom kind dt) s = .next t ∧ Kept q t := by
  intros; simp only [exec_phaseReference, done]; refine ⟨_, rfl, ?_⟩
  repeat' with_reducible first
    | assumption | apply finish_kept | apply arrive_kept | apply Kept.whenRunning | intro _
    | apply phaseReference_kept
theorem exec_referenceMiss_kept {q s} (h : Kept q s) : ∀ dom, ∃ t, exec (.referenceMiss dom) s = .next t ∧ Kept q t := by
  intros; simp only [exec_referenceMiss, done]; refine ⟨_, rfl, ?_⟩
  repeat' with_reducible first
    | assumption | apply finish_kept | apply inTurn_kept | apply Kept.whenRunning | intro _
    | apply referenceMiss_kept
theorem exec_tachStill_kept {q s} (h : Kept q s) : ∀ dom, ∃ t, exec (.tachStill dom) s = .next t ∧ Kept q t := by
  intros; simp only [exec_tachStill, done]; refine ⟨_, rfl, ?_⟩
  repeat' with_reducible first
    | assumption | apply finish_kept | apply inTurn_kept | apply Kept.whenRunning | intro _ | apply tachStill_kept
theorem exec_pd0Limit_kept {q s} (h : Kept q s) : ∃ t, exec .pd0Limit s = .next t ∧ Kept q t := by
  simp only [exec_pd0Limit, done]; refine ⟨_, rfl, ?_⟩
  repeat' with_reducible first
    | assumption | apply finish_kept | apply inTurn_kept | apply Kept.whenRunning | intro _ | apply pd0Limit_kept
theorem exec_phaseOffsetWrite_kept {q s} (h : Kept q s) :
    ∀ dom v dt, ∃ t, exec (.phaseOffsetWrite dom v dt) s = .next t ∧ Kept q t := by
  intros; simp only [exec_phaseOffsetWrite, done]; refine ⟨_, rfl, ?_⟩
  repeat' with_reducible first
    | assumption | apply finish_kept | apply arrive_kept | apply Kept.whenHost | intro _ | apply busWrite_kept
theorem exec_carillonFire_kept {q s} (h : Kept q s) : ∃ t, exec .carillonFire s = .next t ∧ Kept q t := by
  simp only [exec_carillonFire, done]; refine ⟨_, rfl, ?_⟩
  repeat' with_reducible first
    | assumption | apply finish_kept | apply inTurn_kept | apply Kept.whenRunning | intro _
    | apply carillonFire_kept
theorem exec_eventEntryWrite_kept {q s} (h : Kept q s) :
    ∀ ev v dt, ∃ t, exec (.eventEntryWrite ev v dt) s = .next t ∧ Kept q t := by
  intros; simp only [exec_eventEntryWrite, done]; refine ⟨_, rfl, ?_⟩
  repeat' with_reducible first
    | assumption | apply finish_kept | apply arrive_kept | apply Kept.whenHost | intro _ | apply busWrite_kept
theorem exec_canFrameReceive_kept {q s} (h : Kept q s) :
    ∀ ch f len dt, ∃ t, exec (.canFrameReceive ch f len dt) s = .next t ∧ Kept q t := by
  intros; simp only [exec_canFrameReceive, done]; refine ⟨_, rfl, ?_⟩
  repeat' with_reducible first
    | assumption | apply finish_kept | apply arrive_kept | apply Kept.whenRunning | intro _ | apply canReceive_kept
theorem exec_canTxRecord_kept {q s} (h : Kept q s) :
    ∀ ring bytes dt, ∃ t, exec (.canTxRecord ring bytes dt) s = .next t ∧ Kept q t := by
  intros; simp only [exec_canTxRecord, done]; refine ⟨_, rfl, ?_⟩
  repeat' with_reducible first
    | assumption | apply finish_kept | apply arrive_kept | apply Kept.whenRunning | intro _ | apply canTxRecord_kept
theorem exec_canArbitration_kept {q s} (h : Kept q s) :
    ∀ ch tdcv dt, ∃ t, exec (.canArbitration ch tdcv dt) s = .next t ∧ Kept q t := by
  intros; simp only [exec_canArbitration, done]; refine ⟨_, rfl, ?_⟩
  repeat' with_reducible first
    | assumption | apply finish_kept | apply arrive_kept | apply Kept.whenRunning | intro _
    | apply canArbitrate_kept
theorem exec_canTxAcknowledged_kept {q s} (h : Kept q s) :
    ∀ ch dt, ∃ t, exec (.canTxAcknowledged ch dt) s = .next t ∧ Kept q t := by
  intros; simp only [exec_canTxAcknowledged, done]; refine ⟨_, rfl, ?_⟩
  repeat' with_reducible first
    | assumption | apply finish_kept | apply arrive_kept | apply Kept.whenRunning | intro _ | apply canAcked_kept
theorem exec_canAckError_kept {q s} (h : Kept q s) :
    ∀ ch dominant dt, ∃ t, exec (.canAckError ch dominant dt) s = .next t ∧ Kept q t := by
  intros; simp only [exec_canAckError, done]; refine ⟨_, rfl, ?_⟩
  repeat' with_reducible first
    | assumption | apply finish_kept | apply arrive_kept | apply Kept.whenRunning | intro _ | apply canAckError_kept
theorem exec_lonelyRetry_kept {q s} (h : Kept q s) : ∀ ch, ∃ t, exec (.lonelyRetry ch) s = .next t ∧ Kept q t := by
  intros; simp only [exec_lonelyRetry, done]; refine ⟨_, rfl, ?_⟩
  repeat' with_reducible first
    | assumption | apply finish_kept | apply inTurn_kept | apply Kept.whenRunning | intro _ | apply lonelyRetry_kept
theorem exec_canBusError_kept {q s} (h : Kept q s) :
    ∀ ch kind transmitting flag dt, ∃ t, exec (.canBusError ch kind transmitting flag dt) s = .next t ∧ Kept q t := by
  intros; simp only [exec_canBusError, done]; refine ⟨_, rfl, ?_⟩
  repeat' with_reducible first
    | assumption | apply finish_kept | apply arrive_kept | apply Kept.whenRunning | intro _ | apply canBusError_kept
theorem exec_canRecover_kept {q s} (h : Kept q s) : ∀ ch v dt, ∃ t, exec (.canRecover ch v dt) s = .next t ∧ Kept q t := by
  intros; simp only [exec_canRecover, done]; refine ⟨_, rfl, ?_⟩
  repeat' with_reducible first
    | assumption | apply finish_kept | apply arrive_kept | apply Kept.whenHost | intro _ | apply busWrite_kept
theorem exec_canRecoveryDone_kept {q s} (h : Kept q s) : ∀ ch, ∃ t, exec (.canRecoveryDone ch) s = .next t ∧ Kept q t := by
  intros; simp only [exec_canRecoveryDone, done]; refine ⟨_, rfl, ?_⟩
  repeat' with_reducible first
    | assumption | apply finish_kept | apply inTurn_kept | apply Kept.whenRunning | intro _
    | apply canRecovered_kept
theorem exec_ttTxTrigger_kept {q s} (h : Kept q s) : ∀ trig, ∃ t, exec (.ttTxTrigger trig) s = .next t ∧ Kept q t := by
  intros; simp only [exec_ttTxTrigger, done]; refine ⟨_, rfl, ?_⟩
  repeat' with_reducible first
    | assumption | apply finish_kept | apply inTurn_kept | apply Kept.whenRunning | intro _ | apply ttTx_kept
theorem exec_ttWindowEnd_kept {q s} (h : Kept q s) : ∃ t, exec .ttWindowEnd s = .next t ∧ Kept q t := by
  simp only [exec_ttWindowEnd, done]; refine ⟨_, rfl, ?_⟩
  repeat' with_reducible first
    | assumption | apply finish_kept | apply inTurn_kept | apply Kept.whenRunning | intro _ | apply ttWindowEnd_kept
theorem exec_ttRxTrigger_kept {q s} (h : Kept q s) : ∀ trig, ∃ t, exec (.ttRxTrigger trig) s = .next t ∧ Kept q t := by
  intros; simp only [exec_ttRxTrigger, done]; refine ⟨_, rfl, ?_⟩
  repeat' with_reducible first
    | assumption | apply finish_kept | apply inTurn_kept | apply Kept.whenRunning | intro _ | apply ttRx_kept
theorem exec_ttArbTrigger_kept {q s} (h : Kept q s) : ∀ trig, ∃ t, exec (.ttArbTrigger trig) s = .next t ∧ Kept q t := by
  intros; simp only [exec_ttArbTrigger, done]; refine ⟨_, rfl, ?_⟩
  repeat' with_reducible first
    | assumption | apply finish_kept | apply inTurn_kept | apply Kept.whenRunning | intro _ | apply ttArb_kept
theorem exec_ttRefTrigger_kept {q s} (h : Kept q s) : ∀ trig, ∃ t, exec (.ttRefTrigger trig) s = .next t ∧ Kept q t := by
  intros; simp only [exec_ttRefTrigger, done]; refine ⟨_, rfl, ?_⟩
  repeat' with_reducible first
    | assumption | apply finish_kept | apply inTurn_kept | apply Kept.whenRunning | intro _ | apply ttRef_kept
theorem exec_ttWatchTrigger_kept {q s} (h : Kept q s) : ∀ trig, ∃ t, exec (.ttWatchTrigger trig) s = .next t ∧ Kept q t := by
  intros; simp only [exec_ttWatchTrigger, done]; refine ⟨_, rfl, ?_⟩
  repeat' with_reducible first
    | assumption | apply finish_kept | apply inTurn_kept | apply Kept.whenRunning | intro _ | apply ttWatch_kept
theorem exec_mailboxLoad_kept {q s} (h : Kept q s) :
    ∀ ring bytes dt, ∃ t, exec (.mailboxLoad ring bytes dt) s = .next t ∧ Kept q t := by
  intros; simp only [exec_mailboxLoad, done]; refine ⟨_, rfl, ?_⟩
  repeat' with_reducible first
    | assumption | apply finish_kept | apply arrive_kept | apply Kept.whenRunning | intro _ | apply mailboxLoad_kept
theorem exec_filEthFrame_kept {q s} (h : Kept q s) : ∃ t, exec .filEthFrame s = .next t ∧ Kept q t := by
  simp only [exec_filEthFrame, done]; refine ⟨_, rfl, ?_⟩
  repeat' with_reducible first
    | assumption | apply finish_kept | apply inTurn_kept | apply Kept.whenRunning | intro _ | apply filEthFrame_kept
theorem exec_statusSample_kept {q s} (h : Kept q s) : ∃ t, exec .statusSample s = .next t ∧ Kept q t := by
  simp only [exec_statusSample, done]; refine ⟨_, rfl, ?_⟩
  repeat' with_reducible first
    | assumption | apply finish_kept | apply inTurn_kept | apply Kept.whenRunning | intro _
    | apply statusSample_kept
theorem exec_hostWordWrite_kept {q s} (h : Kept q s) :
    ∀ k v dt, ∃ t, exec (.hostWordWrite k v dt) s = .next t ∧ Kept q t := by
  intros; simp only [exec_hostWordWrite, done]; refine ⟨_, rfl, ?_⟩
  repeat' with_reducible first
    | assumption | apply finish_kept | apply arrive_kept | apply Kept.whenHost | intro _ | apply busWrite_kept
theorem exec_sourceJob_kept {q s} (h : Kept q s) : ∃ t, exec .sourceJob s = .next t ∧ Kept q t := by
  simp only [exec_sourceJob, done]; refine ⟨_, rfl, ?_⟩
  repeat' with_reducible first
    | assumption | apply finish_kept | apply inTurn_kept | apply Kept.whenRunning | intro _ | apply sourceJob_kept
theorem exec_changeEmissionDue_kept {q s} (h : Kept q s) :
    ∀ tpl, ∃ t, exec (.changeEmissionDue tpl) s = .next t ∧ Kept q t := by
  intros; simp only [exec_changeEmissionDue, done]; refine ⟨_, rfl, ?_⟩
  repeat' with_reducible first
    | assumption | apply finish_kept | apply inTurn_kept | apply Kept.whenRunning | intro _ | apply changeDue_kept
theorem exec_emission_kept {q s} (h : Kept q s) : ∃ t, exec .emission s = .next t ∧ Kept q t := by
  simp only [exec_emission, done]; refine ⟨_, rfl, ?_⟩
  repeat' with_reducible first
    | assumption | apply finish_kept | apply inTurn_kept | apply Kept.whenRunning | intro _ | apply emission_kept
theorem exec_filHold_kept {q s} (h : Kept q s) : ∀ v dt, ∃ t, exec (.filHold v dt) s = .next t ∧ Kept q t := by
  intros; simp only [exec_filHold, done]; refine ⟨_, rfl, ?_⟩
  repeat' with_reducible first
    | assumption | apply finish_kept | apply arrive_kept | apply Kept.whenHost | intro _ | apply busWrite_kept
theorem exec_filRelease_kept {q s} (h : Kept q s) : ∀ v dt, ∃ t, exec (.filRelease v dt) s = .next t ∧ Kept q t := by
  intros; simp only [exec_filRelease, done]; refine ⟨_, rfl, ?_⟩
  repeat' with_reducible first
    | assumption | apply finish_kept | apply arrive_kept | apply Kept.whenHost | intro _ | apply busWrite_kept
theorem exec_senseSample_kept {q s} (h : Kept q s) :
    ∀ inp bits dt, ∃ t, exec (.senseSample inp bits dt) s = .next t ∧ Kept q t := by
  intros; simp only [exec_senseSample, done]; refine ⟨_, rfl, ?_⟩
  repeat' with_reducible first
    | assumption | apply finish_kept | apply arrive_kept | apply Kept.whenRunning | intro _ | apply senseSample_kept
theorem exec_inputStuck_kept {q s} (h : Kept q s) :
    ∀ inp level dt, ∃ t, exec (.inputStuck inp level dt) s = .next t ∧ Kept q t := by
  intros; simp only [exec_inputStuck, done]; refine ⟨_, rfl, ?_⟩
  repeat' with_reducible first
    | assumption | apply finish_kept | apply arrive_kept | apply Kept.whenRunning | intro _ | apply inputStuck_kept
theorem exec_hostConvert_kept {q s} (h : Kept q s) : ∀ v dt, ∃ t, exec (.hostConvert v dt) s = .next t ∧ Kept q t := by
  intros; simp only [exec_hostConvert, done]; refine ⟨_, rfl, ?_⟩
  repeat' with_reducible first
    | assumption | apply finish_kept | apply arrive_kept | apply Kept.whenHost | intro _ | apply busWrite_kept
theorem exec_driveLevelWrite_kept {q s} (h : Kept q s) :
    ∀ v dt, ∃ t, exec (.driveLevelWrite v dt) s = .next t ∧ Kept q t := by
  intros; simp only [exec_driveLevelWrite, done]; refine ⟨_, rfl, ?_⟩
  repeat' with_reducible first
    | assumption | apply finish_kept | apply arrive_kept | apply Kept.whenHost | intro _ | apply busWrite_kept
theorem exec_drivePhasePass_kept {q s} (h : Kept q s) : ∀ out, ∃ t, exec (.drivePhasePass out) s = .next t ∧ Kept q t := by
  intros; simp only [exec_drivePhasePass, done]; refine ⟨_, rfl, ?_⟩
  repeat' with_reducible first
    | assumption | apply finish_kept | apply inTurn_kept | apply Kept.whenRunning | intro _ | apply drivePass_kept
theorem exec_readbackDelayEnd_kept {q s} (h : Kept q s) :
    ∀ out, ∃ t, exec (.readbackDelayEnd out) s = .next t ∧ Kept q t := by
  intros; simp only [exec_readbackDelayEnd, done]; refine ⟨_, rfl, ?_⟩
  repeat' with_reducible first
    | assumption | apply finish_kept | apply inTurn_kept | apply Kept.whenRunning | intro _
    | apply readbackStart_kept
theorem exec_readbackFault_kept {q s} (h : Kept q s) : ∀ out, ∃ t, exec (.readbackFault out) s = .next t ∧ Kept q t := by
  intros; simp only [exec_readbackFault, done]; refine ⟨_, rfl, ?_⟩
  repeat' with_reducible first
    | assumption | apply finish_kept | apply inTurn_kept | apply Kept.whenRunning | intro _
    | apply readbackFault_kept
theorem exec_proveWindowOpen_kept {q s} (h : Kept q s) : ∀ out, ∃ t, exec (.proveWindowOpen out) s = .next t ∧ Kept q t := by
  intros; simp only [exec_proveWindowOpen, done]; refine ⟨_, rfl, ?_⟩
  repeat' with_reducible first
    | assumption | apply finish_kept | apply inTurn_kept | apply Kept.whenRunning | intro _ | apply proveOpen_kept
theorem exec_doorbell_kept {q s} (h : Kept q s) : ∀ ring v dt, ∃ t, exec (.doorbell ring v dt) s = .next t ∧ Kept q t := by
  intros; simp only [exec_doorbell, done]; refine ⟨_, rfl, ?_⟩
  repeat' with_reducible first
    | assumption | apply finish_kept | apply arrive_kept | apply Kept.whenHost | intro _
    | apply doorbellArrives_kept
theorem exec_txDescriptorFetch_kept {q s} (h : Kept q s) :
    ∀ ring descs dt, ∃ t, exec (.txDescriptorFetch ring descs dt) s = .next t ∧ Kept q t := by
  intros; simp only [exec_txDescriptorFetch, done]; refine ⟨_, rfl, ?_⟩
  repeat' with_reducible first
    | assumption | apply finish_kept | apply arrive_kept | apply Kept.whenRunning | intro _ | apply txFetched_kept
theorem exec_txDataRead_kept {q s} (h : Kept q s) :
    ∀ ring bytes dt, ∃ t, exec (.txDataRead ring bytes dt) s = .next t ∧ Kept q t := by
  intros; simp only [exec_txDataRead, done]; refine ⟨_, rfl, ?_⟩
  repeat' with_reducible first
    | assumption | apply finish_kept | apply arrive_kept | apply Kept.whenRunning | intro _ | apply txDataRead_kept
theorem exec_ringWrite_kept {q s} (h : Kept q s) : ∃ t, exec .ringWrite s = .next t ∧ Kept q t := by
  simp only [exec_ringWrite, done]; refine ⟨_, rfl, ?_⟩
  repeat' with_reducible first
    | assumption | apply finish_kept | apply inTurn_kept | apply Kept.whenRunning | intro _ | apply ringWrite_kept
theorem exec_stallWaitExpiry_kept {q s} (h : Kept q s) :
    ∀ ring, ∃ t, exec (.stallWaitExpiry ring) s = .next t ∧ Kept q t := by
  intros; simp only [exec_stallWaitExpiry, done]; refine ⟨_, rfl, ?_⟩
  repeat' with_reducible first
    | assumption | apply finish_kept | apply inTurn_kept | apply Kept.whenRunning | intro _ | apply stallExpiry_kept
theorem exec_captureWrite_kept {q s} (h : Kept q s) : ∃ t, exec .captureWrite s = .next t ∧ Kept q t := by
  simp only [exec_captureWrite, done]; refine ⟨_, rfl, ?_⟩
  repeat' with_reducible first
    | assumption | apply finish_kept | apply inTurn_kept | apply Kept.whenRunning | intro _
    | apply captureWrite_kept
theorem exec_moderationTimer_kept {q s} (h : Kept q s) :
    ∀ ring, ∃ t, exec (.moderationTimer ring) s = .next t ∧ Kept q t := by
  intros; simp only [exec_moderationTimer, done]; refine ⟨_, rfl, ?_⟩
  repeat' with_reducible first
    | assumption | apply finish_kept | apply inTurn_kept | apply Kept.whenRunning | intro _
    | apply moderationTimer_kept
theorem exec_msixUnmask_kept {q s} (h : Kept q s) : ∀ vec dt, ∃ t, exec (.msixUnmask vec dt) s = .next t ∧ Kept q t := by
  intros; simp only [exec_msixUnmask, done]; refine ⟨_, rfl, ?_⟩
  repeat' with_reducible first
    | assumption | apply finish_kept | apply arrive_kept | apply Kept.whenHost | intro _ | apply unmaskVectors_kept
theorem exec_miscAck_kept {q s} (h : Kept q s) : ∀ v dt, ∃ t, exec (.miscAck v dt) s = .next t ∧ Kept q t := by
  intros; simp only [exec_miscAck, done]; refine ⟨_, rfl, ?_⟩
  repeat' with_reducible first
    | assumption | apply finish_kept | apply arrive_kept | apply Kept.whenHost | intro _ | apply busWrite_kept
theorem exec_watchdogKick_kept {q s} (h : Kept q s) : ∀ v dt, ∃ t, exec (.watchdogKick v dt) s = .next t ∧ Kept q t := by
  intros; simp only [exec_watchdogKick, done]; refine ⟨_, rfl, ?_⟩
  repeat' with_reducible first
    | assumption | apply finish_kept | apply arrive_kept | apply Kept.whenHost | intro _ | apply wdogKick_kept
theorem exec_watchdogExpiry_kept {q s} (h : Kept q s) : ∃ t, exec .watchdogExpiry s = .next t ∧ Kept q t := by
  simp only [exec_watchdogExpiry, done]; refine ⟨_, rfl, ?_⟩
  repeat' with_reducible first
    | assumption | apply finish_kept | apply inTurn_kept | apply Kept.whenAlive | intro _ | apply wdogExpiry_kept
theorem exec_watchdogConfig_kept {q s} (h : Kept q s) : ∀ v dt, ∃ t, exec (.watchdogConfig v dt) s = .next t ∧ Kept q t := by
  intros; simp only [exec_watchdogConfig, done]; refine ⟨_, rfl, ?_⟩
  repeat' with_reducible first
    | assumption | apply finish_kept | apply arrive_kept | apply Kept.whenHost | intro _ | apply busWrite_kept
theorem exec_hostDmaError_kept {q s} (h : Kept q s) :
    ∀ kind ring addr cpl got dt, ∃ t, exec (.hostDmaError kind ring addr cpl got dt) s = .next t ∧ Kept q t := by
  intros; simp only [exec_hostDmaError, done]; refine ⟨_, rfl, ?_⟩
  repeat' with_reducible first
    | assumption | apply finish_kept | apply arrive_kept | apply Kept.whenAlive | intro _
    | apply memoryRequestError_kept
theorem exec_functionLevelReset_kept {q s} (h : Kept q s) :
    ∀ dt, ∃ t, exec (.functionLevelReset dt) s = .next t ∧ Kept q t := by
  intros; simp only [exec_functionLevelReset, done]; refine ⟨_, rfl, ?_⟩
  repeat' with_reducible first
    | assumption | apply finish_kept | apply arrive_kept | apply Kept.whenAlive | intro _ | apply functionLevel_kept
theorem exec_pcieLinkDown_kept {q s} (h : Kept q s) : ∀ dt, ∃ t, exec (.pcieLinkDown dt) s = .next t ∧ Kept q t := by
  intros; simp only [exec_pcieLinkDown, done]; refine ⟨_, rfl, ?_⟩
  repeat' with_reducible first
    | assumption | apply finish_kept | apply arrive_kept | apply Kept.whenAlive | intro _ | apply linkLost_kept
theorem exec_d3hotEntry_kept {q s} (h : Kept q s) : ∀ dt, ∃ t, exec (.d3hotEntry dt) s = .next t ∧ Kept q t := by
  intros; simp only [exec_d3hotEntry, done]; refine ⟨_, rfl, ?_⟩
  repeat' with_reducible first
    | assumption | apply finish_kept | apply arrive_kept | apply Kept.whenAlive | intro _ | apply enterD3_kept
theorem exec_busMasterClear_kept {q s} (h : Kept q s) : ∀ dt, ∃ t, exec (.busMasterClear dt) s = .next t ∧ Kept q t := by
  intros; simp only [exec_busMasterClear, done]; refine ⟨_, rfl, ?_⟩
  repeat' with_reducible first
    | assumption | apply finish_kept | apply arrive_kept | apply Kept.whenAlive | intro _
    | apply busMasterClear_kept
theorem exec_pcieLinkUp_kept {q s} (h : Kept q s) :
    ∀ speed width payload readMax dt, ∃ t, exec (.pcieLinkUp speed width payload readMax dt) s = .next t ∧ Kept q t := by
  intros; simp only [exec_pcieLinkUp, done]; refine ⟨_, rfl, ?_⟩
  repeat' with_reducible first
    | assumption | apply finish_kept | apply arrive_kept | apply Kept.whenAlive | intro _ | apply linkTrained_kept
theorem exec_bar4Write_kept {q s} (h : Kept q s) :
    ∀ addr data dt, ∃ t, exec (.bar4Write addr data dt) s = .next t ∧ Kept q t := by
  intros; simp only [exec_bar4Write, done]; refine ⟨_, rfl, ?_⟩
  repeat' with_reducible first
    | assumption | apply finish_kept | apply arrive_kept | apply Kept.whenHost | intro _ | apply bar4Write_kept
theorem exec_bar4Read_kept {q s} (h : Kept q s) :
    ∀ addr enables dt, ∃ t, exec (.bar4Read addr enables dt) s = .next t ∧ Kept q t := by
  intros; simp only [exec_bar4Read, done]; refine ⟨_, rfl, ?_⟩
  repeat' with_reducible first
    | assumption | apply finish_kept | apply arrive_kept | apply Kept.whenHost | intro _ | apply bar4Read_kept
theorem exec_localCycleEnd_kept {q s} (h : Kept q s) :
    ∀ data parityOk dt, ∃ t, exec (.localCycleEnd data parityOk dt) s = .next t ∧ Kept q t := by
  intros; simp only [exec_localCycleEnd, done]; refine ⟨_, rfl, ?_⟩
  repeat' with_reducible first
    | assumption | apply finish_kept | apply inTurn_kept | apply Kept.whenRunning | intro _
    | apply localCycleEnd_kept
theorem exec_noReady_kept {q s} (h : Kept q s) : ∃ t, exec .noReady s = .next t ∧ Kept q t := by
  simp only [exec_noReady, done]; refine ⟨_, rfl, ?_⟩
  repeat' with_reducible first
    | assumption | apply finish_kept | apply inTurn_kept | apply Kept.whenRunning | intro _ | apply noReady_kept
theorem exec_readTimeout_kept {q s} (h : Kept q s) : ∀ tag, ∃ t, exec (.readTimeout tag) s = .next t ∧ Kept q t := by
  intros; simp only [exec_readTimeout, done]; refine ⟨_, rfl, ?_⟩
  repeat' with_reducible first
    | assumption | apply finish_kept | apply inTurn_kept | apply Kept.whenRunning | intro _ | apply readTimeout_kept
theorem exec_prefetchExpiry_kept {q s} (h : Kept q s) : ∀ cs, ∃ t, exec (.prefetchExpiry cs) s = .next t ∧ Kept q t := by
  intros; simp only [exec_prefetchExpiry, done]; refine ⟨_, rfl, ?_⟩
  repeat' with_reducible first
    | assumption | apply finish_kept | apply inTurn_kept | apply Kept.whenRunning | intro _
    | apply prefetchExpiry_kept
theorem exec_busRequest_kept {q s} (h : Kept q s) : ∀ dt, ∃ t, exec (.busRequest dt) s = .next t ∧ Kept q t := by
  intros; simp only [exec_busRequest, done]; refine ⟨_, rfl, ?_⟩
  repeat' with_reducible first
    | assumption | apply finish_kept | apply arrive_kept | intro _ | apply busRequest_kept
theorem exec_tenureEnd_kept {q s} (h : Kept q s) : ∀ dt, ∃ t, exec (.tenureEnd dt) s = .next t ∧ Kept q t := by
  intros; simp only [exec_tenureEnd, done]; refine ⟨_, rfl, ?_⟩
  repeat' with_reducible first
    | assumption | apply finish_kept | apply arrive_kept | intro _ | apply tenureEnd_kept
theorem exec_tenureExpiry_kept {q s} (h : Kept q s) : ∃ t, exec .tenureExpiry s = .next t ∧ Kept q t := by
  simp only [exec_tenureExpiry, done]; refine ⟨_, rfl, ?_⟩
  repeat' with_reducible first
    | assumption | apply finish_kept | apply inTurn_kept | apply Kept.whenRunning | intro _
    | apply tenureExpiry_kept
theorem exec_inboundWrite_kept {q s} (h : Kept q s) :
    ∀ addr upper data parityOk dt, ∃ t, exec (.inboundWrite addr upper data parityOk dt) s = .next t ∧ Kept q t := by
  intros; simp only [exec_inboundWrite, done]; refine ⟨_, rfl, ?_⟩
  repeat' with_reducible first
    | assumption | apply finish_kept | apply arrive_kept | apply Kept.whenRunning | intro _
    | apply inboundWrite_kept
theorem exec_inboundRead_kept {q s} (h : Kept q s) : ∀ addr dt, ∃ t, exec (.inboundRead addr dt) s = .next t ∧ Kept q t := by
  intros; simp only [exec_inboundRead, done]; refine ⟨_, rfl, ?_⟩
  repeat' with_reducible first
    | assumption | apply finish_kept | apply arrive_kept | apply Kept.whenRunning | intro _ | apply inboundRead_kept
theorem exec_inboundFlush_kept {q s} (h : Kept q s) : ∃ t, exec .inboundFlush s = .next t ∧ Kept q t := by
  simp only [exec_inboundFlush, done]; refine ⟨_, rfl, ?_⟩
  repeat' with_reducible first
    | assumption | apply finish_kept | apply inTurn_kept | apply Kept.whenRunning | intro _
    | apply inboundFlush_kept
theorem exec_lirqEdge_kept {q s} (h : Kept q s) :
    ∀ n rising dt, ∃ t, exec (.lirqEdge n rising dt) s = .next t ∧ Kept q t := by
  intros; simp only [exec_lirqEdge, done]; refine ⟨_, rfl, ?_⟩
  repeat' with_reducible first
    | assumption | apply finish_kept | apply arrive_kept | apply Kept.whenRunning | intro _ | apply lirqEdge_kept
theorem exec_claspAcquire_kept {q s} (h : Kept q s) : ∀ v dt, ∃ t, exec (.claspAcquire v dt) s = .next t ∧ Kept q t := by
  intros; simp only [exec_claspAcquire, done]; refine ⟨_, rfl, ?_⟩
  repeat' with_reducible first
    | assumption | apply finish_kept | apply arrive_kept | apply Kept.whenHost | intro _ | apply busWrite_kept
theorem exec_claspRelease_kept {q s} (h : Kept q s) : ∀ v dt, ∃ t, exec (.claspRelease v dt) s = .next t ∧ Kept q t := by
  intros; simp only [exec_claspRelease, done]; refine ⟨_, rfl, ?_⟩
  repeat' with_reducible first
    | assumption | apply finish_kept | apply arrive_kept | apply Kept.whenHost | intro _ | apply busWrite_kept
theorem exec_claspExpiry_kept {q s} (h : Kept q s) : ∃ t, exec .claspExpiry s = .next t ∧ Kept q t := by
  simp only [exec_claspExpiry, done]; refine ⟨_, rfl, ?_⟩
  repeat' with_reducible first
    | assumption | apply finish_kept | apply inTurn_kept | apply Kept.whenRunning | intro _ | apply claspExpiry_kept
theorem exec_errorLogPop_kept {q s} (h : Kept q s) : ∀ dt, ∃ t, exec (.errorLogPop dt) s = .next t ∧ Kept q t := by
  intros; simp only [exec_errorLogPop, done]; refine ⟨_, rfl, ?_⟩
  repeat' with_reducible first
    | assumption | apply finish_kept | apply arrive_kept | apply Kept.whenHost | intro _ | apply busRead_kept
theorem exec_crcRestart_kept {q s} (h : Kept q s) : ∀ u v dt, ∃ t, exec (.crcRestart u v dt) s = .next t ∧ Kept q t := by
  intros; simp only [exec_crcRestart, done]; refine ⟨_, rfl, ?_⟩
  repeat' with_reducible first
    | assumption | apply finish_kept | apply arrive_kept | apply Kept.whenHost | intro _ | apply busWrite_kept
theorem exec_crcSeed_kept {q s} (h : Kept q s) : ∀ u v dt, ∃ t, exec (.crcSeed u v dt) s = .next t ∧ Kept q t := by
  intros; simp only [exec_crcSeed, done]; refine ⟨_, rfl, ?_⟩
  repeat' with_reducible first
    | assumption | apply finish_kept | apply arrive_kept | apply Kept.whenHost | intro _ | apply busWrite_kept
theorem exec_crcData8_kept {q s} (h : Kept q s) : ∀ u v dt, ∃ t, exec (.crcData8 u v dt) s = .next t ∧ Kept q t := by
  intros; simp only [exec_crcData8, done]; refine ⟨_, rfl, ?_⟩
  repeat' with_reducible first
    | assumption | apply finish_kept | apply arrive_kept | apply Kept.whenHost | intro _ | apply busWrite_kept
theorem exec_crcData16_kept {q s} (h : Kept q s) : ∀ u v dt, ∃ t, exec (.crcData16 u v dt) s = .next t ∧ Kept q t := by
  intros; simp only [exec_crcData16, done]; refine ⟨_, rfl, ?_⟩
  repeat' with_reducible first
    | assumption | apply finish_kept | apply arrive_kept | apply Kept.whenHost | intro _ | apply busWrite_kept
theorem exec_crcData32_kept {q s} (h : Kept q s) : ∀ u v dt, ∃ t, exec (.crcData32 u v dt) s = .next t ∧ Kept q t := by
  intros; simp only [exec_crcData32, done]; refine ⟨_, rfl, ?_⟩
  repeat' with_reducible first
    | assumption | apply finish_kept | apply arrive_kept | apply Kept.whenHost | intro _ | apply busWrite_kept
theorem exec_ilgilBlockLock_kept {q s} (h : Kept q s) : ∀ g dt, ∃ t, exec (.ilgilBlockLock g dt) s = .next t ∧ Kept q t := by
  intros; simp only [exec_ilgilBlockLock, done]; refine ⟨_, rfl, ?_⟩
  repeat' with_reducible first
    | assumption | apply finish_kept | apply arrive_kept | apply Kept.whenAlive | intro _ | apply blockLock_kept
theorem exec_ilgilHelloSend_kept {q s} (h : Kept q s) : ∀ g, ∃ t, exec (.ilgilHelloSend g) s = .next t ∧ Kept q t := by
  intros; simp only [exec_ilgilHelloSend, done]; refine ⟨_, rfl, ?_⟩
  repeat' with_reducible first
    | assumption | apply finish_kept | apply inTurn_kept | apply Kept.whenAlive | intro _ | apply helloUnitSend_kept
theorem exec_ilgilHelloReceive_kept {q s} (h : Kept q s) :
    ∀ g bytes dt, ∃ t, exec (.ilgilHelloReceive g bytes dt) s = .next t ∧ Kept q t := by
  intros; simp only [exec_ilgilHelloReceive, done]; refine ⟨_, rfl, ?_⟩
  repeat' with_reducible first
    | assumption | apply finish_kept | apply arrive_kept | apply Kept.whenAlive | intro _ | apply helloReceive_kept
theorem exec_cellUnitReceive_kept {q s} (h : Kept q s) :
    ∀ g bytes dt, ∃ t, exec (.cellUnitReceive g bytes dt) s = .next t ∧ Kept q t := by
  intros; simp only [exec_cellUnitReceive, done]; refine ⟨_, rfl, ?_⟩
  repeat' with_reducible first
    | assumption | apply finish_kept | apply arrive_kept | apply Kept.whenAlive | intro _ | apply cellReceive_kept
theorem exec_creditUnitReceive_kept {q s} (h : Kept q s) :
    ∀ g bytes dt, ∃ t, exec (.creditUnitReceive g bytes dt) s = .next t ∧ Kept q t := by
  intros; simp only [exec_creditUnitReceive, done]; refine ⟨_, rfl, ?_⟩
  repeat' with_reducible first
    | assumption | apply finish_kept | apply arrive_kept | apply Kept.whenAlive | intro _ | apply creditReceive_kept
theorem exec_creditUnitSend_kept {q s} (h : Kept q s) : ∀ g, ∃ t, exec (.creditUnitSend g) s = .next t ∧ Kept q t := by
  intros; simp only [exec_creditUnitSend, done]; refine ⟨_, rfl, ?_⟩
  repeat' with_reducible first
    | assumption | apply finish_kept | apply inTurn_kept | apply Kept.whenAlive | intro _ | apply creditSend_kept
theorem exec_replayTimeout_kept {q s} (h : Kept q s) : ∀ g, ∃ t, exec (.replayTimeout g) s = .next t ∧ Kept q t := by
  intros; simp only [exec_replayTimeout, done]; refine ⟨_, rfl, ?_⟩
  repeat' with_reducible first
    | assumption | apply finish_kept | apply inTurn_kept | apply Kept.whenAlive | intro _ | apply replayTimeout_kept
theorem exec_ilgilLinkLoss_kept {q s} (h : Kept q s) : ∀ g dt, ∃ t, exec (.ilgilLinkLoss g dt) s = .next t ∧ Kept q t := by
  intros; simp only [exec_ilgilLinkLoss, done]; refine ⟨_, rfl, ?_⟩
  repeat' with_reducible first
    | assumption | apply finish_kept | apply arrive_kept | apply Kept.whenAlive | intro _ | apply ilgLinkLoss_kept
theorem exec_reachSend_kept {q s} (h : Kept q s) : ∀ g, ∃ t, exec (.reachSend g) s = .next t ∧ Kept q t := by
  intros; simp only [exec_reachSend, done]; refine ⟨_, rfl, ?_⟩
  repeat' with_reducible first
    | assumption | apply finish_kept | apply inTurn_kept | apply Kept.whenAlive | intro _ | apply reachSend_kept
theorem exec_reachReceive_kept {q s} (h : Kept q s) :
    ∀ g bytes dt, ∃ t, exec (.reachReceive g bytes dt) s = .next t ∧ Kept q t := by
  intros; simp only [exec_reachReceive, done]; refine ⟨_, rfl, ?_⟩
  repeat' with_reducible first
    | assumption | apply finish_kept | apply arrive_kept | apply Kept.whenAlive | intro _ | apply reachReceive_kept
theorem exec_rebalance_kept {q s} (h : Kept q s) : ∀ v dt, ∃ t, exec (.rebalance v dt) s = .next t ∧ Kept q t := by
  intros; simp only [exec_rebalance, done]; refine ⟨_, rfl, ?_⟩
  repeat' with_reducible first
    | assumption | apply finish_kept | apply arrive_kept | apply Kept.whenHost | intro _ | apply busWrite_kept
theorem exec_timeUnitSend_kept {q s} (h : Kept q s) : ∀ g, ∃ t, exec (.timeUnitSend g) s = .next t ∧ Kept q t := by
  intros; simp only [exec_timeUnitSend, done]; refine ⟨_, rfl, ?_⟩
  repeat' with_reducible first
    | assumption | apply finish_kept | apply inTurn_kept | apply Kept.whenAlive | intro _ | apply timeUnitSend_kept
theorem exec_timeUnitReceive_kept {q s} (h : Kept q s) :
    ∀ g bytes dt, ∃ t, exec (.timeUnitReceive g bytes dt) s = .next t ∧ Kept q t := by
  intros; simp only [exec_timeUnitReceive, done]; refine ⟨_, rfl, ?_⟩
  repeat' with_reducible first
    | assumption | apply finish_kept | apply arrive_kept | apply Kept.whenAlive | intro _
    | apply timeUnitReceive_kept
theorem exec_ilgMgmtRead_kept {q s} (h : Kept q s) : ∀ v dt, ∃ t, exec (.ilgMgmtRead v dt) s = .next t ∧ Kept q t := by
  intros; simp only [exec_ilgMgmtRead, done]; refine ⟨_, rfl, ?_⟩
  repeat' with_reducible first
    | assumption | apply finish_kept | apply arrive_kept | apply Kept.whenHost | intro _ | apply busWrite_kept
theorem exec_ilgMgmtWrite_kept {q s} (h : Kept q s) : ∀ v dt, ∃ t, exec (.ilgMgmtWrite v dt) s = .next t ∧ Kept q t := by
  intros; simp only [exec_ilgMgmtWrite, done]; refine ⟨_, rfl, ?_⟩
  repeat' with_reducible first
    | assumption | apply finish_kept | apply arrive_kept | apply Kept.whenHost | intro _ | apply busWrite_kept
theorem exec_mgmtRequestReceive_kept {q s} (h : Kept q s) :
    ∀ g bytes dt, ∃ t, exec (.mgmtRequestReceive g bytes dt) s = .next t ∧ Kept q t := by
  intros; simp only [exec_mgmtRequestReceive, done]; refine ⟨_, rfl, ?_⟩
  repeat' with_reducible first
    | assumption | apply finish_kept | apply arrive_kept | apply Kept.whenAlive | intro _ | apply mgmtRequest_kept
theorem exec_mgmtResponseReceive_kept {q s} (h : Kept q s) :
    ∀ g bytes dt, ∃ t, exec (.mgmtResponseReceive g bytes dt) s = .next t ∧ Kept q t := by
  intros; simp only [exec_mgmtResponseReceive, done]; refine ⟨_, rfl, ?_⟩
  repeat' with_reducible first
    | assumption | apply finish_kept | apply arrive_kept | apply Kept.whenAlive | intro _ | apply mgmtAnswer_kept
theorem exec_mgmtTimeout_kept {q s} (h : Kept q s) : ∃ t, exec .mgmtTimeout s = .next t ∧ Kept q t := by
  simp only [exec_mgmtTimeout, done]; refine ⟨_, rfl, ?_⟩
  repeat' with_reducible first
    | assumption | apply finish_kept | apply inTurn_kept | apply Kept.whenAlive | intro _ | apply mgmtTimeout_kept
theorem exec_workerImageStart_kept {q s} (h : Kept q s) :
    ∀ v dt, ∃ t, exec (.workerImageStart v dt) s = .next t ∧ Kept q t := by
  intros; simp only [exec_workerImageStart, done]; refine ⟨_, rfl, ?_⟩
  repeat' with_reducible first
    | assumption | apply finish_kept | apply arrive_kept | apply Kept.whenHost | intro _ | apply busWrite_kept
theorem exec_workerImageAbort_kept {q s} (h : Kept q s) :
    ∀ v dt, ∃ t, exec (.workerImageAbort v dt) s = .next t ∧ Kept q t := by
  intros; simp only [exec_workerImageAbort, done]; refine ⟨_, rfl, ?_⟩
  repeat' with_reducible first
    | assumption | apply finish_kept | apply arrive_kept | apply Kept.whenHost | intro _ | apply busWrite_kept
theorem exec_imageUnitReceive_kept {q s} (h : Kept q s) :
    ∀ g bytes dt, ∃ t, exec (.imageUnitReceive g bytes dt) s = .next t ∧ Kept q t := by
  intros; simp only [exec_imageUnitReceive, done]; refine ⟨_, rfl, ?_⟩
  repeat' with_reducible first
    | assumption | apply finish_kept | apply arrive_kept | apply Kept.whenAlive | intro _
    | apply imageUnitReceive_kept
theorem exec_imageResultReceive_kept {q s} (h : Kept q s) :
    ∀ g bytes dt, ∃ t, exec (.imageResultReceive g bytes dt) s = .next t ∧ Kept q t := by
  intros; simp only [exec_imageResultReceive, done]; refine ⟨_, rfl, ?_⟩
  repeat' with_reducible first
    | assumption | apply finish_kept | apply arrive_kept | apply Kept.whenAlive | intro _ | apply imageResult_kept
theorem exec_workerReport_kept {q s} (h : Kept q s) :
    ∀ g bytes dt, ∃ t, exec (.workerReport g bytes dt) s = .next t ∧ Kept q t := by
  intros; simp only [exec_workerReport, done]; refine ⟨_, rfl, ?_⟩
  repeat' with_reducible first
    | assumption | apply finish_kept | apply arrive_kept | apply Kept.whenAlive | intro _ | apply workerReport_kept
theorem exec_workerGenWrite_kept {q s} (h : Kept q s) :
    ∀ k v dt, ∃ t, exec (.workerGenWrite k v dt) s = .next t ∧ Kept q t := by
  intros; simp only [exec_workerGenWrite, done]; refine ⟨_, rfl, ?_⟩
  repeat' with_reducible first
    | assumption | apply finish_kept | apply arrive_kept | apply Kept.whenHost | intro _ | apply busWrite_kept
theorem exec_switchUnitReceive_kept {q s} (h : Kept q s) :
    ∀ g bytes dt, ∃ t, exec (.switchUnitReceive g bytes dt) s = .next t ∧ Kept q t := by
  intros; simp only [exec_switchUnitReceive, done]; refine ⟨_, rfl, ?_⟩
  repeat' with_reducible first
    | assumption | apply finish_kept | apply arrive_kept | apply Kept.whenAlive | intro _ | apply switchReceive_kept
theorem exec_heartbeatSend_kept {q s} (h : Kept q s) : ∃ t, exec .heartbeatSend s = .next t ∧ Kept q t := by
  simp only [exec_heartbeatSend, done]; refine ⟨_, rfl, ?_⟩
  repeat' with_reducible first
    | assumption | apply finish_kept | apply inTurn_kept | apply Kept.whenAlive | intro _ | apply heartbeatSend_kept
theorem exec_heartbeatReceive_kept {q s} (h : Kept q s) :
    ∀ bytes dt, ∃ t, exec (.heartbeatReceive bytes dt) s = .next t ∧ Kept q t := by
  intros; simp only [exec_heartbeatReceive, done]; refine ⟨_, rfl, ?_⟩
  repeat' with_reducible first
    | assumption | apply finish_kept | apply arrive_kept | apply Kept.whenAlive | intro _
    | apply heartbeatReceive_kept
theorem exec_heartbeatLoss_kept {q s} (h : Kept q s) : ∃ t, exec .heartbeatLoss s = .next t ∧ Kept q t := by
  simp only [exec_heartbeatLoss, done]; refine ⟨_, rfl, ?_⟩
  repeat' with_reducible first
    | assumption | apply finish_kept | apply inTurn_kept | apply Kept.whenAlive | intro _ | apply heartbeatLoss_kept
theorem exec_resignInChange_kept {q s} (h : Kept q s) :
    ∀ level dt, ∃ t, exec (.resignInChange level dt) s = .next t ∧ Kept q t := by
  intros; simp only [exec_resignInChange, done]; refine ⟨_, rfl, ?_⟩
  repeat' with_reducible first
    | assumption | apply finish_kept | apply arrive_kept | intro _ | apply resignInChange_kept
theorem exec_claimWaitExpiry_kept {q s} (h : Kept q s) : ∃ t, exec .claimWaitExpiry s = .next t ∧ Kept q t := by
  simp only [exec_claimWaitExpiry, done]; refine ⟨_, rfl, ?_⟩
  repeat' with_reducible first
    | assumption | apply finish_kept | apply inTurn_kept | apply Kept.whenAlive | intro _
    | apply claimWaitExpiry_kept
theorem exec_claimConfirm_kept {q s} (h : Kept q s) : ∃ t, exec .claimConfirm s = .next t ∧ Kept q t := by
  simp only [exec_claimConfirm, done]; refine ⟨_, rfl, ?_⟩
  repeat' with_reducible first
    | assumption | apply finish_kept | apply inTurn_kept | apply Kept.whenAlive | intro _ | apply claimConfirm_kept
theorem exec_peerDemand_kept {q s} (h : Kept q s) : ∃ t, exec .peerDemand s = .next t ∧ Kept q t := by
  simp only [exec_peerDemand, done]; refine ⟨_, rfl, ?_⟩
  repeat' with_reducible first
    | assumption | apply finish_kept | apply inTurn_kept | apply Kept.whenAlive | intro _ | apply peerDemand_kept
theorem exec_startClaim_kept {q s} (h : Kept q s) : ∃ t, exec .startClaim s = .next t ∧ Kept q t := by
  simp only [exec_startClaim, done]; refine ⟨_, rfl, ?_⟩
  repeat' with_reducible first
    | assumption | apply finish_kept | apply inTurn_kept | apply Kept.whenAlive | intro _ | apply startClaim_kept
theorem exec_redResignCmd_kept {q s} (h : Kept q s) : ∀ v dt, ∃ t, exec (.redResignCmd v dt) s = .next t ∧ Kept q t := by
  intros; simp only [exec_redResignCmd, done]; refine ⟨_, rfl, ?_⟩
  repeat' with_reducible first
    | assumption | apply finish_kept | apply arrive_kept | apply Kept.whenHost | intro _ | apply busWrite_kept
theorem exec_redSwapCmd_kept {q s} (h : Kept q s) : ∀ v dt, ∃ t, exec (.redSwapCmd v dt) s = .next t ∧ Kept q t := by
  intros; simp only [exec_redSwapCmd, done]; refine ⟨_, rfl, ?_⟩
  repeat' with_reducible first
    | assumption | apply finish_kept | apply arrive_kept | apply Kept.whenHost | intro _ | apply busWrite_kept
theorem exec_redClaimCmd_kept {q s} (h : Kept q s) : ∀ v dt, ∃ t, exec (.redClaimCmd v dt) s = .next t ∧ Kept q t := by
  intros; simp only [exec_redClaimCmd, done]; refine ⟨_, rfl, ?_⟩
  repeat' with_reducible first
    | assumption | apply finish_kept | apply arrive_kept | apply Kept.whenHost | intro _ | apply busWrite_kept
theorem exec_swapInstant_kept {q s} (h : Kept q s) : ∃ t, exec .swapInstant s = .next t ∧ Kept q t := by
  simp only [exec_swapInstant, done]; refine ⟨_, rfl, ?_⟩
  repeat' with_reducible first
    | assumption | apply finish_kept | apply inTurn_kept | apply Kept.whenAlive | intro _ | apply swapInstant_kept
theorem exec_swapOverdue_kept {q s} (h : Kept q s) : ∃ t, exec .swapOverdue s = .next t ∧ Kept q t := by
  simp only [exec_swapOverdue, done]; refine ⟨_, rfl, ?_⟩
  repeat' with_reducible first
    | assumption | apply finish_kept | apply inTurn_kept | apply Kept.whenAlive | intro _ | apply swapOverdue_kept
theorem exec_autoSwap_kept {q s} (h : Kept q s) : ∃ t, exec .autoSwap s = .next t ∧ Kept q t := by
  simp only [exec_autoSwap, done]; refine ⟨_, rfl, ?_⟩
  repeat' with_reducible first
    | assumption | apply finish_kept | apply inTurn_kept | apply Kept.whenAlive | intro _ | apply autoSwap_kept
theorem exec_pageProgramDone_kept {q s} (h : Kept q s) :
    ∀ ok zeroOk dt, ∃ t, exec (.pageProgramDone ok zeroOk dt) s = .next t ∧ Kept q t := by
  intros; simp only [exec_pageProgramDone, done]; refine ⟨_, rfl, ?_⟩
  repeat' with_reducible first
    | assumption | apply finish_kept | apply arrive_kept | apply Kept.whenAlive | intro _
    | apply pageProgramDone_kept
theorem exec_eraseDone_kept {q s} (h : Kept q s) :
    ∀ ok zeroOk dt, ∃ t, exec (.eraseDone ok zeroOk dt) s = .next t ∧ Kept q t := by
  intros; simp only [exec_eraseDone, done]; refine ⟨_, rfl, ?_⟩
  repeat' with_reducible first
    | assumption | apply finish_kept | apply arrive_kept | apply Kept.whenAlive | intro _ | apply eraseDone_kept
theorem exec_powerFail_kept {q s} (h : Kept q s) : ∀ dt, ∃ t, exec (.powerFail dt) s = .next t ∧ Kept q t := by
  intros; simp only [exec_powerFail, done]; refine ⟨_, rfl, ?_⟩
  repeat' with_reducible first
    | assumption | apply finish_kept | apply arrive_kept | apply Kept.whenAlive | intro _ | apply powerFail_kept
theorem exec_powerRestored_kept {q s} (h : Kept q s) : ∀ dt, ∃ t, exec (.powerRestored dt) s = .next t ∧ Kept q t := by
  intros; simp only [exec_powerRestored, done]; refine ⟨_, rfl, ?_⟩
  repeat' with_reducible first
    | assumption | apply finish_kept | apply arrive_kept | apply Kept.whenAlive | intro _ | apply powerRestored_kept
theorem exec_freeze_kept {q s} (h : Kept q s) : ∀ v dt, ∃ t, exec (.freeze v dt) s = .next t ∧ Kept q t := by
  intros; simp only [exec_freeze, done]; refine ⟨_, rfl, ?_⟩
  repeat' with_reducible first
    | assumption | apply finish_kept | apply arrive_kept | apply Kept.whenHost | intro _ | apply busWrite_kept
theorem exec_unfreeze_kept {q s} (h : Kept q s) : ∀ v dt, ∃ t, exec (.unfreeze v dt) s = .next t ∧ Kept q t := by
  intros; simp only [exec_unfreeze, done]; refine ⟨_, rfl, ?_⟩
  repeat' with_reducible first
    | assumption | apply finish_kept | apply arrive_kept | apply Kept.whenHost | intro _ | apply busWrite_kept
theorem exec_freezeLapse_kept {q s} (h : Kept q s) : ∃ t, exec .freezeLapse s = .next t ∧ Kept q t := by
  simp only [exec_freezeLapse, done]; refine ⟨_, rfl, ?_⟩
  repeat' with_reducible first
    | assumption | apply finish_kept | apply inTurn_kept | apply Kept.whenAlive | intro _ | apply freezeLapse_kept
theorem exec_recordFetch_kept {q s} (h : Kept q s) : ∀ v dt, ∃ t, exec (.recordFetch v dt) s = .next t ∧ Kept q t := by
  intros; simp only [exec_recordFetch, done]; refine ⟨_, rfl, ?_⟩
  repeat' with_reducible first
    | assumption | apply finish_kept | apply arrive_kept | apply Kept.whenHost | intro _ | apply busWrite_kept
theorem exec_recordFetchDone_kept {q s} (h : Kept q s) :
    ∀ ok dt, ∃ t, exec (.recordFetchDone ok dt) s = .next t ∧ Kept q t := by
  intros; simp only [exec_recordFetchDone, done]; refine ⟨_, rfl, ?_⟩
  repeat' with_reducible first
    | assumption | apply finish_kept | apply arrive_kept | apply Kept.whenAlive | intro _
    | apply recordFetchDone_kept
theorem exec_partitionWrite_kept {q s} (h : Kept q s) : ∀ v dt, ∃ t, exec (.partitionWrite v dt) s = .next t ∧ Kept q t := by
  intros; simp only [exec_partitionWrite, done]; refine ⟨_, rfl, ?_⟩
  repeat' with_reducible first
    | assumption | apply finish_kept | apply arrive_kept | apply Kept.whenHost | intro _ | apply busWrite_kept
theorem exec_operatingSecond_kept {q s} (h : Kept q s) : ∀ dt, ∃ t, exec (.operatingSecond dt) s = .next t ∧ Kept q t := by
  intros; simp only [exec_operatingSecond, done]; refine ⟨_, rfl, ?_⟩
  repeat' with_reducible first
    | assumption | apply finish_kept | apply arrive_kept | intro _ | apply operatingSecond_kept
theorem exec_mainPowerOn_kept {q s} (h : Kept q s) :
    ∀ straps dt, ∃ t, exec (.mainPowerOn straps dt) s = .next t ∧ Kept q t := by
  intros; simp only [exec_mainPowerOn, done]; refine ⟨_, rfl, ?_⟩
  repeat' with_reducible first
    | assumption | apply finish_kept | apply arrive_kept | intro _ | apply mainPowerOn_kept
theorem exec_mainPowerLoss_kept {q s} (h : Kept q s) :
    ∀ vbak dt, ∃ t, exec (.mainPowerLoss vbak dt) s = .next t ∧ Kept q t := by
  intros; simp only [exec_mainPowerLoss, done]; refine ⟨_, rfl, ?_⟩
  repeat' with_reducible first
    | assumption | apply finish_kept | apply arrive_kept | intro _ | apply mainPowerLoss_kept
theorem exec_resetAssert_kept {q s} (h : Kept q s) : ∀ pin dt, ∃ t, exec (.resetAssert pin dt) s = .next t ∧ Kept q t := by
  intros; simp only [exec_resetAssert, done]; refine ⟨_, rfl, ?_⟩
  repeat' with_reducible first
    | assumption | apply finish_kept | apply arrive_kept | intro _ | apply resetAssert_kept
theorem exec_resetEnd_kept {q s} (h : Kept q s) : ∀ straps dt, ∃ t, exec (.resetEnd straps dt) s = .next t ∧ Kept q t := by
  intros; simp only [exec_resetEnd, done]; refine ⟨_, rfl, ?_⟩
  repeat' with_reducible first
    | assumption | apply finish_kept | apply arrive_kept | intro _ | apply resetEnd_kept
theorem exec_pllLock_kept {q s} (h : Kept q s) : ∀ dt, ∃ t, exec (.pllLock dt) s = .next t ∧ Kept q t := by
  intros; simp only [exec_pllLock, done]; refine ⟨_, rfl, ?_⟩
  repeat' with_reducible first
    | assumption | apply finish_kept | apply arrive_kept | intro _ | apply pllLock_kept
theorem exec_memoryStepDone_kept {q s} (h : Kept q s) :
    ∀ temp supply clk dt, ∃ t, exec (.memoryStepDone temp supply clk dt) s = .next t ∧ Kept q t := by
  intros; simp only [exec_memoryStepDone, done]; refine ⟨_, rfl, ?_⟩
  repeat' with_reducible first
    | assumption | apply finish_kept | apply arrive_kept | intro _ | apply memoryStepDone_kept
theorem exec_locketStep_kept {q s} (h : Kept q s) :
    ∀ flashWorks dt, ∃ t, exec (.locketStep flashWorks dt) s = .next t ∧ Kept q t := by
  intros; simp only [exec_locketStep, done]; refine ⟨_, rfl, ?_⟩
  repeat' with_reducible first
    | assumption | apply finish_kept | apply arrive_kept | intro _ | apply locketStep_kept
theorem exec_phyResetWrite_kept {q s} (h : Kept q s) : ∀ v dt, ∃ t, exec (.phyResetWrite v dt) s = .next t ∧ Kept q t := by
  intros; simp only [exec_phyResetWrite, done]; refine ⟨_, rfl, ?_⟩
  repeat' with_reducible first
    | assumption | apply finish_kept | apply arrive_kept | apply Kept.whenHost | intro _ | apply busWrite_kept
theorem exec_tapBypass_kept {q s} (h : Kept q s) : ∀ dt, ∃ t, exec (.tapBypass dt) s = .next t ∧ Kept q t := by
  intros; simp only [exec_tapBypass, done]; refine ⟨_, rfl, ?_⟩
  repeat' with_reducible first
    | assumption | apply finish_kept | apply arrive_kept | intro _ | apply tapSet_kept
theorem exec_tapIdcode_kept {q s} (h : Kept q s) : ∀ dt, ∃ t, exec (.tapIdcode dt) s = .next t ∧ Kept q t := by
  intros; simp only [exec_tapIdcode, done]; refine ⟨_, rfl, ?_⟩
  repeat' with_reducible first
    | assumption | apply finish_kept | apply arrive_kept | intro _ | apply tapIdcode_kept
theorem exec_tapSamplePreload_kept {q s} (h : Kept q s) :
    ∀ sampled preload dt, ∃ t, exec (.tapSamplePreload sampled preload dt) s = .next t ∧ Kept q t := by
  intros; simp only [exec_tapSamplePreload, done]; refine ⟨_, rfl, ?_⟩
  repeat' with_reducible first
    | assumption | apply finish_kept | apply arrive_kept | intro _ | apply tapSample_kept
theorem exec_tapExtest_kept {q s} (h : Kept q s) : ∀ dt, ∃ t, exec (.tapExtest dt) s = .next t ∧ Kept q t := by
  intros; simp only [exec_tapExtest, done]; refine ⟨_, rfl, ?_⟩
  repeat' with_reducible first
    | assumption | apply finish_kept | apply arrive_kept | intro _ | apply tapSet_kept
theorem exec_tapClamp_kept {q s} (h : Kept q s) : ∀ dt, ∃ t, exec (.tapClamp dt) s = .next t ∧ Kept q t := by
  intros; simp only [exec_tapClamp, done]; refine ⟨_, rfl, ?_⟩
  repeat' with_reducible first
    | assumption | apply finish_kept | apply arrive_kept | intro _ | apply tapSet_kept
theorem exec_tapHighz_kept {q s} (h : Kept q s) : ∀ dt, ∃ t, exec (.tapHighz dt) s = .next t ∧ Kept q t := by
  intros; simp only [exec_tapHighz, done]; refine ⟨_, rfl, ?_⟩
  repeat' with_reducible first
    | assumption | apply finish_kept | apply arrive_kept | intro _ | apply tapSet_kept
theorem exec_poresetRisingEdge_kept {q s} (h : Kept q s) :
    ∀ straps dt, ∃ t, exec (.poresetRisingEdge straps dt) s = .next t ∧ Kept q t := by
  intros; simp only [exec_poresetRisingEdge, done]; refine ⟨_, rfl, ?_⟩
  repeat' with_reducible first
    | assumption | apply finish_kept | apply arrive_kept | intro _ | apply poresetRisingEdge_kept
theorem exec_rxDescriptorFetch_kept {q s} (h : Kept q s) :
    ∀ ring descs dt, ∃ t, exec (.rxDescriptorFetch ring descs dt) s = .next t ∧ Kept q t := by
  intros; simp only [exec_rxDescriptorFetch, done]; refine ⟨_, rfl, ?_⟩
  repeat' with_reducible first
    | assumption | apply finish_kept | apply arrive_kept | apply Kept.whenRunning | intro _ | apply rxFetched_kept
theorem exec_busMasterEnable_kept {q s} (h : Kept q s) : ∀ dt, ∃ t, exec (.busMasterEnable dt) s = .next t ∧ Kept q t := by
  intros; simp only [exec_busMasterEnable, done]; refine ⟨_, rfl, ?_⟩
  repeat' with_reducible first
    | assumption | apply finish_kept | apply arrive_kept | apply Kept.whenAlive | intro _
    | apply busMasterEnable_kept
theorem exec_couplerInputChange_kept {q s} (h : Kept q s) :
    ∀ cpl level dt, ∃ t, exec (.couplerInputChange cpl level dt) s = .next t ∧ Kept q t := by
  intros; simp only [exec_couplerInputChange, done]; refine ⟨_, rfl, ?_⟩
  repeat' with_reducible first
    | assumption | apply finish_kept | apply arrive_kept | intro _ | apply couplerInput_kept
theorem exec_couplerFilterAccept_kept {q s} (h : Kept q s) :
    ∀ cpl, ∃ t, exec (.couplerFilterAccept cpl) s = .next t ∧ Kept q t := by
  intros; simp only [exec_couplerFilterAccept, done]; refine ⟨_, rfl, ?_⟩
  repeat' with_reducible first
    | assumption | apply finish_kept | apply inTurn_kept | apply Kept.whenAlive | intro _ | apply couplerAccept_kept
theorem exec_inputUnstuck_kept {q s} (h : Kept q s) : ∀ inp dt, ∃ t, exec (.inputUnstuck inp dt) s = .next t ∧ Kept q t := by
  intros; simp only [exec_inputUnstuck, done]; refine ⟨_, rfl, ?_⟩
  repeat' with_reducible first
    | assumption | apply finish_kept | apply arrive_kept | apply Kept.whenRunning | intro _
    | apply inputUnstuck_kept
theorem exec_protocolExceptionExit_kept {q s} (h : Kept q s) :
    ∀ ch dt, ∃ t, exec (.protocolExceptionExit ch dt) s = .next t ∧ Kept q t := by
  intros; simp only [exec_protocolExceptionExit, done]; refine ⟨_, rfl, ?_⟩
  repeat' with_reducible first
    | assumption | apply finish_kept | apply arrive_kept | apply Kept.whenRunning | intro _ | apply pexExit_kept
theorem exec_carrierSense_kept {q s} (h : Kept q s) :
    ∀ port carrier dt, ∃ t, exec (.carrierSense port carrier dt) s = .next t ∧ Kept q t := by
  intros; simp only [exec_carrierSense, done]; refine ⟨_, rfl, ?_⟩
  repeat' with_reducible first
    | assumption | apply finish_kept | apply arrive_kept | intro _ | apply carrierSense_kept
theorem exec_verifyFrameReceive_kept {q s} (h : Kept q s) :
    ∀ line dt, ∃ t, exec (.verifyFrameReceive line dt) s = .next t ∧ Kept q t := by
  intros; simp only [exec_verifyFrameReceive, done]; refine ⟨_, rfl, ?_⟩
  repeat' with_reducible first
    | assumption | apply finish_kept | apply arrive_kept | apply Kept.whenRunning | intro _
    | apply verifyReceive_kept
theorem exec_eraseSuspended_kept {q s} (h : Kept q s) : ∀ dt, ∃ t, exec (.eraseSuspended dt) s = .next t ∧ Kept q t := by
  intros; simp only [exec_eraseSuspended, done]; refine ⟨_, rfl, ?_⟩
  repeat' with_reducible first
    | assumption | apply finish_kept | apply arrive_kept | apply Kept.whenAlive | intro _
    | apply eraseSuspended_kept
theorem exec_workerImageRead_kept {q s} (h : Kept q s) :
    ∀ bytes dt, ∃ t, exec (.workerImageRead bytes dt) s = .next t ∧ Kept q t := by
  intros; simp only [exec_workerImageRead, done]; refine ⟨_, rfl, ?_⟩
  repeat' with_reducible first
    | assumption | apply finish_kept | apply arrive_kept | apply Kept.whenAlive | intro _
    | apply workerImageRead_kept


/-- Every command answers a next state and keeps what `Kept` says. -/
theorem exec_kept {q c s} (h : Kept q s) : ∃ t, exec c s = .next t ∧ Kept q t := by
  cases c with
  | managementTick temp supply upsets => exact exec_managementTick_kept h temp supply upsets
  | auditResult => exact exec_auditResult_kept h
  | clockFault clk dt => exact exec_clockFault_kept h clk dt
  | roleLapse => exact exec_roleLapse_kept h
  | scheduleSilence => exact exec_scheduleSilence_kept h
  | silenceRelease v dt => exact exec_silenceRelease_kept h v dt
  | enableRequest fn v dt => exact exec_enableRequest_kept h fn v dt
  | sequenceComplete fn dt => exact exec_sequenceComplete_kept h fn dt
  | registerWrite off v be dt => exact exec_registerWrite_kept h off v be dt
  | rcRead off dt => exact exec_rcRead_kept h off dt
  | snapshotRead off dt => exact exec_snapshotRead_kept h off dt
  | challenge v dt => exact exec_challenge_kept h v dt
  | nonceExpiry => exact exec_nonceExpiry_kept h
  | unlock v dt => exact exec_unlock_kept h v dt
  | unlockCompareDone => exact exec_unlockCompareDone_kept h
  | lockoutExpiry => exact exec_lockoutExpiry_kept h
  | roleDrop v dt => exact exec_roleDrop_kept h v dt
  | keyRotate v dt => exact exec_keyRotate_kept h v dt
  | rotationFlashDone ok0 ok1 dt => exact exec_rotationFlashDone_kept h ok0 ok1 dt
  | imageStart v dt => exact exec_imageStart_kept h v dt
  | imageAbort v dt => exact exec_imageAbort_kept h v dt
  | imageCheckDone slot0 slot1 dt => exact exec_imageCheckDone_kept h slot0 slot1 dt
  | imageRecord bytes dt => exact exec_imageRecord_kept h bytes dt
  | pollMatch => exact exec_pollMatch_kept h
  | pollTimeout => exact exec_pollTimeout_kept h
  | delayExpiry => exact exec_delayExpiry_kept h
  | imageReadError addr cpl dt => exact exec_imageReadError_kept h addr cpl dt
  | trunkLinkUp line speed dt => exact exec_trunkLinkUp_kept h line speed dt
  | trunkLinkDown line dt => exact exec_trunkLinkDown_kept h line dt
  | beaconPeriod => exact exec_beaconPeriod_kept h
  | answerBeacon line => exact exec_answerBeacon_kept h line
  | beaconReceive line bytes back dt => exact exec_beaconReceive_kept h line bytes back dt
  | beaconDeadline line => exact exec_beaconDeadline_kept h line
  | countSend dir => exact exec_countSend_kept h dir
  | countReceive line bytes dt => exact exec_countReceive_kept h line bytes dt
  | settleExpiry => exact exec_settleExpiry_kept h
  | commitSend => exact exec_commitSend_kept h
  | commitReceive line bytes back dt => exact exec_commitReceive_kept h line bytes back dt
  | commitForward => exact exec_commitForward_kept h
  | waitTimeout => exact exec_waitTimeout_kept h
  | switchInstant => exact exec_switchInstant_kept h
  | backoffExpiry => exact exec_backoffExpiry_kept h
  | leadInputChange level dt => exact exec_leadInputChange_kept h level dt
  | leadFilterAccept => exact exec_leadFilterAccept_kept h
  | compatHelloSend => exact exec_compatHelloSend_kept h
  | compatHelloReceive line bytes dt => exact exec_compatHelloReceive_kept h line bytes dt
  | compatHelloTimeout line => exact exec_compatHelloTimeout_kept h line
  | topologyReceive line bytes back dt => exact exec_topologyReceive_kept h line bytes back dt
  | compatCommit v dt => exact exec_compatCommit_kept h v dt
  | compatHoldExpiry => exact exec_compatHoldExpiry_kept h
  | rosterSend dir => exact exec_rosterSend_kept h dir
  | rosterReceive line bytes dt => exact exec_rosterReceive_kept h line bytes dt
  | graceExpiry => exact exec_graceExpiry_kept h
  | graceRewrite v dt => exact exec_graceRewrite_kept h v dt
  | admissionPoint port bytes len back dt => exact exec_admissionPoint_kept h port bytes len back dt
  | cellWrite port bytes dt => exact exec_cellWrite_kept h port bytes dt
  | frameEnd port bytes err frags dt => exact exec_frameEnd_kept h port bytes err frags dt
  | learn => exact exec_learn_kept h
  | ageingSweep => exact exec_ageingSweep_kept h
  | cellTime => exact exec_cellTime_kept h
  | txFrameStart port dt => exact exec_txFrameStart_kept h port dt
  | preemption line sent dt => exact exec_preemption_kept h line sent dt
  | txFrameEnd port dt => exact exec_txFrameEnd_kept h port dt
  | revertStart dir => exact exec_revertStart_kept h dir
  | revertDrainMax dir cls => exact exec_revertDrainMax_kept h dir cls
  | revertEnable v dt => exact exec_revertEnable_kept h v dt
  | fdbNop v dt => exact exec_fdbNop_kept h v dt
  | fdbLookup v dt => exact exec_fdbLookup_kept h v dt
  | fdbInsert v dt => exact exec_fdbInsert_kept h v dt
  | fdbDelete v dt => exact exec_fdbDelete_kept h v dt
  | fdbFlush v dt => exact exec_fdbFlush_kept h v dt
  | fdbRead v dt => exact exec_fdbRead_kept h v dt
  | fdbCommandDone => exact exec_fdbCommandDone_kept h
  | edgeLinkChange port up speed full dt => exact exec_edgeLinkChange_kept h port up speed full dt
  | pauseReceive port bytes dt => exact exec_pauseReceive_kept h port bytes dt
  | pauseExpiry port cls => exact exec_pauseExpiry_kept h port cls
  | flowControlFrame port => exact exec_flowControlFrame_kept h port
  | fcRefresh port => exact exec_fcRefresh_kept h port
  | collision port dt => exact exec_collision_kept h port dt
  | hdBackoffExpiry port => exact exec_hdBackoffExpiry_kept h port
  | verifySend line => exact exec_verifySend_kept h line
  | verifyResponse line dt => exact exec_verifyResponse_kept h line dt
  | preemptConfigWrite line v dt => exact exec_preemptConfigWrite_kept h line v dt
  | drainExpiry port => exact exec_drainExpiry_kept h port
  | drainRewrite port v dt => exact exec_drainRewrite_kept h port v dt
  | mstClear v dt => exact exec_mstClear_kept h v dt
  | syncSend => exact exec_syncSend_kept h
  | syncReceive line bytes back dt => exact exec_syncReceive_kept h line bytes back dt
  | slewEnd => exact exec_slewEnd_kept h
  | syncTimeout => exact exec_syncTimeout_kept h
  | timeAdjust v dt => exact exec_timeAdjust_kept h v dt
  | rateWrite v dt => exact exec_rateWrite_kept h v dt
  | permitGrant v dt => exact exec_permitGrant_kept h v dt
  | permitLapse => exact exec_permitLapse_kept h
  | addendWrite v dt => exact exec_addendWrite_kept h v dt
  | mergeTimeout => exact exec_mergeTimeout_kept h
  | mergeWaitExpiry => exact exec_mergeWaitExpiry_kept h
  | correlationLatch v dt => exact exec_correlationLatch_kept h v dt
  | syncPinCapture pin level dt => exact exec_syncPinCapture_kept h pin level dt
  | syncCapturePop pin dt => exact exec_syncCapturePop_kept h pin dt
  | ppsPulse pin => exact exec_ppsPulse_kept h pin
  | ppsEnd pin => exact exec_ppsEnd_kept h pin
  | phaseReference dom kind dt => exact exec_phaseReference_kept h dom kind dt
  | referenceMiss dom => exact exec_referenceMiss_kept h dom
  | tachStill dom => exact exec_tachStill_kept h dom
  | pd0Limit => exact exec_pd0Limit_kept h
  | phaseOffsetWrite dom v dt => exact exec_phaseOffsetWrite_kept h dom v dt
  | carillonFire => exact exec_carillonFire_kept h
  | eventEntryWrite ev v dt => exact exec_eventEntryWrite_kept h ev v dt
  | canFrameReceive ch f len dt => exact exec_canFrameReceive_kept h ch f len dt
  | canTxRecord ring bytes dt => exact exec_canTxRecord_kept h ring bytes dt
  | canArbitration ch tdcv dt => exact exec_canArbitration_kept h ch tdcv dt
  | canTxAcknowledged ch dt => exact exec_canTxAcknowledged_kept h ch dt
  | canAckError ch dominant dt => exact exec_canAckError_kept h ch dominant dt
  | lonelyRetry ch => exact exec_lonelyRetry_kept h ch
  | canBusError ch kind transmitting flag dt => exact exec_canBusError_kept h ch kind transmitting flag dt
  | canRecover ch v dt => exact exec_canRecover_kept h ch v dt
  | canRecoveryDone ch => exact exec_canRecoveryDone_kept h ch
  | ttTxTrigger trig => exact exec_ttTxTrigger_kept h trig
  | ttWindowEnd => exact exec_ttWindowEnd_kept h
  | ttRxTrigger trig => exact exec_ttRxTrigger_kept h trig
  | ttArbTrigger trig => exact exec_ttArbTrigger_kept h trig
  | ttRefTrigger trig => exact exec_ttRefTrigger_kept h trig
  | ttWatchTrigger trig => exact exec_ttWatchTrigger_kept h trig
  | mailboxLoad ring bytes dt => exact exec_mailboxLoad_kept h ring bytes dt
  | filEthFrame => exact exec_filEthFrame_kept h
  | statusSample => exact exec_statusSample_kept h
  | hostWordWrite k v dt => exact exec_hostWordWrite_kept h k v dt
  | sourceJob => exact exec_sourceJob_kept h
  | changeEmissionDue tpl => exact exec_changeEmissionDue_kept h tpl
  | emission => exact exec_emission_kept h
  | filHold v dt => exact exec_filHold_kept h v dt
  | filRelease v dt => exact exec_filRelease_kept h v dt
  | senseSample inp bits dt => exact exec_senseSample_kept h inp bits dt
  | inputStuck inp level dt => exact exec_inputStuck_kept h inp level dt
  | hostConvert v dt => exact exec_hostConvert_kept h v dt
  | driveLevelWrite v dt => exact exec_driveLevelWrite_kept h v dt
  | drivePhasePass out => exact exec_drivePhasePass_kept h out
  | readbackDelayEnd out => exact exec_readbackDelayEnd_kept h out
  | readbackFault out => exact exec_readbackFault_kept h out
  | proveWindowOpen out => exact exec_proveWindowOpen_kept h out
  | doorbell ring v dt => exact exec_doorbell_kept h ring v dt
  | txDescriptorFetch ring descs dt => exact exec_txDescriptorFetch_kept h ring descs dt
  | txDataRead ring bytes dt => exact exec_txDataRead_kept h ring bytes dt
  | ringWrite => exact exec_ringWrite_kept h
  | stallWaitExpiry ring => exact exec_stallWaitExpiry_kept h ring
  | captureWrite => exact exec_captureWrite_kept h
  | moderationTimer ring => exact exec_moderationTimer_kept h ring
  | msixUnmask vec dt => exact exec_msixUnmask_kept h vec dt
  | miscAck v dt => exact exec_miscAck_kept h v dt
  | watchdogKick v dt => exact exec_watchdogKick_kept h v dt
  | watchdogExpiry => exact exec_watchdogExpiry_kept h
  | watchdogConfig v dt => exact exec_watchdogConfig_kept h v dt
  | hostDmaError kind ring addr cpl got dt => exact exec_hostDmaError_kept h kind ring addr cpl got dt
  | functionLevelReset dt => exact exec_functionLevelReset_kept h dt
  | pcieLinkDown dt => exact exec_pcieLinkDown_kept h dt
  | d3hotEntry dt => exact exec_d3hotEntry_kept h dt
  | busMasterClear dt => exact exec_busMasterClear_kept h dt
  | pcieLinkUp speed width payload readMax dt => exact exec_pcieLinkUp_kept h speed width payload readMax dt
  | bar4Write addr data dt => exact exec_bar4Write_kept h addr data dt
  | bar4Read addr enables dt => exact exec_bar4Read_kept h addr enables dt
  | localCycleEnd data parityOk dt => exact exec_localCycleEnd_kept h data parityOk dt
  | noReady => exact exec_noReady_kept h
  | readTimeout tag => exact exec_readTimeout_kept h tag
  | prefetchExpiry cs => exact exec_prefetchExpiry_kept h cs
  | busRequest dt => exact exec_busRequest_kept h dt
  | tenureEnd dt => exact exec_tenureEnd_kept h dt
  | tenureExpiry => exact exec_tenureExpiry_kept h
  | inboundWrite addr upper data parityOk dt => exact exec_inboundWrite_kept h addr upper data parityOk dt
  | inboundRead addr dt => exact exec_inboundRead_kept h addr dt
  | inboundFlush => exact exec_inboundFlush_kept h
  | lirqEdge n rising dt => exact exec_lirqEdge_kept h n rising dt
  | claspAcquire v dt => exact exec_claspAcquire_kept h v dt
  | claspRelease v dt => exact exec_claspRelease_kept h v dt
  | claspExpiry => exact exec_claspExpiry_kept h
  | errorLogPop dt => exact exec_errorLogPop_kept h dt
  | crcRestart u v dt => exact exec_crcRestart_kept h u v dt
  | crcSeed u v dt => exact exec_crcSeed_kept h u v dt
  | crcData8 u v dt => exact exec_crcData8_kept h u v dt
  | crcData16 u v dt => exact exec_crcData16_kept h u v dt
  | crcData32 u v dt => exact exec_crcData32_kept h u v dt
  | ilgilBlockLock g dt => exact exec_ilgilBlockLock_kept h g dt
  | ilgilHelloSend g => exact exec_ilgilHelloSend_kept h g
  | ilgilHelloReceive g bytes dt => exact exec_ilgilHelloReceive_kept h g bytes dt
  | cellUnitReceive g bytes dt => exact exec_cellUnitReceive_kept h g bytes dt
  | creditUnitReceive g bytes dt => exact exec_creditUnitReceive_kept h g bytes dt
  | creditUnitSend g => exact exec_creditUnitSend_kept h g
  | replayTimeout g => exact exec_replayTimeout_kept h g
  | ilgilLinkLoss g dt => exact exec_ilgilLinkLoss_kept h g dt
  | reachSend g => exact exec_reachSend_kept h g
  | reachReceive g bytes dt => exact exec_reachReceive_kept h g bytes dt
  | rebalance v dt => exact exec_rebalance_kept h v dt
  | timeUnitSend g => exact exec_timeUnitSend_kept h g
  | timeUnitReceive g bytes dt => exact exec_timeUnitReceive_kept h g bytes dt
  | ilgMgmtRead v dt => exact exec_ilgMgmtRead_kept h v dt
  | ilgMgmtWrite v dt => exact exec_ilgMgmtWrite_kept h v dt
  | mgmtRequestReceive g bytes dt => exact exec_mgmtRequestReceive_kept h g bytes dt
  | mgmtResponseReceive g bytes dt => exact exec_mgmtResponseReceive_kept h g bytes dt
  | mgmtTimeout => exact exec_mgmtTimeout_kept h
  | workerImageStart v dt => exact exec_workerImageStart_kept h v dt
  | workerImageAbort v dt => exact exec_workerImageAbort_kept h v dt
  | imageUnitReceive g bytes dt => exact exec_imageUnitReceive_kept h g bytes dt
  | imageResultReceive g bytes dt => exact exec_imageResultReceive_kept h g bytes dt
  | workerReport g bytes dt => exact exec_workerReport_kept h g bytes dt
  | workerGenWrite k v dt => exact exec_workerGenWrite_kept h k v dt
  | switchUnitReceive g bytes dt => exact exec_switchUnitReceive_kept h g bytes dt
  | heartbeatSend => exact exec_heartbeatSend_kept h
  | heartbeatReceive bytes dt => exact exec_heartbeatReceive_kept h bytes dt
  | heartbeatLoss => exact exec_heartbeatLoss_kept h
  | resignInChange level dt => exact exec_resignInChange_kept h level dt
  | claimWaitExpiry => exact exec_claimWaitExpiry_kept h
  | claimConfirm => exact exec_claimConfirm_kept h
  | peerDemand => exact exec_peerDemand_kept h
  | startClaim => exact exec_startClaim_kept h
  | redResignCmd v dt => exact exec_redResignCmd_kept h v dt
  | redSwapCmd v dt => exact exec_redSwapCmd_kept h v dt
  | redClaimCmd v dt => exact exec_redClaimCmd_kept h v dt
  | swapInstant => exact exec_swapInstant_kept h
  | swapOverdue => exact exec_swapOverdue_kept h
  | autoSwap => exact exec_autoSwap_kept h
  | pageProgramDone ok zeroOk dt => exact exec_pageProgramDone_kept h ok zeroOk dt
  | eraseDone ok zeroOk dt => exact exec_eraseDone_kept h ok zeroOk dt
  | powerFail dt => exact exec_powerFail_kept h dt
  | powerRestored dt => exact exec_powerRestored_kept h dt
  | freeze v dt => exact exec_freeze_kept h v dt
  | unfreeze v dt => exact exec_unfreeze_kept h v dt
  | freezeLapse => exact exec_freezeLapse_kept h
  | recordFetch v dt => exact exec_recordFetch_kept h v dt
  | recordFetchDone ok dt => exact exec_recordFetchDone_kept h ok dt
  | partitionWrite v dt => exact exec_partitionWrite_kept h v dt
  | operatingSecond dt => exact exec_operatingSecond_kept h dt
  | mainPowerOn straps dt => exact exec_mainPowerOn_kept h straps dt
  | mainPowerLoss vbak dt => exact exec_mainPowerLoss_kept h vbak dt
  | resetAssert pin dt => exact exec_resetAssert_kept h pin dt
  | resetEnd straps dt => exact exec_resetEnd_kept h straps dt
  | pllLock dt => exact exec_pllLock_kept h dt
  | memoryStepDone temp supply clk dt => exact exec_memoryStepDone_kept h temp supply clk dt
  | locketStep flashWorks dt => exact exec_locketStep_kept h flashWorks dt
  | phyResetWrite v dt => exact exec_phyResetWrite_kept h v dt
  | tapBypass dt => exact exec_tapBypass_kept h dt
  | tapIdcode dt => exact exec_tapIdcode_kept h dt
  | tapSamplePreload sampled preload dt => exact exec_tapSamplePreload_kept h sampled preload dt
  | tapExtest dt => exact exec_tapExtest_kept h dt
  | tapClamp dt => exact exec_tapClamp_kept h dt
  | tapHighz dt => exact exec_tapHighz_kept h dt
  | poresetRisingEdge straps dt => exact exec_poresetRisingEdge_kept h straps dt
  | rxDescriptorFetch ring descs dt => exact exec_rxDescriptorFetch_kept h ring descs dt
  | busMasterEnable dt => exact exec_busMasterEnable_kept h dt
  | couplerInputChange cpl level dt => exact exec_couplerInputChange_kept h cpl level dt
  | couplerFilterAccept cpl => exact exec_couplerFilterAccept_kept h cpl
  | inputUnstuck inp dt => exact exec_inputUnstuck_kept h inp dt
  | protocolExceptionExit ch dt => exact exec_protocolExceptionExit_kept h ch dt
  | carrierSense port carrier dt => exact exec_carrierSense_kept h port carrier dt
  | verifyFrameReceive line dt => exact exec_verifyFrameReceive_kept h line dt
  | eraseSuspended dt => exact exec_eraseSuspended_kept h dt
  | workerImageRead bytes dt => exact exec_workerImageRead_kept h bytes dt

end Sys2Proof.Machine
end

