-- ==== Sys2Proof/Laws/State.lean ====
section
/-! SUPPORT. One lemma per field per update: what an update leaves as it was, and what it makes of its own field. No later
proof unfolds an update of the state. -/
namespace Sys2Proof.Machine
variable {s : State}

@[simp] theorem setReg_pending {a w} : (s.setReg a w).pending = s.pending := rfl
@[simp] theorem setReg_cycle {a w} : (s.setReg a w).cycle = s.cycle := rfl
@[simp] theorem setReg_time {a w} : (s.setReg a w).time = s.time := rfl
@[simp] theorem setReg_timeInc {a w} : (s.setReg a w).timeInc = s.timeInc := rfl
@[simp] theorem setReg_doms {a w} : (s.setReg a w).doms = s.doms := rfl
@[simp] theorem setReg_snaps {a w} : (s.setReg a w).snaps = s.snaps := rfl
@[simp] theorem setReg_draws {a w} : (s.setReg a w).draws = s.draws := rfl
@[simp] theorem setReg_out {a w} : (s.setReg a w).out = s.out := rfl
@[simp] theorem setReg_roles {a w} : (s.setReg a w).roles = s.roles := rfl
@[simp] theorem setReg_image {a w} : (s.setReg a w).image = s.image := rfl
@[simp] theorem setReg_lkt {a w} : (s.setReg a w).lkt = s.lkt := rfl
@[simp] theorem setReg_pwr {a w} : (s.setReg a w).pwr = s.pwr := rfl
@[simp] theorem setReg_host {a w} : (s.setReg a w).host = s.host := rfl
@[simp] theorem setReg_fab {a w} : (s.setReg a w).fab = s.fab := rfl
@[simp] theorem setReg_mac {a w} : (s.setReg a w).mac = s.mac := rfl
@[simp] theorem setReg_seqs {a w} : (s.setReg a w).seqs = s.seqs := rfl
@[simp] theorem setReg_spr {a w} : (s.setReg a w).spr = s.spr := rfl
@[simp] theorem setReg_tim {a w} : (s.setReg a w).tim = s.tim := rfl
@[simp] theorem setReg_car {a w} : (s.setReg a w).car = s.car := rfl
@[simp] theorem setReg_ilg {a w} : (s.setReg a w).ilg = s.ilg := rfl
@[simp] theorem setReg_can {a w} : (s.setReg a w).can = s.can := rfl
@[simp] theorem setReg_fil {a w} : (s.setReg a w).fil = s.fil := rfl
@[simp] theorem setReg_sd {a w} : (s.setReg a w).sd = s.sd := rfl
@[simp] theorem setReg_lbb {a w} : (s.setReg a w).lbb = s.lbb := rfl
@[simp] theorem setReg_red {a w} : (s.setReg a w).red = s.red := rfl
@[simp] theorem setReg_todo {a w} : (s.setReg a w).todo = s.todo := rfl
@[simp] theorem setReg_soon {a w} : (s.setReg a w).soon = s.soon := rfl
@[simp] theorem setReg_now {a w} : (s.setReg a w).now = s.now := rfl

@[simp] theorem setR_pending {a v} : (setR a v s).pending = s.pending := rfl
@[simp] theorem setR_cycle {a v} : (setR a v s).cycle = s.cycle := rfl
@[simp] theorem setR_time {a v} : (setR a v s).time = s.time := rfl
@[simp] theorem setR_timeInc {a v} : (setR a v s).timeInc = s.timeInc := rfl
@[simp] theorem setR_doms {a v} : (setR a v s).doms = s.doms := rfl
@[simp] theorem setR_snaps {a v} : (setR a v s).snaps = s.snaps := rfl
@[simp] theorem setR_draws {a v} : (setR a v s).draws = s.draws := rfl
@[simp] theorem setR_out {a v} : (setR a v s).out = s.out := rfl
@[simp] theorem setR_roles {a v} : (setR a v s).roles = s.roles := rfl
@[simp] theorem setR_image {a v} : (setR a v s).image = s.image := rfl
@[simp] theorem setR_lkt {a v} : (setR a v s).lkt = s.lkt := rfl
@[simp] theorem setR_pwr {a v} : (setR a v s).pwr = s.pwr := rfl
@[simp] theorem setR_host {a v} : (setR a v s).host = s.host := rfl
@[simp] theorem setR_fab {a v} : (setR a v s).fab = s.fab := rfl
@[simp] theorem setR_mac {a v} : (setR a v s).mac = s.mac := rfl
@[simp] theorem setR_seqs {a v} : (setR a v s).seqs = s.seqs := rfl
@[simp] theorem setR_spr {a v} : (setR a v s).spr = s.spr := rfl
@[simp] theorem setR_tim {a v} : (setR a v s).tim = s.tim := rfl
@[simp] theorem setR_car {a v} : (setR a v s).car = s.car := rfl
@[simp] theorem setR_ilg {a v} : (setR a v s).ilg = s.ilg := rfl
@[simp] theorem setR_can {a v} : (setR a v s).can = s.can := rfl
@[simp] theorem setR_fil {a v} : (setR a v s).fil = s.fil := rfl
@[simp] theorem setR_sd {a v} : (setR a v s).sd = s.sd := rfl
@[simp] theorem setR_lbb {a v} : (setR a v s).lbb = s.lbb := rfl
@[simp] theorem setR_red {a v} : (setR a v s).red = s.red := rfl
@[simp] theorem setR_todo {a v} : (setR a v s).todo = s.todo := rfl
@[simp] theorem setR_soon {a v} : (setR a v s).soon = s.soon := rfl
@[simp] theorem setR_now {a v} : (setR a v s).now = s.now := rfl

@[simp] theorem setF_pending {f v} : (setF f v s).pending = s.pending := rfl
@[simp] theorem setF_cycle {f v} : (setF f v s).cycle = s.cycle := rfl
@[simp] theorem setF_time {f v} : (setF f v s).time = s.time := rfl
@[simp] theorem setF_timeInc {f v} : (setF f v s).timeInc = s.timeInc := rfl
@[simp] theorem setF_doms {f v} : (setF f v s).doms = s.doms := rfl
@[simp] theorem setF_snaps {f v} : (setF f v s).snaps = s.snaps := rfl
@[simp] theorem setF_draws {f v} : (setF f v s).draws = s.draws := rfl
@[simp] theorem setF_out {f v} : (setF f v s).out = s.out := rfl
@[simp] theorem setF_roles {f v} : (setF f v s).roles = s.roles := rfl
@[simp] theorem setF_image {f v} : (setF f v s).image = s.image := rfl
@[simp] theorem setF_lkt {f v} : (setF f v s).lkt = s.lkt := rfl
@[simp] theorem setF_pwr {f v} : (setF f v s).pwr = s.pwr := rfl
@[simp] theorem setF_host {f v} : (setF f v s).host = s.host := rfl
@[simp] theorem setF_fab {f v} : (setF f v s).fab = s.fab := rfl
@[simp] theorem setF_mac {f v} : (setF f v s).mac = s.mac := rfl
@[simp] theorem setF_seqs {f v} : (setF f v s).seqs = s.seqs := rfl
@[simp] theorem setF_spr {f v} : (setF f v s).spr = s.spr := rfl
@[simp] theorem setF_tim {f v} : (setF f v s).tim = s.tim := rfl
@[simp] theorem setF_car {f v} : (setF f v s).car = s.car := rfl
@[simp] theorem setF_ilg {f v} : (setF f v s).ilg = s.ilg := rfl
@[simp] theorem setF_can {f v} : (setF f v s).can = s.can := rfl
@[simp] theorem setF_fil {f v} : (setF f v s).fil = s.fil := rfl
@[simp] theorem setF_sd {f v} : (setF f v s).sd = s.sd := rfl
@[simp] theorem setF_lbb {f v} : (setF f v s).lbb = s.lbb := rfl
@[simp] theorem setF_red {f v} : (setF f v s).red = s.red := rfl
@[simp] theorem setF_todo {f v} : (setF f v s).todo = s.todo := rfl
@[simp] theorem setF_soon {f v} : (setF f v s).soon = s.soon := rfl
@[simp] theorem setF_now {f v} : (setF f v s).now = s.now := rfl

@[simp] theorem setI_pending {f v} : (setI f v s).pending = s.pending := rfl
@[simp] theorem setI_cycle {f v} : (setI f v s).cycle = s.cycle := rfl
@[simp] theorem setI_time {f v} : (setI f v s).time = s.time := rfl
@[simp] theorem setI_timeInc {f v} : (setI f v s).timeInc = s.timeInc := rfl
@[simp] theorem setI_doms {f v} : (setI f v s).doms = s.doms := rfl
@[simp] theorem setI_snaps {f v} : (setI f v s).snaps = s.snaps := rfl
@[simp] theorem setI_draws {f v} : (setI f v s).draws = s.draws := rfl
@[simp] theorem setI_out {f v} : (setI f v s).out = s.out := rfl
@[simp] theorem setI_roles {f v} : (setI f v s).roles = s.roles := rfl
@[simp] theorem setI_image {f v} : (setI f v s).image = s.image := rfl
@[simp] theorem setI_lkt {f v} : (setI f v s).lkt = s.lkt := rfl
@[simp] theorem setI_pwr {f v} : (setI f v s).pwr = s.pwr := rfl
@[simp] theorem setI_host {f v} : (setI f v s).host = s.host := rfl
@[simp] theorem setI_fab {f v} : (setI f v s).fab = s.fab := rfl
@[simp] theorem setI_mac {f v} : (setI f v s).mac = s.mac := rfl
@[simp] theorem setI_seqs {f v} : (setI f v s).seqs = s.seqs := rfl
@[simp] theorem setI_spr {f v} : (setI f v s).spr = s.spr := rfl
@[simp] theorem setI_tim {f v} : (setI f v s).tim = s.tim := rfl
@[simp] theorem setI_car {f v} : (setI f v s).car = s.car := rfl
@[simp] theorem setI_ilg {f v} : (setI f v s).ilg = s.ilg := rfl
@[simp] theorem setI_can {f v} : (setI f v s).can = s.can := rfl
@[simp] theorem setI_fil {f v} : (setI f v s).fil = s.fil := rfl
@[simp] theorem setI_sd {f v} : (setI f v s).sd = s.sd := rfl
@[simp] theorem setI_lbb {f v} : (setI f v s).lbb = s.lbb := rfl
@[simp] theorem setI_red {f v} : (setI f v s).red = s.red := rfl
@[simp] theorem setI_todo {f v} : (setI f v s).todo = s.todo := rfl
@[simp] theorem setI_soon {f v} : (setI f v s).soon = s.soon := rfl
@[simp] theorem setI_now {f v} : (setI f v s).now = s.now := rfl

@[simp] theorem latch_pending {f} : (latch f s).pending = s.pending := rfl
@[simp] theorem latch_cycle {f} : (latch f s).cycle = s.cycle := rfl
@[simp] theorem latch_time {f} : (latch f s).time = s.time := rfl
@[simp] theorem latch_timeInc {f} : (latch f s).timeInc = s.timeInc := rfl
@[simp] theorem latch_doms {f} : (latch f s).doms = s.doms := rfl
@[simp] theorem latch_snaps {f} : (latch f s).snaps = s.snaps := rfl
@[simp] theorem latch_draws {f} : (latch f s).draws = s.draws := rfl
@[simp] theorem latch_out {f} : (latch f s).out = s.out := rfl
@[simp] theorem latch_roles {f} : (latch f s).roles = s.roles := rfl
@[simp] theorem latch_image {f} : (latch f s).image = s.image := rfl
@[simp] theorem latch_lkt {f} : (latch f s).lkt = s.lkt := rfl
@[simp] theorem latch_pwr {f} : (latch f s).pwr = s.pwr := rfl
@[simp] theorem latch_host {f} : (latch f s).host = s.host := rfl
@[simp] theorem latch_fab {f} : (latch f s).fab = s.fab := rfl
@[simp] theorem latch_mac {f} : (latch f s).mac = s.mac := rfl
@[simp] theorem latch_seqs {f} : (latch f s).seqs = s.seqs := rfl
@[simp] theorem latch_spr {f} : (latch f s).spr = s.spr := rfl
@[simp] theorem latch_tim {f} : (latch f s).tim = s.tim := rfl
@[simp] theorem latch_car {f} : (latch f s).car = s.car := rfl
@[simp] theorem latch_ilg {f} : (latch f s).ilg = s.ilg := rfl
@[simp] theorem latch_can {f} : (latch f s).can = s.can := rfl
@[simp] theorem latch_fil {f} : (latch f s).fil = s.fil := rfl
@[simp] theorem latch_sd {f} : (latch f s).sd = s.sd := rfl
@[simp] theorem latch_lbb {f} : (latch f s).lbb = s.lbb := rfl
@[simp] theorem latch_red {f} : (latch f s).red = s.red := rfl
@[simp] theorem latch_todo {f} : (latch f s).todo = s.todo := rfl
@[simp] theorem latch_soon {f} : (latch f s).soon = s.soon := rfl

@[simp] theorem latchBits_pending {f v} : (latchBits f v s).pending = s.pending := rfl
@[simp] theorem latchBits_cycle {f v} : (latchBits f v s).cycle = s.cycle := rfl
@[simp] theorem latchBits_time {f v} : (latchBits f v s).time = s.time := rfl
@[simp] theorem latchBits_timeInc {f v} : (latchBits f v s).timeInc = s.timeInc := rfl
@[simp] theorem latchBits_doms {f v} : (latchBits f v s).doms = s.doms := rfl
@[simp] theorem latchBits_snaps {f v} : (latchBits f v s).snaps = s.snaps := rfl
@[simp] theorem latchBits_draws {f v} : (latchBits f v s).draws = s.draws := rfl
@[simp] theorem latchBits_out {f v} : (latchBits f v s).out = s.out := rfl
@[simp] theorem latchBits_roles {f v} : (latchBits f v s).roles = s.roles := rfl
@[simp] theorem latchBits_image {f v} : (latchBits f v s).image = s.image := rfl
@[simp] theorem latchBits_lkt {f v} : (latchBits f v s).lkt = s.lkt := rfl
@[simp] theorem latchBits_pwr {f v} : (latchBits f v s).pwr = s.pwr := rfl
@[simp] theorem latchBits_host {f v} : (latchBits f v s).host = s.host := rfl
@[simp] theorem latchBits_fab {f v} : (latchBits f v s).fab = s.fab := rfl
@[simp] theorem latchBits_mac {f v} : (latchBits f v s).mac = s.mac := rfl
@[simp] theorem latchBits_seqs {f v} : (latchBits f v s).seqs = s.seqs := rfl
@[simp] theorem latchBits_spr {f v} : (latchBits f v s).spr = s.spr := rfl
@[simp] theorem latchBits_tim {f v} : (latchBits f v s).tim = s.tim := rfl
@[simp] theorem latchBits_car {f v} : (latchBits f v s).car = s.car := rfl
@[simp] theorem latchBits_ilg {f v} : (latchBits f v s).ilg = s.ilg := rfl
@[simp] theorem latchBits_can {f v} : (latchBits f v s).can = s.can := rfl
@[simp] theorem latchBits_fil {f v} : (latchBits f v s).fil = s.fil := rfl
@[simp] theorem latchBits_sd {f v} : (latchBits f v s).sd = s.sd := rfl
@[simp] theorem latchBits_lbb {f v} : (latchBits f v s).lbb = s.lbb := rfl
@[simp] theorem latchBits_red {f v} : (latchBits f v s).red = s.red := rfl
@[simp] theorem latchBits_todo {f v} : (latchBits f v s).todo = s.todo := rfl
@[simp] theorem latchBits_soon {f v} : (latchBits f v s).soon = s.soon := rfl

@[simp] theorem countBy_pending {a n} : (countBy a n s).pending = s.pending := rfl
@[simp] theorem countBy_cycle {a n} : (countBy a n s).cycle = s.cycle := rfl
@[simp] theorem countBy_time {a n} : (countBy a n s).time = s.time := rfl
@[simp] theorem countBy_timeInc {a n} : (countBy a n s).timeInc = s.timeInc := rfl
@[simp] theorem countBy_doms {a n} : (countBy a n s).doms = s.doms := rfl
@[simp] theorem countBy_snaps {a n} : (countBy a n s).snaps = s.snaps := rfl
@[simp] theorem countBy_draws {a n} : (countBy a n s).draws = s.draws := rfl
@[simp] theorem countBy_out {a n} : (countBy a n s).out = s.out := rfl
@[simp] theorem countBy_roles {a n} : (countBy a n s).roles = s.roles := rfl
@[simp] theorem countBy_image {a n} : (countBy a n s).image = s.image := rfl
@[simp] theorem countBy_lkt {a n} : (countBy a n s).lkt = s.lkt := rfl
@[simp] theorem countBy_pwr {a n} : (countBy a n s).pwr = s.pwr := rfl
@[simp] theorem countBy_host {a n} : (countBy a n s).host = s.host := rfl
@[simp] theorem countBy_fab {a n} : (countBy a n s).fab = s.fab := rfl
@[simp] theorem countBy_mac {a n} : (countBy a n s).mac = s.mac := rfl
@[simp] theorem countBy_seqs {a n} : (countBy a n s).seqs = s.seqs := rfl
@[simp] theorem countBy_spr {a n} : (countBy a n s).spr = s.spr := rfl
@[simp] theorem countBy_tim {a n} : (countBy a n s).tim = s.tim := rfl
@[simp] theorem countBy_car {a n} : (countBy a n s).car = s.car := rfl
@[simp] theorem countBy_ilg {a n} : (countBy a n s).ilg = s.ilg := rfl
@[simp] theorem countBy_can {a n} : (countBy a n s).can = s.can := rfl
@[simp] theorem countBy_fil {a n} : (countBy a n s).fil = s.fil := rfl
@[simp] theorem countBy_sd {a n} : (countBy a n s).sd = s.sd := rfl
@[simp] theorem countBy_lbb {a n} : (countBy a n s).lbb = s.lbb := rfl
@[simp] theorem countBy_red {a n} : (countBy a n s).red = s.red := rfl
@[simp] theorem countBy_todo {a n} : (countBy a n s).todo = s.todo := rfl
@[simp] theorem countBy_soon {a n} : (countBy a n s).soon = s.soon := rfl

@[simp] theorem count_pending {a} : (count a s).pending = s.pending := rfl
@[simp] theorem count_cycle {a} : (count a s).cycle = s.cycle := rfl
@[simp] theorem count_time {a} : (count a s).time = s.time := rfl
@[simp] theorem count_timeInc {a} : (count a s).timeInc = s.timeInc := rfl
@[simp] theorem count_doms {a} : (count a s).doms = s.doms := rfl
@[simp] theorem count_snaps {a} : (count a s).snaps = s.snaps := rfl
@[simp] theorem count_draws {a} : (count a s).draws = s.draws := rfl
@[simp] theorem count_out {a} : (count a s).out = s.out := rfl
@[simp] theorem count_roles {a} : (count a s).roles = s.roles := rfl
@[simp] theorem count_image {a} : (count a s).image = s.image := rfl
@[simp] theorem count_lkt {a} : (count a s).lkt = s.lkt := rfl
@[simp] theorem count_pwr {a} : (count a s).pwr = s.pwr := rfl
@[simp] theorem count_host {a} : (count a s).host = s.host := rfl
@[simp] theorem count_fab {a} : (count a s).fab = s.fab := rfl
@[simp] theorem count_mac {a} : (count a s).mac = s.mac := rfl
@[simp] theorem count_seqs {a} : (count a s).seqs = s.seqs := rfl
@[simp] theorem count_spr {a} : (count a s).spr = s.spr := rfl
@[simp] theorem count_tim {a} : (count a s).tim = s.tim := rfl
@[simp] theorem count_car {a} : (count a s).car = s.car := rfl
@[simp] theorem count_ilg {a} : (count a s).ilg = s.ilg := rfl
@[simp] theorem count_can {a} : (count a s).can = s.can := rfl
@[simp] theorem count_fil {a} : (count a s).fil = s.fil := rfl
@[simp] theorem count_sd {a} : (count a s).sd = s.sd := rfl
@[simp] theorem count_lbb {a} : (count a s).lbb = s.lbb := rfl
@[simp] theorem count_red {a} : (count a s).red = s.red := rfl
@[simp] theorem count_todo {a} : (count a s).todo = s.todo := rfl
@[simp] theorem count_soon {a} : (count a s).soon = s.soon := rfl

@[simp] theorem emitOut_pending {o} : (emitOut o s).pending = s.pending := rfl
@[simp] theorem emitOut_cycle {o} : (emitOut o s).cycle = s.cycle := rfl
@[simp] theorem emitOut_time {o} : (emitOut o s).time = s.time := rfl
@[simp] theorem emitOut_timeInc {o} : (emitOut o s).timeInc = s.timeInc := rfl
@[simp] theorem emitOut_doms {o} : (emitOut o s).doms = s.doms := rfl
@[simp] theorem emitOut_regs {o} : (emitOut o s).regs = s.regs := rfl
@[simp] theorem emitOut_snaps {o} : (emitOut o s).snaps = s.snaps := rfl
@[simp] theorem emitOut_draws {o} : (emitOut o s).draws = s.draws := rfl
@[simp] theorem emitOut_roles {o} : (emitOut o s).roles = s.roles := rfl
@[simp] theorem emitOut_image {o} : (emitOut o s).image = s.image := rfl
@[simp] theorem emitOut_lkt {o} : (emitOut o s).lkt = s.lkt := rfl
@[simp] theorem emitOut_pwr {o} : (emitOut o s).pwr = s.pwr := rfl
@[simp] theorem emitOut_host {o} : (emitOut o s).host = s.host := rfl
@[simp] theorem emitOut_fab {o} : (emitOut o s).fab = s.fab := rfl
@[simp] theorem emitOut_mac {o} : (emitOut o s).mac = s.mac := rfl
@[simp] theorem emitOut_seqs {o} : (emitOut o s).seqs = s.seqs := rfl
@[simp] theorem emitOut_spr {o} : (emitOut o s).spr = s.spr := rfl
@[simp] theorem emitOut_tim {o} : (emitOut o s).tim = s.tim := rfl
@[simp] theorem emitOut_car {o} : (emitOut o s).car = s.car := rfl
@[simp] theorem emitOut_ilg {o} : (emitOut o s).ilg = s.ilg := rfl
@[simp] theorem emitOut_can {o} : (emitOut o s).can = s.can := rfl
@[simp] theorem emitOut_fil {o} : (emitOut o s).fil = s.fil := rfl
@[simp] theorem emitOut_sd {o} : (emitOut o s).sd = s.sd := rfl
@[simp] theorem emitOut_lbb {o} : (emitOut o s).lbb = s.lbb := rfl
@[simp] theorem emitOut_red {o} : (emitOut o s).red = s.red := rfl
@[simp] theorem emitOut_todo {o} : (emitOut o s).todo = s.todo := rfl
@[simp] theorem emitOut_soon {o} : (emitOut o s).soon = s.soon := rfl
@[simp] theorem emitOut_now {o} : (emitOut o s).now = s.now := rfl
@[simp] theorem emitOut_out {o} : (emitOut o s).out = o :: s.out := rfl

@[simp] theorem advance_pending {n} : (advance n s).pending = s.pending := rfl
@[simp] theorem advance_timeInc {n} : (advance n s).timeInc = s.timeInc := rfl
@[simp] theorem advance_regs {n} : (advance n s).regs = s.regs := rfl
@[simp] theorem advance_snaps {n} : (advance n s).snaps = s.snaps := rfl
@[simp] theorem advance_draws {n} : (advance n s).draws = s.draws := rfl
@[simp] theorem advance_out {n} : (advance n s).out = s.out := rfl
@[simp] theorem advance_roles {n} : (advance n s).roles = s.roles := rfl
@[simp] theorem advance_image {n} : (advance n s).image = s.image := rfl
@[simp] theorem advance_lkt {n} : (advance n s).lkt = s.lkt := rfl
@[simp] theorem advance_pwr {n} : (advance n s).pwr = s.pwr := rfl
@[simp] theorem advance_host {n} : (advance n s).host = s.host := rfl
@[simp] theorem advance_fab {n} : (advance n s).fab = s.fab := rfl
@[simp] theorem advance_mac {n} : (advance n s).mac = s.mac := rfl
@[simp] theorem advance_seqs {n} : (advance n s).seqs = s.seqs := rfl
@[simp] theorem advance_spr {n} : (advance n s).spr = s.spr := rfl
@[simp] theorem advance_tim {n} : (advance n s).tim = s.tim := rfl
@[simp] theorem advance_car {n} : (advance n s).car = s.car := rfl
@[simp] theorem advance_ilg {n} : (advance n s).ilg = s.ilg := rfl
@[simp] theorem advance_can {n} : (advance n s).can = s.can := rfl
@[simp] theorem advance_fil {n} : (advance n s).fil = s.fil := rfl
@[simp] theorem advance_sd {n} : (advance n s).sd = s.sd := rfl
@[simp] theorem advance_lbb {n} : (advance n s).lbb = s.lbb := rfl
@[simp] theorem advance_red {n} : (advance n s).red = s.red := rfl
@[simp] theorem advance_todo {n} : (advance n s).todo = s.todo := rfl
@[simp] theorem advance_soon {n} : (advance n s).soon = s.soon := rfl
@[simp] theorem advance_now {n} : (advance n s).now = s.now := rfl
@[simp] theorem advance_cycle {n} : (advance n s).cycle = s.cycle + n := rfl

@[simp] theorem advanceTo_pending {c} : (advanceTo c s).pending = s.pending := rfl
@[simp] theorem advanceTo_timeInc {c} : (advanceTo c s).timeInc = s.timeInc := rfl
@[simp] theorem advanceTo_regs {c} : (advanceTo c s).regs = s.regs := rfl
@[simp] theorem advanceTo_snaps {c} : (advanceTo c s).snaps = s.snaps := rfl
@[simp] theorem advanceTo_draws {c} : (advanceTo c s).draws = s.draws := rfl
@[simp] theorem advanceTo_out {c} : (advanceTo c s).out = s.out := rfl
@[simp] theorem advanceTo_roles {c} : (advanceTo c s).roles = s.roles := rfl
@[simp] theorem advanceTo_image {c} : (advanceTo c s).image = s.image := rfl
@[simp] theorem advanceTo_lkt {c} : (advanceTo c s).lkt = s.lkt := rfl
@[simp] theorem advanceTo_pwr {c} : (advanceTo c s).pwr = s.pwr := rfl
@[simp] theorem advanceTo_host {c} : (advanceTo c s).host = s.host := rfl
@[simp] theorem advanceTo_fab {c} : (advanceTo c s).fab = s.fab := rfl
@[simp] theorem advanceTo_mac {c} : (advanceTo c s).mac = s.mac := rfl
@[simp] theorem advanceTo_seqs {c} : (advanceTo c s).seqs = s.seqs := rfl
@[simp] theorem advanceTo_spr {c} : (advanceTo c s).spr = s.spr := rfl
@[simp] theorem advanceTo_tim {c} : (advanceTo c s).tim = s.tim := rfl
@[simp] theorem advanceTo_car {c} : (advanceTo c s).car = s.car := rfl
@[simp] theorem advanceTo_ilg {c} : (advanceTo c s).ilg = s.ilg := rfl
@[simp] theorem advanceTo_can {c} : (advanceTo c s).can = s.can := rfl
@[simp] theorem advanceTo_fil {c} : (advanceTo c s).fil = s.fil := rfl
@[simp] theorem advanceTo_sd {c} : (advanceTo c s).sd = s.sd := rfl
@[simp] theorem advanceTo_lbb {c} : (advanceTo c s).lbb = s.lbb := rfl
@[simp] theorem advanceTo_red {c} : (advanceTo c s).red = s.red := rfl
@[simp] theorem advanceTo_todo {c} : (advanceTo c s).todo = s.todo := rfl
@[simp] theorem advanceTo_soon {c} : (advanceTo c s).soon = s.soon := rfl
@[simp] theorem advanceTo_now {c} : (advanceTo c s).now = s.now := rfl
@[simp] theorem advanceTo_cycle {c} : (advanceTo c s).cycle = s.cycle + (c - s.cycle) := rfl

@[simp] theorem drawFree_pending : ((drawFree s).2).pending = s.pending := rfl
@[simp] theorem drawFree_cycle : ((drawFree s).2).cycle = s.cycle := rfl
@[simp] theorem drawFree_time : ((drawFree s).2).time = s.time := rfl
@[simp] theorem drawFree_timeInc : ((drawFree s).2).timeInc = s.timeInc := rfl
@[simp] theorem drawFree_doms : ((drawFree s).2).doms = s.doms := rfl
@[simp] theorem drawFree_regs : ((drawFree s).2).regs = s.regs := rfl
@[simp] theorem drawFree_snaps : ((drawFree s).2).snaps = s.snaps := rfl
@[simp] theorem drawFree_out : ((drawFree s).2).out = s.out := rfl
@[simp] theorem drawFree_roles : ((drawFree s).2).roles = s.roles := rfl
@[simp] theorem drawFree_image : ((drawFree s).2).image = s.image := rfl
@[simp] theorem drawFree_lkt : ((drawFree s).2).lkt = s.lkt := rfl
@[simp] theorem drawFree_pwr : ((drawFree s).2).pwr = s.pwr := rfl
@[simp] theorem drawFree_host : ((drawFree s).2).host = s.host := rfl
@[simp] theorem drawFree_fab : ((drawFree s).2).fab = s.fab := rfl
@[simp] theorem drawFree_mac : ((drawFree s).2).mac = s.mac := rfl
@[simp] theorem drawFree_seqs : ((drawFree s).2).seqs = s.seqs := rfl
@[simp] theorem drawFree_spr : ((drawFree s).2).spr = s.spr := rfl
@[simp] theorem drawFree_tim : ((drawFree s).2).tim = s.tim := rfl
@[simp] theorem drawFree_car : ((drawFree s).2).car = s.car := rfl
@[simp] theorem drawFree_ilg : ((drawFree s).2).ilg = s.ilg := rfl
@[simp] theorem drawFree_can : ((drawFree s).2).can = s.can := rfl
@[simp] theorem drawFree_fil : ((drawFree s).2).fil = s.fil := rfl
@[simp] theorem drawFree_sd : ((drawFree s).2).sd = s.sd := rfl
@[simp] theorem drawFree_lbb : ((drawFree s).2).lbb = s.lbb := rfl
@[simp] theorem drawFree_red : ((drawFree s).2).red = s.red := rfl
@[simp] theorem drawFree_todo : ((drawFree s).2).todo = s.todo := rfl
@[simp] theorem drawFree_soon : ((drawFree s).2).soon = s.soon := rfl
@[simp] theorem drawFree_now : ((drawFree s).2).now = s.now := rfl

@[simp] theorem withPending_cycle {l} : (s.withPending l).cycle = s.cycle := rfl
@[simp] theorem withPending_time {l} : (s.withPending l).time = s.time := rfl
@[simp] theorem withPending_timeInc {l} : (s.withPending l).timeInc = s.timeInc := rfl
@[simp] theorem withPending_doms {l} : (s.withPending l).doms = s.doms := rfl
@[simp] theorem withPending_regs {l} : (s.withPending l).regs = s.regs := rfl
@[simp] theorem withPending_snaps {l} : (s.withPending l).snaps = s.snaps := rfl
@[simp] theorem withPending_draws {l} : (s.withPending l).draws = s.draws := rfl
@[simp] theorem withPending_out {l} : (s.withPending l).out = s.out := rfl
@[simp] theorem withPending_roles {l} : (s.withPending l).roles = s.roles := rfl
@[simp] theorem withPending_image {l} : (s.withPending l).image = s.image := rfl
@[simp] theorem withPending_lkt {l} : (s.withPending l).lkt = s.lkt := rfl
@[simp] theorem withPending_pwr {l} : (s.withPending l).pwr = s.pwr := rfl
@[simp] theorem withPending_host {l} : (s.withPending l).host = s.host := rfl
@[simp] theorem withPending_fab {l} : (s.withPending l).fab = s.fab := rfl
@[simp] theorem withPending_mac {l} : (s.withPending l).mac = s.mac := rfl
@[simp] theorem withPending_seqs {l} : (s.withPending l).seqs = s.seqs := rfl
@[simp] theorem withPending_spr {l} : (s.withPending l).spr = s.spr := rfl
@[simp] theorem withPending_tim {l} : (s.withPending l).tim = s.tim := rfl
@[simp] theorem withPending_car {l} : (s.withPending l).car = s.car := rfl
@[simp] theorem withPending_ilg {l} : (s.withPending l).ilg = s.ilg := rfl
@[simp] theorem withPending_can {l} : (s.withPending l).can = s.can := rfl
@[simp] theorem withPending_fil {l} : (s.withPending l).fil = s.fil := rfl
@[simp] theorem withPending_sd {l} : (s.withPending l).sd = s.sd := rfl
@[simp] theorem withPending_lbb {l} : (s.withPending l).lbb = s.lbb := rfl
@[simp] theorem withPending_red {l} : (s.withPending l).red = s.red := rfl
@[simp] theorem withPending_todo {l} : (s.withPending l).todo = s.todo := rfl
@[simp] theorem withPending_soon {l} : (s.withPending l).soon = s.soon := rfl
@[simp] theorem withPending_now {l} : (s.withPending l).now = s.now := rfl
@[simp] theorem withPending_pending {l} : (s.withPending l).pending = l := rfl


@[simp] theorem setSnap_pending {a w} : (setSnap a w s).pending = s.pending := rfl
@[simp] theorem setSnap_cycle {a w} : (setSnap a w s).cycle = s.cycle := rfl
@[simp] theorem setSnap_time {a w} : (setSnap a w s).time = s.time := rfl
@[simp] theorem setSnap_timeInc {a w} : (setSnap a w s).timeInc = s.timeInc := rfl
@[simp] theorem setSnap_doms {a w} : (setSnap a w s).doms = s.doms := rfl
@[simp] theorem setSnap_regs {a w} : (setSnap a w s).regs = s.regs := rfl
@[simp] theorem setSnap_draws {a w} : (setSnap a w s).draws = s.draws := rfl
@[simp] theorem setSnap_out {a w} : (setSnap a w s).out = s.out := rfl
@[simp] theorem setSnap_roles {a w} : (setSnap a w s).roles = s.roles := rfl
@[simp] theorem setSnap_image {a w} : (setSnap a w s).image = s.image := rfl
@[simp] theorem setSnap_lkt {a w} : (setSnap a w s).lkt = s.lkt := rfl
@[simp] theorem setSnap_pwr {a w} : (setSnap a w s).pwr = s.pwr := rfl
@[simp] theorem setSnap_host {a w} : (setSnap a w s).host = s.host := rfl
@[simp] theorem setSnap_fab {a w} : (setSnap a w s).fab = s.fab := rfl
@[simp] theorem setSnap_mac {a w} : (setSnap a w s).mac = s.mac := rfl
@[simp] theorem setSnap_seqs {a w} : (setSnap a w s).seqs = s.seqs := rfl
@[simp] theorem setSnap_spr {a w} : (setSnap a w s).spr = s.spr := rfl
@[simp] theorem setSnap_tim {a w} : (setSnap a w s).tim = s.tim := rfl
@[simp] theorem setSnap_car {a w} : (setSnap a w s).car = s.car := rfl
@[simp] theorem setSnap_ilg {a w} : (setSnap a w s).ilg = s.ilg := rfl
@[simp] theorem setSnap_can {a w} : (setSnap a w s).can = s.can := rfl
@[simp] theorem setSnap_fil {a w} : (setSnap a w s).fil = s.fil := rfl
@[simp] theorem setSnap_sd {a w} : (setSnap a w s).sd = s.sd := rfl
@[simp] theorem setSnap_lbb {a w} : (setSnap a w s).lbb = s.lbb := rfl
@[simp] theorem setSnap_red {a w} : (setSnap a w s).red = s.red := rfl
@[simp] theorem setSnap_todo {a w} : (setSnap a w s).todo = s.todo := rfl
@[simp] theorem setSnap_soon {a w} : (setSnap a w s).soon = s.soon := rfl
@[simp] theorem setSnap_now {a w} : (setSnap a w s).now = s.now := rfl

@[simp] theorem modFab_pending {g} : (modFab g s).pending = s.pending := rfl
@[simp] theorem modFab_cycle {g} : (modFab g s).cycle = s.cycle := rfl
@[simp] theorem modFab_time {g} : (modFab g s).time = s.time := rfl
@[simp] theorem modFab_timeInc {g} : (modFab g s).timeInc = s.timeInc := rfl
@[simp] theorem modFab_doms {g} : (modFab g s).doms = s.doms := rfl
@[simp] theorem modFab_regs {g} : (modFab g s).regs = s.regs := rfl
@[simp] theorem modFab_snaps {g} : (modFab g s).snaps = s.snaps := rfl
@[simp] theorem modFab_draws {g} : (modFab g s).draws = s.draws := rfl
@[simp] theorem modFab_out {g} : (modFab g s).out = s.out := rfl
@[simp] theorem modFab_roles {g} : (modFab g s).roles = s.roles := rfl
@[simp] theorem modFab_image {g} : (modFab g s).image = s.image := rfl
@[simp] theorem modFab_lkt {g} : (modFab g s).lkt = s.lkt := rfl
@[simp] theorem modFab_pwr {g} : (modFab g s).pwr = s.pwr := rfl
@[simp] theorem modFab_host {g} : (modFab g s).host = s.host := rfl
@[simp] theorem modFab_mac {g} : (modFab g s).mac = s.mac := rfl
@[simp] theorem modFab_seqs {g} : (modFab g s).seqs = s.seqs := rfl
@[simp] theorem modFab_spr {g} : (modFab g s).spr = s.spr := rfl
@[simp] theorem modFab_tim {g} : (modFab g s).tim = s.tim := rfl
@[simp] theorem modFab_car {g} : (modFab g s).car = s.car := rfl
@[simp] theorem modFab_ilg {g} : (modFab g s).ilg = s.ilg := rfl
@[simp] theorem modFab_can {g} : (modFab g s).can = s.can := rfl
@[simp] theorem modFab_fil {g} : (modFab g s).fil = s.fil := rfl
@[simp] theorem modFab_sd {g} : (modFab g s).sd = s.sd := rfl
@[simp] theorem modFab_lbb {g} : (modFab g s).lbb = s.lbb := rfl
@[simp] theorem modFab_red {g} : (modFab g s).red = s.red := rfl
@[simp] theorem modFab_todo {g} : (modFab g s).todo = s.todo := rfl
@[simp] theorem modFab_soon {g} : (modFab g s).soon = s.soon := rfl
@[simp] theorem modFab_now {g} : (modFab g s).now = s.now := rfl
@[simp] theorem modFab_fab {g} : (modFab g s).fab = g s.fab := rfl

@[simp] theorem modHost_pending {g} : (modHost g s).pending = s.pending := rfl
@[simp] theorem modHost_cycle {g} : (modHost g s).cycle = s.cycle := rfl
@[simp] theorem modHost_time {g} : (modHost g s).time = s.time := rfl
@[simp] theorem modHost_timeInc {g} : (modHost g s).timeInc = s.timeInc := rfl
@[simp] theorem modHost_doms {g} : (modHost g s).doms = s.doms := rfl
@[simp] theorem modHost_regs {g} : (modHost g s).regs = s.regs := rfl
@[simp] theorem modHost_snaps {g} : (modHost g s).snaps = s.snaps := rfl
@[simp] theorem modHost_draws {g} : (modHost g s).draws = s.draws := rfl
@[simp] theorem modHost_out {g} : (modHost g s).out = s.out := rfl
@[simp] theorem modHost_roles {g} : (modHost g s).roles = s.roles := rfl
@[simp] theorem modHost_image {g} : (modHost g s).image = s.image := rfl
@[simp] theorem modHost_lkt {g} : (modHost g s).lkt = s.lkt := rfl
@[simp] theorem modHost_pwr {g} : (modHost g s).pwr = s.pwr := rfl
@[simp] theorem modHost_fab {g} : (modHost g s).fab = s.fab := rfl
@[simp] theorem modHost_mac {g} : (modHost g s).mac = s.mac := rfl
@[simp] theorem modHost_seqs {g} : (modHost g s).seqs = s.seqs := rfl
@[simp] theorem modHost_spr {g} : (modHost g s).spr = s.spr := rfl
@[simp] theorem modHost_tim {g} : (modHost g s).tim = s.tim := rfl
@[simp] theorem modHost_car {g} : (modHost g s).car = s.car := rfl
@[simp] theorem modHost_ilg {g} : (modHost g s).ilg = s.ilg := rfl
@[simp] theorem modHost_can {g} : (modHost g s).can = s.can := rfl
@[simp] theorem modHost_fil {g} : (modHost g s).fil = s.fil := rfl
@[simp] theorem modHost_sd {g} : (modHost g s).sd = s.sd := rfl
@[simp] theorem modHost_lbb {g} : (modHost g s).lbb = s.lbb := rfl
@[simp] theorem modHost_red {g} : (modHost g s).red = s.red := rfl
@[simp] theorem modHost_todo {g} : (modHost g s).todo = s.todo := rfl
@[simp] theorem modHost_soon {g} : (modHost g s).soon = s.soon := rfl
@[simp] theorem modHost_now {g} : (modHost g s).now = s.now := rfl
@[simp] theorem modHost_host {g} : (modHost g s).host = g s.host := rfl

@[simp] theorem modSpr_pending {g} : (modSpr g s).pending = s.pending := rfl
@[simp] theorem modSpr_cycle {g} : (modSpr g s).cycle = s.cycle := rfl
@[simp] theorem modSpr_time {g} : (modSpr g s).time = s.time := rfl
@[simp] theorem modSpr_timeInc {g} : (modSpr g s).timeInc = s.timeInc := rfl
@[simp] theorem modSpr_doms {g} : (modSpr g s).doms = s.doms := rfl
@[simp] theorem modSpr_regs {g} : (modSpr g s).regs = s.regs := rfl
@[simp] theorem modSpr_snaps {g} : (modSpr g s).snaps = s.snaps := rfl
@[simp] theorem modSpr_draws {g} : (modSpr g s).draws = s.draws := rfl
@[simp] theorem modSpr_out {g} : (modSpr g s).out = s.out := rfl
@[simp] theorem modSpr_roles {g} : (modSpr g s).roles = s.roles := rfl
@[simp] theorem modSpr_image {g} : (modSpr g s).image = s.image := rfl
@[simp] theorem modSpr_lkt {g} : (modSpr g s).lkt = s.lkt := rfl
@[simp] theorem modSpr_pwr {g} : (modSpr g s).pwr = s.pwr := rfl
@[simp] theorem modSpr_host {g} : (modSpr g s).host = s.host := rfl
@[simp] theorem modSpr_fab {g} : (modSpr g s).fab = s.fab := rfl
@[simp] theorem modSpr_mac {g} : (modSpr g s).mac = s.mac := rfl
@[simp] theorem modSpr_seqs {g} : (modSpr g s).seqs = s.seqs := rfl
@[simp] theorem modSpr_tim {g} : (modSpr g s).tim = s.tim := rfl
@[simp] theorem modSpr_car {g} : (modSpr g s).car = s.car := rfl
@[simp] theorem modSpr_ilg {g} : (modSpr g s).ilg = s.ilg := rfl
@[simp] theorem modSpr_can {g} : (modSpr g s).can = s.can := rfl
@[simp] theorem modSpr_fil {g} : (modSpr g s).fil = s.fil := rfl
@[simp] theorem modSpr_sd {g} : (modSpr g s).sd = s.sd := rfl
@[simp] theorem modSpr_lbb {g} : (modSpr g s).lbb = s.lbb := rfl
@[simp] theorem modSpr_red {g} : (modSpr g s).red = s.red := rfl
@[simp] theorem modSpr_todo {g} : (modSpr g s).todo = s.todo := rfl
@[simp] theorem modSpr_soon {g} : (modSpr g s).soon = s.soon := rfl
@[simp] theorem modSpr_now {g} : (modSpr g s).now = s.now := rfl
@[simp] theorem modSpr_spr {g} : (modSpr g s).spr = g s.spr := rfl

@[simp] theorem modIlg_pending {g} : (modIlg g s).pending = s.pending := rfl
@[simp] theorem modIlg_cycle {g} : (modIlg g s).cycle = s.cycle := rfl
@[simp] theorem modIlg_time {g} : (modIlg g s).time = s.time := rfl
@[simp] theorem modIlg_timeInc {g} : (modIlg g s).timeInc = s.timeInc := rfl
@[simp] theorem modIlg_doms {g} : (modIlg g s).doms = s.doms := rfl
@[simp] theorem modIlg_regs {g} : (modIlg g s).regs = s.regs := rfl
@[simp] theorem modIlg_snaps {g} : (modIlg g s).snaps = s.snaps := rfl
@[simp] theorem modIlg_draws {g} : (modIlg g s).draws = s.draws := rfl
@[simp] theorem modIlg_out {g} : (modIlg g s).out = s.out := rfl
@[simp] theorem modIlg_roles {g} : (modIlg g s).roles = s.roles := rfl
@[simp] theorem modIlg_image {g} : (modIlg g s).image = s.image := rfl
@[simp] theorem modIlg_lkt {g} : (modIlg g s).lkt = s.lkt := rfl
@[simp] theorem modIlg_pwr {g} : (modIlg g s).pwr = s.pwr := rfl
@[simp] theorem modIlg_host {g} : (modIlg g s).host = s.host := rfl
@[simp] theorem modIlg_fab {g} : (modIlg g s).fab = s.fab := rfl
@[simp] theorem modIlg_mac {g} : (modIlg g s).mac = s.mac := rfl
@[simp] theorem modIlg_seqs {g} : (modIlg g s).seqs = s.seqs := rfl
@[simp] theorem modIlg_spr {g} : (modIlg g s).spr = s.spr := rfl
@[simp] theorem modIlg_tim {g} : (modIlg g s).tim = s.tim := rfl
@[simp] theorem modIlg_car {g} : (modIlg g s).car = s.car := rfl
@[simp] theorem modIlg_can {g} : (modIlg g s).can = s.can := rfl
@[simp] theorem modIlg_fil {g} : (modIlg g s).fil = s.fil := rfl
@[simp] theorem modIlg_sd {g} : (modIlg g s).sd = s.sd := rfl
@[simp] theorem modIlg_lbb {g} : (modIlg g s).lbb = s.lbb := rfl
@[simp] theorem modIlg_red {g} : (modIlg g s).red = s.red := rfl
@[simp] theorem modIlg_todo {g} : (modIlg g s).todo = s.todo := rfl
@[simp] theorem modIlg_soon {g} : (modIlg g s).soon = s.soon := rfl
@[simp] theorem modIlg_now {g} : (modIlg g s).now = s.now := rfl
@[simp] theorem modIlg_ilg {g} : (modIlg g s).ilg = g s.ilg := rfl

@[simp] theorem modTim_pending {g} : (modTim g s).pending = s.pending := rfl
@[simp] theorem modTim_cycle {g} : (modTim g s).cycle = s.cycle := rfl
@[simp] theorem modTim_time {g} : (modTim g s).time = s.time := rfl
@[simp] theorem modTim_timeInc {g} : (modTim g s).timeInc = s.timeInc := rfl
@[simp] theorem modTim_doms {g} : (modTim g s).doms = s.doms := rfl
@[simp] theorem modTim_regs {g} : (modTim g s).regs = s.regs := rfl
@[simp] theorem modTim_snaps {g} : (modTim g s).snaps = s.snaps := rfl
@[simp] theorem modTim_draws {g} : (modTim g s).draws = s.draws := rfl
@[simp] theorem modTim_out {g} : (modTim g s).out = s.out := rfl
@[simp] theorem modTim_roles {g} : (modTim g s).roles = s.roles := rfl
@[simp] theorem modTim_image {g} : (modTim g s).image = s.image := rfl
@[simp] theorem modTim_lkt {g} : (modTim g s).lkt = s.lkt := rfl
@[simp] theorem modTim_pwr {g} : (modTim g s).pwr = s.pwr := rfl
@[simp] theorem modTim_host {g} : (modTim g s).host = s.host := rfl
@[simp] theorem modTim_fab {g} : (modTim g s).fab = s.fab := rfl
@[simp] theorem modTim_mac {g} : (modTim g s).mac = s.mac := rfl
@[simp] theorem modTim_seqs {g} : (modTim g s).seqs = s.seqs := rfl
@[simp] theorem modTim_spr {g} : (modTim g s).spr = s.spr := rfl
@[simp] theorem modTim_car {g} : (modTim g s).car = s.car := rfl
@[simp] theorem modTim_ilg {g} : (modTim g s).ilg = s.ilg := rfl
@[simp] theorem modTim_can {g} : (modTim g s).can = s.can := rfl
@[simp] theorem modTim_fil {g} : (modTim g s).fil = s.fil := rfl
@[simp] theorem modTim_sd {g} : (modTim g s).sd = s.sd := rfl
@[simp] theorem modTim_lbb {g} : (modTim g s).lbb = s.lbb := rfl
@[simp] theorem modTim_red {g} : (modTim g s).red = s.red := rfl
@[simp] theorem modTim_todo {g} : (modTim g s).todo = s.todo := rfl
@[simp] theorem modTim_soon {g} : (modTim g s).soon = s.soon := rfl
@[simp] theorem modTim_now {g} : (modTim g s).now = s.now := rfl
@[simp] theorem modTim_tim {g} : (modTim g s).tim = g s.tim := rfl

@[simp] theorem modCar_pending {g} : (modCar g s).pending = s.pending := rfl
@[simp] theorem modCar_cycle {g} : (modCar g s).cycle = s.cycle := rfl
@[simp] theorem modCar_time {g} : (modCar g s).time = s.time := rfl
@[simp] theorem modCar_timeInc {g} : (modCar g s).timeInc = s.timeInc := rfl
@[simp] theorem modCar_doms {g} : (modCar g s).doms = s.doms := rfl
@[simp] theorem modCar_regs {g} : (modCar g s).regs = s.regs := rfl
@[simp] theorem modCar_snaps {g} : (modCar g s).snaps = s.snaps := rfl
@[simp] theorem modCar_draws {g} : (modCar g s).draws = s.draws := rfl
@[simp] theorem modCar_out {g} : (modCar g s).out = s.out := rfl
@[simp] theorem modCar_roles {g} : (modCar g s).roles = s.roles := rfl
@[simp] theorem modCar_image {g} : (modCar g s).image = s.image := rfl
@[simp] theorem modCar_lkt {g} : (modCar g s).lkt = s.lkt := rfl
@[simp] theorem modCar_pwr {g} : (modCar g s).pwr = s.pwr := rfl
@[simp] theorem modCar_host {g} : (modCar g s).host = s.host := rfl
@[simp] theorem modCar_fab {g} : (modCar g s).fab = s.fab := rfl
@[simp] theorem modCar_mac {g} : (modCar g s).mac = s.mac := rfl
@[simp] theorem modCar_seqs {g} : (modCar g s).seqs = s.seqs := rfl
@[simp] theorem modCar_spr {g} : (modCar g s).spr = s.spr := rfl
@[simp] theorem modCar_tim {g} : (modCar g s).tim = s.tim := rfl
@[simp] theorem modCar_ilg {g} : (modCar g s).ilg = s.ilg := rfl
@[simp] theorem modCar_can {g} : (modCar g s).can = s.can := rfl
@[simp] theorem modCar_fil {g} : (modCar g s).fil = s.fil := rfl
@[simp] theorem modCar_sd {g} : (modCar g s).sd = s.sd := rfl
@[simp] theorem modCar_lbb {g} : (modCar g s).lbb = s.lbb := rfl
@[simp] theorem modCar_red {g} : (modCar g s).red = s.red := rfl
@[simp] theorem modCar_todo {g} : (modCar g s).todo = s.todo := rfl
@[simp] theorem modCar_soon {g} : (modCar g s).soon = s.soon := rfl
@[simp] theorem modCar_now {g} : (modCar g s).now = s.now := rfl
@[simp] theorem modCar_car {g} : (modCar g s).car = g s.car := rfl

@[simp] theorem modMac_pending {g} : (modMac g s).pending = s.pending := rfl
@[simp] theorem modMac_cycle {g} : (modMac g s).cycle = s.cycle := rfl
@[simp] theorem modMac_time {g} : (modMac g s).time = s.time := rfl
@[simp] theorem modMac_timeInc {g} : (modMac g s).timeInc = s.timeInc := rfl
@[simp] theorem modMac_doms {g} : (modMac g s).doms = s.doms := rfl
@[simp] theorem modMac_regs {g} : (modMac g s).regs = s.regs := rfl
@[simp] theorem modMac_snaps {g} : (modMac g s).snaps = s.snaps := rfl
@[simp] theorem modMac_draws {g} : (modMac g s).draws = s.draws := rfl
@[simp] theorem modMac_out {g} : (modMac g s).out = s.out := rfl
@[simp] theorem modMac_roles {g} : (modMac g s).roles = s.roles := rfl
@[simp] theorem modMac_image {g} : (modMac g s).image = s.image := rfl
@[simp] theorem modMac_lkt {g} : (modMac g s).lkt = s.lkt := rfl
@[simp] theorem modMac_pwr {g} : (modMac g s).pwr = s.pwr := rfl
@[simp] theorem modMac_host {g} : (modMac g s).host = s.host := rfl
@[simp] theorem modMac_fab {g} : (modMac g s).fab = s.fab := rfl
@[simp] theorem modMac_seqs {g} : (modMac g s).seqs = s.seqs := rfl
@[simp] theorem modMac_spr {g} : (modMac g s).spr = s.spr := rfl
@[simp] theorem modMac_tim {g} : (modMac g s).tim = s.tim := rfl
@[simp] theorem modMac_car {g} : (modMac g s).car = s.car := rfl
@[simp] theorem modMac_ilg {g} : (modMac g s).ilg = s.ilg := rfl
@[simp] theorem modMac_can {g} : (modMac g s).can = s.can := rfl
@[simp] theorem modMac_fil {g} : (modMac g s).fil = s.fil := rfl
@[simp] theorem modMac_sd {g} : (modMac g s).sd = s.sd := rfl
@[simp] theorem modMac_lbb {g} : (modMac g s).lbb = s.lbb := rfl
@[simp] theorem modMac_red {g} : (modMac g s).red = s.red := rfl
@[simp] theorem modMac_todo {g} : (modMac g s).todo = s.todo := rfl
@[simp] theorem modMac_soon {g} : (modMac g s).soon = s.soon := rfl
@[simp] theorem modMac_now {g} : (modMac g s).now = s.now := rfl
@[simp] theorem modMac_mac {g} : (modMac g s).mac = g s.mac := rfl

@[simp] theorem modFil_pending {g} : (modFil g s).pending = s.pending := rfl
@[simp] theorem modFil_cycle {g} : (modFil g s).cycle = s.cycle := rfl
@[simp] theorem modFil_time {g} : (modFil g s).time = s.time := rfl
@[simp] theorem modFil_timeInc {g} : (modFil g s).timeInc = s.timeInc := rfl
@[simp] theorem modFil_doms {g} : (modFil g s).doms = s.doms := rfl
@[simp] theorem modFil_regs {g} : (modFil g s).regs = s.regs := rfl
@[simp] theorem modFil_snaps {g} : (modFil g s).snaps = s.snaps := rfl
@[simp] theorem modFil_draws {g} : (modFil g s).draws = s.draws := rfl
@[simp] theorem modFil_out {g} : (modFil g s).out = s.out := rfl
@[simp] theorem modFil_roles {g} : (modFil g s).roles = s.roles := rfl
@[simp] theorem modFil_image {g} : (modFil g s).image = s.image := rfl
@[simp] theorem modFil_lkt {g} : (modFil g s).lkt = s.lkt := rfl
@[simp] theorem modFil_pwr {g} : (modFil g s).pwr = s.pwr := rfl
@[simp] theorem modFil_host {g} : (modFil g s).host = s.host := rfl
@[simp] theorem modFil_fab {g} : (modFil g s).fab = s.fab := rfl
@[simp] theorem modFil_mac {g} : (modFil g s).mac = s.mac := rfl
@[simp] theorem modFil_seqs {g} : (modFil g s).seqs = s.seqs := rfl
@[simp] theorem modFil_spr {g} : (modFil g s).spr = s.spr := rfl
@[simp] theorem modFil_tim {g} : (modFil g s).tim = s.tim := rfl
@[simp] theorem modFil_car {g} : (modFil g s).car = s.car := rfl
@[simp] theorem modFil_ilg {g} : (modFil g s).ilg = s.ilg := rfl
@[simp] theorem modFil_can {g} : (modFil g s).can = s.can := rfl
@[simp] theorem modFil_sd {g} : (modFil g s).sd = s.sd := rfl
@[simp] theorem modFil_lbb {g} : (modFil g s).lbb = s.lbb := rfl
@[simp] theorem modFil_red {g} : (modFil g s).red = s.red := rfl
@[simp] theorem modFil_todo {g} : (modFil g s).todo = s.todo := rfl
@[simp] theorem modFil_soon {g} : (modFil g s).soon = s.soon := rfl
@[simp] theorem modFil_now {g} : (modFil g s).now = s.now := rfl
@[simp] theorem modFil_fil {g} : (modFil g s).fil = g s.fil := rfl

@[simp] theorem modSd_pending {g} : (modSd g s).pending = s.pending := rfl
@[simp] theorem modSd_cycle {g} : (modSd g s).cycle = s.cycle := rfl
@[simp] theorem modSd_time {g} : (modSd g s).time = s.time := rfl
@[simp] theorem modSd_timeInc {g} : (modSd g s).timeInc = s.timeInc := rfl
@[simp] theorem modSd_doms {g} : (modSd g s).doms = s.doms := rfl
@[simp] theorem modSd_regs {g} : (modSd g s).regs = s.regs := rfl
@[simp] theorem modSd_snaps {g} : (modSd g s).snaps = s.snaps := rfl
@[simp] theorem modSd_draws {g} : (modSd g s).draws = s.draws := rfl
@[simp] theorem modSd_out {g} : (modSd g s).out = s.out := rfl
@[simp] theorem modSd_roles {g} : (modSd g s).roles = s.roles := rfl
@[simp] theorem modSd_image {g} : (modSd g s).image = s.image := rfl
@[simp] theorem modSd_lkt {g} : (modSd g s).lkt = s.lkt := rfl
@[simp] theorem modSd_pwr {g} : (modSd g s).pwr = s.pwr := rfl
@[simp] theorem modSd_host {g} : (modSd g s).host = s.host := rfl
@[simp] theorem modSd_fab {g} : (modSd g s).fab = s.fab := rfl
@[simp] theorem modSd_mac {g} : (modSd g s).mac = s.mac := rfl
@[simp] theorem modSd_seqs {g} : (modSd g s).seqs = s.seqs := rfl
@[simp] theorem modSd_spr {g} : (modSd g s).spr = s.spr := rfl
@[simp] theorem modSd_tim {g} : (modSd g s).tim = s.tim := rfl
@[simp] theorem modSd_car {g} : (modSd g s).car = s.car := rfl
@[simp] theorem modSd_ilg {g} : (modSd g s).ilg = s.ilg := rfl
@[simp] theorem modSd_can {g} : (modSd g s).can = s.can := rfl
@[simp] theorem modSd_fil {g} : (modSd g s).fil = s.fil := rfl
@[simp] theorem modSd_lbb {g} : (modSd g s).lbb = s.lbb := rfl
@[simp] theorem modSd_red {g} : (modSd g s).red = s.red := rfl
@[simp] theorem modSd_todo {g} : (modSd g s).todo = s.todo := rfl
@[simp] theorem modSd_soon {g} : (modSd g s).soon = s.soon := rfl
@[simp] theorem modSd_now {g} : (modSd g s).now = s.now := rfl
@[simp] theorem modSd_sd {g} : (modSd g s).sd = g s.sd := rfl

@[simp] theorem modLbb_pending {g} : (modLbb g s).pending = s.pending := rfl
@[simp] theorem modLbb_cycle {g} : (modLbb g s).cycle = s.cycle := rfl
@[simp] theorem modLbb_time {g} : (modLbb g s).time = s.time := rfl
@[simp] theorem modLbb_timeInc {g} : (modLbb g s).timeInc = s.timeInc := rfl
@[simp] theorem modLbb_doms {g} : (modLbb g s).doms = s.doms := rfl
@[simp] theorem modLbb_regs {g} : (modLbb g s).regs = s.regs := rfl
@[simp] theorem modLbb_snaps {g} : (modLbb g s).snaps = s.snaps := rfl
@[simp] theorem modLbb_draws {g} : (modLbb g s).draws = s.draws := rfl
@[simp] theorem modLbb_out {g} : (modLbb g s).out = s.out := rfl
@[simp] theorem modLbb_roles {g} : (modLbb g s).roles = s.roles := rfl
@[simp] theorem modLbb_image {g} : (modLbb g s).image = s.image := rfl
@[simp] theorem modLbb_lkt {g} : (modLbb g s).lkt = s.lkt := rfl
@[simp] theorem modLbb_pwr {g} : (modLbb g s).pwr = s.pwr := rfl
@[simp] theorem modLbb_host {g} : (modLbb g s).host = s.host := rfl
@[simp] theorem modLbb_fab {g} : (modLbb g s).fab = s.fab := rfl
@[simp] theorem modLbb_mac {g} : (modLbb g s).mac = s.mac := rfl
@[simp] theorem modLbb_seqs {g} : (modLbb g s).seqs = s.seqs := rfl
@[simp] theorem modLbb_spr {g} : (modLbb g s).spr = s.spr := rfl
@[simp] theorem modLbb_tim {g} : (modLbb g s).tim = s.tim := rfl
@[simp] theorem modLbb_car {g} : (modLbb g s).car = s.car := rfl
@[simp] theorem modLbb_ilg {g} : (modLbb g s).ilg = s.ilg := rfl
@[simp] theorem modLbb_can {g} : (modLbb g s).can = s.can := rfl
@[simp] theorem modLbb_fil {g} : (modLbb g s).fil = s.fil := rfl
@[simp] theorem modLbb_sd {g} : (modLbb g s).sd = s.sd := rfl
@[simp] theorem modLbb_red {g} : (modLbb g s).red = s.red := rfl
@[simp] theorem modLbb_todo {g} : (modLbb g s).todo = s.todo := rfl
@[simp] theorem modLbb_soon {g} : (modLbb g s).soon = s.soon := rfl
@[simp] theorem modLbb_now {g} : (modLbb g s).now = s.now := rfl
@[simp] theorem modLbb_lbb {g} : (modLbb g s).lbb = g s.lbb := rfl

@[simp] theorem modRed_pending {g} : (modRed g s).pending = s.pending := rfl
@[simp] theorem modRed_cycle {g} : (modRed g s).cycle = s.cycle := rfl
@[simp] theorem modRed_time {g} : (modRed g s).time = s.time := rfl
@[simp] theorem modRed_timeInc {g} : (modRed g s).timeInc = s.timeInc := rfl
@[simp] theorem modRed_doms {g} : (modRed g s).doms = s.doms := rfl
@[simp] theorem modRed_regs {g} : (modRed g s).regs = s.regs := rfl
@[simp] theorem modRed_snaps {g} : (modRed g s).snaps = s.snaps := rfl
@[simp] theorem modRed_draws {g} : (modRed g s).draws = s.draws := rfl
@[simp] theorem modRed_out {g} : (modRed g s).out = s.out := rfl
@[simp] theorem modRed_roles {g} : (modRed g s).roles = s.roles := rfl
@[simp] theorem modRed_image {g} : (modRed g s).image = s.image := rfl
@[simp] theorem modRed_lkt {g} : (modRed g s).lkt = s.lkt := rfl
@[simp] theorem modRed_pwr {g} : (modRed g s).pwr = s.pwr := rfl
@[simp] theorem modRed_host {g} : (modRed g s).host = s.host := rfl
@[simp] theorem modRed_fab {g} : (modRed g s).fab = s.fab := rfl
@[simp] theorem modRed_mac {g} : (modRed g s).mac = s.mac := rfl
@[simp] theorem modRed_seqs {g} : (modRed g s).seqs = s.seqs := rfl
@[simp] theorem modRed_spr {g} : (modRed g s).spr = s.spr := rfl
@[simp] theorem modRed_tim {g} : (modRed g s).tim = s.tim := rfl
@[simp] theorem modRed_car {g} : (modRed g s).car = s.car := rfl
@[simp] theorem modRed_ilg {g} : (modRed g s).ilg = s.ilg := rfl
@[simp] theorem modRed_can {g} : (modRed g s).can = s.can := rfl
@[simp] theorem modRed_fil {g} : (modRed g s).fil = s.fil := rfl
@[simp] theorem modRed_sd {g} : (modRed g s).sd = s.sd := rfl
@[simp] theorem modRed_lbb {g} : (modRed g s).lbb = s.lbb := rfl
@[simp] theorem modRed_todo {g} : (modRed g s).todo = s.todo := rfl
@[simp] theorem modRed_soon {g} : (modRed g s).soon = s.soon := rfl
@[simp] theorem modRed_now {g} : (modRed g s).now = s.now := rfl
@[simp] theorem modRed_red {g} : (modRed g s).red = g s.red := rfl

@[simp] theorem modLkt_pending {g} : (modLkt g s).pending = s.pending := rfl
@[simp] theorem modLkt_cycle {g} : (modLkt g s).cycle = s.cycle := rfl
@[simp] theorem modLkt_time {g} : (modLkt g s).time = s.time := rfl
@[simp] theorem modLkt_timeInc {g} : (modLkt g s).timeInc = s.timeInc := rfl
@[simp] theorem modLkt_doms {g} : (modLkt g s).doms = s.doms := rfl
@[simp] theorem modLkt_regs {g} : (modLkt g s).regs = s.regs := rfl
@[simp] theorem modLkt_snaps {g} : (modLkt g s).snaps = s.snaps := rfl
@[simp] theorem modLkt_draws {g} : (modLkt g s).draws = s.draws := rfl
@[simp] theorem modLkt_out {g} : (modLkt g s).out = s.out := rfl
@[simp] theorem modLkt_roles {g} : (modLkt g s).roles = s.roles := rfl
@[simp] theorem modLkt_image {g} : (modLkt g s).image = s.image := rfl
@[simp] theorem modLkt_pwr {g} : (modLkt g s).pwr = s.pwr := rfl
@[simp] theorem modLkt_host {g} : (modLkt g s).host = s.host := rfl
@[simp] theorem modLkt_fab {g} : (modLkt g s).fab = s.fab := rfl
@[simp] theorem modLkt_mac {g} : (modLkt g s).mac = s.mac := rfl
@[simp] theorem modLkt_seqs {g} : (modLkt g s).seqs = s.seqs := rfl
@[simp] theorem modLkt_spr {g} : (modLkt g s).spr = s.spr := rfl
@[simp] theorem modLkt_tim {g} : (modLkt g s).tim = s.tim := rfl
@[simp] theorem modLkt_car {g} : (modLkt g s).car = s.car := rfl
@[simp] theorem modLkt_ilg {g} : (modLkt g s).ilg = s.ilg := rfl
@[simp] theorem modLkt_can {g} : (modLkt g s).can = s.can := rfl
@[simp] theorem modLkt_fil {g} : (modLkt g s).fil = s.fil := rfl
@[simp] theorem modLkt_sd {g} : (modLkt g s).sd = s.sd := rfl
@[simp] theorem modLkt_lbb {g} : (modLkt g s).lbb = s.lbb := rfl
@[simp] theorem modLkt_red {g} : (modLkt g s).red = s.red := rfl
@[simp] theorem modLkt_todo {g} : (modLkt g s).todo = s.todo := rfl
@[simp] theorem modLkt_soon {g} : (modLkt g s).soon = s.soon := rfl
@[simp] theorem modLkt_now {g} : (modLkt g s).now = s.now := rfl
@[simp] theorem modLkt_lkt {g} : (modLkt g s).lkt = g s.lkt := rfl

@[simp] theorem modPwr_pending {g} : (modPwr g s).pending = s.pending := rfl
@[simp] theorem modPwr_cycle {g} : (modPwr g s).cycle = s.cycle := rfl
@[simp] theorem modPwr_time {g} : (modPwr g s).time = s.time := rfl
@[simp] theorem modPwr_timeInc {g} : (modPwr g s).timeInc = s.timeInc := rfl
@[simp] theorem modPwr_doms {g} : (modPwr g s).doms = s.doms := rfl
@[simp] theorem modPwr_regs {g} : (modPwr g s).regs = s.regs := rfl
@[simp] theorem modPwr_snaps {g} : (modPwr g s).snaps = s.snaps := rfl
@[simp] theorem modPwr_draws {g} : (modPwr g s).draws = s.draws := rfl
@[simp] theorem modPwr_out {g} : (modPwr g s).out = s.out := rfl
@[simp] theorem modPwr_roles {g} : (modPwr g s).roles = s.roles := rfl
@[simp] theorem modPwr_image {g} : (modPwr g s).image = s.image := rfl
@[simp] theorem modPwr_lkt {g} : (modPwr g s).lkt = s.lkt := rfl
@[simp] theorem modPwr_host {g} : (modPwr g s).host = s.host := rfl
@[simp] theorem modPwr_fab {g} : (modPwr g s).fab = s.fab := rfl
@[simp] theorem modPwr_mac {g} : (modPwr g s).mac = s.mac := rfl
@[simp] theorem modPwr_seqs {g} : (modPwr g s).seqs = s.seqs := rfl
@[simp] theorem modPwr_spr {g} : (modPwr g s).spr = s.spr := rfl
@[simp] theorem modPwr_tim {g} : (modPwr g s).tim = s.tim := rfl
@[simp] theorem modPwr_car {g} : (modPwr g s).car = s.car := rfl
@[simp] theorem modPwr_ilg {g} : (modPwr g s).ilg = s.ilg := rfl
@[simp] theorem modPwr_can {g} : (modPwr g s).can = s.can := rfl
@[simp] theorem modPwr_fil {g} : (modPwr g s).fil = s.fil := rfl
@[simp] theorem modPwr_sd {g} : (modPwr g s).sd = s.sd := rfl
@[simp] theorem modPwr_lbb {g} : (modPwr g s).lbb = s.lbb := rfl
@[simp] theorem modPwr_red {g} : (modPwr g s).red = s.red := rfl
@[simp] theorem modPwr_todo {g} : (modPwr g s).todo = s.todo := rfl
@[simp] theorem modPwr_soon {g} : (modPwr g s).soon = s.soon := rfl
@[simp] theorem modPwr_now {g} : (modPwr g s).now = s.now := rfl
@[simp] theorem modPwr_pwr {g} : (modPwr g s).pwr = g s.pwr := rfl

@[simp] theorem modRoles_pending {g} : (modRoles g s).pending = s.pending := rfl
@[simp] theorem modRoles_cycle {g} : (modRoles g s).cycle = s.cycle := rfl
@[simp] theorem modRoles_time {g} : (modRoles g s).time = s.time := rfl
@[simp] theorem modRoles_timeInc {g} : (modRoles g s).timeInc = s.timeInc := rfl
@[simp] theorem modRoles_doms {g} : (modRoles g s).doms = s.doms := rfl
@[simp] theorem modRoles_regs {g} : (modRoles g s).regs = s.regs := rfl
@[simp] theorem modRoles_snaps {g} : (modRoles g s).snaps = s.snaps := rfl
@[simp] theorem modRoles_draws {g} : (modRoles g s).draws = s.draws := rfl
@[simp] theorem modRoles_out {g} : (modRoles g s).out = s.out := rfl
@[simp] theorem modRoles_image {g} : (modRoles g s).image = s.image := rfl
@[simp] theorem modRoles_lkt {g} : (modRoles g s).lkt = s.lkt := rfl
@[simp] theorem modRoles_pwr {g} : (modRoles g s).pwr = s.pwr := rfl
@[simp] theorem modRoles_host {g} : (modRoles g s).host = s.host := rfl
@[simp] theorem modRoles_fab {g} : (modRoles g s).fab = s.fab := rfl
@[simp] theorem modRoles_mac {g} : (modRoles g s).mac = s.mac := rfl
@[simp] theorem modRoles_seqs {g} : (modRoles g s).seqs = s.seqs := rfl
@[simp] theorem modRoles_spr {g} : (modRoles g s).spr = s.spr := rfl
@[simp] theorem modRoles_tim {g} : (modRoles g s).tim = s.tim := rfl
@[simp] theorem modRoles_car {g} : (modRoles g s).car = s.car := rfl
@[simp] theorem modRoles_ilg {g} : (modRoles g s).ilg = s.ilg := rfl
@[simp] theorem modRoles_can {g} : (modRoles g s).can = s.can := rfl
@[simp] theorem modRoles_fil {g} : (modRoles g s).fil = s.fil := rfl
@[simp] theorem modRoles_sd {g} : (modRoles g s).sd = s.sd := rfl
@[simp] theorem modRoles_lbb {g} : (modRoles g s).lbb = s.lbb := rfl
@[simp] theorem modRoles_red {g} : (modRoles g s).red = s.red := rfl
@[simp] theorem modRoles_todo {g} : (modRoles g s).todo = s.todo := rfl
@[simp] theorem modRoles_soon {g} : (modRoles g s).soon = s.soon := rfl
@[simp] theorem modRoles_now {g} : (modRoles g s).now = s.now := rfl
@[simp] theorem modRoles_roles {g} : (modRoles g s).roles = g s.roles := rfl

@[simp] theorem modImage_pending {g} : (modImage g s).pending = s.pending := rfl
@[simp] theorem modImage_cycle {g} : (modImage g s).cycle = s.cycle := rfl
@[simp] theorem modImage_time {g} : (modImage g s).time = s.time := rfl
@[simp] theorem modImage_timeInc {g} : (modImage g s).timeInc = s.timeInc := rfl
@[simp] theorem modImage_doms {g} : (modImage g s).doms = s.doms := rfl
@[simp] theorem modImage_regs {g} : (modImage g s).regs = s.regs := rfl
@[simp] theorem modImage_snaps {g} : (modImage g s).snaps = s.snaps := rfl
@[simp] theorem modImage_draws {g} : (modImage g s).draws = s.draws := rfl
@[simp] theorem modImage_out {g} : (modImage g s).out = s.out := rfl
@[simp] theorem modImage_roles {g} : (modImage g s).roles = s.roles := rfl
@[simp] theorem modImage_lkt {g} : (modImage g s).lkt = s.lkt := rfl
@[simp] theorem modImage_pwr {g} : (modImage g s).pwr = s.pwr := rfl
@[simp] theorem modImage_host {g} : (modImage g s).host = s.host := rfl
@[simp] theorem modImage_fab {g} : (modImage g s).fab = s.fab := rfl
@[simp] theorem modImage_mac {g} : (modImage g s).mac = s.mac := rfl
@[simp] theorem modImage_seqs {g} : (modImage g s).seqs = s.seqs := rfl
@[simp] theorem modImage_spr {g} : (modImage g s).spr = s.spr := rfl
@[simp] theorem modImage_tim {g} : (modImage g s).tim = s.tim := rfl
@[simp] theorem modImage_car {g} : (modImage g s).car = s.car := rfl
@[simp] theorem modImage_ilg {g} : (modImage g s).ilg = s.ilg := rfl
@[simp] theorem modImage_can {g} : (modImage g s).can = s.can := rfl
@[simp] theorem modImage_fil {g} : (modImage g s).fil = s.fil := rfl
@[simp] theorem modImage_sd {g} : (modImage g s).sd = s.sd := rfl
@[simp] theorem modImage_lbb {g} : (modImage g s).lbb = s.lbb := rfl
@[simp] theorem modImage_red {g} : (modImage g s).red = s.red := rfl
@[simp] theorem modImage_todo {g} : (modImage g s).todo = s.todo := rfl
@[simp] theorem modImage_soon {g} : (modImage g s).soon = s.soon := rfl
@[simp] theorem modImage_now {g} : (modImage g s).now = s.now := rfl
@[simp] theorem modImage_image {g} : (modImage g s).image = g s.image := rfl

/-! ### Registers and fields where the register file is untouched -/

@[simp] theorem emitOut_reg {o x} : (emitOut o s).reg x = s.reg x := rfl
@[simp] theorem emitOut_getF {o x} : (emitOut o s).getF x = s.getF x := rfl
@[simp] theorem emitOut_on {o x} : (emitOut o s).on x = s.on x := rfl
@[simp] theorem advance_reg {n x} : (advance n s).reg x = s.reg x := rfl
@[simp] theorem advance_getF {n x} : (advance n s).getF x = s.getF x := rfl
@[simp] theorem advance_on {n x} : (advance n s).on x = s.on x := rfl
@[simp] theorem advanceTo_reg {c x} : (advanceTo c s).reg x = s.reg x := rfl
@[simp] theorem advanceTo_getF {c x} : (advanceTo c s).getF x = s.getF x := rfl
@[simp] theorem advanceTo_on {c x} : (advanceTo c s).on x = s.on x := rfl
@[simp] theorem drawFree_reg {x} : ((drawFree s).2).reg x = s.reg x := rfl
@[simp] theorem drawFree_getF {x} : ((drawFree s).2).getF x = s.getF x := rfl
@[simp] theorem drawFree_on {x} : ((drawFree s).2).on x = s.on x := rfl
@[simp] theorem withPending_reg {l x} : (s.withPending l).reg x = s.reg x := rfl
@[simp] theorem withPending_getF {l x} : (s.withPending l).getF x = s.getF x := rfl
@[simp] theorem withPending_on {l x} : (s.withPending l).on x = s.on x := rfl
@[simp] theorem setSnap_reg {a w x} : (setSnap a w s).reg x = s.reg x := rfl
@[simp] theorem setSnap_getF {a w x} : (setSnap a w s).getF x = s.getF x := rfl
@[simp] theorem setSnap_on {a w x} : (setSnap a w s).on x = s.on x := rfl
@[simp] theorem modFab_reg {g x} : (modFab g s).reg x = s.reg x := rfl
@[simp] theorem modFab_getF {g x} : (modFab g s).getF x = s.getF x := rfl
@[simp] theorem modFab_on {g x} : (modFab g s).on x = s.on x := rfl
@[simp] theorem modHost_reg {g x} : (modHost g s).reg x = s.reg x := rfl
@[simp] theorem modHost_getF {g x} : (modHost g s).getF x = s.getF x := rfl
@[simp] theorem modHost_on {g x} : (modHost g s).on x = s.on x := rfl
@[simp] theorem modSpr_reg {g x} : (modSpr g s).reg x = s.reg x := rfl
@[simp] theorem modSpr_getF {g x} : (modSpr g s).getF x = s.getF x := rfl
@[simp] theorem modSpr_on {g x} : (modSpr g s).on x = s.on x := rfl
@[simp] theorem modIlg_reg {g x} : (modIlg g s).reg x = s.reg x := rfl
@[simp] theorem modIlg_getF {g x} : (modIlg g s).getF x = s.getF x := rfl
@[simp] theorem modIlg_on {g x} : (modIlg g s).on x = s.on x := rfl
@[simp] theorem modTim_reg {g x} : (modTim g s).reg x = s.reg x := rfl
@[simp] theorem modTim_getF {g x} : (modTim g s).getF x = s.getF x := rfl
@[simp] theorem modTim_on {g x} : (modTim g s).on x = s.on x := rfl
@[simp] theorem modCar_reg {g x} : (modCar g s).reg x = s.reg x := rfl
@[simp] theorem modCar_getF {g x} : (modCar g s).getF x = s.getF x := rfl
@[simp] theorem modCar_on {g x} : (modCar g s).on x = s.on x := rfl
@[simp] theorem modMac_reg {g x} : (modMac g s).reg x = s.reg x := rfl
@[simp] theorem modMac_getF {g x} : (modMac g s).getF x = s.getF x := rfl
@[simp] theorem modMac_on {g x} : (modMac g s).on x = s.on x := rfl
@[simp] theorem modFil_reg {g x} : (modFil g s).reg x = s.reg x := rfl
@[simp] theorem modFil_getF {g x} : (modFil g s).getF x = s.getF x := rfl
@[simp] theorem modFil_on {g x} : (modFil g s).on x = s.on x := rfl
@[simp] theorem modSd_reg {g x} : (modSd g s).reg x = s.reg x := rfl
@[simp] theorem modSd_getF {g x} : (modSd g s).getF x = s.getF x := rfl
@[simp] theorem modSd_on {g x} : (modSd g s).on x = s.on x := rfl
@[simp] theorem modLbb_reg {g x} : (modLbb g s).reg x = s.reg x := rfl
@[simp] theorem modLbb_getF {g x} : (modLbb g s).getF x = s.getF x := rfl
@[simp] theorem modLbb_on {g x} : (modLbb g s).on x = s.on x := rfl
@[simp] theorem modRed_reg {g x} : (modRed g s).reg x = s.reg x := rfl
@[simp] theorem modRed_getF {g x} : (modRed g s).getF x = s.getF x := rfl
@[simp] theorem modRed_on {g x} : (modRed g s).on x = s.on x := rfl
@[simp] theorem modLkt_reg {g x} : (modLkt g s).reg x = s.reg x := rfl
@[simp] theorem modLkt_getF {g x} : (modLkt g s).getF x = s.getF x := rfl
@[simp] theorem modLkt_on {g x} : (modLkt g s).on x = s.on x := rfl
@[simp] theorem modPwr_reg {g x} : (modPwr g s).reg x = s.reg x := rfl
@[simp] theorem modPwr_getF {g x} : (modPwr g s).getF x = s.getF x := rfl
@[simp] theorem modPwr_on {g x} : (modPwr g s).on x = s.on x := rfl
@[simp] theorem modRoles_reg {g x} : (modRoles g s).reg x = s.reg x := rfl
@[simp] theorem modRoles_getF {g x} : (modRoles g s).getF x = s.getF x := rfl
@[simp] theorem modRoles_on {g x} : (modRoles g s).on x = s.on x := rfl
@[simp] theorem modImage_reg {g x} : (modImage g s).reg x = s.reg x := rfl
@[simp] theorem modImage_getF {g x} : (modImage g s).getF x = s.getF x := rfl
@[simp] theorem modImage_on {g x} : (modImage g s).on x = s.on x := rfl

/-! ### Out of reset, and running -/

@[simp] theorem setReg_alive {a w} : (s.setReg a w).alive = s.alive := rfl
@[simp] theorem setReg_running {a w} : (s.setReg a w).running = s.running := rfl
@[simp] theorem setR_alive {a v} : (setR a v s).alive = s.alive := rfl
@[simp] theorem setR_running {a v} : (setR a v s).running = s.running := rfl
@[simp] theorem setF_alive {f v} : (setF f v s).alive = s.alive := rfl
@[simp] theorem setF_running {f v} : (setF f v s).running = s.running := rfl
@[simp] theorem setI_alive {f v} : (setI f v s).alive = s.alive := rfl
@[simp] theorem setI_running {f v} : (setI f v s).running = s.running := rfl
@[simp] theorem latch_alive {f} : (latch f s).alive = s.alive := rfl
@[simp] theorem latch_running {f} : (latch f s).running = s.running := rfl
@[simp] theorem latchBits_alive {f v} : (latchBits f v s).alive = s.alive := rfl
@[simp] theorem latchBits_running {f v} : (latchBits f v s).running = s.running := rfl
@[simp] theorem countBy_alive {a n} : (countBy a n s).alive = s.alive := rfl
@[simp] theorem countBy_running {a n} : (countBy a n s).running = s.running := rfl
@[simp] theorem count_alive {a} : (count a s).alive = s.alive := rfl
@[simp] theorem count_running {a} : (count a s).running = s.running := rfl
@[simp] theorem emitOut_alive {o} : (emitOut o s).alive = s.alive := rfl
@[simp] theorem emitOut_running {o} : (emitOut o s).running = s.running := rfl
@[simp] theorem advance_alive {n} : (advance n s).alive = s.alive := rfl
@[simp] theorem advance_running {n} : (advance n s).running = s.running := rfl
@[simp] theorem advanceTo_alive {c} : (advanceTo c s).alive = s.alive := rfl
@[simp] theorem advanceTo_running {c} : (advanceTo c s).running = s.running := rfl
@[simp] theorem drawFree_alive : ((drawFree s).2).alive = s.alive := rfl
@[simp] theorem drawFree_running : ((drawFree s).2).running = s.running := rfl
@[simp] theorem withPending_alive {l} : (s.withPending l).alive = s.alive := rfl
@[simp] theorem withPending_running {l} : (s.withPending l).running = s.running := rfl
@[simp] theorem setSnap_alive {a w} : (setSnap a w s).alive = s.alive := rfl
@[simp] theorem setSnap_running {a w} : (setSnap a w s).running = s.running := rfl
@[simp] theorem modFab_alive {g} : (modFab g s).alive = s.alive := rfl
@[simp] theorem modFab_running {g} : (modFab g s).running = s.running := rfl
@[simp] theorem modHost_alive {g} : (modHost g s).alive = s.alive := rfl
@[simp] theorem modHost_running {g} : (modHost g s).running = s.running := rfl
@[simp] theorem modSpr_alive {g} : (modSpr g s).alive = s.alive := rfl
@[simp] theorem modSpr_running {g} : (modSpr g s).running = s.running := rfl
@[simp] theorem modIlg_alive {g} : (modIlg g s).alive = s.alive := rfl
@[simp] theorem modIlg_running {g} : (modIlg g s).running = s.running := rfl
@[simp] theorem modTim_alive {g} : (modTim g s).alive = s.alive := rfl
@[simp] theorem modTim_running {g} : (modTim g s).running = s.running := rfl
@[simp] theorem modCar_alive {g} : (modCar g s).alive = s.alive := rfl
@[simp] theorem modCar_running {g} : (modCar g s).running = s.running := rfl
@[simp] theorem modMac_alive {g} : (modMac g s).alive = s.alive := rfl
@[simp] theorem modMac_running {g} : (modMac g s).running = s.running := rfl
@[simp] theorem modFil_alive {g} : (modFil g s).alive = s.alive := rfl
@[simp] theorem modFil_running {g} : (modFil g s).running = s.running := rfl
@[simp] theorem modSd_alive {g} : (modSd g s).alive = s.alive := rfl
@[simp] theorem modSd_running {g} : (modSd g s).running = s.running := rfl
@[simp] theorem modLbb_alive {g} : (modLbb g s).alive = s.alive := rfl
@[simp] theorem modLbb_running {g} : (modLbb g s).running = s.running := rfl
@[simp] theorem modRed_alive {g} : (modRed g s).alive = s.alive := rfl
@[simp] theorem modRed_running {g} : (modRed g s).running = s.running := rfl
@[simp] theorem modLkt_alive {g} : (modLkt g s).alive = s.alive := rfl
@[simp] theorem modLkt_running {g} : (modLkt g s).running = s.running := rfl
@[simp] theorem modRoles_alive {g} : (modRoles g s).alive = s.alive := rfl
@[simp] theorem modRoles_running {g} : (modRoles g s).running = s.running := rfl
@[simp] theorem modImage_alive {g} : (modImage g s).alive = s.alive := rfl

end Sys2Proof.Machine
end

