-- ==== Sys2Proof/Laws/Writes.lean ====
section
/-! SUPPORT. Host writes: the register that a write command's offset names, what its write sets off, and the state that a
write that is taken leaves. -/
namespace Sys2Proof.Machine
open Sys2Proof.Claims
variable {s : State} {v : Word}

/-- How a command ends, from what it runs. -/
theorem ends_of {c : Instr} {t u : State} (h : exec c s = done u) (e : u = t) : Ends c s t := by rw [Ends, h, e]; rfl

/-- What the device times itself runs on the state in which it takes place. -/
theorem inTurn_eq {f : State → State} : inTurn f s = f (inItsTurn f s) := rfl

/-- A write of a register that is taken: stored, recorded, and its effect. -/
theorem write_taken {off : Nat} {w : Write} (hw : writeOf off v = some w) (ho : w.off = off) (hn : w.row.base ≠ Row.ROL_DROP.base)
    (h : Taken s w) : whenHost (busWrite off v) s = hook w.row w.i w.j (old s w) (val w) (written s w) := by
  obtain ⟨ha, hc, hl, hm⟩ := h
  subst ho
  simp [whenHost, ha, busWrite, hw, hc, applyWrite, hl, hm, hn, old, val, written]

/-- What a hook that takes the word written runs, and the one of the record fetch: rewrite with these, since unfolding the
fetch itself is deep. -/
theorem hookWord_apply {f : Nat → State → State} {i j o x : Nat} : hookWord f i j o x s = f x s := rfl
theorem hook_LKT_READ_CTRL : hook Row.LKT_READ_CTRL = hookWord recordFetch := rfl

theorem writeOf_CAR_RELEASE : writeOf Reg.CAR_RELEASE v = some (wr Row.CAR_RELEASE 0 Reg.CAR_RELEASE v) := rfl
theorem writeOf_ROL_CHALLENGE : writeOf Reg.ROL_CHALLENGE v = some (wr Row.ROL_CHALLENGE 0 Reg.ROL_CHALLENGE v) := rfl
theorem writeOf_ROL_UNLOCK : writeOf Reg.ROL_UNLOCK v = some (wr Row.ROL_UNLOCK 0 Reg.ROL_UNLOCK v) := rfl
theorem writeOf_ROL_DROP : writeOf Reg.ROL_DROP v = some (wr Row.ROL_DROP 0 Reg.ROL_DROP v) := rfl
theorem writeOf_ROL_ROTATE : writeOf Reg.ROL_ROTATE v = some (wr Row.ROL_ROTATE 0 Reg.ROL_ROTATE v) := rfl
theorem writeOf_ROL_IMG_CTRL : writeOf Reg.ROL_IMG_CTRL v = some (wr Row.ROL_IMG_CTRL 0 Reg.ROL_IMG_CTRL v) := rfl
theorem writeOf_SPR_CTRL : writeOf Reg.SPR_CTRL v = some (wr Row.SPR_CTRL 0 Reg.SPR_CTRL v) := rfl
theorem writeOf_CAR_CTRL : writeOf Reg.CAR_CTRL v = some (wr Row.CAR_CTRL 0 Reg.CAR_CTRL v) := rfl
theorem writeOf_SNS_CTRL : writeOf Reg.SNS_CTRL v = some (wr Row.SNS_CTRL 0 Reg.SNS_CTRL v) := rfl
theorem writeOf_DRV_CTRL : writeOf Reg.DRV_CTRL v = some (wr Row.DRV_CTRL 0 Reg.DRV_CTRL v) := rfl
theorem writeOf_FIL_CTRL : writeOf Reg.FIL_CTRL v = some (wr Row.FIL_CTRL 0 Reg.FIL_CTRL v) := rfl
theorem writeOf_CAN_TT_CTRL : writeOf Reg.CAN_TT_CTRL v = some (wr Row.CAN_TT_CTRL 0 Reg.CAN_TT_CTRL v) := rfl
theorem writeOf_LBB_CTRL : writeOf Reg.LBB_CTRL v = some (wr Row.LBB_CTRL 0 Reg.LBB_CTRL v) := rfl
theorem locate_ILG_PORT_CTRL : ∀ i : Fin 2, locate (Reg.ILG_PORT_CTRL i) = some Row.ILG_PORT_CTRL ∧ Row.ILG_PORT_CTRL.hit (Reg.ILG_PORT_CTRL i) = some (i.val, 0) := by
  decide

theorem writeOf_ILG_PORT_CTRL (i : Fin 2) : writeOf (Reg.ILG_PORT_CTRL i) v = some (wr Row.ILG_PORT_CTRL i (Reg.ILG_PORT_CTRL i) v) := by
  simp [writeOf, locate_ILG_PORT_CTRL, wr]

theorem locate_TPT_CTRL : ∀ i : Fin 4, locate (Reg.TPT_CTRL i) = some Row.TPT_CTRL ∧ Row.TPT_CTRL.hit (Reg.TPT_CTRL i) = some (i.val, 0) := by
  decide

theorem writeOf_TPT_CTRL (i : Fin 4) : writeOf (Reg.TPT_CTRL i) v = some (wr Row.TPT_CTRL i (Reg.TPT_CTRL i) v) := by
  simp [writeOf, locate_TPT_CTRL, wr]

theorem locate_EPT_CTRL : ∀ i : Fin 48, locate (Reg.EPT_CTRL i) = some Row.EPT_CTRL ∧ Row.EPT_CTRL.hit (Reg.EPT_CTRL i) = some (i.val, 0) := by
  decide

theorem writeOf_EPT_CTRL (i : Fin 48) : writeOf (Reg.EPT_CTRL i) v = some (wr Row.EPT_CTRL i (Reg.EPT_CTRL i) v) := by
  simp [writeOf, locate_EPT_CTRL, wr]

theorem locate_CAN_CTRL : ∀ i : Fin 16, locate (Reg.CAN_CTRL i) = some Row.CAN_CTRL ∧ Row.CAN_CTRL.hit (Reg.CAN_CTRL i) = some (i.val, 0) := by
  decide

theorem writeOf_CAN_CTRL (i : Fin 16) : writeOf (Reg.CAN_CTRL i) v = some (wr Row.CAN_CTRL i (Reg.CAN_CTRL i) v) := by
  simp [writeOf, locate_CAN_CTRL, wr]

theorem locate_RNG_CTRL : ∀ i : Fin 64, locate (Reg.RNG_CTRL i) = some Row.RNG_CTRL ∧ Row.RNG_CTRL.hit (Reg.RNG_CTRL i) = some (i.val, 0) := by
  decide

theorem writeOf_RNG_CTRL (i : Fin 64) : writeOf (Reg.RNG_CTRL i) v = some (wr Row.RNG_CTRL i (Reg.RNG_CTRL i) v) := by
  simp [writeOf, locate_RNG_CTRL, wr]

theorem writeOf_SPR_COMPAT_COMMIT : writeOf Reg.SPR_COMPAT_COMMIT v = some (wr Row.SPR_COMPAT_COMMIT 0 Reg.SPR_COMPAT_COMMIT v) := rfl
theorem writeOf_EPO_GRACE : writeOf Reg.EPO_GRACE v = some (wr Row.EPO_GRACE 0 Reg.EPO_GRACE v) := rfl
theorem writeOf_FAB_AGG_CTRL : writeOf Reg.FAB_AGG_CTRL v = some (wr Row.FAB_AGG_CTRL 0 Reg.FAB_AGG_CTRL v) := rfl
theorem writeOf_FDB_CMD : writeOf Reg.FDB_CMD v = some (wr Row.FDB_CMD 0 Reg.FDB_CMD v) := rfl
theorem locate_TPT_PREEMPT : ∀ i : Fin 4, locate (Reg.TPT_PREEMPT i) = some Row.TPT_PREEMPT ∧ Row.TPT_PREEMPT.hit (Reg.TPT_PREEMPT i) = some (i.val, 0) := by
  decide

theorem writeOf_TPT_PREEMPT (i : Fin 4) : writeOf (Reg.TPT_PREEMPT i) v = some (wr Row.TPT_PREEMPT i (Reg.TPT_PREEMPT i) v) := by
  simp [writeOf, locate_TPT_PREEMPT, wr]

theorem writeOf_MST_CLEAR : writeOf Reg.MST_CLEAR v = some (wr Row.MST_CLEAR 0 Reg.MST_CLEAR v) := rfl
theorem writeOf_TIM_ADJ_CTRL : writeOf Reg.TIM_ADJ_CTRL v = some (wr Row.TIM_ADJ_CTRL 0 Reg.TIM_ADJ_CTRL v) := rfl
theorem writeOf_TIM_RATE : writeOf Reg.TIM_RATE v = some (wr Row.TIM_RATE 0 Reg.TIM_RATE v) := rfl
theorem writeOf_TIM_PERMIT : writeOf Reg.TIM_PERMIT v = some (wr Row.TIM_PERMIT 0 Reg.TIM_PERMIT v) := rfl
theorem writeOf_TIM_ADDEND_HI : writeOf Reg.TIM_ADDEND_HI v = some (wr Row.TIM_ADDEND_HI 0 Reg.TIM_ADDEND_HI v) := rfl
theorem writeOf_TIM_CORR_CTRL : writeOf Reg.TIM_CORR_CTRL v = some (wr Row.TIM_CORR_CTRL 0 Reg.TIM_CORR_CTRL v) := rfl
theorem locate_PHS_OFFSET : ∀ i : Fin 8, locate (Reg.PHS_OFFSET i) = some Row.PHS_OFFSET ∧ Row.PHS_OFFSET.hit (Reg.PHS_OFFSET i) = some (i.val, 0) := by
  decide

theorem writeOf_PHS_OFFSET (i : Fin 8) : writeOf (Reg.PHS_OFFSET i) v = some (wr Row.PHS_OFFSET i (Reg.PHS_OFFSET i) v) := by
  simp [writeOf, locate_PHS_OFFSET, wr]

theorem locate_FIL_HOST_WORD : ∀ i : Fin 16, locate (Reg.FIL_HOST_WORD i) = some Row.FIL_HOST_WORD ∧ Row.FIL_HOST_WORD.hit (Reg.FIL_HOST_WORD i) = some (i.val, 0) := by
  decide

theorem writeOf_FIL_HOST_WORD (i : Fin 16) : writeOf (Reg.FIL_HOST_WORD i) v = some (wr Row.FIL_HOST_WORD i (Reg.FIL_HOST_WORD i) v) := by
  simp [writeOf, locate_FIL_HOST_WORD, wr]

theorem writeOf_SNS_CONVERT : writeOf Reg.SNS_CONVERT v = some (wr Row.SNS_CONVERT 0 Reg.SNS_CONVERT v) := rfl
theorem writeOf_DRV_LEVEL : writeOf Reg.DRV_LEVEL v = some (wr Row.DRV_LEVEL 0 Reg.DRV_LEVEL v) := rfl
theorem writeOf_HST_MISC_ACK : writeOf Reg.HST_MISC_ACK v = some (wr Row.HST_MISC_ACK 0 Reg.HST_MISC_ACK v) := rfl
theorem writeOf_HST_WDOG_CTRL : writeOf Reg.HST_WDOG_CTRL v = some (wr Row.HST_WDOG_CTRL 0 Reg.HST_WDOG_CTRL v) := rfl
theorem writeOf_LBB_CLASP_CTRL : writeOf Reg.LBB_CLASP_CTRL v = some (wr Row.LBB_CLASP_CTRL 0 Reg.LBB_CLASP_CTRL v) := rfl
theorem locate_CRC_CTRL : ∀ i : Fin 4, locate (Reg.CRC_CTRL i) = some Row.CRC_CTRL ∧ Row.CRC_CTRL.hit (Reg.CRC_CTRL i) = some (i.val, 0) := by
  decide

theorem writeOf_CRC_CTRL (i : Fin 4) : writeOf (Reg.CRC_CTRL i) v = some (wr Row.CRC_CTRL i (Reg.CRC_CTRL i) v) := by
  simp [writeOf, locate_CRC_CTRL, wr]

theorem locate_CRC_SEED : ∀ i : Fin 4, locate (Reg.CRC_SEED i) = some Row.CRC_SEED ∧ Row.CRC_SEED.hit (Reg.CRC_SEED i) = some (i.val, 0) := by
  decide

theorem writeOf_CRC_SEED (i : Fin 4) : writeOf (Reg.CRC_SEED i) v = some (wr Row.CRC_SEED i (Reg.CRC_SEED i) v) := by
  simp [writeOf, locate_CRC_SEED, wr]

theorem locate_CRC_DATA8 : ∀ i : Fin 4, locate (Reg.CRC_DATA8 i) = some Row.CRC_DATA8 ∧ Row.CRC_DATA8.hit (Reg.CRC_DATA8 i) = some (i.val, 0) := by
  decide

theorem writeOf_CRC_DATA8 (i : Fin 4) : writeOf (Reg.CRC_DATA8 i) v = some (wr Row.CRC_DATA8 i (Reg.CRC_DATA8 i) v) := by
  simp [writeOf, locate_CRC_DATA8, wr]

theorem locate_CRC_DATA16 : ∀ i : Fin 4, locate (Reg.CRC_DATA16 i) = some Row.CRC_DATA16 ∧ Row.CRC_DATA16.hit (Reg.CRC_DATA16 i) = some (i.val, 0) := by
  decide

theorem writeOf_CRC_DATA16 (i : Fin 4) : writeOf (Reg.CRC_DATA16 i) v = some (wr Row.CRC_DATA16 i (Reg.CRC_DATA16 i) v) := by
  simp [writeOf, locate_CRC_DATA16, wr]

theorem locate_CRC_DATA32 : ∀ i : Fin 4, locate (Reg.CRC_DATA32 i) = some Row.CRC_DATA32 ∧ Row.CRC_DATA32.hit (Reg.CRC_DATA32 i) = some (i.val, 0) := by
  decide

theorem writeOf_CRC_DATA32 (i : Fin 4) : writeOf (Reg.CRC_DATA32 i) v = some (wr Row.CRC_DATA32 i (Reg.CRC_DATA32 i) v) := by
  simp [writeOf, locate_CRC_DATA32, wr]

theorem writeOf_ILG_REBALANCE : writeOf Reg.ILG_REBALANCE v = some (wr Row.ILG_REBALANCE 0 Reg.ILG_REBALANCE v) := rfl
theorem writeOf_ILG_MGMT_CTRL : writeOf Reg.ILG_MGMT_CTRL v = some (wr Row.ILG_MGMT_CTRL 0 Reg.ILG_MGMT_CTRL v) := rfl
theorem writeOf_ILG_IMG_CTRL : writeOf Reg.ILG_IMG_CTRL v = some (wr Row.ILG_IMG_CTRL 0 Reg.ILG_IMG_CTRL v) := rfl
theorem locate_ILG_WORKER_GEN : ∀ i : Fin 7, locate (Reg.ILG_WORKER_GEN (i + 1)) = some Row.ILG_WORKER_GEN ∧ Row.ILG_WORKER_GEN.hit (Reg.ILG_WORKER_GEN (i + 1)) = some (i.val, 0) := by
  decide

theorem writeOf_ILG_WORKER_GEN (i : Fin 7) : writeOf (Reg.ILG_WORKER_GEN (i + 1)) v = some (wr Row.ILG_WORKER_GEN i (Reg.ILG_WORKER_GEN (i + 1)) v) := by
  simp [writeOf, locate_ILG_WORKER_GEN, wr]

theorem writeOf_RED_CMD : writeOf Reg.RED_CMD v = some (wr Row.RED_CMD 0 Reg.RED_CMD v) := rfl
theorem writeOf_LKT_CTRL : writeOf Reg.LKT_CTRL v = some (wr Row.LKT_CTRL 0 Reg.LKT_CTRL v) := rfl
theorem writeOf_LKT_READ_CTRL : writeOf Reg.LKT_READ_CTRL v = some (wr Row.LKT_READ_CTRL 0 Reg.LKT_READ_CTRL v) := rfl
theorem writeOf_LKT_PART : writeOf Reg.LKT_PART v = some (wr Row.LKT_PART 0 Reg.LKT_PART v) := rfl
theorem writeOf_GLB_PHY_RST : writeOf Reg.GLB_PHY_RST v = some (wr Row.GLB_PHY_RST 0 Reg.GLB_PHY_RST v) := rfl
theorem locate_PHS_CTRL : ∀ i : Fin 8, locate (Reg.PHS_CTRL i) = some Row.PHS_CTRL ∧ Row.PHS_CTRL.hit (Reg.PHS_CTRL i) = some (i.val, 0) := by
  decide

theorem writeOf_PHS_CTRL (i : Fin 8) : writeOf (Reg.PHS_CTRL i) v = some (wr Row.PHS_CTRL i (Reg.PHS_CTRL i) v) := by
  simp [writeOf, locate_PHS_CTRL, wr]

theorem locate_PHS_PERIOD : ∀ i : Fin 8, locate (Reg.PHS_PERIOD i) = some Row.PHS_PERIOD ∧ Row.PHS_PERIOD.hit (Reg.PHS_PERIOD i) = some (i.val, 0) := by
  decide

theorem writeOf_PHS_PERIOD (i : Fin 8) : writeOf (Reg.PHS_PERIOD i) v = some (wr Row.PHS_PERIOD i (Reg.PHS_PERIOD i) v) := by
  simp [writeOf, locate_PHS_PERIOD, wr]

theorem locate_SNS_CH_CFG : ∀ i : Fin 32, locate (Reg.SNS_CH_CFG i) = some Row.SNS_CH_CFG ∧ Row.SNS_CH_CFG.hit (Reg.SNS_CH_CFG i) = some (i.val, 0) := by
  decide

theorem writeOf_SNS_CH_CFG (i : Fin 32) : writeOf (Reg.SNS_CH_CFG i) v = some (wr Row.SNS_CH_CFG i (Reg.SNS_CH_CFG i) v) := by
  simp [writeOf, locate_SNS_CH_CFG, wr]


/-! ### The event table of the Carillon -/

theorem find_skip {α : Type} {p : α → Bool} {a : α} {l : List α} {r : Option α} (h : p a = false) (t : l.find? p = r) :
    (a :: l).find? p = r := by simp [List.find?, h, t]
theorem find_here {α : Type} {p : α → Bool} {a : α} {l : List α} (h : p a = true) : (a :: l).find? p = some a := by
  simp [List.find?, h]

theorem hit_at (r : RegSpec) (i d : Nat) (h1 : d < r.s1) (h2 : r.s2 = 0) (h3 : r.n2 = 1) (hi : i < r.n1) :
    r.hit (r.base + (r.s1 * i + d)) = if d = 0 then some (i, 0) else none := by
  have e : (r.s1 * i + d) / r.s1 = i := by
    rw [Nat.mul_add_div (by omega), Nat.div_eq_of_lt h1, Nat.add_zero]
  have e2 : r.s1 * i + d - i * r.s1 = d := by rw [Nat.mul_comm]; omega
  unfold RegSpec.hit
  rw [if_neg (by omega)]
  simp only [Nat.add_sub_cancel_left, e, e2, h2, h3, Nat.div_zero, Nat.mul_zero]
  by_cases hd : d = 0 <;> simp [hd, hi]

theorem hit_above {r : RegSpec} {off : Nat} (h : off < r.base) : (r.hit off).isSome = false := by
  unfold RegSpec.hit; rw [if_pos h]; rfl

theorem locate_CAR_EVT1 (i : Fin 4096) :
    locate (Reg.CAR_EVT1 i) = some Row.CAR_EVT1 ∧ Row.CAR_EVT1.hit (Reg.CAR_EVT1 i) = some (i.val, 0) := by
  have hi := i.isLt
  have h1 : Row.CAR_EVT1.hit (Reg.CAR_EVT1 i) = some (i.val, 0) := hit_at Row.CAR_EVT1 i 0 (by decide) rfl rfl hi
  have h0 : Row.CAR_EVT0.hit (Reg.CAR_EVT1 i) = none := by
    have : Reg.CAR_EVT1 i = Row.CAR_EVT0.base + (Row.CAR_EVT0.s1 * i + 4) := by
      show 0x600004 + 0x10 * i.val = 0x600000 + (0x10 * i.val + 4); omega
    rw [this, hit_at Row.CAR_EVT0 i 4 (by decide) rfl rfl hi]; rfl
  have lo : Reg.CAR_EVT1 i < 0x610000 := by show 0x600004 + 0x10 * i.val < 0x610000; omega
  have hb : regBlocks.find? (fun b => Reg.CAR_EVT1 i < b.1) = some (0x700000, Rows.CAR) := by
    have l2 : 0x600004 ≤ Reg.CAR_EVT1 i := Nat.le_add_right ..
    unfold regBlocks
    repeat' first
      | exact find_here (decide_eq_true (Nat.lt_of_lt_of_le lo (by decide)))
      | refine find_skip (decide_eq_false (Nat.not_lt.mpr (Nat.le_trans (by decide) l2))) ?_
  refine ⟨?_, h1⟩
  unfold locate
  rw [hb]
  show Rows.CAR.find? _ = _
  unfold Rows.CAR
  repeat' first
    | exact find_here (by rw [h1]; rfl)
    | refine find_skip (hit_above (Nat.lt_of_lt_of_le lo (by decide))) ?_
    | refine find_skip (by rw [h0]; rfl) ?_

theorem writeOf_CAR_EVT1 (i : Fin 4096) {v} : writeOf (Reg.CAR_EVT1 i) v = some (wr Row.CAR_EVT1 i (Reg.CAR_EVT1 i) v) := by
  simp [writeOf, locate_CAR_EVT1, wr]
end Sys2Proof.Machine
end

