-- ==== Sys2Proof/WellFormed.lean ====
section
/-! DEFINITION. Which commands can arrive: the bounds on operands that their types do not give. The meanings are total and
ask nothing of a command; the checks say which terms stand for happenings of the device. -/
namespace Sys2Proof

namespace WellFormed

/-- The offset of a register word of BAR0 (R45): 16 MiB, whole words. -/
def offset (off : Nat) : Bool := decide (off < 2 ^ 24) && decide (off % 4 = 0)

/-- A cell holds at most 128 bytes (R205). -/
def cell (l : List Byte) : Bool := decide (l.length ≤ 128)

/-- The first cell of a frame and the frame's length on the line: the cell is full unless the frame ends in it. -/
def firstCell (l : List Byte) (len : Nat) : Bool := cell l && (decide (l.length + 4 = len) || decide (l.length = 128 ∧ 128 < len))

/-- A frame without its FCS holds its header. -/
def frame (l : List Byte) : Bool := decide (14 ≤ l.length)

/-- Descriptors are 32 bytes each (R415). -/
def descriptors (l : List (List Byte)) : Bool := l.all (fun d => d.length == 32)

/-- The data of a CAN frame are as long as its DLC says (R339). -/
def canLength (f : CanFrame) : Bool :=
  let n := f.dlc.val
  let k := if f.rtr then 0 else if n ≤ 8 then n else if !f.fdf then 8
    else if n = 9 then 12 else if n = 10 then 16 else if n = 11 then 20 else if n = 12 then 24 else if n = 13 then 32
    else if n = 14 then 48 else 64
  f.data.length == k && !(f.fdf && f.rtr) && !(f.brs && !f.fdf) && (f.ide || decide (f.id.toNat < 2 ^ 11))

/-- The bytes of an access lie within the 64 MiB of BAR4 (R406). -/
def window (addr : BitVec 26) (n : Nat) : Bool := decide (0 < n) && decide (addr.toNat + n ≤ 2 ^ 26)

end WellFormed

/-- A command's operands are within the bounds of its happening. -/
def WellFormed (i : Instr) : Bool :=
  match i with
  | .registerWrite off _ _ _ => WellFormed.offset off
  | .rcRead off _ => WellFormed.offset off
  | .snapshotRead off _ => WellFormed.offset off
  | .admissionPoint _ bytes len _ _ => WellFormed.firstCell bytes len
  | .cellWrite _ bytes _ => WellFormed.cell bytes && !bytes.isEmpty
  | .frameEnd _ bytes _ _ _ => WellFormed.cell bytes
  | .beaconReceive _ bytes _ _ => WellFormed.frame bytes
  | .countReceive _ bytes _ => WellFormed.frame bytes
  | .commitReceive _ bytes _ _ => WellFormed.frame bytes
  | .compatHelloReceive _ bytes _ => WellFormed.frame bytes
  | .topologyReceive _ bytes _ _ => WellFormed.frame bytes
  | .rosterReceive _ bytes _ => WellFormed.frame bytes
  | .syncReceive _ bytes _ _ => WellFormed.frame bytes
  | .pauseReceive _ bytes _ => WellFormed.frame bytes
  | .canFrameReceive _ f _ _ => WellFormed.canLength f
  | .txDescriptorFetch _ descs _ => WellFormed.descriptors descs
  | .rxDescriptorFetch _ descs _ => WellFormed.descriptors descs
  | .bar4Write addr data _ => WellFormed.window addr data.length
  | .bar4Read addr enables _ => WellFormed.window addr enables.length
  | .pcieLinkUp speed width _ _ _ => [1, 2, 3].contains speed && [1, 2, 4].contains width
  | _ => true

end Sys2Proof
end

