-- ==== Sys2Proof/Tests/Slice0.lean ====
section
/-! SUPPORT. Tests: each check of WellFormed refuses an ill-formed term; values of the spec's worked examples; for every
statement about some states or operands, a state and operands that meet its hypotheses. -/
set_option Elab.async false
namespace Sys2Proof.Tests
open Sys2Proof.Machine Sys2Proof.Claims

/-! ### Ill-formed commands -/

theorem test_refuses_odd_offset : WellFormed (.rcRead 2 0) = false := by decide
theorem test_refuses_offset_past_bar0 : WellFormed (.registerWrite (2 ^ 24) 0 15 0) = false := by decide
theorem test_accepts_last_offset : WellFormed (.snapshotRead (2 ^ 24 - 4) 0) = true := by decide
theorem test_refuses_long_cell : WellFormed (.cellWrite 0 (List.replicate 129 0) 0) = false := by decide +kernel
theorem test_refuses_empty_cell : WellFormed (.cellWrite 0 [] 0) = false := by decide
theorem test_refuses_short_first_cell : WellFormed (.admissionPoint 0 (List.replicate 60 0) 65 0 0) = false := by decide +kernel
theorem test_refuses_frame_without_header : WellFormed (.pauseReceive 0 (List.replicate 13 0) 0) = false := by decide
theorem test_refuses_short_descriptor : WellFormed (.txDescriptorFetch 0 [List.replicate 31 0] 0) = false := by decide +kernel
theorem test_refuses_can_data_past_dlc :
    WellFormed (.canFrameReceive 0
      { ide := false, fdf := false, brs := false, esi := false, rtr := false, id := 5, dlc := 1, data := [0, 0] } 0 0) = false := by
  decide
theorem test_refuses_access_past_bar4 : WellFormed (.bar4Read (2 ^ 26 - 1) [true, true] 0) = false := by decide
theorem test_refuses_empty_access : WellFormed (.bar4Write 0 [] 0) = false := by decide
theorem test_refuses_unknown_link_width : WellFormed (.pcieLinkUp 1 3 0 0 0) = false := by decide

/-! ### Values of the spec's worked examples -/

/-- FIPS 180-4, the example of the one-block message abc. -/
theorem test_sha256_abc : (sha256 [97, 98, 99]).take 4 = be 4 0xba7816bf := by decide +kernel

/-- Chapter 15: unit 3 fed "1234", "5678" and "9". -/
theorem test_crc_example :
    crcFeed 3 (crcFeed 3 (crcFeed 3 (crcStart 3) (be 4 0x31323334)) (be 4 0x35363738)) (be 1 0x39) = 0xE3069283 := by
  decide +kernel
/-- Chapter 21: word 5 of signal 101, tx_frames of T1B, data word 3 of CAN mailbox 5, the ledger row of E5, class 3. -/
theorem test_offsets_example :
    Reg.FIL_SIG5 101 = 0x00C40CB4 ∧ Reg.MST_CNT_LO 49 34 = 0x00307310 ∧ Reg.CAN_MB_DATA 5 3 = 0x00A202CC ∧
      Reg.BUF_LEDGER 43 0 = 0x00152B00 := by decide
/-- Chapter 2: the body of the example image holds a WRITE, a POLL and END. -/
theorem test_image_example :
    (walkRecords 11 ([0x01, 0x01, 0x00, 0x10, 0x00, 0x00, 0x00, 0x24, 0x00, 0x00, 0x04, 0x10, 0x00, 0x00, 0x0F, 0xFF] ++
      [0x03, 0x00, 0x00, 0x14, 0x00, 0x00, 0x00, 0x2C, 0x00, 0x00, 0x00, 0x01, 0x00, 0x00, 0x00, 0x01, 0, 0, 0, 0x64] ++
      [0x00, 0x00, 0x00, 0x04]) 0).map (fun l => l.map (fun h => (h.pos, h.rtype, h.level, h.len))) =
        some [(0, 1, 1, 16), (0x10, 3, 0, 20), (0x24, 0, 0, 4)] := by decide +kernel
/-- Chapter 10: 80 quanta of 25 ns, sampled at 80 % of 2 µs. -/
theorem test_can_timing_example : nominalSample 0x1E3E0F01 = 1280 := by decide
/-- Chapter 1: edge port E9 of worker 3 is global port 201. -/
theorem test_global_port_example :
    globalPort (State.reset |> setF Fld.ILG_STATUS_role 2 |> setF Fld.ILG_STATUS_index 3) 9 = 201 := by decide +kernel
/-- Chapter 12: in cycle 1000 the flashing lamp with offset 0 is on, that with offset 25 is off. -/
theorem test_flash_example :
    let s := State.reset |> setF Fld.DRV_LEVEL_level 0x30 |> setF (Fld.DRV_CFG_mode 4) 3 |> setF (Fld.DRV_CFG_mode 5) 3
      |> setR (Reg.DRV_FLASH 4) 0x00006419 |> setR (Reg.DRV_FLASH 5) 0x01906419
    passLevel s 4 1000 = true ∧ passLevel s 5 1000 = false := by decide +kernel

/-! ### States for the witnesses -/

/-- A device out of reset whose boot image has ended, its host at the installer role. -/
def st : State :=
  { setF Fld.ROL_STATUS_role 1 State.reset with
    pwr := { State.reset.pwr with stage := .run }, image := { State.reset.image with boot := .ended } }
/-- Some registers' fields set. -/
def fs (l : List (Fld × Nat)) (s : State) : State := l.foldl (fun t p => setF p.1 p.2 t) s
def frm : Frame := { Frame.empty with data := zeros 60, len := 64, cells := 1, complete := true }
def rawFrame (id : Nat) (f : Frame) (s : State) : State :=
  { s with fab := { s.fab with frames := Sparse.ins (Sparse.drop s.fab.frames id) id f } }
def withFrame (f : Frame) (s : State) : State := rawFrame 1 f s
def snd_ (x : Sending) (p : Nat) (s : State) : State := setSending p x s
def send0 : Sending := { frame := 1, bytes := zeros 60, express := false, held := none, fragments := 0, startAt := 0, base := 0, taken := 60 }
def ln0 (x : SprLine) (s : State) : State := modSpr (fun y => { y with lines := [(0, x)] }) s
/-- Spire runs with trunk line 0 UP; the node identity is 7. -/
def stSpr : State :=
  st |> setR Reg.RED_NODE_ID_LO 7 |> fs [(Fld.RED_CTRL_shared_id, 1), (Fld.SPR_CTRL_state, 2), (Fld.TPT_CTRL_state 0, 2), (Fld.TPT_STATUS_link 0, 1), (Fld.SPR_LINE_STATUS_lstate 0, Ln.up)]
def spf (t : Nat) : List Byte := be 6 spireMac ++ zeros 6 ++ be 2 (State.reset.getF Fld.SPR_ETYPE_ethertype) ++ [byte (16 + t)] ++ zeros 49
def acc0 : Accepted := { newEpoch := 1, n := 2, tnn := 1, reference := 1, digest := 0, leadConflict := false, refDir := 0, path := 0, slip := 0, at_ := 0, switchAt := 9, late := false, leadMap := 0, partial_ := false, map := [], ids := [] }
def acc1 : Accepted := { acc0 with refDir := 1 }
def edge : State := fs [(Fld.EPT_CTRL_state 0, 2), (Fld.EPT_STATUS_link 0, 1), (Fld.EPT_STATUS_duplex 0, 1)] st
def half : State := fs [(Fld.EPT_CTRL_state 0, 2), (Fld.EPT_STATUS_link 0, 1), (Fld.EPT_STATUS_duplex 0, 0)] st |> withFrame frm |> snd_ send0 0
def halfWith (n : Nat) : State := { half with mac := { half.mac with half := [(0, { HalfDuplex.idle with attempts := n })] } }
def setMac (f : Macs → Macs) (s : State) : State := { s with mac := f s.mac }
def setTim (f : TimeEng → TimeEng) (s : State) : State := { s with tim := f s.tim }
def dom0 (x : Domain) (s : State) : State := { s with doms := [(0, x)] }
def canOn : State := fs [(Fld.CAN_CTRL_state 0, 2)] st
def chan0 (x : CanChan) (s : State) : State := { s with can := { s.can with chans := [(0, x)] } }
def cf (fd : Bool) : CanFrame := { ide := false, fdf := fd, brs := false, esi := false, rtr := false, id := 5, dlc := 0, data := [] }
def bus0 (src : CanSrc) : CanBus := { src := src, frame := cf false, stamp := 0, at_ := 0 }
def tt0 (ty : Nat) (s : State) : State :=
  fs [(Fld.CAN_TT_CTRL_state, 2), (Fld.CAN_TT_STATUS_tstate, 2), (Fld.CAN_TT_TRIG_B_type 0, ty), (Fld.CAN_TT_TRIG_B_type 1, 5), (Fld.CAN_CTRL_state 0, 2)] s
def ring0 (x : Ring) (s : State) : State := { s with host := { s.host with rings := [(0, x)] } }
def ringOn : State := fs [(Fld.RNG_CTRL_state 0, 2), (Fld.HST_LINK_bme, 1), (Fld.HST_LINK_up, 1)] st
def job (d : List Byte) : TxJob := { id := 0, slots := [(0, d)], fate := .reading, data := [] }
def txRing (d : List Byte) : State := ring0 { Ring.empty with type := 0, prod := 1, fetched := [d], jobs := [job d] } ringOn
def desc (len flags : Nat) : List Byte := zeros 8 ++ le 2 len ++ le 1 flags ++ zeros 21
def lbb0 (f : Bridge → Bridge) (s : State) : State := { s with lbb := f s.lbb }
def lbbOn : State := fs [(Fld.LBB_CTRL_state, 2)] st
def cyc0 : BusCycle := { write := false, addr := 0, skip := 0, n := 1, data := 0, startAt := 0, endMin := 10, limitAt := 20, ready := false, parity := false, after := 1, segEnd := true, wide := false }
def read0 : BusRead := { tag := 0, addr := 0, len := 4, next := 0, rest := [], got := [], due := 100, answer := none }
def ilgUp0 : State := fs [(Fld.ILG_PORT_CTRL_state 0, 2), (Fld.ILG_PORT_STATUS_lstate 0, 3)] st
def worker (s : State) : State := fs [(Fld.ILG_STATUS_role, 2), (Fld.ILG_STATUS_index, 1)] s
def manager (s : State) : State := fs [(Fld.ILG_STATUS_role, 1)] s
def path0 (d : Nat) (s : State) : State := { s with ilg := { s.ilg with paths := [(d, 0)] } }
def port0 (f : IlgPort → IlgPort) (s : State) : State := { s with ilg := { s.ilg with ports := [(0, f IlgPort.empty)] } }
def ilgm (f : Ilgil → Ilgil) (s : State) : State := { s with ilg := f s.ilg }
def unitOf (b : List Byte) (n : Nat) : List Byte := unitBytes (b ++ zeros (28 - b.length)) (zeros (32 * (n - 1)))
def redm (f : Redund → Redund) (s : State) : State := { s with red := f s.red }
def hb : List Byte := let b := [1] ++ zeros 251; b ++ be 4 (crc32c b)
def lktm (f : Locket → Locket) (s : State) : State := { s with lkt := f s.lkt }
def stepAt (x : Stage) : State := { st with pwr := { st.pwr with stage := x } }
def img (n : Nat) (f : Image → Image) : State :=
  let t := setF Fld.ROL_IMG_STATUS_state n st
  { t with image := f t.image }
def rec0 : Record := { seq := 0, opsec := 0, pcc := 0, ns := 0, role := 0, sec := 0, rtype := 0, data := [] }

def audit0 : Audit := { kinds := 8, badRows := [0], diff := 1, deltas := [(0, 1)], due := 12500, excused := false, unmarked := [], dup := 0 }
/-- A COUNT is owed toward direction 1, of a node whose direction 2 is not up. -/
def counting : State := modDir 0 (fun x => { x with owed := true }) (setF Fld.SPR_STATUS_fsm Fsm.stable stSpr)
def sum0 : Summary := { origin := 1, hops := 1, maxEpoch := 0, delay := 0, digest := digestOf 1, lead := 0, overflow := false }
def settling : State :=
  modSpr (fun x => { x with settleEnd := some 9, dirs := [(0, { SprDir.empty with held := some sum0 })] }) stSpr
def filEv : FilEvent := { kind := 0, key2 := 0, key := 0, data := [] }

/-! ### Witnesses: how the commands complete -/

/-- The clauses of RegisterAccessesComplete have states and operands that meet their hypotheses. -/
theorem witness_RegisterAccessesComplete :
    (∃ s₀ : State, ∃ off : Nat, ∃ v, ∃ w, ∃ dt : Nat, let s := arrive dt s₀
      writeOf off v = some w ∧ Taken s w) ∧
    (∃ s₀ : State, ∃ off : Nat, ∃ v, ∃ be : BitVec 4, ∃ dt : Nat, let s := arrive dt s₀
      s.reaches = true ∧ (be ≠ 15#4 ∨ writeOf off v = none)) ∧
    (∃ s₀ : State, ∃ off : Nat, ∃ v, ∃ w, ∃ dt : Nat, let r := arrive dt s₀
      let s := touchIdle r
      r.reaches = true ∧ writeOf off v = some w ∧ closed s off = true) ∧
    (∃ s₀ : State, ∃ off : Nat, ∃ v, ∃ w, ∃ dt : Nat, let r := arrive dt s₀
      let s := touchIdle r
      r.reaches = true ∧ writeOf off v = some w ∧ closed s off = false ∧ w.live s = true) ∧
    (∃ s₀ : State, ∃ off : Nat, ∃ v, ∃ w, ∃ dt : Nat, let r := arrive dt s₀
      let s := touchIdle r
      r.reaches = true ∧ writeOf off v = some w ∧ closed s off = false ∧ w.live s = false ∧ w.mayStore s.role s = false) ∧
    (∃ s₀ : State, ∃ off : Nat, ∃ dt : Nat, let s := arrive dt s₀
      s.reaches = true ∧ locate off = none) ∧
    (∃ s₀ : State, ∃ off : Nat, ∃ r, ∃ i, ∃ j, ∃ dt : Nat, let s := arrive dt s₀
      s.reaches = true ∧ locate off = some r ∧ r.hit off = some (i, j) ∧ r.base ≠ Row.LBB_ERR_INFO.base ∧
      r.base ≠ Row.TIM_SYNC_CAP_NS.base ∧
      (let t := flushPassed (touchIdle s)
      Sparse.find t.snaps off = none)) ∧
    (∃ s₀ : State, ∃ off : Nat, ∃ r, ∃ i, ∃ j, ∃ w, ∃ dt : Nat, let s := arrive dt s₀
      s.reaches = true ∧ locate off = some r ∧ r.hit off = some (i, j) ∧ r.base ≠ Row.LBB_ERR_INFO.base ∧
      r.base ≠ Row.TIM_SYNC_CAP_NS.base ∧
      (let t := flushPassed (touchIdle s)
      Sparse.find t.snaps off = some w)) ∧
    (∃ s₀ : State, ∃ dt : Nat, let s := arrive dt s₀
      s.reaches = true) ∧
    (∃ s₀ : State, ∃ dt : Nat, let s := arrive dt s₀
      s.reaches = true) :=
  ⟨⟨st, Reg.EPO_GRACE, 5, wr Row.EPO_GRACE 0 Reg.EPO_GRACE 5, 0, rfl, by delta Taken; decide +kernel⟩,
   ⟨st, 0, 0, 3, 0, by decide +kernel⟩,
   ⟨img 2 id, Reg.EPO_GRACE, 5, wr Row.EPO_GRACE 0 Reg.EPO_GRACE 5, 0, by decide +kernel, rfl, by decide +kernel⟩,
   ⟨st, Row.EPO_ROUTE.base, 5, wr Row.EPO_ROUTE 0 Row.EPO_ROUTE.base 5, 0, by decide +kernel, rfl, by decide +kernel⟩,
   ⟨fs [(Fld.ROL_STATUS_role, 0)] st, Reg.EPO_GRACE, 5, wr Row.EPO_GRACE 0 Reg.EPO_GRACE 5, 0, by decide +kernel, rfl,
       by decide +kernel⟩,
   ⟨st, 0xFFFFFC, 0, by decide +kernel⟩,
   ⟨st, Reg.EPO_GRACE, Row.EPO_GRACE, 0, 0, 0, by decide +kernel⟩,
   ⟨{ st with snaps := [(Reg.EPO_GRACE, 7)] }, Reg.EPO_GRACE, Row.EPO_GRACE, 0, 0, 7, 0, by decide +kernel⟩,
   ⟨st, 0, by decide +kernel⟩,
   ⟨st, 0, by decide +kernel⟩⟩

/-- The clauses of ManagementCommandsComplete have states and operands that meet their hypotheses. -/
theorem witness_ManagementCommandsComplete :
    (∃ s₀ : State, ∃ temp, ∃ supply, ∃ upsets, let s := inItsTurn (whenAlive (managementTick temp supply upsets)) s₀
      s.alive = true) ∧
    (∃ s₀ : State, ∃ a, let s := inItsTurn (whenAlive (auditResult)) s₀
      s.alive = true ∧ s.fab.audit = some a) ∧
    (∃ s₀ : State, ∃ clk : BitVec 4, ∃ dt : Nat, let s := arrive dt s₀
      s.alive = true ∧ s.pwr.stage ≠ .pll ∧ s.pwr.stage ≠ .memory ∧ bit clk.toNat 0 = true) :=
  ⟨⟨st, 0, 0, [], by decide +kernel⟩,
   ⟨{ st with fab := { st.fab with audit := some audit0 } }, audit0, by decide +kernel⟩,
   ⟨st, (1 : BitVec 4), 0, by decide +kernel⟩⟩

/-- The clauses of RoleCommandsComplete have states and operands that meet their hypotheses. -/
theorem witness_RoleCommandsComplete :
    (∃ s₀ : State, ∃ v, ∃ dt : Nat, let s := arrive dt s₀
      let w := wr Row.ROL_CHALLENGE 0 Reg.ROL_CHALLENGE v
      Taken s w) ∧
    (∃ s₀ : State, let s := inItsTurn (whenAlive (nonceExpiry)) s₀
      s.alive = true ∧ s.on Fld.ROL_STATUS_nonce_valid = true ∧
      (let e := s.roles.nonceAt + 60 * cyclesPerS
      inTime isUnlock (advanceTo e s) = false)) ∧
    (∃ s₀ : State, ∃ v, ∃ dt : Nat, let s := arrive dt s₀
      let w := wr Row.ROL_UNLOCK 0 Reg.ROL_UNLOCK v
      Taken s w) ∧
    (∃ s₀ : State, ∃ c, ∃ rest, let s := inItsTurn (whenAlive (unlockCompareDone)) s₀
      s.alive = true ∧ s.roles.compare = c :: rest ∧ c.ok = true) ∧
    (∃ s₀ : State, ∃ c, ∃ rest, let s := inItsTurn (whenAlive (unlockCompareDone)) s₀
      s.alive = true ∧ s.roles.compare = c :: rest ∧ c.ok = false) ∧
    (∃ s₀ : State, ∃ e, let s := inItsTurn (whenAlive (lockoutExpiry)) s₀
      s.alive = true ∧ s.roles.lockoutEnd = some e) ∧
    (∃ s₀ : State, let s := inItsTurn (whenAlive (roleLapse)) s₀
      s.alive = true ∧ s.role ≠ 0 ∧ s.getF Fld.ROL_IDLE_ticks = 0 ∧ inTime bar0Access s = false) ∧
    (∃ s₀ : State, ∃ v, ∃ dt : Nat, let s := arrive dt s₀
      let w := wr Row.ROL_DROP 0 Reg.ROL_DROP v
      Taken s w) ∧
    (∃ s₀ : State, ∃ v, ∃ dt : Nat, let s := arrive dt s₀
      let w := wr Row.ROL_ROTATE 0 Reg.ROL_ROTATE v
      Taken s w) ∧
    (∃ s₀ : State, ∃ v, ∃ dt : Nat, let s := arrive dt s₀
      s.alive = true ∧ s.roles.rotating = some v) :=
  ⟨⟨st, 0, 0, by delta Taken; decide +kernel⟩,
   ⟨setF Fld.ROL_STATUS_nonce_valid 1 st, by decide +kernel⟩,
   ⟨st, 0, 0, by delta Taken; decide +kernel⟩,
   ⟨modRoles (fun r => { r with compare := [{ due := 4, role := 2, ok := true }] }) st, { due := 4, role := 2, ok := true }, [],
       by decide +kernel⟩,
   ⟨modRoles (fun r => { r with compare := [{ due := 4, role := 2, ok := false }] }) st, { due := 4, role := 2, ok := false },
       [], by decide +kernel⟩,
   ⟨modRoles (fun r => { r with lockoutEnd := some 9 }) st, 9, by decide +kernel⟩,
   ⟨st, by decide +kernel⟩,
   ⟨st, 0, 0, by delta Taken; decide +kernel⟩,
   ⟨st, 0, 0, by delta Taken; decide +kernel⟩,
   ⟨modRoles (fun r => { r with rotating := some 1 }) st, 1, 0, by decide +kernel⟩⟩

/-- The clauses of ImageAndSequenceCommandsComplete have states and operands that meet their hypotheses. -/
theorem witness_ImageAndSequenceCommandsComplete :
    (∃ s₀ : State, ∃ v, ∃ dt : Nat, let s := arrive dt s₀
      let w := wr Row.ROL_IMG_CTRL 0 Reg.ROL_IMG_CTRL v
      Taken s w) ∧
    (∃ s₀ : State, ∃ dt : Nat, let s := arrive dt s₀
      s.alive = true ∧ imgState s = 1 ∧ imgSource s = 0) ∧
    (∃ s₀ : State, ∃ l, ∃ top, ∃ b, ∃ dt : Nat, let s := arrive dt s₀
      s.alive = true ∧ imgState s = 2 ∧ s.image.wait = .none ∧ secondBytes l s = some (top, b) ∧
      (headAt b 0).rtype = (currentHead s).rtype ∧ (headAt b 0).level = (currentHead s).level ∧
      (headAt b 0).len = (currentHead s).len ∧ (currentHead s).rtype ≠ 0 ∧ s.image.hmacOk = true) ∧
    (∃ s₀ : State, ∃ a, ∃ m, ∃ v, ∃ e, let s := inItsTurn (whenAlive (pollMatch)) s₀
      s.alive = true ∧ s.image.wait = .poll a m v e ∧ pollOk a m v (advanceTo (nextPoll e s.cycle) s) = true) ∧
    (∃ s₀ : State, ∃ a, ∃ m, ∃ v, ∃ e, let s := inItsTurn (whenAlive (pollTimeout)) s₀
      s.alive = true ∧ s.image.wait = .poll a m v e ∧ pollOk a m v (advanceTo e s) = false) ∧
    (∃ s₀ : State, ∃ e, let s := inItsTurn (whenAlive (delayExpiry)) s₀
      s.alive = true ∧ s.image.wait = .delay e) ∧
    (∃ s₀ : State, ∃ dt : Nat, let s := arrive dt s₀
      s.alive = true ∧ imgState s ≠ 0 ∧ imgSource s = 1) ∧
    (∃ s₀ : State, ∃ f, ∃ v, ∃ dt : Nat, let s := arrive dt s₀
      let w := fnWrite f v
      Taken s w) ∧
    (∃ s₀ : State, ∃ f, ∃ dt : Nat, let s := arrive dt s₀
      s.alive = true ∧ s.getF (fnState f) = 1 ∧ startReady f s = true ∧
      (let t := s |> setF (fnState f) 2 |> startedWork f
      isForced f t = true)) ∧
    (∃ s₀ : State, ∃ f, ∃ dt : Nat, let s := arrive dt s₀
      s.alive = true ∧ s.getF (fnState f) = 1 ∧ startReady f s = true ∧
      (let t := s |> setF (fnState f) 2 |> startedWork f
      isForced f t = false)) ∧
    (∃ s₀ : State, ∃ f, ∃ dt : Nat, let s := arrive dt s₀
      s.alive = true ∧ s.getF (fnState f) = 3 ∧ stopReady f s = true) :=
  ⟨⟨st, 0, 0, by delta Taken; decide +kernel⟩,
   ⟨img 1 id, 0, by decide +kernel⟩,
   ⟨img 2 (fun i => { i with bytes := zeros 8 ++ be 4 20 ++ zeros 52 ++ [byte 3, 0] ++ be 2 20 ++ zeros 40, hmacOk := true }),
       zeros 64 ++ [byte 3, 0] ++ be 2 20 ++ zeros 40,
       ((secondBytes (zeros 64 ++ [byte 3, 0] ++ be 2 20 ++ zeros 40) (img 2 (fun i => { i with bytes := zeros 8 ++ be 4 20 ++ zeros 52 ++ [byte 3, 0] ++ be 2 20 ++ zeros 40, hmacOk := true }))).get (by decide +kernel)).1, ((secondBytes (zeros 64 ++ [byte 3, 0] ++ be 2 20 ++ zeros 40) (img 2 (fun i => { i with bytes := zeros 8 ++ be 4 20 ++ zeros 52 ++ [byte 3, 0] ++ be 2 20 ++ zeros 40, hmacOk := true }))).get (by decide +kernel)).2, 0, by decide +kernel⟩,
   ⟨img 2 (fun i => { i with wait := .poll Reg.EPO_GRACE 0 0 1000 }), Reg.EPO_GRACE, 0, 0, 1000, by decide +kernel⟩,
   ⟨img 2 (fun i => { i with wait := .poll Reg.EPO_GRACE 0 1 1000 }), Reg.EPO_GRACE, 0, 1, 1000, by decide +kernel⟩,
   ⟨img 2 (fun i => { i with wait := .delay 1000 }), 1000, by decide +kernel⟩,
   ⟨setF Fld.ROL_IMG_STATUS_source 1 (img 1 id), 0, by decide +kernel⟩,
   ⟨st, .spire, 0, 0, by delta Taken; decide +kernel⟩,
   ⟨{ setF Fld.CAR_CTRL_state 1 st with seqs := { forced := [1] } }, .carillon, 0, by decide +kernel⟩,
   ⟨setF Fld.CAR_CTRL_state 1 st, .carillon, 0, by decide +kernel⟩,
   ⟨setF Fld.CAR_CTRL_state 3 st, .carillon, 0, by decide +kernel⟩⟩

/-- The clauses of TrunkLineCommandsComplete have states and operands that meet their hypotheses. -/
theorem witness_TrunkLineCommandsComplete :
    (∃ s₀ : State, ∃ n : Fin 4, ∃ dt : Nat, let s := arrive dt s₀
      s.running = true ∧ portState s (48 + n) = 2 ∧ s.on (Fld.TPT_STATUS_link n) = false) ∧
    (∃ s₀ : State, ∃ n : Fin 4, ∃ dt : Nat, let s := arrive dt s₀
      s.running = true ∧ s.on (Fld.TPT_STATUS_link n) = true) ∧
    (∃ s₀ : State, ∃ e, ∃ r, let s := inItsTurn (whenRunning (beaconPeriod)) s₀
      s.running = true ∧ spireOn s = true ∧ (List.range 4).filterMap (fun n => (s.line n).nextAt) = e :: r) ∧
    (∃ s₀ : State, ∃ n : Fin 4, let s := inItsTurn (whenRunning (answerBeacon n)) s₀
      s.running = true ∧ (s.line n).answer = true ∧ spireOn s = true ∧ (s.line n).link = true ∧
      s.on Fld.RED_STATUS_withdrawn = false) ∧
    (∃ s₀ : State, ∃ n : Fin 4, ∃ e, let s := inItsTurn (whenRunning (beaconDeadline n)) s₀
      s.running = true ∧ (s.line n).due = some e ∧ watched s n = true ∧ inTime (isBeaconArrival s n) s = false) ∧
    (∃ s₀ : State, ∃ n : Fin 4, ∃ l, ∃ back : Nat, ∃ dt : Nat, let s := arrive dt s₀
      s.running = true ∧ isSpireFrame s l = true ∧ stillTakes s n (rxInstant (48 + n) back s) = true ∧
      (let a := rxInstant (48 + n) back s
      (let r := intoSpire (48 + n) 7 a l s
      (let u := r.2
      r.1 = true ∧ beAt l 14 1 / 16 = 1 ∧ lstate u n ≠ Ln.down ∧ beAt l 18 8 ≠ u.nodeId ∧ spireOn u = true ∧
      portState u (48 + n) = 2 ∧ beAt l 14 1 % 16 = 1)))) ∧
    (∃ s₀ : State, ∃ n : Fin 4, ∃ l, ∃ back : Nat, ∃ dt : Nat, let s := arrive dt s₀
      s.running = true ∧ isSpireFrame s l = true ∧ stillTakes s n (rxInstant (48 + n) back s) = true ∧
      (let a := rxInstant (48 + n) back s
      (let r := intoSpire (48 + n) 7 a l s
      (let u := r.2
      r.1 = true ∧ beAt l 14 1 / 16 = 1 ∧ lstate u n ≠ Ln.down ∧ beAt l 18 8 ≠ u.nodeId ∧ spireOn u = true ∧
      portState u (48 + n) = 2 ∧ beAt l 14 1 % 16 = 2 ∧ back = 0)))) ∧
    (∃ s₀ : State, ∃ n : Fin 4, ∃ l, ∃ back : Nat, ∃ dt : Nat, let s := arrive dt s₀
      s.running = true ∧ isSpireFrame s l = true ∧ stillTakes s n (rxInstant (48 + n) back s) = true ∧
      (let a := rxInstant (48 + n) back s
      (let r := intoSpire (48 + n) 7 a l s
      (let u := r.2
      r.1 = true ∧ beAt l 14 1 / 16 = 1 ∧ lstate u n ≠ Ln.down ∧ beAt l 18 8 ≠ u.nodeId ∧ spireOn u = true ∧
      portState u (48 + n) = 2 ∧ beAt l 14 1 % 16 = 3)))) :=
  ⟨⟨fs [(Fld.TPT_CTRL_state 0, 2)] st, 0, 0, by decide +kernel⟩,
   ⟨stSpr, 0, 0, by decide +kernel⟩,
   ⟨ln0 { SprLine.empty with nextAt := some 9 } stSpr, 9, [], by decide +kernel⟩,
   ⟨ln0 { SprLine.empty with answer := true, link := true } stSpr, 0, by decide +kernel⟩,
   ⟨ln0 { SprLine.empty with due := some 9 } stSpr, 0, 9, by decide +kernel⟩,
   ⟨stSpr, 0, spf 1, 0, 0, by decide +kernel⟩,
   ⟨stSpr, 0, spf 2, 0, 0, by decide +kernel⟩,
   ⟨stSpr, 0, spf 3, 0, 0, by decide +kernel⟩⟩

/-- The clauses of EpochCommandsComplete have states and operands that meet their hypotheses. -/
theorem witness_EpochCommandsComplete :
    (∃ s₀ : State, ∃ d : Fin 2, ∃ o, let s := inItsTurn (whenRunning (sendCount d)) s₀
      s.running = true ∧ countDue s d = true ∧ outgoing s d = some o) ∧
    (∃ s₀ : State, ∃ e, ∃ v, let s := inItsTurn (whenRunning (settleExpiry)) s₀
      s.running = true ∧ spireOn s = true ∧ s.spr.settleEnd = some e ∧
      (let t := s |> advanceTo e |> modSpr (fun x => { x with settleEnd := none })
      viewOf t = some v ∧ v.overflow = false ∧ v.clash = false ∧ t.on Fld.SPR_STATUS_id_clash = false ∧ v.n ≠ 1)) ∧
    (∃ s₀ : State, ∃ a, ∃ fromRef : Bool, let s := inItsTurn (whenRunning (commitOut fromRef)) s₀
      s.running = true ∧ s.spr.fwd = some a ∧ (a.refDir == 0) = fromRef) ∧
    (∃ s₀ : State, ∃ e, let s := inItsTurn (whenRunning (waitTimeout)) s₀
      s.running = true ∧ spireOn s = true ∧ s.spr.waitEnd = some e ∧ inTime (isCommitArrival s) s = false) ∧
    (∃ s₀ : State, ∃ a, let s := inItsTurn (whenRunning (switchInstant)) s₀
      s.running = true ∧ s.spr.accepted = some a) ∧
    (∃ s₀ : State, ∃ e, let s := inItsTurn (whenRunning (backoffExpiry)) s₀
      s.running = true ∧ spireOn s = true ∧ s.spr.backoffEnd = some e) ∧
    (∃ s₀ : State, ∃ e, let s := inItsTurn (whenRunning (graceExpiry)) s₀
      s.running = true ∧ s.spr.graceEnd = some e) ∧
    (∃ s₀ : State, ∃ v, ∃ dt : Nat, let s := arrive dt s₀
      let w := wr Row.EPO_GRACE 0 Reg.EPO_GRACE v
      Taken s w) ∧
    (∃ s₀ : State, ∃ level, ∃ dt : Nat, let s := arrive dt s₀
      level ≠ s.spr.leadRaw) ∧
    (∃ s₀ : State, ∃ e, let s := inItsTurn (whenAlive (leadAccept)) s₀
      s.alive = true ∧ s.spr.leadDue = some e) ∧
    (∃ s₀ : State, ∃ c : Fin 2, ∃ level, ∃ dt : Nat, let s := arrive dt s₀
      s.alive = true ∧ s.on (cplRaw c) ≠ level) ∧
    (∃ s₀ : State, ∃ c : Fin 2, ∃ e, let s := inItsTurn (whenAlive (couplerAccept c)) s₀
      s.alive = true ∧ cplDue s c = some e) :=
  ⟨⟨counting, 0, (outgoing counting 0).get (by decide +kernel), by decide +kernel⟩,
   ⟨settling, 9, (viewOf (settling |> advanceTo 9 |> modSpr (fun x => { x with settleEnd := none }))).get (by decide +kernel),
       by decide +kernel⟩,
   ⟨modSpr (fun x => { x with fwd := some acc0 }) stSpr, acc0, true, by decide +kernel⟩,
   ⟨modSpr (fun x => { x with waitEnd := some 9 }) stSpr, 9, by decide +kernel⟩,
   ⟨modSpr (fun x => { x with accepted := some acc0 }) st, acc0, by decide +kernel⟩,
   ⟨modSpr (fun x => { x with backoffEnd := some 9 }) stSpr, 9, by decide +kernel⟩,
   ⟨modSpr (fun x => { x with graceEnd := some 9 }) st, 9, by decide +kernel⟩,
   ⟨st, 5, 0, by delta Taken; decide +kernel⟩,
   ⟨st, true, 0, by decide +kernel⟩,
   ⟨modSpr (fun x => { x with leadDue := some 9 }) st, 9, by decide +kernel⟩,
   ⟨st, 0, true, 0, by decide +kernel⟩,
   ⟨modPwr (fun x => { x with cpl1Due := some 9 }) st, 0, 9, by decide +kernel⟩⟩

/-- The clauses of CompatAndRosterCommandsComplete have states and operands that meet their hypotheses. -/
theorem witness_CompatAndRosterCommandsComplete :
    (∃ s₀ : State, let s := inItsTurn (whenRunning (helloSend)) s₀
      s.running = true ∧ inCompat s = true ∧ s.getF Fld.SPR_COMPAT_CTRL_length ≠ 0) ∧
    (∃ s₀ : State, ∃ n : Fin 4, ∃ l, ∃ dt : Nat, let s := arrive dt s₀
      s.running = true ∧ isHello s l = true ∧ portState s (48 + n) = 2 ∧
      (let a := rxInstant (48 + n) 0 s
      (let r := intoSpire (48 + n) 7 a l s
      inCompat s = true ∧ r.1 = true))) ∧
    (∃ s₀ : State, ∃ n : Fin 4, ∃ l, ∃ dt : Nat, let s := arrive dt s₀
      s.running = true ∧ isHello s l = true ∧ portState s (48 + n) = 2 ∧ inCompat s = false) ∧
    (∃ s₀ : State, ∃ n : Fin 4, ∃ e, let s := inItsTurn (whenRunning (helloTimeout n)) s₀
      s.running = true ∧ (s.line n).helloDue = some e ∧ inTime (isHelloArrival s [n]) s = false) ∧
    (∃ s₀ : State, ∃ l, ∃ dt : Nat, let s := arrive dt s₀
      s.running = true ∧ inCompat s = true ∧ isTopology s l = true) ∧
    (∃ s₀ : State, ∃ v, ∃ dt : Nat, let s := arrive dt s₀
      let w := wr Row.SPR_COMPAT_COMMIT 0 Reg.SPR_COMPAT_COMMIT v
      Taken s w) ∧
    (∃ s₀ : State, ∃ e, let s := inItsTurn (whenRunning (holdExpiry)) s₀
      s.running = true ∧ holdEnd s = some e ∧ inTime (isHelloArrival s [0, 1, 2, 3]) s = false) ∧
    (∃ s₀ : State, ∃ d : Fin 2, let s := inItsTurn (whenRunning (sendRoster d)) s₀
      s.running = true ∧
      (let t := modDir d (fun x => { x with roster := [] }) s
      inCompat t = false ∧ spireOn t = true)) ∧
    (∃ s₀ : State, ∃ n : Fin 4, ∃ l, ∃ dt : Nat, let s := arrive dt s₀
      let a := rxInstant (48 + n) 0 s
      s.running = true ∧ isRosterFrame s l = true ∧ stillTakes s n a = true ∧
      (let r := intoSpire (48 + n) 7 a l s
      (let u := r.2
      r.1 = true ∧
      (let hops := beAt l 15 1
      (let d := dirOf n
      badRoster l = false ∧ spireOn u = true ∧ portState u (48 + n) = 2 ∧ inCompat u = false ∧ isUp u n = true ∧
      (u.dir d).nbr = (u.line n).peer ∧ (u.dir d).nbr ≠ none ∧ Sparse.find (u.dir d).far hops = none))))) :=
  ⟨⟨fs [(Fld.SPR_STATUS_fsm, Fsm.compat), (Fld.SPR_COMPAT_CTRL_length, 60)] st, by decide +kernel⟩,
   ⟨fs [(Fld.TPT_CTRL_state 0, 2), (Fld.SPR_COMPAT_MATCH_etype, 4660), (Fld.SPR_STATUS_fsm, Fsm.compat)] st, 0,
       zeros 12 ++ be 2 4660 ++ zeros 46, 0, by decide +kernel⟩,
   ⟨fs [(Fld.TPT_CTRL_state 0, 2), (Fld.SPR_COMPAT_MATCH_etype, 4660)] st, 0, zeros 12 ++ be 2 4660 ++ zeros 46, 0,
       by decide +kernel⟩,
   ⟨ln0 { SprLine.empty with helloDue := some 9 } st, 0, 9, by decide +kernel⟩,
   ⟨fs [(Fld.SPR_STATUS_fsm, Fsm.compat), (Fld.SPR_COMPAT_TOPO_etype, 4660)] st, zeros 12 ++ be 2 4660 ++ zeros 46, 0,
       by decide +kernel⟩,
   ⟨st, 0, 0, by delta Taken; decide +kernel⟩,
   ⟨modSpr (fun x => { x with helloLast := some 0 }) st,
       (holdEnd (modSpr (fun x => { x with helloLast := some 0 }) st)).get (by decide +kernel), by decide +kernel⟩,
   ⟨stSpr, 0, by decide +kernel⟩,
   ⟨ln0 { SprLine.empty with peer := some 9 } (modDir 0 (fun x => { x with nbr := some 9 }) stSpr), 0,
       be 6 rosterMac ++ zeros 6 ++ be 2 (State.reset.getF Fld.EPO_ETYPE_roster) ++ [byte 17, byte 62] ++ be 2 0 ++ be 8 1 ++ zeros 38, 0, by decide +kernel⟩⟩

/-- The clauses of FabricCommandsComplete have states and operands that meet their hypotheses. -/
theorem witness_FabricCommandsComplete :
    (∃ s₀ : State, ∃ p : Fin 52, ∃ l, ∃ len, ∃ dt : Nat, let s := arrive dt s₀
      s.running = true ∧ receives s p = true ∧ Sparse.find s.fab.arriving p = none ∧ takenWhole s p len l = false) ∧
    (∃ s₀ : State, ∃ p : Fin 52, ∃ bytes, ∃ a, ∃ id, ∃ f, ∃ dt : Nat, let s := arrive dt s₀
      s.running = true ∧ Sparse.find s.fab.arriving p = some a ∧ a.frame = some id ∧
      (let v := setArrival p { a with line := a.line ++ bytes } s
      (let d := storedPart v p f bytes
      (let u := closeFragments id v
      v.frame id = some f ∧ lacksCells u f (max 1 (d.length / 128)) = false)))) ∧
    (∃ s₀ : State, ∃ p : Fin 52, ∃ bytes, ∃ frags, ∃ dt : Nat, ∃ a, ∃ id, ∃ f, let s := arrive dt s₀
      s.running = true ∧ Sparse.find s.fab.arriving p = some a ∧ a.frame = some id ∧
      (let line := a.line ++ bytes
      (let u := endArrival p s
      takenWhole u p (line.length + 4) line = false ∧ line.length + 4 ≤ maxFrame u p ∧
      (let v := statEnd p line .good frags u
      (let x := whenT (frags == 0 && cameExpress v p line) (stat1 p 20) v
      (let y := match a.learn with | some r => queueLearn r x | none => x
      (let d := storedPart y p f bytes
      (let z := closeFragments id y
      y.frame id = some f ∧ lacksCells z f (cellsOf (d.length + 4)) = false)))))))) ∧
    (∃ s₀ : State, let s := inItsTurn (whenRunning (cellTime)) s₀
      s.running = true) :=
  ⟨⟨edge, 0, zeros 60, 64, 0, by decide +kernel⟩,
   ⟨edge |> withFrame frm |> setArrival 0 { frame := some 1, line := zeros 60, learn := none, inAt := 0 }, 0, [],
       { frame := some 1, line := zeros 60, learn := none, inAt := 0 }, 1, frm, 0, by decide +kernel⟩,
   ⟨edge |> withFrame frm |> setArrival 0 { frame := some 1, line := zeros 60, learn := none, inAt := 0 }, 0, zeros 4, 0, 0,
       { frame := some 1, line := zeros 60, learn := none, inAt := 0 }, 1, frm, by decide +kernel⟩,
   ⟨st, by decide +kernel⟩⟩

/-- The clauses of RevertAndFdbCommandsComplete have states and operands that meet their hypotheses. -/
theorem witness_RevertAndFdbCommandsComplete :
    (∃ s₀ : State, ∃ d : Fin 2, ∃ n, let s := inItsTurn (whenRunning (Machine.revertStart d)) s₀
      s.running = true ∧ returned s d = some n ∧ s.on Fld.FAB_AGG_CTRL_revert = true ∧ Sparse.find s.fab.revert d = none) ∧
    (∃ s₀ : State, ∃ d : Fin 2, ∃ c : Fin 8, ∃ m, ∃ t0, ∃ moved, let s := inItsTurn (whenRunning (revertForce d c)) s₀
      s.running = true ∧ Sparse.find s.fab.revert d = some m ∧ Sparse.find s.fab.revertAt d = some t0 ∧
      (let u := s |> advanceTo (t0 + s.getF Fld.FAB_AGG_CTRL_drain_max_ms * cyclesPerMs) |> revertCheck d
      Sparse.find u.fab.revert d = some moved ∧ moved.contains c.val = false)) ∧
    (∃ s₀ : State, ∃ v, ∃ dt : Nat, let s := arrive dt s₀
      let w := wr Row.FAB_AGG_CTRL 0 Reg.FAB_AGG_CTRL v
      Taken s w) ∧
    (∃ s₀ : State, ∃ l, ∃ t, let s := inItsTurn (whenRunning (learnStep)) s₀
      s.running = true ∧ s.fab.learnQueue = l :: t) ∧
    (∃ s₀ : State, ∃ e, let s := inItsTurn (whenRunning (ageingSweep)) s₀
      s.running = true ∧ s.fab.sweepDue = some e) ∧
    (∃ s₀ : State, ∃ v, ∃ dt : Nat, let s := arrive dt s₀
      let w := wr Row.FDB_CMD 0 Reg.FDB_CMD v
      Taken s w) ∧
    (∃ s₀ : State, ∃ c, let s := inItsTurn (whenRunning (fdbDone)) s₀
      s.running = true ∧ s.fab.fdbCmd = some c) :=
  ⟨⟨fs [(Fld.FAB_AGG_CTRL_revert, 1)] { stSpr with fab := { stSpr.fab with awayLines := [0] } }, 0, 0, by decide +kernel⟩,
   ⟨{ st with fab := { st.fab with revert := [(0, [])], revertAt := [(0, 0)], txq := [(txKey 48 0, [1])] } }, 0, 0, [], 0,
       [1, 2, 3, 4, 5, 6, 7], by decide +kernel⟩,
   ⟨st, 0, 0, by delta Taken; decide +kernel⟩,
   ⟨{ st with fab := { st.fab with learnQueue := [{ mac := 2, vid := 1, train := false, dest := 0, epoch := 0 }] } },
       { mac := 2, vid := 1, train := false, dest := 0, epoch := 0 }, [], by decide +kernel⟩,
   ⟨st, (st.fab.sweepDue).get (by decide +kernel), by decide +kernel⟩,
   ⟨st, 0, 0, by delta Taken; decide +kernel⟩,
   ⟨{ st with fab := { st.fab with fdbCmd := some { cmd := 1, d0 := 0, d1 := 0, d2 := 0, d3 := 0, due := 100, passed := 0 } } },
       { cmd := 1, d0 := 0, d1 := 0, d2 := 0, d3 := 0, due := 100, passed := 0 }, by decide +kernel⟩⟩

/-- The clauses of EdgePortCommandsComplete have states and operands that meet their hypotheses. -/
theorem witness_EdgePortCommandsComplete :
    (∃ s₀ : State, ∃ p : Fin 48, ∃ speed : Fin 4, ∃ full, ∃ dt : Nat, let s := arrive dt s₀
      s.running = true ∧ (portState s p = 2 ∨ portState s p = 3) ∧
      (s.on (Fld.EPT_MODE_an p) = false ∨ s.on (Fld.EPT_MODE_iface p) = true ∨ full = true ∨ speed.val ≠ 2)) ∧
    (∃ s₀ : State, ∃ p : Fin 48, ∃ dt : Nat, let s := arrive dt s₀
      s.running = true ∧ (portState s p = 2 ∨ portState s p = 3)) ∧
    (∃ s₀ : State, ∃ p : Fin 48, ∃ l, ∃ dt : Nat, let s := arrive dt s₀
      s.running = true ∧ receives s p = true ∧ etherTypeAt l 12 = 0x8808 ∧ 60 ≤ l.length) ∧
    (∃ s₀ : State, ∃ p : Fin 48, ∃ k : Fin 9, ∃ e, let s := inItsTurn (whenRunning (Machine.pauseExpiry p k)) s₀
      s.running = true ∧ Sparse.find s.mac.pauseEnd (16 * p + k) = some e ∧ inTime (isPauseArrival p) s = false) ∧
    (∃ s₀ : State, ∃ p : Fin 48, ∃ bits, let s := inItsTurn (whenRunning (Machine.flowControlFrame p)) s₀
      s.running = true ∧ Sparse.find s.mac.fcWait p = some bits ∧ onAir s p = false ∧ portLink s p = true ∧ fcMode s p ≠ 0) ∧
    (∃ s₀ : State, ∃ p : Fin 48, ∃ t, let s := inItsTurn (whenRunning (Machine.fcRefresh p)) s₀
      s.running = true ∧ Sparse.find s.mac.lastFc p = some t ∧ xoffClasses s p ≠ [] ∧ fcMode s p ≠ 0) ∧
    (∃ s₀ : State, ∃ p : Fin 48, ∃ dt : Nat, ∃ x, let s := arrive dt s₀
      s.running = true ∧ sendingAt s p = some x ∧ isHalf s p = true ∧ onAir s p = true ∧
      (let mbps := portMbps s p
      bytesCycles mbps 64 < s.cycle - x.startAt)) ∧
    (∃ s₀ : State, ∃ p : Fin 48, ∃ dt : Nat, ∃ x, let s := arrive dt s₀
      s.running = true ∧ sendingAt s p = some x ∧ isHalf s p = true ∧ onAir s p = true ∧
      (let mbps := portMbps s p
      (let h := s.half p
      s.cycle - x.startAt ≤ bytesCycles mbps 64 ∧ 15 ≤ h.attempts))) ∧
    (∃ s₀ : State, ∃ p : Fin 48, ∃ dt : Nat, ∃ x, let s := arrive dt s₀
      s.running = true ∧ sendingAt s p = some x ∧ isHalf s p = true ∧ onAir s p = true ∧
      (let mbps := portMbps s p
      (let h := s.half p
      s.cycle - x.startAt ≤ bytesCycles mbps 64 ∧ h.attempts < 15))) ∧
    (∃ s₀ : State, ∃ p : Fin 48, ∃ e, ∃ x, ∃ f, let s := inItsTurn (whenRunning (backoffDone p)) s₀
      s.running = true ∧ (s.half p).backoffEnd = some e ∧ sendingAt s p = some x ∧ s.frame x.frame = some f ∧
      (s.half p).carrier = false) ∧
    (∃ s₀ : State, ∃ p : Fin 48, ∃ dt : Nat, let s := arrive dt s₀
      isHalf s p = true) :=
  ⟨⟨edge, 0, 0, true, 0, by decide +kernel⟩,
   ⟨edge, 0, 0, by decide +kernel⟩,
   ⟨edge, 0, zeros 12 ++ be 2 0x8808 ++ zeros 46, 0, by decide +kernel⟩,
   ⟨setMac (fun m => { m with pauseEnd := [(8, 9)] }) st, 0, 8, 9, by decide +kernel⟩,
   ⟨setMac (fun m => { m with fcWait := [(0, 1)] }) (setF (Fld.EPT_FC_mode 0) 1 edge), 0, 1, by decide +kernel⟩,
   ⟨fs [(Fld.EPT_FC_mode 0, 1), (Fld.EPT_FC_classes 0, 255)] (setMac (fun m => { m with lastFc := [(0, 0)] }) { st with fab := { st.fab with xoffRows := [ledRow 0 3] } }), 0, 0, by decide +kernel⟩,
   ⟨halfWith 1, 0, 60000, send0, by decide +kernel⟩,
   ⟨halfWith 15, 0, 0, send0, by decide +kernel⟩,
   ⟨halfWith 14, 0, 0, send0, by decide +kernel⟩,
   ⟨{ half with mac := { half.mac with half := [(0, { HalfDuplex.idle with backoffEnd := some 9 })] } }, 0, 9, send0, frm,
       by decide +kernel⟩,
   ⟨half, 0, 0, by decide +kernel⟩⟩

/-- The clauses of TransmitCommandsComplete have states and operands that meet their hypotheses. -/
theorem witness_TransmitCommandsComplete :
    (∃ s₀ : State, ∃ p : Fin 52, ∃ dt : Nat, ∃ q, ∃ id, ∃ f, let s := arrive dt s₀
      s.running = true ∧ portLink s p = true ∧ (portState s p = 2 ∨ portState s p = 3) ∧ Sparse.find s.mac.fcWait p = none ∧
      sendingAt s p = none ∧ isHalf s p = false ∧
      (let r := pickStart p (queuesOf p) s
      r.1 = some (q, id, f))) ∧
    (∃ s₀ : State, ∃ n : Fin 4, ∃ sent, ∃ dt : Nat, ∃ x, ∃ id, ∃ f, let s := arrive dt s₀
      s.running = true ∧ sendingAt s (48 + n) = some x ∧ preemptActive s n = true ∧ x.express = false ∧
      64 * (1 + s.getF (Fld.TPT_PREEMPT_add_frag n)) - 4 ≤ sent ∧ x.base + sent + 64 ≤ presentBytes s x + 4 ∧
      (let r := startFrom ((txQueue s (48 + n) 8).length + 1) (48 + n) 8 s
      r.1 = some (id, f))) ∧
    (∃ s₀ : State, ∃ p : Fin 52, ∃ dt : Nat, ∃ x, ∃ f, let s := arrive dt s₀
      s.running = true ∧ sendingAt s p = some x ∧ s.frame x.frame = some f ∧ onAir s p = true ∧ f.complete = true ∧
      f.copies.any (fun y => y.out == p.val && decide (f.cells ≤ y.pos)) = true ∧ f.bad = false ∧ x.held = none) ∧
    (∃ s₀ : State, ∃ n : Fin 4, ∃ v, let s := inItsTurn (whenRunning (Machine.verifySend n)) s₀
      s.running = true ∧ Sparse.find s.mac.verify n = some v ∧ v.restart = false ∧
      (let u := advanceTo v.due s
      inTime (isVerifyResponse n) u = false ∧ v.sent < u.getF (Fld.TPT_PREEMPT_verify_limit n))) ∧
    (∃ s₀ : State, ∃ n : Fin 4, ∃ v, let s := inItsTurn (whenRunning (Machine.verifySend n)) s₀
      s.running = true ∧ Sparse.find s.mac.verify n = some v ∧ v.restart = false ∧
      (let u := advanceTo v.due s
      inTime (isVerifyResponse n) u = false ∧ u.getF (Fld.TPT_PREEMPT_verify_limit n) ≤ v.sent)) ∧
    (∃ s₀ : State, ∃ n : Fin 4, ∃ dt : Nat, let s := arrive dt s₀
      s.running = true ∧ receives s (48 + n) = true ∧
      (let u := stat1 (48 + n) 52 s
      u.getF (Fld.TPT_STATUS_verify n) = Vf.verifying ∧
      ((Sparse.find u.mac.verify n).map (fun v => v.restart)).getD false = false)) ∧
    (∃ s₀ : State, ∃ n : Fin 4, ∃ dt : Nat, let s := arrive dt s₀
      s.running = true ∧ receives s (48 + n) = true) ∧
    (∃ s₀ : State, ∃ n : Fin 4, ∃ v, ∃ dt : Nat, let s := arrive dt s₀
      let w := wr Row.TPT_PREEMPT n (Reg.TPT_PREEMPT n) v
      Taken s w) ∧
    (∃ s₀ : State, ∃ p : Fin 48, ∃ t, let s := inItsTurn (whenRunning (Machine.drainExpiry p)) s₀
      s.running = true ∧ Sparse.find s.mac.drainAt p = some t) ∧
    (∃ s₀ : State, ∃ p : Fin 48, ∃ v, ∃ dt : Nat, let s := arrive dt s₀
      let w := wr Row.EPT_CTRL p (Reg.EPT_CTRL p) v
      Taken s w) ∧
    (∃ s₀ : State, ∃ v, ∃ dt : Nat, let s := arrive dt s₀
      let w := wr Row.MST_CLEAR 0 Reg.MST_CLEAR v
      Taken s w) :=
  ⟨⟨{ edge with fab := { edge.fab with txq := [(0, [1])] } }
       |> withFrame { frm with copies := [{ out := 0, pos := 1, stage := .queued, arg := 0, ring := 0 }] }, 0, 0, 0, 1,
       { frm with copies := [{ out := 0, pos := 1, stage := .queued, arg := 0, ring := 0 }] }, by decide +kernel⟩,
   ⟨stSpr |> fs [(Fld.SPR_STATUS_fsm, Fsm.compat), (Fld.TPT_STATUS_preempt_active 0, 1)] |> withFrame frm
       |> rawFrame 2 { frm with express := true } |> snd_ { send0 with bytes := zeros 120 } 48 |> setTxq 48 8 [2], 0, 60, 0,
       { send0 with bytes := zeros 120 }, 2, { frm with express := true }, by decide +kernel⟩,
   ⟨edge |> withFrame { frm with copies := [{ out := 0, pos := 1, stage := .queued, arg := 0, ring := 0 }] } |> snd_ send0 0, 0,
       0, send0, { frm with copies := [{ out := 0, pos := 1, stage := .queued, arg := 0, ring := 0 }] }, by decide +kernel⟩,
   ⟨setMac (fun m => { m with verify := [(0, { sent := 0, due := 9, restart := false })] }) st, 0,
       { sent := 0, due := 9, restart := false }, by decide +kernel⟩,
   ⟨setMac (fun m => { m with verify := [(0, { sent := 15, due := 9, restart := false })] }) st, 0,
       { sent := 15, due := 9, restart := false }, by decide +kernel⟩,
   ⟨fs [(Fld.TPT_STATUS_verify 0, Vf.verifying)] stSpr, 0, 0, by decide +kernel⟩,
   ⟨stSpr, 0, 0, by decide +kernel⟩,
   ⟨st, 0, 0, 0, by delta Taken; decide +kernel⟩,
   ⟨setMac (fun m => { m with drainAt := [(0, 0)] }) st, 0, 0, by decide +kernel⟩,
   ⟨st, 0, 0, 0, by delta Taken; decide +kernel⟩,
   ⟨st, 0, 0, by delta Taken; decide +kernel⟩⟩

/-- The clauses of SyncCommandsComplete have states and operands that meet their hypotheses. -/
theorem witness_SyncCommandsComplete :
    (∃ s₀ : State, let s := inItsTurn (whenRunning (syncSend)) s₀
      s.running = true ∧ s.tim.extra = []) ∧
    (∃ s₀ : State, let s := inItsTurn (whenRunning (syncSend)) s₀
      s.running = true ∧ s.tim.extra ≠ []) ∧
    (∃ s₀ : State, ∃ n : Fin 4, ∃ l, ∃ back : Nat, ∃ dt : Nat, let s := arrive dt s₀
      let a := rxInstant (48 + n) back s
      s.running = true ∧ isNativeSync s l = true ∧ stillTakes s n a = true ∧
      (let r := intoSpire (48 + n) 6 a l s
      (let v := r.2
      r.1 = true ∧ portState v (48 + n) = 2 ∧ servoOwns v = true ∧ firstUp v (dirOf n) = some n.val ∧
      slaveDir v = dirOf n + 1))) ∧
    (∃ s₀ : State, ∃ e, let s := inItsTurn (whenAlive (slewEnd)) s₀
      s.alive = true ∧ s.tim.slewEnd = some e) ∧
    (∃ s₀ : State, ∃ e, let s := inItsTurn (whenRunning (syncTimeout)) s₀
      s.running = true ∧ s.tim.syncDue = some e ∧ inTime (isSyncArrival s) s = false) ∧
    (∃ s₀ : State, ∃ e, let s := inItsTurn (whenAlive (permitLapse)) s₀
      s.alive = true ∧ s.tim.grantEnd = some e) ∧
    (∃ s₀ : State, ∃ e, let s := inItsTurn (whenRunning (mergeTimeout)) s₀
      s.running = true ∧ s.tim.mergeEnd = some e ∧ inTime (isSyncArrival s) s = false) ∧
    (∃ s₀ : State, ∃ e, let s := inItsTurn (whenRunning (mergeWaitExpiry)) s₀
      s.running = true ∧ s.tim.waitEnd = some e ∧ inTime (isSyncArrival s) s = false) ∧
    (∃ s₀ : State, ∃ c, let s := inItsTurn (whenRunning (mergeWaitExpiry)) s₀
      s.running = true ∧ s.tim.waitEnd = none ∧ s.tim.flaggedSince = some c ∧ s.on Fld.TIM_STATUS_gm_yielded = true ∧
      inTime (isSyncArrival s) s = false) :=
  ⟨⟨setTim (fun x => { x with nextSync := 100 }) st, by decide +kernel⟩,
   ⟨setTim (fun x => { x with extra := [0] }) st, by decide +kernel⟩,
   ⟨stSpr |> fs [(Fld.TIM_STATUS_slave, 1)], 0,
       be 6 llTimeMac ++ zeros 6 ++ be 2 0x88F7 ++ [byte 0x10] ++ zeros 3 ++ [byte (State.reset.getF Fld.TIM_BB_CTRL_domain)] ++ zeros 71, 0, 0, by decide +kernel⟩,
   ⟨setTim (fun x => { x with slewEnd := some 9 }) st, 9, by decide +kernel⟩,
   ⟨setTim (fun x => { x with syncDue := some 9 }) st, 9, by decide +kernel⟩,
   ⟨setTim (fun x => { x with grantEnd := some 9 }) st, 9, by decide +kernel⟩,
   ⟨setTim (fun x => { x with mergeEnd := some 9 }) st, 9, by decide +kernel⟩,
   ⟨setTim (fun x => { x with waitEnd := some 9 }) st, 9, by decide +kernel⟩,
   ⟨setF Fld.TIM_STATUS_gm_yielded 1 (setTim (fun x => { x with flaggedSince := some 3 }) st), 3, by decide +kernel⟩⟩

/-- The clauses of TimeAndPinCommandsComplete have states and operands that meet their hypotheses. -/
theorem witness_TimeAndPinCommandsComplete :
    (∃ s₀ : State, ∃ v, ∃ dt : Nat, let s := arrive dt s₀
      let w := wr Row.TIM_ADJ_CTRL 0 Reg.TIM_ADJ_CTRL v
      Taken s w) ∧
    (∃ s₀ : State, ∃ v, ∃ dt : Nat, let s := arrive dt s₀
      let w := wr Row.TIM_RATE 0 Reg.TIM_RATE v
      Taken s w) ∧
    (∃ s₀ : State, ∃ v, ∃ dt : Nat, let s := arrive dt s₀
      let w := wr Row.TIM_PERMIT 0 Reg.TIM_PERMIT v
      Taken s w) ∧
    (∃ s₀ : State, ∃ v, ∃ dt : Nat, let s := arrive dt s₀
      let w := wr Row.TIM_ADDEND_HI 0 Reg.TIM_ADDEND_HI v
      Taken s w) ∧
    (∃ s₀ : State, ∃ v, ∃ dt : Nat, let s := arrive dt s₀
      let w := wr Row.TIM_CORR_CTRL 0 Reg.TIM_CORR_CTRL v
      Taken s w) ∧
    (∃ s₀ : State, ∃ d : Fin 8, ∃ v, ∃ dt : Nat, let s := arrive dt s₀
      let w := wr Row.PHS_OFFSET d (Reg.PHS_OFFSET d) v
      Taken s w) ∧
    (∃ s₀ : State, ∃ n : Fin 4, let s := inItsTurn (whenRunning (Machine.ppsPulse n)) s₀
      s.running = true ∧ syncMode s n = 4) ∧
    (∃ s₀ : State, ∃ n : Fin 4, ∃ e, let s := inItsTurn (whenRunning (Machine.ppsEnd n)) s₀
      s.running = true ∧ Sparse.find s.tim.ppsEnd n = some e) :=
  ⟨⟨st, 0, 0, by delta Taken; decide +kernel⟩,
   ⟨st, 0, 0, by delta Taken; decide +kernel⟩,
   ⟨st, 0, 0, by delta Taken; decide +kernel⟩,
   ⟨st, 0, 0, by delta Taken; decide +kernel⟩,
   ⟨st, 0, 0, by delta Taken; decide +kernel⟩,
   ⟨st, 0, 0, 0, by delta Taken; decide +kernel⟩,
   ⟨fs [(Fld.TIM_SYNC_CFG_mode 0, 4)] st, 0, by decide +kernel⟩,
   ⟨setTim (fun x => { x with ppsEnd := [(0, 9)] }) st, 0, 9, by decide +kernel⟩⟩

/-- The clauses of PhaseAndCarillonCommandsComplete have states and operands that meet their hypotheses. -/
theorem witness_PhaseAndCarillonCommandsComplete :
    (∃ s₀ : State, ∃ d : Fin 8, ∃ dt : Nat, ∃ p, let s := arrive dt s₀
      s.running = true ∧ lockState s d ≠ Lk.off ∧ s.sd.refs.find? (fun p => p.1 == d.val) = some p ∧
      phsSource s d = Src.mains) ∧
    (∃ s₀ : State, ∃ d : Fin 8, ∃ dt : Nat, let s := arrive dt s₀
      s.running = true ∧ lockState s d ≠ Lk.off ∧ phsSource s d = Src.sync ∧
      syncMode s (s.getF (Fld.PHS_CTRL_input d) % 4) = 6) ∧
    (∃ s₀ : State, ∃ d : Fin 8, ∃ dt : Nat, let s := arrive dt s₀
      s.running = true ∧ lockState s d ≠ Lk.off ∧ phsSource s d = Src.tach) ∧
    (∃ s₀ : State, ∃ d : Fin 8, ∃ dt : Nat, let s := arrive dt s₀
      s.running = true ∧ lockState s d ≠ Lk.off ∧ phsSource s d = Src.tach) ∧
    (∃ s₀ : State, ∃ d : Fin 8, let s := inItsTurn (whenRunning (Machine.referenceMiss d)) s₀
      s.running = true ∧ (lockState s d = Lk.acquire ∨ lockState s d = Lk.locked) ∧ (s.dom d).seen ≠ 0 ∧
      (phsSource s d = Src.mains ∨ phsSource s d = Src.sync) ∧
      (let x := s.dom d
      (let u := advanceTo (x.lastAt + (2 * x.missed + 3) * refPeriod x.inc 1 / 2) s
      inTime (isCyclicEdge d) u = false))) ∧
    (∃ s₀ : State, ∃ d : Fin 8, let s := inItsTurn (whenRunning (Machine.tachStill d)) s₀
      s.running = true ∧ phsSource s d = Src.tach ∧ lockState s d ≠ Lk.off ∧ lockState s d ≠ Lk.hold ∧
      (let u := advanceTo ((s.dom d).lastAt + s.getF (Fld.PHS_SLIP_still_ms d) * cyclesPerMs) s
      inTime (isTachEdge d) u = false ∧ (s.dom d).seen = 0)) ∧
    (∃ s₀ : State, ∃ d : Fin 8, let s := inItsTurn (whenRunning (Machine.tachStill d)) s₀
      s.running = true ∧ phsSource s d = Src.tach ∧ lockState s d ≠ Lk.off ∧ lockState s d ≠ Lk.hold ∧
      (let u := advanceTo ((s.dom d).lastAt + s.getF (Fld.PHS_SLIP_still_ms d) * cyclesPerMs) s
      inTime (isTachEdge d) u = false ∧ (s.dom d).seen ≠ 0)) ∧
    (∃ s₀ : State, ∃ c, let s := inItsTurn (whenRunning (pd0Limit)) s₀
      s.running = true ∧ s.car.pd0Since = some c) ∧
    (∃ s₀ : State, let s := inItsTurn (whenRunning (carillonFire)) s₀
      s.running = true ∧ s.getF Fld.CAR_CTRL_state = 2) ∧
    (∃ s₀ : State, ∃ k : Fin 4096, ∃ v, ∃ dt : Nat, let s := arrive dt s₀
      let w := wr Row.CAR_EVT1 k (Reg.CAR_EVT1 k) v
      Taken s w) ∧
    (∃ s₀ : State, let s := inItsTurn (whenRunning (scheduleSilence)) s₀
      s.running = true ∧ silenced s = false ∧ s.getF Fld.CAR_SILENCE_ticks ≤ s.car.overTicks) ∧
    (∃ s₀ : State, ∃ v, ∃ dt : Nat, let s := arrive dt s₀
      let w := wr Row.CAR_RELEASE 0 Reg.CAR_RELEASE v
      Taken s w) :=
  ⟨⟨fs [(Fld.PHS_STATUS_lstate 0, Lk.acquire), (Fld.PHS_CTRL_source 0, Src.mains)] { st with sd := { st.sd with refs := [(0, 5)] } }, 0, 0, (0, 5), by decide +kernel⟩,
   ⟨fs [(Fld.PHS_STATUS_lstate 0, Lk.acquire), (Fld.PHS_CTRL_source 0, Src.sync), (Fld.TIM_SYNC_CFG_mode 0, 6)] st, 0, 0,
       by decide +kernel⟩,
   ⟨fs [(Fld.PHS_STATUS_lstate 0, Lk.acquire), (Fld.PHS_CTRL_source 0, Src.tach)] st, 0, 0, by decide +kernel⟩,
   ⟨fs [(Fld.PHS_STATUS_lstate 0, Lk.acquire), (Fld.PHS_CTRL_source 0, Src.tach)] st, 0, 0, by decide +kernel⟩,
   ⟨dom0 { Domain.zero with seen := 1 } (fs [(Fld.PHS_STATUS_lstate 0, Lk.acquire), (Fld.PHS_CTRL_source 0, Src.mains)] st), 0,
       by decide +kernel⟩,
   ⟨dom0 Domain.zero (fs [(Fld.PHS_STATUS_lstate 0, Lk.acquire), (Fld.PHS_CTRL_source 0, Src.tach)] st), 0, by decide +kernel⟩,
   ⟨dom0 { Domain.zero with seen := 1 } (fs [(Fld.PHS_STATUS_lstate 0, Lk.acquire), (Fld.PHS_CTRL_source 0, Src.tach)] st), 0,
       by decide +kernel⟩,
   ⟨st, (st.car.pd0Since).get (by decide +kernel), by decide +kernel⟩,
   ⟨setF Fld.CAR_CTRL_state 2 st, by decide +kernel⟩,
   ⟨st, 0, 0, 0, by delta Taken; decide +kernel⟩,
   ⟨{ st with car := { st.car with overTicks := 256 } }, by decide +kernel⟩,
   ⟨st, 0, 0, by delta Taken; decide +kernel⟩⟩

/-- The clauses of CanChannelCommandsComplete have states and operands that meet their hypotheses. -/
theorem witness_CanChannelCommandsComplete :
    (∃ s₀ : State, ∃ c : Fin 16, ∃ f : CanFrame, ∃ dt : Nat, let s := arrive dt s₀
      s.running = true ∧ onBus s c = true ∧
      (let u := s |> offBus c |> modChan c (fun x => { x with sender := false })
      f.fdf = true ∧ u.on (Fld.CAN_CTRL_fd c) = false)) ∧
    (∃ s₀ : State, ∃ c : Fin 16, ∃ f : CanFrame, ∃ dt : Nat, let s := arrive dt s₀
      s.running = true ∧ onBus s c = true ∧
      (let u := s |> offBus c |> modChan c (fun x => { x with sender := false })
      (f.fdf = false ∨ u.on (Fld.CAN_CTRL_fd c) = true))) ∧
    (∃ s₀ : State, ∃ r : Fin 64, ∃ l, ∃ dt : Nat, ∃ j, let s := arrive dt s₀
      s.running = true ∧ canJob s r = some j ∧ recordIndex l = 0 ∧
      (let c := beAt l 6 1 % 16
      (let f := recordFrame l
      (let u := modHost (fun h => { h with lastTx := r }) s
      f.fdf = true ∧ u.on (Fld.CAN_CTRL_fd c) = false)))) ∧
    (∃ s₀ : State, ∃ r : Fin 64, ∃ l, ∃ dt : Nat, ∃ j, let s := arrive dt s₀
      s.running = true ∧ canJob s r = some j ∧ recordIndex l = 0 ∧
      (let c := beAt l 6 1 % 16
      (let f := recordFrame l
      (let u := modHost (fun h => { h with lastTx := r }) s
      (f.fdf = false ∨ u.on (Fld.CAN_CTRL_fd c) = true))))) ∧
    (∃ s₀ : State, ∃ c : Fin 16, ∃ dt : Nat, ∃ src, ∃ f : CanFrame, let s := arrive dt s₀
      s.running = true ∧ onBus s c = true ∧ chanState s c = 2 ∧ (s.chan c).bus = none ∧ (s.chan c).mode ≠ 1 ∧
      lonelyPaused s c = false ∧ canChoice s c = some (src, f)) ∧
    (∃ s₀ : State, ∃ c : Fin 16, ∃ dt : Nat, ∃ b, ∃ r, ∃ j, let s := arrive dt s₀
      s.running = true ∧ (s.chan c).bus = some b ∧ b.src = .host r j) ∧
    (∃ s₀ : State, ∃ c : Fin 16, ∃ dt : Nat, ∃ b, let s := arrive dt s₀
      s.running = true ∧ (s.chan c).bus = some b) ∧
    (∃ s₀ : State, ∃ c : Fin 16, let s := inItsTurn (whenRunning (Machine.lonelyRetry c)) s₀
      s.running = true ∧ lonelyPaused s c = true) ∧
    (∃ s₀ : State, ∃ c : Fin 16, ∃ k : BusError, ∃ transmitting : Bool, ∃ dt : Nat, let s := arrive dt s₀
      s.running = true ∧ onBus s c = true ∧ (transmitting = true → (s.chan c).sender = true) ∧
      (transmitting = true ∨ k = .flagBit ∨ k = .dominantRun → (s.chan c).mode ≠ 1)) ∧
    (∃ s₀ : State, ∃ dt : Nat, let s := arrive dt s₀
      s.running = true) ∧
    (∃ s₀ : State, ∃ c : Fin 16, ∃ v, ∃ dt : Nat, let s := arrive dt s₀
      let w := wr Row.CAN_CTRL c (Reg.CAN_CTRL c) v
      Taken s w) ∧
    (∃ s₀ : State, ∃ c : Fin 16, let s := inItsTurn (whenRunning (canRecovered c)) s₀
      s.running = true ∧ s.on (Fld.CAN_STATUS_recovering c) = true) :=
  ⟨⟨setF (Fld.CAN_CTRL_fd 0) 0 canOn, 0, cf true, 0, by decide +kernel⟩,
   ⟨canOn, 0, cf false, 0, by decide +kernel⟩,
   ⟨setF (Fld.CAN_CTRL_fd 0) 0 (txRing (desc 80 0x13)), 0, zeros 7 ++ [byte 2] ++ zeros 72, 0, job (desc 80 0x13),
       by decide +kernel⟩,
   ⟨txRing (desc 80 0x13), 0, zeros 80, 0, job (desc 80 0x13), by decide +kernel⟩,
   ⟨chan0 { CanChan.idle with fil := [cf false] } canOn, 0, 0, .fil, cf false, by decide +kernel⟩,
   ⟨chan0 { CanChan.idle with bus := some (bus0 (.host 0 0)) } canOn, 0, 0, bus0 (.host 0 0), 0, 0, by decide +kernel⟩,
   ⟨chan0 { CanChan.idle with bus := some (bus0 .fil) } canOn, 0, 0, bus0 .fil, by decide +kernel⟩,
   ⟨fs [(Fld.CAN_STATUS_lonely 0, 1), (Fld.CAN_CTRL_lonely_pause 0, 1)] canOn, 0, by decide +kernel⟩,
   ⟨canOn, 0, .bit, false, 0, by decide +kernel⟩,
   ⟨st, 0, by decide +kernel⟩,
   ⟨st, 0, 0, 0, by delta Taken; decide +kernel⟩,
   ⟨setF (Fld.CAN_STATUS_recovering 0) 1 st, 0, by decide +kernel⟩⟩

/-- The clauses of CanScheduleCommandsComplete have states and operands that meet their hypotheses. -/
theorem witness_CanScheduleCommandsComplete :
    (∃ s₀ : State, ∃ j : Fin 64, let s := inItsTurn (whenRunning (ttTx j)) s₀
      AtTrigger s j 1 ∧
      (let u := triggered 1 j s
      (let k := u.getF (Fld.CAN_TT_TRIG_B_mailbox j)
      (let age := if u.on (Fld.CAN_MB_STATE_loaded k) then 0 else min (u.getF (Fld.CAN_MB_STATE_age k) + 1) 255
      (let v := u |> setF (Fld.CAN_MB_STATE_age k) age |> setF (Fld.CAN_MB_STATE_loaded k) 0
      (v.getF (Fld.CAN_MB_CFG_age_limit k) < age ∧ v.on (Fld.CAN_MB_CFG_stale_action k) = true)))))) ∧
    (∃ s₀ : State, ∃ j : Fin 64, let s := inItsTurn (whenRunning (ttTx j)) s₀
      AtTrigger s j 1 ∧
      (let u := triggered 1 j s
      (let k := u.getF (Fld.CAN_TT_TRIG_B_mailbox j)
      (let age := if u.on (Fld.CAN_MB_STATE_loaded k) then 0 else min (u.getF (Fld.CAN_MB_STATE_age k) + 1) 255
      (let v := u |> setF (Fld.CAN_MB_STATE_age k) age |> setF (Fld.CAN_MB_STATE_loaded k) 0
      (age ≤ v.getF (Fld.CAN_MB_CFG_age_limit k) ∨ v.on (Fld.CAN_MB_CFG_stale_action k) = false) ∧ v.hasRole = true))))) ∧
    (∃ s₀ : State, ∃ w, let s := inItsTurn (whenRunning (ttWindowEnd)) s₀
      s.running = true ∧ s.can.tt.window = some w) ∧
    (∃ s₀ : State, ∃ j : Fin 64, let s := inItsTurn (whenRunning (ttRx j)) s₀
      AtTrigger s j 2) ∧
    (∃ s₀ : State, ∃ j : Fin 64, let s := inItsTurn (whenRunning (ttArb j)) s₀
      AtTrigger s j 3) ∧
    (∃ s₀ : State, ∃ j : Fin 64, let s := inItsTurn (whenRunning (ttRef j)) s₀
      AtTrigger s j 4) ∧
    (∃ s₀ : State, ∃ j : Fin 64, let s := inItsTurn (whenRunning (ttWatch j)) s₀
      AtTrigger s j 5 ∧ refInTime s (trigAt s j) = false) ∧
    (∃ s₀ : State, ∃ r : Fin 64, ∃ l, ∃ dt : Nat, ∃ j, let s := arrive dt s₀
      s.running = true ∧ canJob s r = some j ∧ recordIndex l ≠ 0 ∧ recordIndex l ≤ 64) :=
  ⟨⟨fs [(Fld.CAN_MB_STATE_loaded 0, 0), (Fld.CAN_MB_STATE_age 0, 9), (Fld.CAN_MB_CFG_age_limit 0, 9), (Fld.CAN_MB_CFG_stale_action 0, 1)] (tt0 1 st), 0, by delta AtTrigger; decide +kernel⟩,
   ⟨fs [(Fld.CAN_MB_CFG_age_limit 0, 1), (Fld.CAN_MB_CFG_stale_action 0, 1), (Fld.RED_STATUS_role, 1)] (tt0 1 st), 0,
       by delta AtTrigger; decide +kernel⟩,
   ⟨{ st with can := { st.can with tt := { st.can.tt with window := some { mailbox := 0, endAt := 9, started := false } } } },
       { mailbox := 0, endAt := 9, started := false }, by decide +kernel⟩,
   ⟨tt0 2 st, 0, by delta AtTrigger; decide +kernel⟩,
   ⟨tt0 3 st, 0, by delta AtTrigger; decide +kernel⟩,
   ⟨tt0 4 st, 0, by delta AtTrigger; decide +kernel⟩,
   ⟨tt0 5 st, 0, by delta AtTrigger; decide +kernel⟩,
   ⟨txRing (desc 80 0x13), 0, zeros 13 ++ [byte 64] ++ zeros 66, 0, job (desc 80 0x13), by decide +kernel⟩⟩

/-- The clauses of FiligreeCommandsComplete have states and operands that meet their hypotheses. -/
theorem witness_FiligreeCommandsComplete :
    (∃ s₀ : State, ∃ id, ∃ rest, ∃ f, let s := inItsTurn (whenRunning (filEthFrame)) s₀
      s.running = true ∧ txQueue s portF 0 = id :: rest ∧ s.frame id = some f ∧
      (s.getF Fld.FIL_CTRL_state = 0 ∨ s.fil.events.length < 256)) ∧
    (∃ s₀ : State, let s := inItsTurn (whenRunning (Machine.statusSample statusWords)) s₀
      s.running = true ∧ s.getF Fld.FIL_CTRL_state ≠ 0) ∧
    (∃ s₀ : State, ∃ i : Fin 16, ∃ v, ∃ dt : Nat, let s := arrive dt s₀
      let w := wr Row.FIL_HOST_WORD i (Reg.FIL_HOST_WORD i) v
      Taken s w) ∧
    (∃ s₀ : State, ∃ e, ∃ rest, let s := inItsTurn (whenRunning (sourceJob)) s₀
      s.running = true ∧ s.fil.events = e :: rest ∧ s.fil.emits = [] ∧ filRuns s = true ∧
      (let t := modFil (fun x => { x with events := rest }) s
      filMatch t e = none)) ∧
    (∃ s₀ : State, ∃ e, ∃ rest, ∃ i, let s := inItsTurn (whenRunning (sourceJob)) s₀
      s.running = true ∧ s.fil.events = e :: rest ∧ s.fil.emits = [] ∧ filRuns s = true ∧
      (let t := modFil (fun x => { x with events := rest }) s
      filMatch t e = some i ∧
      (let u := setF (Fld.FIL_SRC3_hits i) (min (t.getF (Fld.FIL_SRC3_hits i) + 1) 0xFFFFFFFF) t
      e.data.length < u.getF (Fld.FIL_SRC2_min_len i)))) ∧
    (∃ s₀ : State, ∃ e, ∃ rest, ∃ i, let s := inItsTurn (whenRunning (sourceJob)) s₀
      s.running = true ∧ s.fil.events = e :: rest ∧ s.fil.emits = [] ∧ filRuns s = true ∧
      (let t := modFil (fun x => { x with events := rest }) s
      filMatch t e = some i ∧
      (let u := setF (Fld.FIL_SRC3_hits i) (min (t.getF (Fld.FIL_SRC3_hits i) + 1) 0xFFFFFFFF) t
      u.getF (Fld.FIL_SRC2_min_len i) ≤ e.data.length))) ∧
    (∃ s₀ : State, ∃ t : Fin 2048, ∃ c, let s := inItsTurn (whenRunning (changeDue t)) s₀
      s.running = true ∧ s.fil.pending.contains (t.val, false) = true ∧ Sparse.find s.fil.lastEmit t = some c ∧
      (let u := advanceTo (c + s.getF (Fld.FIL_TPL1_min_gap_us t) * cyclesPerUs) s
      u.hasRole = true)) ∧
    (∃ s₀ : State, ∃ t, ∃ w, ∃ rest, let s := inItsTurn (whenRunning (emission)) s₀
      s.running = true ∧ s.fil.emits = (t, w) :: rest ∧ filRuns s = true ∧
      (let u := modFil (fun x => { x with emits := rest }) s
      tplBadWord u t = false ∧ tplValid u t = true ∧ u.hasRole = true)) ∧
    (∃ s₀ : State, ∃ v, ∃ dt : Nat, let s := arrive dt s₀
      let w := wr Row.FIL_CTRL 0 Reg.FIL_CTRL v
      Taken s w) :=
  ⟨⟨{ st with fab := { st.fab with txq := [(txKey portF 0, [1])] } } |> withFrame frm, 1, [], frm, by decide +kernel⟩,
   ⟨setF Fld.FIL_CTRL_state 1 st, by decide +kernel⟩,
   ⟨st, 0, 0, 0, by delta Taken; decide +kernel⟩,
   ⟨setF Fld.FIL_CTRL_state 2 { st with fil := { st.fil with events := [filEv] } }, filEv, [], by decide +kernel⟩,
   ⟨setF Fld.FIL_CTRL_state 2 { st with fil := { st.fil with events := [filEv] } }
       |> fs [(Fld.FIL_SRC1_valid (4 * filBucket (keyBytes filEv)), 1), (Fld.FIL_SRC2_min_len (4 * filBucket (keyBytes filEv)), 1)], filEv, [], 4 * filBucket (keyBytes filEv), by decide +kernel⟩,
   ⟨setF Fld.FIL_CTRL_state 2 { st with fil := { st.fil with events := [filEv] } }
       |> fs [(Fld.FIL_SRC1_valid (4 * filBucket (keyBytes filEv)), 1)], filEv, [], 4 * filBucket (keyBytes filEv),
       by decide +kernel⟩,
   ⟨setF Fld.RED_STATUS_role 1 { st with fil := { st.fil with pending := [(0, false)], lastEmit := [(0, 0)] } }, 0, 0,
       by decide +kernel⟩,
   ⟨fs [(Fld.RED_STATUS_role, 1), (Fld.FIL_CTRL_state, 2), (Fld.FIL_TPL0_valid 0, 1)] { st with fil := { st.fil with emits := [(0, false)] } }, 0, false, [], by decide +kernel⟩,
   ⟨st, 0, 0, by delta Taken; decide +kernel⟩⟩

/-- The clauses of SenseAndDriveCommandsComplete have states and operands that meet their hypotheses. -/
theorem witness_SenseAndDriveCommandsComplete :
    (∃ s₀ : State, ∃ n : Fin 32, ∃ bits, ∃ dt : Nat, let a := arrive dt s₀
      let s := feedBits n bits a
      a.running = true ∧ senseFed a n = true ∧ (s.sense n).skip = 0 ∧ s.getF Fld.SNS_CTRL_state = 2) ∧
    (∃ s₀ : State, ∃ n : Fin 32, ∃ dt : Nat, let s := arrive dt s₀
      s.running = true ∧ senseFed s n = true ∧ isStuck s n = false) ∧
    (∃ s₀ : State, ∃ n : Fin 32, ∃ dt : Nat, let s := arrive dt s₀
      s.running = true ∧ senseFed s n = true) ∧
    (∃ s₀ : State, ∃ v, ∃ dt : Nat, let s := arrive dt s₀
      let w := wr Row.SNS_CONVERT 0 Reg.SNS_CONVERT v
      Taken s w) ∧
    (∃ s₀ : State, ∃ v, ∃ dt : Nat, let s := arrive dt s₀
      let w := wr Row.DRV_LEVEL 0 Reg.DRV_LEVEL v
      Taken s w) ∧
    (∃ s₀ : State, ∃ o : Fin 32, ∃ n, let s := inItsTurn (whenRunning (drivePass o)) s₀
      s.running = true ∧ 2 ≤ drvMode s o ∧ lockState s (drvDom s o) ≠ Lk.off ∧
      (let d := drvDom s o
      (let now := position s d
      (let last := lastWith (s.getF (Fld.DRV_PHASE_phase o)) now
      passingIn s d last (Sparse.get (fun _ => now) s.sd.passed o) now = some n)))) ∧
    (∃ s₀ : State, ∃ o : Fin 32, ∃ c, let s := inItsTurn (whenRunning (readbackStart o)) s₀
      s.running = true ∧ Sparse.find s.sd.rbDue o = some c) ∧
    (∃ s₀ : State, ∃ o : Fin 32, ∃ c, let s := inItsTurn (whenRunning (Machine.readbackFault o)) s₀
      s.running = true ∧ Sparse.find s.sd.rbSince o = some c ∧ s.on (Fld.DRV_CFG_rb_en o) = true ∧
      awaitsSoon (.readback o c) s = false) ∧
    (∃ s : State, ∃ o : Fin 32, ∃ since, Sparse.find s.sd.rbSince o = some since) ∧
    (∃ s₀ : State, ∃ o : Fin 32, ∃ p, let s := inItsTurn (whenRunning (proveOpen o)) s₀
      s.running = true ∧ Sparse.find s.sd.prove o = some p ∧ p.left = none) :=
  ⟨⟨fs [(Fld.SNS_CTRL_state, 2), (Fld.SNS_CH_CFG_on 0, 1), (Fld.SNS_MCLK_CFG_enable 0, 1)] { st with sd := { st.sd with inputs := [(0, { SenseIn.idle with skip := 0 })] } }, 0, [], 0, by decide +kernel⟩,
   ⟨fs [(Fld.SNS_CTRL_state, 2), (Fld.SNS_CH_CFG_on 0, 1), (Fld.SNS_MCLK_CFG_enable 0, 1)] st, 0, 0, by decide +kernel⟩,
   ⟨fs [(Fld.SNS_CTRL_state, 2), (Fld.SNS_CH_CFG_on 0, 1), (Fld.SNS_MCLK_CFG_enable 0, 1)] st, 0, 0, by decide +kernel⟩,
   ⟨st, 0, 0, by delta Taken; decide +kernel⟩,
   ⟨st, 0, 0, by delta Taken; decide +kernel⟩,
   ⟨dom0 { Domain.zero with inc := 2 ^ 62 } (fs [(Fld.DRV_CFG_mode 0, 2), (Fld.PHS_STATUS_lstate 0, Lk.acquire), (Fld.PHS_CTRL_source 0, Src.mains)] st), 0, 4, by decide +kernel⟩,
   ⟨{ st with sd := { st.sd with rbDue := [(0, 9)] } }, 0, 9, by decide +kernel⟩,
   ⟨setF (Fld.DRV_CFG_rb_en 0) 1 { st with sd := { st.sd with rbSince := [(0, 9)] } }, 0, 9, by decide +kernel⟩,
   ⟨{ st with sd := { st.sd with rbSince := [(0, 9)] } }, 0, 9, by decide +kernel⟩,
   ⟨{ st with sd := { st.sd with prove := [(0, { rising := true, dueAt := 9, left := none, input := 0, acc := Gather.empty })] } }, 0, { rising := true, dueAt := 9, left := none, input := 0, acc := Gather.empty }, by decide +kernel⟩⟩

/-- The clauses of RingCommandsComplete have states and operands that meet their hypotheses. -/
theorem witness_RingCommandsComplete :
    (∃ s₀ : State, ∃ r : Fin 64, ∃ v : Word, ∃ pos, ∃ dt : Nat, let s := arrive dt s₀
      s.reaches = true ∧ s.host.bellsAhead.contains (r.val, v.toNat) = false ∧ doorbellOk s r v.toNat = some pos) ∧
    (∃ s₀ : State, ∃ r : Fin 64, ∃ v : Word, ∃ dt : Nat, let s := arrive dt s₀
      s.reaches = true ∧ s.host.bellsAhead.contains (r.val, v.toNat) = false ∧ doorbellOk s r v.toNat = none) ∧
    (∃ s₀ : State, ∃ r : Fin 64, ∃ v : Word, ∃ dt : Nat, let s := arrive dt s₀
      s.reaches = true ∧ s.host.bellsAhead.contains (r.val, v.toNat) = true) ∧
    (∃ s₀ : State, ∃ r : Fin 64, ∃ dt : Nat, let s := arrive dt s₀
      s.running = true ∧ ringIs s r 0 = true ∧ s.on Fld.HST_LINK_bme = true) ∧
    (∃ s₀ : State, ∃ r : Fin 64, ∃ dt : Nat, let s := arrive dt s₀
      let x := s.ring r
      s.running = true ∧ (ringIs s r 1 = true ∨ ringIs s r 3 = true ∨ (ringState s r = 3 ∧ x.writing.isSome = true)) ∧
      s.on Fld.HST_LINK_bme = true) ∧
    (∃ s₀ : State, ∃ r : Fin 64, ∃ bytes, ∃ dt : Nat, ∃ j, let s := arrive dt s₀
      s.running = true ∧ txServed s = some r.val ∧ s.on Fld.HST_LINK_bme = true ∧ nextReading s r = some j ∧
      (let d := (j.slots.head?.map (·.2)).getD (zeros 32)
      Desc.can d = false ∧
      (let l := slice bytes 0 (j.slots.map (fun p => Desc.len p.2)).sum
      (let v := modHost (fun h => { h with lastTx := r }) s
      (let cls := (hostFrame d l r j.id v).cls
      v.host.waitH.any (fun w => w.1 == cls) = false))))) ∧
    (∃ s₀ : State, ∃ r : Fin 64, ∃ bytes, ∃ dt : Nat, ∃ j, let s := arrive dt s₀
      s.running = true ∧ txServed s = some r.val ∧ s.on Fld.HST_LINK_bme = true ∧ nextReading s r = some j ∧
      (let d := (j.slots.head?.map (·.2)).getD (zeros 32)
      Desc.can d = false ∧
      (let l := slice bytes 0 (j.slots.map (fun p => Desc.len p.2)).sum
      (let v := modHost (fun h => { h with lastTx := r }) s
      (let cls := (hostFrame d l r j.id v).cls
      v.host.waitH.any (fun w => w.1 == cls) = true))))) ∧
    (∃ s₀ : State, ∃ i, ∃ rest, let s := inItsTurn (whenRunning (ringWrite)) s₀
      s.running = true ∧ s.fab.ringQueue = i :: rest ∧ (s.ring (ringOfItem s i)).writing = none ∧
      (let t := modFab (fun x => { x with ringQueue := (i :: rest).erase i }) s
      (let r := ringOfItem t i
      ringIs t r 1 = true ∧ (t.ring r).writing = none ∧ (t.ring r).held = [] ∧ 0 < freeSlots t r))) ∧
    (∃ s₀ : State, ∃ r : Fin 64, ∃ e, let s := inItsTurn (whenRunning (stallExpiry r)) s₀
      s.running = true ∧ (s.ring r).stallEnd = some e ∧ inTime (isDoorbell s r) (advanceTo e s) = false) ∧
    (∃ s₀ : State, ∃ c, ∃ rest, ∃ b, ∃ more, let s := inItsTurn (whenRunning (captureWrite)) s₀
      s.running = true ∧ s.fab.captures = c :: rest ∧ c.chain.any (fun i => s.fab.badWords.contains (0, i)) = false ∧
      ringIs s c.ring 3 = true ∧ freeSlots s c.ring ≠ 0 ∧ (s.ring c.ring).fetched = b :: more ∧ 64 ≤ Desc.len b ∧
      c.data.length ≤ Desc.len b) ∧
    (∃ s₀ : State, ∃ r : Fin 64, let s := inItsTurn (whenRunning (Machine.moderationTimer r)) s₀
      s.running = true ∧ (s.ring r).unannounced ≠ 0) :=
  ⟨⟨ring0 Ring.empty ringOn, 0, 15, 15, 0, by decide +kernel⟩,
   ⟨st, 0, 0, 0, by decide +kernel⟩,
   ⟨{ ring0 Ring.empty ringOn with host := { (ring0 Ring.empty ringOn).host with bellsAhead := [(0, 15)] } }, 0, 15, 0,
       by decide +kernel⟩,
   ⟨ring0 { Ring.empty with prod := 1 } ringOn, 0, 0, by decide +kernel⟩,
   ⟨ring0 { Ring.empty with type := 3, prod := 1 } ringOn, 0, 0, by decide +kernel⟩,
   ⟨txRing (desc 60 3), 0, [], 0, job (desc 60 3), by decide +kernel⟩,
   ⟨{ txRing (desc 60 3) with host := { (txRing (desc 60 3)).host with waitH := [(0, 1, 1)] } }, 0, [], 0, job (desc 60 3),
       by decide +kernel⟩,
   ⟨{ ring0 { Ring.empty with type := 1, prod := 1 } ringOn with fab := { st.fab with ringQueue := [.can 0 []] } }, .can 0 [],
       [], by decide +kernel⟩,
   ⟨ring0 { Ring.empty with stallEnd := some 9 } ringOn, 0, 9, by decide +kernel⟩,
   ⟨{ ring0 { Ring.empty with type := 3, prod := 1, fetched := [desc 64 0] } ringOn with fab := { st.fab with captures := [{ ring := 0, cls := 0, data := zeros 64, chain := [] }] } }, { ring := 0, cls := 0, data := zeros 64, chain := [] }, [], desc 64 0, [], by decide +kernel⟩,
   ⟨ring0 { Ring.empty with unannounced := 1 } ringOn, 0, by decide +kernel⟩⟩

/-- The clauses of HostCommandsComplete have states and operands that meet their hypotheses. -/
theorem witness_HostCommandsComplete :
    (∃ s₀ : State, ∃ dt : Nat, let s := arrive dt s₀
      s.reaches = true) ∧
    (∃ s₀ : State, ∃ dt : Nat, let s := arrive dt s₀
      s.reaches = true) ∧
    (∃ s₀ : State, ∃ v, ∃ dt : Nat, let s := arrive dt s₀
      let w := wr Row.HST_MISC_ACK 0 Reg.HST_MISC_ACK v
      Taken s w) ∧
    (∃ s₀ : State, ∃ dt : Nat, let s := arrive dt s₀
      s.reaches = true ∧ s.on Fld.HST_WDOG_CTRL_enable = true) ∧
    (∃ s₀ : State, ∃ e, let s := inItsTurn (whenAlive (wdogExpiry)) s₀
      s.alive = true ∧ s.host.wdogEnd = some e ∧ inTime isKick (advanceTo e s) = false) ∧
    (∃ s₀ : State, ∃ v, ∃ dt : Nat, let s := arrive dt s₀
      let w := wr Row.HST_WDOG_CTRL 0 Reg.HST_WDOG_CTRL v
      let t := written s w
      Taken s w ∧ t.on Fld.HST_WDOG_CTRL_enable = false) ∧
    (∃ s₀ : State, ∃ v, ∃ dt : Nat, let s := arrive dt s₀
      let w := wr Row.HST_WDOG_CTRL 0 Reg.HST_WDOG_CTRL v
      let t := written s w
      Taken s w ∧ t.on Fld.HST_WDOG_CTRL_enable = true ∧ (bit (old s w) 0 = false ∨ t.host.wdogEnd.isSome = true)) ∧
    (∃ s₀ : State, ∃ r : Fin 64, ∃ dt : Nat, let s := arrive dt s₀
      s.alive = true ∧ ringState s r ≠ 0) ∧
    (∃ s₀ : State, ∃ r : Fin 64, ∃ dt : Nat, let s := arrive dt s₀
      s.alive = true ∧ (nextReading s r).isSome = true) ∧
    (∃ s₀ : State, ∃ dt : Nat, let s := arrive dt s₀
      s.alive = true ∧ imgState s ≠ 0 ∧ imgSource s = 1) ∧
    (∃ s₀ : State, ∃ dt : Nat, let s := arrive dt s₀
      s.alive = true) ∧
    (∃ s₀ : State, ∃ dt : Nat, let s := arrive dt s₀
      s.alive = true) ∧
    (∃ s₀ : State, ∃ dt : Nat, let s := arrive dt s₀
      s.alive = true ∧ s.pwr.stage ≠ .pll ∧ s.pwr.stage ≠ .memory ∧ lanes s ≠ 0) ∧
    (∃ s₀ : State, ∃ dt : Nat, let s := arrive dt s₀
      s.alive = true) ∧
    (∃ s₀ : State, ∃ dt : Nat, let s := arrive dt s₀
      s.alive = true ∧ s.on Fld.HST_LINK_bme = true) ∧
    (∃ s₀ : State, ∃ dt : Nat, let s := arrive dt s₀
      s.alive = true ∧ s.on Fld.HST_LINK_up = true) :=
  ⟨⟨st, 0, by decide +kernel⟩,
   ⟨st, 0, by decide +kernel⟩,
   ⟨st, 0, 0, by delta Taken; decide +kernel⟩,
   ⟨setF Fld.HST_WDOG_CTRL_enable 1 st, 0, by decide +kernel⟩,
   ⟨{ st with host := { st.host with wdogEnd := some 9 } }, 9, by decide +kernel⟩,
   ⟨st, 0, 0, by delta Taken; decide +kernel⟩,
   ⟨st, 1, 0, by delta Taken; decide +kernel⟩,
   ⟨setF (Fld.RNG_CTRL_state 0) 3 st, 0, 0, by decide +kernel⟩,
   ⟨txRing (desc 60 3), 0, 0, by decide +kernel⟩,
   ⟨setF Fld.ROL_IMG_STATUS_source 1 (img 1 id), 0, by decide +kernel⟩,
   ⟨st, 0, by decide +kernel⟩,
   ⟨st, 0, by decide +kernel⟩,
   ⟨st, 0, by decide +kernel⟩,
   ⟨st, 0, by decide +kernel⟩,
   ⟨ringOn, 0, by decide +kernel⟩,
   ⟨ringOn, 0, by decide +kernel⟩⟩

/-- The clauses of LocalBusCyclesComplete have states and operands that meet their hypotheses. -/
theorem witness_LocalBusCyclesComplete :
    (∃ s₀ : State, ∃ d : List (Option Byte), ∃ dt : Nat, let s := arrive dt s₀
      s.reaches = true ∧ lbbState s ≠ 0 ∧ wfifoUse s + ceilDiv d.length 64 ≤ 32) ∧
    (∃ s₀ : State, ∃ dt : Nat, let s := arrive dt s₀
      s.reaches = true ∧ lbbState s ≠ 0) ∧
    (∃ s₀ : State, ∃ data : BitVec 16, ∃ ok, ∃ dt : Nat, ∃ c, let at_ := s₀.cycle + dt
      let s := inItsTurn (whenRunning (Machine.localCycleEnd data.toNat ok at_)) s₀
      s.running = true ∧ s.lbb.cycle = some c ∧
      (let e := if c.ready then max c.endMin at_ else c.endMin
      (c.ready = false ∨ e ≤ c.limitAt))) ∧
    (∃ s₀ : State, ∃ c, let s := inItsTurn (whenRunning (noReady)) s₀
      s.running = true ∧ s.lbb.cycle = some c ∧ c.ready = true ∧ inTime isLocalEnd (advanceTo c.limitAt s) = false) ∧
    (∃ s₀ : State, ∃ tag : Fin 8, ∃ r, let s := inItsTurn (whenRunning (Machine.readTimeout tag)) s₀
      s.running = true ∧ readOf s tag = some r ∧ r.answer = none ∧ lastDataInTime (advanceTo r.due s) r = false ∧
      (let u := advanceTo r.due s
      (u.lbb.cycle.isSome && u.lbb.work.head? == some (.read tag)) = true)) ∧
    (∃ s₀ : State, ∃ tag : Fin 8, ∃ r, let s := inItsTurn (whenRunning (Machine.readTimeout tag)) s₀
      s.running = true ∧ readOf s tag = some r ∧ r.answer = none ∧ lastDataInTime (advanceTo r.due s) r = false ∧
      (let u := advanceTo r.due s
      (u.lbb.cycle.isSome && u.lbb.work.head? == some (.read tag)) = false)) ∧
    (∃ s₀ : State, ∃ cs : Fin 4, ∃ p, let s := inItsTurn (whenRunning (Machine.prefetchExpiry cs)) s₀
      s.running = true ∧ prefetchOf s cs = some p) :=
  ⟨⟨lbb0 (fun b => { b with work := [.write 0 [] 31] }) lbbOn, [some 1], 0, by decide +kernel⟩,
   ⟨lbbOn, 0, by decide +kernel⟩,
   ⟨lbb0 (fun b => { b with cycle := some { cyc0 with ready := true } }) lbbOn, 0, true, 20, { cyc0 with ready := true },
       by decide +kernel⟩,
   ⟨lbb0 (fun b => { b with cycle := some { cyc0 with ready := true } }) lbbOn, { cyc0 with ready := true }, by decide +kernel⟩,
   ⟨lbb0 (fun b => { b with cycle := some cyc0, work := [.read 0], reads := [{ read0 with rest := [some 0, some 0] }] }) lbbOn,
       0, { read0 with rest := [some 0, some 0] }, by decide +kernel⟩,
   ⟨lbb0 (fun b => { b with work := [.read 0], reads := [read0] }) lbbOn, 0, read0, by decide +kernel⟩,
   ⟨lbb0 (fun b => { b with prefetch := [(0, { addr := 0, data := [], seen := [], filledAt := 0 })] }) lbbOn, 0,
       { addr := 0, data := [], seen := [], filledAt := 0 }, by decide +kernel⟩⟩

/-- The clauses of LocalBusGuestsComplete have states and operands that meet their hypotheses. -/
theorem witness_LocalBusGuestsComplete :
    (∃ s₀ : State, ∃ dt : Nat, let s := arrive dt s₀
      lbbState s = 2 ∧
      (let t := modLbb (fun b => { b with wanted := true }) s
      t.lbb.cycle = none)) ∧
    (∃ s₀ : State, ∃ dt : Nat, ∃ c, let s := arrive dt s₀
      lbbState s = 2 ∧
      (let t := modLbb (fun b => { b with wanted := true }) s
      t.lbb.cycle = some c ∧ t.cycle ≤ c.startAt ∧ mayGrant t = true)) ∧
    (∃ s₀ : State, ∃ dt : Nat, ∃ c, let s := arrive dt s₀
      lbbState s = 2 ∧
      (let t := modLbb (fun b => { b with wanted := true }) s
      t.lbb.cycle = some c ∧ c.startAt < t.cycle)) ∧
    (∃ s₀ : State, ∃ t, let s := inItsTurn (whenRunning (tenureExpiry)) s₀
      s.running = true ∧ s.lbb.tenure = some t) ∧
    (∃ s₀ : State, ∃ la : BitVec 24, ∃ dt : Nat, let s := arrive dt s₀
      s.running = true ∧ isTarget s = true ∧ s.lbb.waitingIn = none ∧ inboundUse s < 32 ∧
      s.on Fld.LBB_INB_CFG_parity = false ∧ s.lbb.block = [] ∧ la.toNat % 2 = 0) ∧
    (∃ s₀ : State, ∃ dt : Nat, let s := arrive dt s₀
      s.running = true ∧ isTarget s = true ∧ s.lbb.waitingIn = none ∧ 32 ≤ inboundUse s) ∧
    (∃ s₀ : State, ∃ dt : Nat, let s := arrive dt s₀
      s.running = true ∧ isTarget s = true ∧ s.lbb.waitingIn = none ∧ inboundUse s < 32) ∧
    (∃ s₀ : State, ∃ dt : Nat, let s := arrive dt s₀
      s.running = true ∧ isTarget s = true) ∧
    (∃ s₀ : State, let s := inItsTurn (whenRunning (inboundFlush)) s₀
      s.running = true ∧ s.lbb.entries ≠ 0) ∧
    (∃ s₀ : State, ∃ n : Fin 8, ∃ rising : Bool, ∃ dt : Nat, let s := arrive dt s₀
      s.running = true ∧ lbbState s ≠ 0 ∧ bit (s.getF Fld.LBB_IRQ_CFG_falling) n = !rising ∧
      (let t := flushBlock s
      bit (t.getF Fld.LBB_IRQ_EVENT_edge) n = true ∧ inTime (clearsIrq n) t = false)) ∧
    (∃ s₀ : State, ∃ n : Fin 8, ∃ rising : Bool, ∃ dt : Nat, let s := arrive dt s₀
      s.running = true ∧ lbbState s ≠ 0 ∧ bit (s.getF Fld.LBB_IRQ_CFG_falling) n = !rising ∧
      (let t := flushBlock s
      (bit (t.getF Fld.LBB_IRQ_EVENT_edge) n = false ∨ inTime (clearsIrq n) t = true))) ∧
    (∃ s₀ : State, ∃ v, ∃ dt : Nat, let s := arrive dt s₀
      let w := wr Row.LBB_CLASP_CTRL 0 Reg.LBB_CLASP_CTRL v
      Taken s w) ∧
    (∃ s₀ : State, ∃ m, ∃ e, let s := inItsTurn (whenRunning (claspExpiry)) s₀
      s.running = true ∧ s.lbb.clasp = some (m, e)) :=
  ⟨⟨lbbOn, 0, by decide +kernel⟩,
   ⟨setF Fld.LBB_ARB_master_en 1 (lbb0 (fun b => { b with cycle := some cyc0 }) lbbOn), 0, cyc0, by decide +kernel⟩,
   ⟨setF Fld.LBB_ARB_master_en 1 (lbb0 (fun b => { b with cycle := some cyc0 }) lbbOn), 1, cyc0, by decide +kernel⟩,
   ⟨lbb0 (fun b => { b with tenure := some 0 }) lbbOn, 0, by decide +kernel⟩,
   ⟨setF Fld.LBB_INB_CFG_enable 1 (lbb0 (fun b => { b with tenure := some 0 }) lbbOn), 0, 0, by decide +kernel⟩,
   ⟨setF Fld.LBB_INB_CFG_enable 1 (lbb0 (fun b => { b with tenure := some 0, entries := 32 }) lbbOn), 0, by decide +kernel⟩,
   ⟨setF Fld.LBB_INB_CFG_enable 1 (lbb0 (fun b => { b with tenure := some 0 }) lbbOn), 0, by decide +kernel⟩,
   ⟨setF Fld.LBB_INB_CFG_enable 1 (lbb0 (fun b => { b with tenure := some 0 }) lbbOn), 0, by decide +kernel⟩,
   ⟨lbb0 (fun b => { b with entries := 1 }) lbbOn, by decide +kernel⟩,
   ⟨fs [(Fld.LBB_IRQ_CFG_falling, 0), (Fld.LBB_IRQ_EVENT_edge, 1)] lbbOn, 0, true, 0, by decide +kernel⟩,
   ⟨fs [(Fld.LBB_IRQ_CFG_falling, 0)] lbbOn, 0, true, 0, by decide +kernel⟩,
   ⟨st, 0, 0, by delta Taken; decide +kernel⟩,
   ⟨lbb0 (fun b => { b with clasp := some (0, 9) }) lbbOn, 0, 9, by decide +kernel⟩⟩

/-- The clauses of CrcCommandsComplete have states and operands that meet their hypotheses. -/
theorem witness_CrcCommandsComplete :
    (∃ s₀ : State, ∃ u : Fin 4, ∃ v, ∃ dt : Nat, let s := arrive dt s₀
      let w := wr Row.CRC_CTRL u (Reg.CRC_CTRL u) v
      Taken s w) ∧
    (∃ s₀ : State, ∃ u : Fin 4, ∃ v, ∃ dt : Nat, let s := arrive dt s₀
      let w := wr Row.CRC_SEED u (Reg.CRC_SEED u) v
      Taken s w) ∧
    (∃ s₀ : State, ∃ u : Fin 4, ∃ v, ∃ dt : Nat, let s := arrive dt s₀
      let w := wr Row.CRC_DATA8 u (Reg.CRC_DATA8 u) v
      Taken s w) ∧
    (∃ s₀ : State, ∃ u : Fin 4, ∃ v, ∃ dt : Nat, let s := arrive dt s₀
      let w := wr Row.CRC_DATA16 u (Reg.CRC_DATA16 u) v
      Taken s w) ∧
    (∃ s₀ : State, ∃ u : Fin 4, ∃ v, ∃ dt : Nat, let s := arrive dt s₀
      let w := wr Row.CRC_DATA32 u (Reg.CRC_DATA32 u) v
      Taken s w) :=
  ⟨⟨st, 0, 0, 0, by delta Taken; decide +kernel⟩,
   ⟨st, 0, 0, 0, by delta Taken; decide +kernel⟩,
   ⟨st, 0, 0, 0, by delta Taken; decide +kernel⟩,
   ⟨st, 0, 0, 0, by delta Taken; decide +kernel⟩,
   ⟨st, 0, 0, 0, by delta Taken; decide +kernel⟩⟩

/-- The clauses of IlgilLinkCommandsComplete have states and operands that meet their hypotheses. -/
theorem witness_IlgilLinkCommandsComplete :
    (∃ s₀ : State, ∃ g : Fin 2, ∃ dt : Nat, let s := arrive dt s₀
      s.alive = true ∧ ilgPortState s g = 2 ∧ ilgState s g < Lk.ilgHello) ∧
    (∃ s₀ : State, ∃ dt : Nat, let s := arrive dt s₀
      s.alive = true) ∧
    (∃ s₀ : State, ∃ g : Fin 2, let s := inItsTurn (whenAlive (helloUnitSend g)) s₀
      s.alive = true ∧ ilgPortState s g = 2 ∧ ilgState s g = Lk.ilgHello) ∧
    (∃ s₀ : State, ∃ g : Fin 2, ∃ l, ∃ dt : Nat, let s := arrive dt s₀
      s.alive = true ∧ (plainUnit g Unit.hello l s).1 = true ∧
      (let u := (plainUnit g Unit.hello l s).2
      ilgState u g = Lk.ilgHello ∧ beAt l 2 1 % 16 ≠ 15 ∧
      (let v := u |> setF (Fld.ILG_PORT_STATUS_lstate g) Lk.ilgHello |> modIlgPort g (fun x => { x with hello := l })
        |> setF (Fld.ILG_PORT_STATUS_peer_index g) (beAt l 2 1 % 16)
        |> setF (Fld.ILG_PORT_STATUS_peer_role g) (beAt l 1 1 % 4) |> setR (Reg.ILG_PEER_ID_HI g) (beAt l 4 4)
        |> setR (Reg.ILG_PEER_ID_LO g) (beAt l 8 4)
      isWorker v = false ∧ (¬ (isManager v = true ∧ beAt l 1 1 % 4 = 1))))) ∧
    (∃ s₀ : State, ∃ g : Fin 2, let s := inItsTurn (whenAlive (Machine.reachSend g)) s₀
      s.alive = true ∧ ilgUp s g = true ∧ ilgPortState s g = 2) ∧
    (∃ s₀ : State, ∃ g : Fin 2, ∃ l, ∃ dt : Nat, let s := arrive dt s₀
      s.alive = true ∧ (plainUnit g Unit.reach l s).1 = true ∧
      (let u := (plainUnit g Unit.reach l s).2
      ilgUp u g = true ∧
      (let v := u |> setF (Fld.ILG_PORT_REACH_reach g) (beAt l 3 1) |> repath
      (isWorker v = true ∧ pathOf v 0 = some g.val)))) ∧
    (∃ s₀ : State, ∃ g : Fin 2, ∃ l, ∃ dt : Nat, let s := arrive dt s₀
      s.alive = true ∧ (plainUnit g Unit.reach l s).1 = true ∧
      (let u := (plainUnit g Unit.reach l s).2
      ilgUp u g = true ∧
      (let v := u |> setF (Fld.ILG_PORT_REACH_reach g) (beAt l 3 1) |> repath
      (¬ (isWorker v = true ∧ pathOf v 0 = some g.val))))) ∧
    (∃ s₀ : State, ∃ v, ∃ dt : Nat, let s := arrive dt s₀
      let w := wr Row.ILG_REBALANCE 0 Reg.ILG_REBALANCE v
      Taken s w ∧ bit (val w) 0 = true) :=
  ⟨⟨fs [(Fld.ILG_PORT_CTRL_state 0, 2)] st, 0, 0, by decide +kernel⟩,
   ⟨st, 0, by decide +kernel⟩,
   ⟨fs [(Fld.ILG_PORT_CTRL_state 0, 2), (Fld.ILG_PORT_STATUS_lstate 0, 2)] st, 0, by decide +kernel⟩,
   ⟨fs [(Fld.ILG_PORT_CTRL_state 0, 2), (Fld.ILG_PORT_STATUS_lstate 0, 2)] st, 0,
       unitOf [byte Unit.hello] (unitSlots Unit.hello), 0, by decide +kernel⟩,
   ⟨ilgUp0, 0, by decide +kernel⟩,
   ⟨worker ilgUp0 |> fs [(Fld.ILG_PORT_REACH_reach 0, 1)] |> path0 0, 0, unitOf [byte Unit.reach, 0, 0, 1] 1, 0,
       by decide +kernel⟩,
   ⟨ilgUp0, 0, unitOf [byte Unit.reach] 1, 0, by decide +kernel⟩,
   ⟨st, 1, 0, by delta Taken; decide +kernel⟩⟩

/-- The clauses of IlgilUnitCommandsComplete have states and operands that meet their hypotheses. -/
theorem witness_IlgilUnitCommandsComplete :
    (∃ s₀ : State, ∃ g : Fin 2, let s := inItsTurn (whenAlive (creditSend g)) s₀
      s.alive = true ∧ ilgUp s g = true ∧ creditOwed (s.ilgPort g) = true) ∧
    (∃ s₀ : State, ∃ g : Fin 2, ∃ l, ∃ dt : Nat, let s := arrive dt s₀
      s.alive = true ∧ (plainUnit g Unit.credit l s).1 = true ∧
      (let u := (plainUnit g Unit.credit l s).2
      ilgUp u g = true)) ∧
    (∃ s₀ : State, ∃ g : Fin 2, let s := inItsTurn (whenAlive (Machine.replayTimeout g)) s₀
      s.alive = true ∧ ilgUp s g = true ∧ (s.ilgPort g).replay ≠ [] ∧
      (let t := advanceTo ((s.ilgPort g).ackAt + 2 * cyclesPerUs) s
      inTime (isProgress s g) t = false)) ∧
    (∃ s₀ : State, ∃ g : Fin 2, ∃ l, ∃ dt : Nat, ∃ id, ∃ f, ∃ a, let s := arrive dt s₀
      s.alive = true ∧ (acceptUnit g Unit.cell l s).1 = true ∧
      (let u := (acceptUnit g Unit.cell l s).2
      (let b := beAt l 3 1
      (let key := 1000 + 16 * g.val + (if bit b 2 then 8 else b / 32)
      bit b 4 = false ∧ Sparse.find u.fab.arriving key = some a ∧ a.frame = some id ∧ u.frame id = some f)))) ∧
    (∃ s₀ : State, ∃ g : Fin 2, ∃ l, ∃ dt : Nat, ∃ id, let s := arrive dt s₀
      s.alive = true ∧ (acceptUnit g Unit.cell l s).1 = true ∧
      (let u := (acceptUnit g Unit.cell l s).2
      (let b := beAt l 3 1
      (let d := slice l 32 (min 128 (beAt l 9 1))
      bit b 4 = true ∧ isSpireFrame u d = false ∧
      (let w := cellFan (cellFrame g l d u) (beAt l 8 1) u
      (let a := dispatch w.1 w.2.1 true w.2.2
      a.1 = .taken id)))))) ∧
    (∃ s₀ : State, ∃ g : Fin 2, let s := inItsTurn (whenAlive (Machine.timeUnitSend g)) s₀
      s.alive = true ∧ ilgUp s g = true) ∧
    (∃ s₀ : State, ∃ g : Fin 2, ∃ l, ∃ dt : Nat, let s := arrive dt s₀
      s.alive = true ∧ (plainUnit g Unit.time l s).1 = true ∧
      (let u := (plainUnit g Unit.time l s).2
      ilgUp u g = true ∧
      (let x := u.ilgPort g
      (let v := setIlgPort g { x with rxT := some (beAt l 1 2, u.stamp, beAt l 4 4), periodic := ((u.stamp, beAt l 4 4) :: x.periodic).take 2 } u
      bit (beAt l 3 1) 0 = false ∧
      (isWorker v = false ∨ pathOf v 0 ≠ some g.val ∨ bit (beAt l 3 1) 1 = false ∨ servoOwns v = false))))) ∧
    (∃ s₀ : State, ∃ g : Fin 2, ∃ l, ∃ dt : Nat, ∃ t1, let s := arrive dt s₀
      s.alive = true ∧ (plainUnit g Unit.time l s).1 = true ∧
      (let u := (plainUnit g Unit.time l s).2
      ilgUp u g = true ∧
      (let x := u.ilgPort g
      (let v := setIlgPort g { x with rxT := some (beAt l 1 2, u.stamp, beAt l 4 4), periodic := ((u.stamp, beAt l 4 4) :: x.periodic).take 2 } u
      bit (beAt l 3 1) 0 = true ∧ Sparse.find x.sentT (beAt l 12 2) = some t1 ∧
      (let m := ilgDelay g t1 u.stamp (beAt l 8 4) v
      isWorker m = true ∧ pathOf m 0 = some g.val ∧ bit (beAt l 3 1) 1 = true ∧ servoOwns m = true))))) ∧
    (∃ s₀ : State, ∃ g : Fin 2, ∃ l, ∃ dt : Nat, let s := arrive dt s₀
      s.alive = true ∧ (acceptUnit g Unit.switch l s).1 = true ∧
      (let u := (acceptUnit g Unit.switch l s).2
      isWorker u = true ∧
      (beAt l 3 1 ≠ liveEpoch u ∨ beAt l 4 1 ≠ prevEpoch u ∨ beAt l 5 1 % 64 ≠ liveTnn u ∨ beAt l 6 1 % 64 ≠ liveN u))) :=
  ⟨⟨port0 (fun x => { x with nak := true }) ilgUp0, 0, by decide +kernel⟩,
   ⟨ilgUp0, 0, unitOf [byte Unit.credit] 1, 0, by decide +kernel⟩,
   ⟨port0 (fun x => { x with replay := [{ seq := 0, bytes := [], copy := none }] }) ilgUp0, 0, by decide +kernel⟩,
   ⟨setArrival 1000 { frame := some 1, line := [], learn := none, inAt := 0 } (withFrame frm ilgUp0), 0,
       unitOf [byte Unit.cell] (unitSlots Unit.cell), 0, 1, frm, { frame := some 1, line := [], learn := none, inAt := 0 },
       by decide +kernel⟩,
   ⟨path0 0 ilgUp0, 0, unitOf ([byte Unit.cell, 0, 0, byte 16] ++ zeros 4 ++ [byte 1, byte 60]) (unitSlots Unit.cell), 0, 0,
       by decide +kernel⟩,
   ⟨ilgUp0, 0, by decide +kernel⟩,
   ⟨ilgUp0, 0, unitOf [byte Unit.time] 1, 0, by decide +kernel⟩,
   ⟨worker ilgUp0 |> fs [(Fld.ILG_PORT_REACH_reach 0, 1)] |> path0 0
       |> ilgm (fun x => { x with ports := [(0, { IlgPort.empty with sentT := [(0, 0)] })] }), 0,
       unitOf [byte Unit.time, 0, 0, 3] 1, 0, 0, by decide +kernel⟩,
   ⟨worker ilgUp0, 0, unitOf [byte Unit.switch, 0, 0, 1] (unitSlots Unit.switch), 0, by decide +kernel⟩⟩

/-- The clauses of IlgilManagementComplete have states and operands that meet their hypotheses. -/
theorem witness_IlgilManagementComplete :
    (∃ s₀ : State, ∃ v, ∃ dt : Nat, let s := arrive dt s₀
      let w := wr Row.ILG_MGMT_CTRL 0 Reg.ILG_MGMT_CTRL v
      Taken s w ∧ bit (val w) 31 = true ∧ bit (val w) 8 = false) ∧
    (∃ s₀ : State, ∃ v, ∃ dt : Nat, let s := arrive dt s₀
      let w := wr Row.ILG_MGMT_CTRL 0 Reg.ILG_MGMT_CTRL v
      Taken s w ∧ bit (val w) 31 = true ∧ bit (val w) 8 = true) ∧
    (∃ s₀ : State, ∃ g : Fin 2, ∃ l, ∃ dt : Nat, let s := arrive dt s₀
      s.alive = true ∧
      (let r := mgmtReceive g (fun l => !mgmtResponse l && decide (mgmtOp l ≤ 1)) l s
      r.1 = true ∧ isWorker r.2 = true ∧ mgmtOp l = 1)) ∧
    (∃ s₀ : State, ∃ g : Fin 2, ∃ l, ∃ dt : Nat, let s := arrive dt s₀
      s.alive = true ∧
      (let r := mgmtReceive g (fun l => !mgmtResponse l && decide (mgmtOp l ≤ 1)) l s
      r.1 = true ∧ isWorker r.2 = true ∧ mgmtOp l ≠ 1)) ∧
    (∃ s₀ : State, ∃ g : Fin 2, ∃ l, ∃ dt : Nat, ∃ e, let s := arrive dt s₀
      s.alive = true ∧
      (let r := mgmtReceive g (fun l => mgmtResponse l && decide (mgmtOp l ≤ 1)) l s
      r.1 = true ∧ r.2.ilg.mgmtDue = some e ∧ beAt l 5 1 ≠ r.2.ilg.tag)) ∧
    (∃ s₀ : State, ∃ g : Fin 2, ∃ l, ∃ dt : Nat, ∃ e, let s := arrive dt s₀
      s.alive = true ∧
      (let r := mgmtReceive g (fun l => mgmtResponse l && decide (mgmtOp l ≤ 1)) l s
      r.1 = true ∧ r.2.ilg.mgmtDue = some e ∧ beAt l 5 1 = r.2.ilg.tag ∧ r.2.cycle ≤ e)) ∧
    (∃ s₀ : State, ∃ e, let s := inItsTurn (whenAlive (mgmtTimeout)) s₀
      s.alive = true ∧ s.ilg.mgmtDue = some e ∧ inTime (isAnswer s) s = false) ∧
    (∃ s₀ : State, ∃ g : Fin 2, ∃ l, ∃ dt : Nat, let s := arrive dt s₀
      s.alive = true ∧
      (let r := mgmtReceive g (fun l => mgmtOp l == 3) l s
      (let i := mgmtSource l
      r.1 = true ∧ isManager r.2 = true ∧ i ≠ 0))) ∧
    (∃ s₀ : State, ∃ i : Fin 7, ∃ v, ∃ dt : Nat, let s := arrive dt s₀
      let w := wr Row.ILG_WORKER_GEN i (Reg.ILG_WORKER_GEN (i + 1)) v
      Taken s w ∧ isManager (written s w) = true) :=
  ⟨⟨st, 0x80000000, 0, by delta Taken; decide +kernel⟩,
   ⟨st, 0x80000100, 0, by delta Taken; decide +kernel⟩,
   ⟨worker ilgUp0, 0, unitOf [byte Unit.mgmt, 0, 0, byte 17] 1, 0, by decide +kernel⟩,
   ⟨worker ilgUp0, 0, unitOf [byte Unit.mgmt, 0, 0, byte 1] 1, 0, by decide +kernel⟩,
   ⟨ilgm (fun x => { x with mgmtDue := some 9, tag := 1 }) ilgUp0, 0, unitOf [byte Unit.mgmt, 0, 0, byte 128] 1, 0, 9,
       by decide +kernel⟩,
   ⟨ilgm (fun x => { x with mgmtDue := some 9 }) ilgUp0, 0, unitOf [byte Unit.mgmt, 0, 0, byte 128] 1, 9, 9, by decide +kernel⟩,
   ⟨ilgm (fun x => { x with mgmtDue := some 9 }) ilgUp0, 9, by decide +kernel⟩,
   ⟨manager ilgUp0, 0, unitOf ([byte Unit.mgmt, 0, 0, byte 48] ++ zeros 18 ++ [byte 7]) 1, 0, by decide +kernel⟩,
   ⟨manager st, 0, 0, 0, by delta Taken; decide +kernel⟩⟩

/-- The clauses of WorkerImageCommandsComplete have states and operands that meet their hypotheses. -/
theorem witness_WorkerImageCommandsComplete :
    (∃ s₀ : State, ∃ v, ∃ dt : Nat, let s := arrive dt s₀
      let w := wr Row.ILG_IMG_CTRL 0 Reg.ILG_IMG_CTRL v
      let t := written s w
      let i := val w / 2 ^ 8 % 8
      Taken s w ∧ bit (val w) 0 = true ∧ bit (val w) 1 = false ∧ t.getF Fld.ILG_IMG_STATUS_state = 0 ∧ isManager t = true ∧
      pathOf t i ≠ none) ∧
    (∃ s₀ : State, ∃ v, ∃ dt : Nat, let s := arrive dt s₀
      let w := wr Row.ILG_IMG_CTRL 0 Reg.ILG_IMG_CTRL v
      let t := written s w
      Taken s w ∧ bit (val w) 0 = false ∧ bit (val w) 1 = true ∧ t.getF Fld.ILG_IMG_STATUS_state ≠ 0) ∧
    (∃ s₀ : State, ∃ dt : Nat, let s := arrive dt s₀
      s.alive = true ∧ s.getF Fld.ILG_IMG_STATUS_state = 1 ∧ s.ilg.imgLen ≠ 0) ∧
    (∃ s₀ : State, ∃ g : Fin 2, ∃ l, ∃ dt : Nat, let s := arrive dt s₀
      s.alive = true ∧
      (let r := acceptUnit g Unit.image l s
      r.1 = true ∧ unitDest l ≠ ownIndex r.2)) ∧
    (∃ s₀ : State, ∃ g : Fin 2, ∃ l, ∃ dt : Nat, let s := arrive dt s₀
      s.alive = true ∧
      (let r := acceptUnit g Unit.image l s
      r.1 = true ∧ unitDest l = ownIndex r.2 ∧ imgState r.2 ≠ 0 ∧ imgSource r.2 = 2 ∧ bit (beAt l 3 1) 6 = true)) ∧
    (∃ s₀ : State, ∃ g : Fin 2, ∃ l, ∃ dt : Nat, let s := arrive dt s₀
      s.alive = true ∧
      (let r := acceptUnit g Unit.image l s
      r.1 = true ∧ unitDest l = ownIndex r.2 ∧ imgState r.2 ≠ 0 ∧ imgSource r.2 = 2 ∧ bit (beAt l 3 1) 6 = false ∧
      r.2.ilg.rxPass = 1)) ∧
    (∃ s₀ : State, ∃ g : Fin 2, ∃ l, ∃ dt : Nat, let s := arrive dt s₀
      s.alive = true ∧
      (let r := mgmtReceive g (fun l => mgmtOp l == 2) l s
      (let i := mgmtSource l
      r.1 = true ∧ isManager r.2 = true ∧ i ≠ 0 ∧
      (let t := r.2 |> workerSays i l |> record 0x62 ([i, beAt l 16 1] ++ dle 4 (beAt l 17 4))
      t.getF Fld.ILG_IMG_STATUS_state ≠ 0 ∧ t.getF Fld.ILG_IMG_STATUS_index = i)))) :=
  ⟨⟨path0 1 (manager st), 0x101, 0, by delta Taken; decide +kernel⟩,
   ⟨setF Fld.ILG_IMG_STATUS_state 1 st, 2, 0, by delta Taken; decide +kernel⟩,
   ⟨ilgm (fun x => { x with imgLen := 64 }) (setF Fld.ILG_IMG_STATUS_state 1 st), 0, by decide +kernel⟩,
   ⟨worker ilgUp0, 0, unitOf [byte Unit.image, 0, 0, byte 2] (unitSlots Unit.image), 0, by decide +kernel⟩,
   ⟨worker ilgUp0 |> fs [(Fld.ROL_IMG_STATUS_state, 1), (Fld.ROL_IMG_STATUS_source, 2)], 0,
       unitOf [byte Unit.image, 0, 0, byte 65] (unitSlots Unit.image), 0, by decide +kernel⟩,
   ⟨worker ilgUp0 |> fs [(Fld.ROL_IMG_STATUS_state, 1), (Fld.ROL_IMG_STATUS_source, 2)]
       |> ilgm (fun x => { x with rxPass := 1 }), 0, unitOf [byte Unit.image, 0, 0, byte 1] (unitSlots Unit.image), 0,
       by decide +kernel⟩,
   ⟨manager ilgUp0 |> fs [(Fld.ILG_IMG_STATUS_state, 1), (Fld.ILG_IMG_STATUS_index, 7)], 0,
       unitOf ([byte Unit.mgmt, 0, 0, byte 32] ++ zeros 18 ++ [byte 7]) 1, 0, by decide +kernel⟩⟩

/-- The clauses of HeartbeatCommandsComplete have states and operands that meet their hypotheses. -/
theorem witness_HeartbeatCommandsComplete :
    (∃ s₀ : State, let s := inItsTurn (whenAlive (heartbeatSend)) s₀
      s.alive = true) ∧
    (∃ s₀ : State, ∃ l, ∃ dt : Nat, let s := arrive dt s₀
      s.alive = true ∧ l.length = 256 ∧ beAt l 0 1 = 1 ∧ beAt l 252 4 = crc32c (l.take 252)) ∧
    (∃ s₀ : State, let s := inItsTurn (whenAlive (heartbeatLoss)) s₀
      s.alive = true ∧ s.red.heard.isSome = true ∧ s.red.lost = false ∧
      (let t := advanceTo (s.red.heardAt + hbLossCycles s) s
      inTime isHeartbeat t = false)) :=
  ⟨⟨st, by decide +kernel⟩,
   ⟨st, hb, 0, by decide +kernel⟩,
   ⟨redm (fun r => { r with heard := some hb }) st, by decide +kernel⟩⟩

/-- The clauses of RedundancyRoleCommandsComplete have states and operands that meet their hypotheses. -/
theorem witness_RedundancyRoleCommandsComplete :
    (∃ s₀ : State, ∃ level : Bool, ∃ dt : Nat, let s := arrive dt s₀
      level ≠ s.red.resignIn) ∧
    (∃ s₀ : State, ∃ e, let s := inItsTurn (whenAlive (claimWaitExpiry)) s₀
      s.alive = true ∧ s.red.waitEnd = some e ∧ redRole s = Rd.claiming ∧
      (let t := s |> advanceTo e |> modRed (fun r => { r with waitEnd := none })
      (t.red.resignIn = true ∨ inTime isRelease t = true))) ∧
    (∃ s₀ : State, ∃ e, let s := inItsTurn (whenAlive (claimWaitExpiry)) s₀
      s.alive = true ∧ s.red.waitEnd = some e ∧ redRole s = Rd.claiming ∧
      (let t := s |> advanceTo e |> modRed (fun r => { r with waitEnd := none })
      t.red.resignIn = false ∧ inTime isRelease t = false ∧ sideB t = true)) ∧
    (∃ s₀ : State, ∃ e, let s := inItsTurn (whenAlive (claimWaitExpiry)) s₀
      s.alive = true ∧ s.red.waitEnd = some e ∧ redRole s = Rd.claiming ∧
      (let t := s |> advanceTo e |> modRed (fun r => { r with waitEnd := none })
      t.red.resignIn = false ∧ inTime isRelease t = false ∧ sideB t = false)) ∧
    (∃ s₀ : State, let s := inItsTurn (whenAlive (claimConfirm)) s₀
      s.alive = true ∧ dueClaim s = none ∧ redRole s = Rd.claiming ∧ s.red.waitEnd = none ∧ s.red.resignIn = true) ∧
    (∃ s₀ : State, let s := inItsTurn (whenAlive (peerDemand)) s₀
      s.alive = true ∧ redRole s = Rd.active ∧ s.red.resignIn = false) ∧
    (∃ s₀ : State, ∃ t, let s := inItsTurn (whenAlive (startClaim)) s₀
      s.alive = true ∧ s.red.startAt = some t ∧ redRole s = Rd.none ∧
      (let u := s |> advanceTo t |> modRed (fun r => { r with startAt := none })
      (paired u = false ∨ u.red.resignIn = true))) ∧
    (∃ s₀ : State, ∃ t, let s := inItsTurn (whenAlive (startClaim)) s₀
      s.alive = true ∧ s.red.startAt = some t ∧ redRole s = Rd.none ∧
      (let u := s |> advanceTo t |> modRed (fun r => { r with startAt := none })
      paired u = true ∧ u.red.resignIn = false)) ∧
    (∃ s₀ : State, ∃ v, ∃ dt : Nat, let s := arrive dt s₀
      let w := wr Row.RED_CMD 0 Reg.RED_CMD v
      Taken s w) ∧
    (∃ s₀ : State, ∃ k, ∃ ph, ∃ n, let s := inItsTurn (whenAlive (swapInstant)) s₀
      s.alive = true ∧ s.red.swap = some (k, ph) ∧ cyclesTo s 0 (k * 2 ^ 32 + ph) = some n ∧ redRole s = Rd.active) ∧
    (∃ s₀ : State, ∃ k, ∃ ph, ∃ n, let s := inItsTurn (whenAlive (swapInstant)) s₀
      s.alive = true ∧ s.red.swap = some (k, ph) ∧ cyclesTo s 0 (k * 2 ^ 32 + ph) = some n ∧ redRole s = Rd.standby) ∧
    (∃ s₀ : State, let s := inItsTurn (whenAlive (swapOverdue)) s₀
      s.alive = true ∧
      (let h := s.getF Fld.RED_SWAP_AUTO_warn_h
      h ≠ 0 ∧ s.red.overdue = false ∧ h * 3600 ≤ (s.reg Reg.RED_ROLE_AGE).toNat)) ∧
    (∃ s₀ : State, let s := inItsTurn (whenAlive (autoSwap)) s₀
      s.alive = true ∧
      (let h := s.getF Fld.RED_SWAP_AUTO_interval_h
      h ≠ 0 ∧ redRole s = Rd.active ∧ s.red.activeSince + h * 3600 ≤ (s.reg Reg.LKT_OPSEC).toNat)) :=
  ⟨⟨st, false, 0, by decide +kernel⟩,
   ⟨fs [(Fld.RED_STATUS_role, Rd.claiming), (Fld.RED_CTRL_side, 1)] (redm (fun r => { r with waitEnd := some 9, resignIn := true }) st), 9, by decide +kernel⟩,
   ⟨fs [(Fld.RED_STATUS_role, Rd.claiming), (Fld.RED_CTRL_side, 1)] (redm (fun r => { r with waitEnd := some 9, resignIn := false }) st), 9, by decide +kernel⟩,
   ⟨fs [(Fld.RED_STATUS_role, Rd.claiming), (Fld.RED_CTRL_side, 0)] (redm (fun r => { r with waitEnd := some 9, resignIn := false }) st), 9, by decide +kernel⟩,
   ⟨fs [(Fld.RED_STATUS_role, Rd.claiming)] st, by decide +kernel⟩,
   ⟨fs [(Fld.RED_STATUS_role, Rd.active)] (redm (fun r => { r with resignIn := false }) st), by decide +kernel⟩,
   ⟨fs [(Fld.RED_STATUS_role, Rd.none)] (redm (fun r => { r with startAt := some 9 }) st), 9, by decide +kernel⟩,
   ⟨fs [(Fld.RED_STATUS_role, Rd.none), (Fld.RED_CTRL_paired, 1)] (redm (fun r => { r with startAt := some 9, resignIn := false }) st), 9, by decide +kernel⟩,
   ⟨st, 0, 0, by delta Taken; decide +kernel⟩,
   ⟨dom0 { Domain.zero with inc := 2 ^ 62 } (fs [(Fld.RED_STATUS_role, Rd.active), (Fld.PHS_STATUS_lstate 0, Lk.acquire), (Fld.PHS_CTRL_source 0, Src.mains)] (redm (fun r => { r with swap := some (1, 0) }) st)), 1, 0, 4, by decide +kernel⟩,
   ⟨dom0 { Domain.zero with inc := 2 ^ 62 } (fs [(Fld.RED_STATUS_role, Rd.standby), (Fld.PHS_STATUS_lstate 0, Lk.acquire), (Fld.PHS_CTRL_source 0, Src.mains)] (redm (fun r => { r with swap := some (1, 0) }) st)), 1, 0, 4, by decide +kernel⟩,
   ⟨setF Fld.RED_SWAP_AUTO_warn_h 1 (setR Reg.RED_ROLE_AGE 3600 st), by decide +kernel⟩,
   ⟨fs [(Fld.RED_STATUS_role, Rd.active), (Fld.RED_SWAP_AUTO_interval_h, 1)] (setR Reg.LKT_OPSEC 3600 st), by decide +kernel⟩⟩

/-- The clauses of LocketCommandsComplete have states and operands that meet their hypotheses. -/
theorem witness_LocketCommandsComplete :
    (∃ s₀ : State, ∃ dt : Nat, ∃ pg, let s := arrive dt s₀
      s.alive = true ∧ s.lkt.page = some pg) ∧
    (∃ s₀ : State, ∃ dt : Nat, ∃ sec, let s := arrive dt s₀
      s.alive = true ∧ s.lkt.erase = some sec ∧ s.lkt.suspended = false) ∧
    (∃ s₀ : State, ∃ dt : Nat, let s := arrive dt s₀
      s.alive = true ∧ s.lkt.erase.isSome = true ∧ s.lkt.suspending = true ∧ s.lkt.suspended = false) ∧
    (∃ s₀ : State, ∃ v, ∃ dt : Nat, let s := arrive dt s₀
      let w := wr Row.LKT_READ_CTRL 0 Reg.LKT_READ_CTRL v
      let t := written s w
      Taken s w ∧ bit (val w) 31 = true ∧ t.lkt.fetch = none) ∧
    (∃ s₀ : State, ∃ ok : Bool, ∃ v, ∃ dt : Nat, let s := arrive dt s₀
      s.alive = true ∧ s.lkt.fetch = some v ∧
      (let r := fetched s v ok
      r.2 = none)) ∧
    (∃ s₀ : State, ∃ ok : Bool, ∃ v, ∃ dt : Nat, ∃ x, let s := arrive dt s₀
      s.alive = true ∧ s.lkt.fetch = some v ∧
      (let r := fetched s v ok
      r.2 = some x)) ∧
    (∃ s₀ : State, ∃ v, ∃ dt : Nat, let s := arrive dt s₀
      let w := wr Row.LKT_PART 0 Reg.LKT_PART v
      Taken s w) ∧
    (∃ s₀ : State, ∃ dt : Nat, let s := arrive dt s₀
      s.pwr.main = true) ∧
    (∃ s₀ : State, ∃ dt : Nat, let s := arrive dt s₀
      s.alive = true ∧ s.pwr.stage ≠ .pll ∧ s.pwr.stage ≠ .memory ∧ s.pwr.stage ≠ .locket ∧
      s.on Fld.LKT_STATUS_pfail = false) ∧
    (∃ s₀ : State, ∃ dt : Nat, let s := arrive dt s₀
      s.alive = true) ∧
    (∃ s₀ : State, ∃ v, ∃ dt : Nat, let s := arrive dt s₀
      let w := wr Row.LKT_CTRL 0 Reg.LKT_CTRL v
      let t := written s w
      Taken s w ∧ t.on Fld.LKT_CTRL_freeze = true) ∧
    (∃ s₀ : State, ∃ v, ∃ dt : Nat, let s := arrive dt s₀
      let w := wr Row.LKT_CTRL 0 Reg.LKT_CTRL v
      let t := written s w
      Taken s w ∧ t.on Fld.LKT_CTRL_freeze = false ∧
      (t.on Fld.LKT_STATUS_frozen = true ∨ t.on Fld.LKT_STATUS_pending = true)) ∧
    (∃ s₀ : State, let s := inItsTurn (whenAlive (freezeLapse)) s₀
      s.alive = true ∧ s.on Fld.LKT_STATUS_frozen = true) :=
  ⟨⟨lktm (fun l => { l with page := some { slot := 0, count := 1 } }) st, 0, { slot := 0, count := 1 }, by decide +kernel⟩,
   ⟨lktm (fun l => { l with erase := some 1 }) st, 0, 1, by decide +kernel⟩,
   ⟨lktm (fun l => { l with erase := some 1, suspending := true }) st, 0, by decide +kernel⟩,
   ⟨st, 0x80000000, 0, by delta Taken; decide +kernel⟩,
   ⟨lktm (fun l => { l with fetch := some 0 }) st, true, 0, 0, by decide +kernel⟩,
   ⟨lktm (fun l => { l with fetch := some 0, log := [(0, .record { rec0 with rtype := 1 })] }) st, true, 0, 0,
       { rec0 with rtype := 1 }, by decide +kernel⟩,
   ⟨setF Fld.ROL_STATUS_role 2 st, 27, 0, by delta Taken; decide +kernel⟩,
   ⟨st, 0, by decide +kernel⟩,
   ⟨st, 0, by decide +kernel⟩,
   ⟨st, 0, by decide +kernel⟩,
   ⟨st, 1, 0, by delta Taken; decide +kernel⟩,
   ⟨fs [(Fld.LKT_STATUS_frozen, 1)] st, 0, 0, by delta Taken; decide +kernel⟩,
   ⟨fs [(Fld.LKT_STATUS_frozen, 1)] st, by decide +kernel⟩⟩

/-- The clauses of PowerCommandsComplete have states and operands that meet their hypotheses. -/
theorem witness_PowerCommandsComplete :
    (∃ s₀ : State, ∃ dt : Nat, let s := arrive dt s₀
      s.pwr.main = false) ∧
    (∃ s₀ : State, ∃ dt : Nat, let s := arrive dt s₀
      s.getF Fld.GLB_STRAP_pcie ≠ 3) ∧
    (∃ s₀ : State, ∃ dt : Nat, let s := arrive dt s₀
      s.getF Fld.GLB_STRAP_pcie = 3) ∧
    (∃ s₀ : State, ∃ dt : Nat, let s := arrive dt s₀
      s.alive = false ∧ s.pwr.main = true ∧ tapHolds s = false) ∧
    (∃ s₀ : State, ∃ dt : Nat, let s := arrive dt s₀
      s.pwr.poresetN = false) :=
  ⟨⟨{ stepAt .reset with pwr := { st.pwr with stage := .reset, main := false } }, 0, by decide +kernel⟩,
   ⟨st, 0, by decide +kernel⟩,
   ⟨setF Fld.GLB_STRAP_pcie 3 st, 0, by decide +kernel⟩,
   ⟨stepAt .reset, 0, by decide +kernel⟩,
   ⟨{ stepAt .reset with pwr := { st.pwr with stage := .reset, poresetN := false } }, 0, by decide +kernel⟩⟩

/-- The clauses of ResetStepsAndTapComplete have states and operands that meet their hypotheses. -/
theorem witness_ResetStepsAndTapComplete :
    (∃ s₀ : State, ∃ dt : Nat, let s := arrive dt s₀
      s.pwr.stage = .pll) ∧
    (∃ s₀ : State, ∃ dt : Nat, let s := arrive dt s₀
      s.pwr.stage = .memory) ∧
    (∃ s₀ : State, ∃ dt : Nat, let s := arrive dt s₀
      s.pwr.stage = .locket) ∧
    (∃ s₀ : State, ∃ v, ∃ dt : Nat, let s := arrive dt s₀
      let w := wr Row.GLB_PHY_RST 0 Reg.GLB_PHY_RST v
      Taken s w) :=
  ⟨⟨State.reset, 0, by decide +kernel⟩,
   ⟨stepAt .memory, 0, by decide +kernel⟩,
   ⟨stepAt .locket, 0, by decide +kernel⟩,
   ⟨st, 0, 0, by delta Taken; decide +kernel⟩⟩

/-! ### Witnesses: the machine, the roles, the units -/

/-- A device that waits for its PLL, with one command in its queue. -/
def waiting : State := { State.reset with pending := [.pllLock 0] }

theorem witness_StepRunsTheFrontCommand : ∃ (s : State) (c : Instr) (rest : List Instr), s.pending = c :: rest := ⟨waiting, .pllLock 0, [], rfl⟩
theorem witness_EmptyQueueLetsOneCyclePass : ∃ s : State, s.pending = [] ∧ s.soon = [] := ⟨State.reset, rfl, rfl⟩
theorem waiting_canonical : Safety.Canonical waiting := rfl
theorem waiting_dropsAgree : Safety.DropsAgree waiting := fun _ => ⟨rfl, fun _ => rfl⟩
theorem witness_StepKeepsTheInvariant :
    ∃ s t, Safety.Canonical s ∧ Safety.DropsAgree s ∧ step s = .next t := ⟨waiting, _, waiting_canonical, waiting_dropsAgree, rfl⟩
theorem witness_QueueIsFirstInFirstOut :
    ∃ s t, Safety.Canonical s ∧ Safety.DropsAgree s ∧ step s = .next t := witness_StepKeepsTheInvariant
theorem witness_RunsAreSafe : ∃ s, Safety.Canonical s ∧ Safety.DropsAgree s := ⟨waiting, waiting_canonical, waiting_dropsAgree⟩
theorem witness_NothingHappensInReset : ∃ (c : Instr) (s : State), s.alive = false ∧ s.soon = [] ∧ actsInReset c = false :=
  ⟨.learn, stepAt .reset, by decide, rfl, rfl⟩
theorem witness_ResetClearsTheRegisters :
    ∃ (s : State) (off : Nat), s.alive = true ∧ keptWord off = false ∧ off ≠ Reg.GLB_PINS ∧ off ≠ Reg.ROL_STATUS :=
  ⟨st, Reg.EPO_GRACE, by decide +kernel, by decide +kernel, by decide, by decide⟩
theorem witness_OffsetWithoutRegister :
    (∃ (s₀ : State) (off dt : Nat), let s := arrive dt s₀
      s.reaches = true ∧ locate off = none) ∧
    (∃ (s₀ : State) (be : BitVec 4) (dt : Nat), let s := arrive dt s₀
      s.reaches = true ∧ be ≠ 15#4) ∧
    ∃ off : Nat, off % 4 ≠ 0 :=
  ⟨⟨st, 0xFFFFFC, 0, by decide +kernel⟩, ⟨st, 14#4, 0, by decide +kernel⟩, 0xFFFFFF, by decide⟩
theorem witness_DeniedWriteChangesNoRegister :
    ∃ (s₀ : State) (off : Nat) (v : Word) (w : Write) (dt : Nat), let s := arrive dt s₀
      writeOf off v = some w ∧ s.reaches = true ∧ s.role = 0 ∧ closed s off = false ∧ w.live s = false ∧
        w.mayStore 0 s = false :=
  ⟨fs [(Fld.ROL_STATUS_role, 0)] st, Reg.EPO_GRACE, 5, wr Row.EPO_GRACE 0 Reg.EPO_GRACE 5, 0, rfl, by decide +kernel⟩
theorem witness_RoleDropReturnsToOperator : (∃ v, bit v 0 = true) ∧ ∃ s : State, s.role = 0 :=
  ⟨⟨1, by decide⟩, State.reset, by decide +kernel⟩
theorem witness_SpireHeadReadsBack : ∃ line type : Nat, line < 4 ∧ type < 16 := ⟨3, 15, by decide⟩
theorem witness_EpochTagReadsBack :
    ∃ (tag : Nat) (b : Bet) (l : List Byte), 12 ≤ l.length ∧ tag < 2 ^ 16 ∧ b.epoch < 2 ^ 8 ∧ b.srcTnn < 2 ^ 6 ∧
      b.dstTnn < 2 ^ 6 ∧ b.cls < 8 ∧ b.hops < 2 ^ 6 :=
  ⟨0xFFFF, { epoch := 255, srcTnn := 63, dstTnn := 63, cls := 7, hops := 63, translated := true, tat := true }, zeros 12, by
    decide +kernel⟩
theorem witness_UnitsPassTheirCheck :
    ∃ head rest : List Byte, 1 ≤ head.length ∧ head.length ≤ 28 ∧ unitSlots (unitType head) ≠ 0 ∧
      rest.length + 32 = 32 * unitSlots (unitType head) :=
  ⟨[byte Unit.cell], zeros (32 * (unitSlots Unit.cell - 1)), by decide +kernel⟩
theorem witness_RefusedFrameKeepsDelta :
    ∃ (s : State) (r : Nat), (s.led r).adm < 2 ^ 48 ∧ (s.led r).deliver < 2 ^ 48 ∧ (s.led r).dropSum < 2 ^ 48 ∧
      (s.led r).ret < 2 ^ 48 := ⟨st, 463, by decide +kernel⟩
theorem witness_StatisticsRollOver :
    ∃ p k q j : Nat, p < 52 ∧ k < 64 ∧ q < 52 ∧ j < 64 ∧ (q, j) ≠ (p, k) := ⟨51, 63, 0, 0, by decide⟩
theorem witness_PostedWritesTakeEntries :
    (∃ (s₀ : State) (d : List (Option Byte)) (dt : Nat), let s := arrive dt s₀
      s.reaches = true ∧ lbbState s ≠ 0 ∧ wfifoUse s + ceilDiv d.length 64 ≤ 32) ∧
    ∃ (s₀ : State) (d : List (Option Byte)) (dt : Nat), let s := arrive dt s₀
      s.reaches = true ∧ lbbState s ≠ 0 ∧ 32 < wfifoUse s + ceilDiv d.length 64 :=
  ⟨⟨lbb0 (fun b => { b with work := [.write 0 [] 31] }) lbbOn, [some 1], 0, by decide +kernel⟩,
   lbb0 (fun b => { b with work := [.write 0 [] 32] }) lbbOn, [some 1], 0, by decide +kernel⟩
theorem witness_CrcRestart : ∃ v, bit v 0 = true := ⟨1, by decide⟩

end Sys2Proof.Tests
end

section
/-! PROOF. What a reset leaves in the registers (R11, R554, R556), and the frame of a denied write (R10, R54, R66). -/
namespace Sys2Proof.Machine
open Sys2Proof.Claims
variable {s : State}

/-! ### Rules of the register file -/

/-- A key that the filter refuses reads its default. -/
theorem Sparse.get_filter_refused {α : Type} {d : Nat → α} {keep : Nat → Bool} {k : Nat} (hk : keep k = false) (l : List (Nat × α)) :
    Sparse.get d (l.filter (fun p => keep p.1)) k = d k := by
  have hf : Sparse.find (l.filter (fun p => keep p.1)) k = none := by
    induction l with
    | nil => rfl
    | cons p t ih =>
      by_cases hp : keep p.1 = true
      · have hne : p.1 ≠ k := fun e => by simp [e, hk] at hp
        rw [List.filter_cons_of_pos (by exact hp), Sparse.find, if_neg hne, ih]
      · rw [List.filter_cons_of_neg (by exact hp), ih]
  rw [Sparse.get, hf, Option.getD_none]

theorem setF_reg_of_ne {f : Fld} {v a : Nat} (h : a ≠ f.reg) : (setF f v s).reg a = s.reg a := by
  rw [setF, reg_setReg, if_neg h]

theorem setR_reg_of_ne {b v a : Nat} (h : a ≠ b) : (setR b v s).reg a = s.reg a := by
  rw [reg_setR, if_neg h]

theorem countBy_reg_of_ne {b n a : Nat} (h : a ≠ b) : (countBy b n s).reg a = s.reg a := setR_reg_of_ne h

theorem count_reg_of_ne {b a : Nat} (h : a ≠ b) : (count b s).reg a = s.reg a := countBy_reg_of_ne h

/-! ### Entering reset -/

/-- However many outputs are sent in turn, the queue stays. -/
theorem each_emitOut_pending {α : Type} (o : α → State → Out) (l : List α) (s : State) :
    (each l (fun a t => emitOut (o a t) t) s).pending = s.pending := by
  unfold each
  induction l generalizing s with
  | nil => rfl
  | cons a l ih => rw [List.foldl_cons, ih, emitOut_pending]

theorem resignOut_pending (low : Bool) (s : State) : (resignOut low s).pending = s.pending := by
  unfold resignOut
  split <;> rfl

theorem pinsInReset_pending (s : State) : (pinsInReset s).pending = s.pending := by
  unfold pinsInReset drivePhyPins
  rw [each_emitOut_pending, each_emitOut_pending, each_emitOut_pending, resignOut_pending]

theorem enterReset_pending (s : State) : (enterReset s).pending = s.pending := pinsInReset_pending s

theorem enterReset_alive (s : State) : (enterReset s).alive = false := rfl

/-- A word that is not kept reads its reset value as the device enters reset, but for the two that are written then. -/
theorem enterReset_reg {a : Nat} (hk : keptWord a = false) (hp : a ≠ Reg.GLB_PINS) (hr : a ≠ Reg.ROL_STATUS) (s : State) :
    (enterReset s).reg a = regReset a := by
  unfold enterReset
  refine (setR_reg_of_ne hp).trans ((setF_reg_of_ne hr).trans ?_)
  exact Sparse.get_filter_refused hk _

/-- Settles O42: entering reset keeps no entry of the register file but those of the island and the straps, and then writes
only ROL_STATUS and GLB_PINS. -/
theorem resetClearsTheRegisters : Obligations.ResetClearsTheRegisters := by
  intro s off ha hk hp hr
  rw [hold, if_pos ha]
  exact ⟨enterReset_alive s, enterReset_reg hk hp hr s, enterReset_pending s⟩

/-! ### The recorder's own registers -/

/-- The registers that making a record may change (R531, R535, R540). -/
def recorderRegs : List Nat := [Reg.LKT_LOST, Reg.LKT_SEQ, Reg.LKT_OVERWRITTEN, Reg.LKT_STATUS]

theorem showFills_reg_of_ne {a : Nat} (h : a ≠ Reg.LKT_STATUS) : (showFills s).reg a = s.reg a :=
  (setF_reg_of_ne h).trans (setF_reg_of_ne h)

theorem showFills_withLkt_reg_of_ne (s : State) (l : Locket) {a : Nat} (h : a ≠ Reg.LKT_STATUS) :
    (showFills { s with lkt := l }).reg a = s.reg a := showFills_reg_of_ne h

theorem askSuspend_reg (a : Nat) (s : State) : (askSuspend s).reg a = s.reg a := by
  unfold askSuspend
  split <;> rfl

theorem startPage_reg (a : Nat) (s : State) : (startPage s).reg a = s.reg a := by
  unfold startPage
  dsimp only
  split
  · rfl
  · split
    · exact askSuspend_reg a s
    · rfl

theorem startCommit_reg (a : Nat) (s : State) : (startCommit s).reg a = s.reg a := startPage_reg a _

/-- Making a record or pair leaves every register but the recorder's own. -/
theorem placeRecords_reg {a : Nat} (h : a ∉ recorderRegs) (rs : List Record) (s : State) : (placeRecords rs s).reg a = s.reg a := by
  simp only [recorderRegs, List.mem_cons, List.not_mem_nil, or_false, not_or] at h
  obtain ⟨hlost, hseq, hover, hstatus⟩ := h
  unfold placeRecords
  extract_lets +onlyGivenNames n grp fresh seq toHold
  split
  · split
    · exact count_reg_of_ne hlost
    · exact (showFills_reg_of_ne hstatus).trans (setR_reg_of_ne hseq)
  · extract_lets +onlyGivenNames numbered programmed area excess overwritten lkt staged
    have hn : numbered.reg a = s.reg a := setR_reg_of_ne hseq
    have ho : overwritten.reg a = numbered.reg a := countBy_reg_of_ne hover
    have hf : staged.reg a = overwritten.reg a := showFills_withLkt_reg_of_ne overwritten _ hstatus
    have hs : staged.reg a = s.reg a := hf.trans (ho.trans hn)
    split
    · exact (startCommit_reg a staged).trans hs
    · exact hs

/-! ### Denied writes -/

/-- A denial leaves every register but the count of denied writes and the recorder's own. -/
theorem deny_reg {a : Nat} (hc : a ≠ Reg.ROL_DENY_COUNT) (h : a ∉ recorderRegs) (x : Source) (role off : Nat) (v : Word) (s : State) :
    (deny x role off v s).reg a = s.reg a :=
  (placeRecords_reg h _ _).trans (count_reg_of_ne hc)

theorem touchIdle_operator (h : s.role = 0) : touchIdle s = s := if_pos h

/-- The operator's write of an open register that holds a field out of its rights is denied whole (R54). -/
theorem write_denied {off : Nat} {v : Word} {w : Write} (hw : writeOf off v = some w) (hh : s.reaches = true) (hr : s.role = 0)
    (hc : closed s off = false) (hl : w.live s = false) (hm : w.mayStore 0 s = false) :
    whenHost (busWriteBe off v 15#4) s = deny .host 0 w.off v s := by
  simp [whenHost, hh, busWriteBe, busWrite, touchIdle_operator hr, hw, hr, hc, applyWrite, hl, hm]

/-- Settles O44: the write ends in a denial, which counts and records and changes no other register, the role's among them. -/
theorem deniedWriteChangesNoRegister : Obligations.DeniedWriteChangesNoRegister := by
  intro s₀ off v w dt s hw hh hr hc hl hm
  refine ⟨deny .host 0 w.off v s, ends_of exec_registerWrite (write_denied hw hh hr hc hl hm), ?_, ?_⟩
  · have hreg : (deny .host 0 w.off v s).reg Reg.ROL_STATUS = s.reg Reg.ROL_STATUS :=
      deny_reg (by decide) (by decide) .host 0 w.off v s
    have hrole : s.getF Fld.ROL_STATUS_role = 0 := hr
    rwa [State.getF, show Fld.ROL_STATUS_role.reg = Reg.ROL_STATUS from rfl, hreg]
  · intro a hcount hlost hseq hover hstatus
    exact deny_reg hcount (by simp [recorderRegs, hlost, hseq, hover, hstatus]) .host 0 w.off v s

end Sys2Proof.Machine
end

section
/-! PROOF. The management tick, setting images and start sequences (R19 to R27, R70 to R77, R588), a device held in reset
(R44, R556), the warning threshold (R40, R46), an empty queue and the registers after reset. -/
namespace Sys2Proof.Machine
open Sys2Proof.Claims
variable {s : State}

/-! ### A command that the device takes while it is out of reset -/

theorem whenAlive_alive {f : State → State} (ha : s.alive = true) : whenAlive f s = f s := if_pos ha

/-- A command that arrives out of reset ends with what it runs on the state in which it arrives. -/
theorem ends_arrival {c : Instr} {f : State → State} {s₀ t : State} {dt : Nat}
    (h : exec c s₀ = done (whenAlive f (arrive dt s₀))) (ha : (arrive dt s₀).alive = true) (e : f (arrive dt s₀) = t) : Ends c s₀ t :=
  ends_of h ((whenAlive_alive ha).trans e)

/-- What the device times itself out of reset ends with what it runs on the state in which its turn comes. -/
theorem ends_turn {c : Instr} {f : State → State} {s₀ t : State} (h : exec c s₀ = done (inTurn (whenAlive f) s₀))
    (ha : (inItsTurn (whenAlive f) s₀).alive = true) (e : f (inItsTurn (whenAlive f) s₀) = t) : Ends c s₀ t :=
  ends_of h (inTurn_eq.trans ((whenAlive_alive ha).trans e))

/-! ### The management tick, the audit and the clocks (R19, R42, R224) -/

/-- With the core PLL in lock after the memory step a new GLB_CLK is all that a clock fault leaves. -/
theorem clockFault_locked {clk : BitVec 4} (ha : s.alive = true) (hp : s.pwr.stage ≠ .pll) (hm : s.pwr.stage ≠ .memory)
    (hc : bit clk.toNat 0 = true) : clockFault clk s = clockBits clk s := by
  simp [clockFault, ha, hp, hm, hc]

/-- Settles O2: the tick and the audit run in their turn, a clock fault as it arrives; the clauses name what they run. -/
theorem managementCommandsComplete : Obligations.ManagementCommandsComplete := by
  refine ⟨?tick, ?audit, ?clock⟩
  case tick =>
    intro s₀ temp supply upsets s ha
    exact ends_turn exec_managementTick ha rfl
  case audit =>
    intro s₀ a s ha hw kinds new moved st t
    refine ends_turn exec_auditResult ha ?_
    show auditResult s = _
    rw [auditResult, hw]
    rfl
  case clock =>
    intro s₀ clk dt s ha hp hm hc
    exact ends_arrival exec_clockFault ha (clockFault_locked ha hp hm hc)

/-! ### Setting images (R71 to R74, R588) -/

/-- A flash boot goes on with the slot that the checks of both choose (R72, R76). -/
theorem imageCheckDone_flash {slot0 slot1 : List Byte} (hst : imgState s = 1) (hsrc : imgSource s = 0) :
    imageCheckDone slot0 slot1 s =
      let c := chooseSlot (checkImage s (2 ^ 22) slot0) (checkImage s (2 ^ 22) slot1) (imgGeneration slot0) (imgGeneration slot1)
      (s |> setF Fld.ROL_IMG_STATUS_slot c.1 |> imageChecked c.2 (if c.1 = 0 then slot0 else slot1)) := by
  rw [imageCheckDone, if_neg (not_not_intro hst), if_pos hsrc]

/-- A record other than END whose second read agrees with the first is carried out under a good HMAC (R71, R73). -/
theorem imageRecord_agrees {l top b : List Byte} (hst : imgState s = 2) (hw : s.image.wait = .none)
    (hb : secondBytes l s = some (top, b)) (ht : (headAt b 0).rtype = (currentHead s).rtype)
    (hl : (headAt b 0).level = (currentHead s).level) (hn : (headAt b 0).len = (currentHead s).len)
    (he : (currentHead s).rtype ≠ 0) (hk : s.image.hmacOk = true) :
    imageRecord l s = doRecord (currentHead s).level (currentHead s) b
      (modImage (fun i => { i with second := i.second ++ (if i.index = 0 then top.take 28 else []) ++ b }) s) := by
  simp [imageRecord, hst, hw, hb, ht, hl, hn, he, modImage, hk]

theorem pollMatch_matches {a m v e : Nat} (hw : s.image.wait = .poll a m v e)
    (hp : pollOk a m v (advanceTo (nextPoll e s.cycle) s) = true) :
    pollMatch s = nextRecord (currentHead s).len (advanceTo (nextPoll e s.cycle) s) := by
  simp [pollMatch, hw, hp]

theorem pollTimeout_misses {a m v e : Nat} (hw : s.image.wait = .poll a m v e) (hp : pollOk a m v (advanceTo e s) = false) :
    pollTimeout s = imageEnd 0x16 s.image.index (advanceTo e s) := by
  simp [pollTimeout, hw, hp]

theorem delayExpiry_ends {e : Nat} (hw : s.image.wait = .delay e) :
    delayExpiry s = (s |> advanceTo e |> nextRecord (currentHead s).len) := by
  rw [delayExpiry, hw]

/-- A failed read of an image in host memory ends the image (R74, R588). -/
theorem imageReadError_ends {addr cpl : Nat} (hst : imgState s ≠ 0) (hsrc : imgSource s = 1) :
    imageReadError addr cpl s = (s |> dmaError 2 0 addr cpl |> imageEnd 0x17 s.image.index) := by
  rw [imageReadError, if_neg (by simp [hst, hsrc])]

/-! ### Enable requests and sequences (R26, R27) -/

theorem sequenceComplete_starting {f : Fn} (hst : s.getF (fnState f) = 1) (hr : startReady f s = true) :
    sequenceComplete f s =
      let t := s |> setF (fnState f) 2 |> startedWork f
      if isForced f t then t |> setForced f false |> beginStop f else t |> stateDone f |> heldRequest f := by
  rw [sequenceComplete, if_pos ⟨hst, hr⟩]

theorem sequenceComplete_stopping {f : Fn} (hst : s.getF (fnState f) = 3) (hr : stopReady f s = true) :
    sequenceComplete f s = (s |> stoppedWork f |> setF (fnState f) 0 |> stateDone f |> heldRequest f) := by
  rw [sequenceComplete, if_neg (by simp [hst]), if_pos ⟨hst, hr⟩]

theorem fin_val {n : Nat} [NeZero n] (k : Fin n) : fin n k.val = k := Fin.ofNat_val_eq_self k

theorem writeOf_fnEnable (f : Fn) (v : Word) : writeOf (fnEnable f).reg v = some (fnWrite f v) := by
  cases f with
  | spire => exact writeOf_SPR_CTRL
  | carillon => exact writeOf_CAR_CTRL
  | sense => exact writeOf_SNS_CTRL
  | drive => exact writeOf_DRV_CTRL
  | filigree => exact writeOf_FIL_CTRL
  | canTt => exact writeOf_CAN_TT_CTRL
  | localBus => exact writeOf_LBB_CTRL
  | ilgil g => exact writeOf_ILG_PORT_CTRL g
  | trunk n => exact writeOf_TPT_CTRL n
  | edge p => exact writeOf_EPT_CTRL p
  | canChannel c => exact writeOf_CAN_CTRL c
  | ring r => exact writeOf_RNG_CTRL r

theorem fnWrite_off (f : Fn) (v : Word) : (fnWrite f v).off = (fnEnable f).reg := by cases f <;> rfl

theorem fnWrite_ne_ROL_DROP (f : Fn) (v : Word) : (fnWrite f v).row.base ≠ Row.ROL_DROP.base := by
  cases f <;> exact of_decide_eq_true rfl

/-- The write of a function's enable register sets off its request, and for Spire, an edge port and a CAN channel what stands
beside it (R26, R120, R255, R348). -/
theorem hook_fnWrite (f : Fn) (v : Word) (o x : Nat) (t : State) :
    hook (fnWrite f v).row (fnWrite f v).i (fnWrite f v).j o x t = fnEffect f t := by
  cases f with
  | spire => rfl
  | carillon => rfl
  | sense => rfl
  | drive => rfl
  | filigree => rfl
  | canTt => rfl
  | localBus => rfl
  | ilgil g => exact congrArg (fun k => request (.ilgil k) t) (fin_val g)
  | trunk n => exact congrArg (fun k => request (.trunk k) t) (fin_val n)
  | edge p => exact congrArg (fun k => t |> request (.edge k) |> drainWritten p) (fin_val p)
  | canChannel c => exact congrArg (fun k => t |> request (.canChannel k) |> canRecover c) (fin_val c)
  | ring r => exact congrArg (fun k => request (.ring k) t) (fin_val r)

/-- Settles O4: a host write that is taken runs the hook of its register, and each other command the branch that its conditions
choose. -/
theorem imageAndSequenceCommandsComplete : Obligations.ImageAndSequenceCommandsComplete := by
  refine ⟨?control, ?checked, ?record, ?matched, ?missed, ?waited, ?failed, ?enable, ?started, ?stopped⟩
  case control =>
    intro s₀ v dt s w hw c hc
    have run : whenHost (busWrite Reg.ROL_IMG_CTRL v) s = imageCtrl (val w) (written s w) :=
      write_taken writeOf_ROL_IMG_CTRL rfl (of_decide_eq_true rfl) hw
    rcases List.mem_pair.mp hc with rfl | rfl
    · exact ends_of exec_imageStart run
    · exact ends_of exec_imageAbort run
  case checked =>
    intro s₀ slot0 slot1 dt s ha hst hsrc c
    exact ends_arrival exec_imageCheckDone ha (imageCheckDone_flash hst hsrc)
  case record =>
    intro s₀ l top b dt s ha hst hw hb ht hl hn he hk
    exact ends_arrival exec_imageRecord ha (imageRecord_agrees hst hw hb ht hl hn he hk)
  case matched =>
    intro s₀ a m v e s ha hw hp
    exact ends_turn exec_pollMatch ha (pollMatch_matches hw hp)
  case missed =>
    intro s₀ a m v e s ha hw hp
    exact ends_turn exec_pollTimeout ha (pollTimeout_misses hw hp)
  case waited =>
    intro s₀ e s ha hw
    exact ends_turn exec_delayExpiry ha (delayExpiry_ends hw)
  case failed =>
    intro s₀ addr cpl dt s ha hst hsrc
    exact ends_arrival exec_imageReadError ha (imageReadError_ends hst hsrc)
  case enable =>
    intro s₀ f v dt s w hw
    refine ends_of exec_enableRequest ?_
    rw [write_taken (writeOf_fnEnable f v) (fnWrite_off f v) (fnWrite_ne_ROL_DROP f v) hw, hook_fnWrite]
  case started =>
    intro s₀ f dt s ha hst hr t
    have run := sequenceComplete_starting hst hr
    exact ⟨fun hf => ends_arrival exec_sequenceComplete ha (run.trans (if_pos hf)),
      fun hf => ends_arrival exec_sequenceComplete ha (run.trans (if_neg (Bool.eq_false_iff.mp hf)))⟩
  case stopped =>
    intro s₀ f dt s ha hst hr
    exact ends_arrival exec_sequenceComplete ha (sequenceComplete_stopping hst hr)

/-! ### A device held in reset (R44, R77, R556) -/

/-- In reset the end of a command drops what is left to do and does nothing else. -/
theorem finish_in_reset (ha : s.alive = false) : finish s = { s with todo := [], soon := [] } := by
  have hc : conclude s = { s with todo := [], soon := [] } := by simp [conclude, ha]
  rw [finish, hc]
  exact runSoon_nil rfl

/-- Nothing is waiting, so an arrival lets its cycles pass. -/
theorem arrive_advance {n : Nat} (hs : s.soon = []) : arrive n s = advance n s := by
  rw [arrive_nil hs, advanceTo, Nat.add_sub_cancel_left]

/-- An operation that a device in reset does not take. -/
def ShutInReset (f : State → State) : Prop := ∀ s, s.alive = false → f s = s

theorem stage_of_reset (ha : s.alive = false) : s.pwr.stage = .reset := by
  unfold State.alive at ha
  split at ha
  · assumption
  · cases ha

theorem shut_whenAlive {f : State → State} : ShutInReset (whenAlive f) := fun s ha => by simp [whenAlive, ha]
theorem shut_whenRunning {f : State → State} : ShutInReset (whenRunning f) := fun s ha => by simp [whenRunning, State.running, ha]
theorem shut_whenHost {f : State → State} : ShutInReset (whenHost f) := fun s ha => by
  simp [whenHost, State.reaches, stage_of_reset ha]

/-- A command that lets time pass and does nothing else. -/
def OnlyTimePasses (c : Instr) (s : State) : Prop := ∃ u, (u = s ∨ ∃ n, u = advance n s) ∧ exec c s = .next { u with todo := [] }

/-- In reset a command does nothing but let time pass when what it runs does no more. -/
theorem onlyTimePasses_of_run {c : Instr} {u : State} (ha : s.alive = false) (hs : s.soon = []) (hu : u = s ∨ ∃ n, u = advance n s)
    (h : exec c s = done u) : OnlyTimePasses c s := by
  have hk : u.alive = false ∧ u.soon = [] := by
    rcases hu with rfl | ⟨n, rfl⟩
    · exact ⟨ha, hs⟩
    · exact ⟨ha, hs⟩
  refine ⟨u, hu, ?_⟩
  rw [h, done, finish_in_reset hk.1, ← hk.2]

theorem onlyTimePasses_arrival {c : Instr} {f : State → State} {dt : Nat} (hf : ShutInReset f) (ha : s.alive = false)
    (hs : s.soon = []) (h : exec c s = done (f (arrive dt s))) : OnlyTimePasses c s :=
  onlyTimePasses_of_run ha hs (.inr ⟨dt, by rw [arrive_advance hs]; exact hf _ ha⟩) h

theorem onlyTimePasses_turn {c : Instr} {f : State → State} (hf : ShutInReset f) (ha : s.alive = false) (hs : s.soon = [])
    (h : exec c s = done (inTurn f s)) : OnlyTimePasses c s :=
  onlyTimePasses_of_run ha hs (.inl (by rw [inTurn_nil hs]; exact hf s ha)) h

/-- The commands by what gates them: those that act in reset, then what the device times itself, then what arrives. -/
theorem onlyTimePasses_in_reset {c : Instr} (ha : s.alive = false) (hs : s.soon = []) (hc : actsInReset c = false) :
    OnlyTimePasses c s := by
  cases c with
  | leadInputChange | syncPinCapture | busRequest | tenureEnd | resignInChange | operatingSecond | mainPowerOn
  | mainPowerLoss | resetAssert | resetEnd | pllLock | memoryStepDone | locketStep | tapBypass | tapIdcode | tapSamplePreload
  | tapExtest | tapClamp | tapHighz | poresetRisingEdge | couplerInputChange | carrierSense =>
    nomatch hc
  | managementTick | auditResult | roleLapse | nonceExpiry | unlockCompareDone | lockoutExpiry | pollMatch | pollTimeout
  | delayExpiry | leadFilterAccept | slewEnd | permitLapse | watchdogExpiry | ilgilHelloSend | creditUnitSend | replayTimeout
  | reachSend | timeUnitSend | mgmtTimeout | heartbeatSend | heartbeatLoss | claimWaitExpiry | claimConfirm | peerDemand
  | startClaim | swapInstant | swapOverdue | autoSwap | freezeLapse | couplerFilterAccept =>
    exact onlyTimePasses_turn shut_whenAlive ha hs rfl
  | clockFault | sequenceComplete | rotationFlashDone | imageCheckDone | imageRecord | imageReadError | hostDmaError
  | functionLevelReset | pcieLinkDown | d3hotEntry | busMasterClear | pcieLinkUp | ilgilBlockLock | ilgilHelloReceive
  | cellUnitReceive | creditUnitReceive | ilgilLinkLoss | reachReceive | timeUnitReceive | mgmtRequestReceive
  | mgmtResponseReceive | imageUnitReceive | imageResultReceive | workerReport | switchUnitReceive | heartbeatReceive
  | pageProgramDone | eraseDone | powerFail | powerRestored | recordFetchDone | busMasterEnable | eraseSuspended
  | workerImageRead =>
    exact onlyTimePasses_arrival shut_whenAlive ha hs rfl
  | silenceRelease | enableRequest | registerWrite | rcRead | snapshotRead | challenge | unlock | roleDrop | keyRotate
  | imageStart | imageAbort | compatCommit | graceRewrite | revertEnable | fdbNop | fdbLookup | fdbInsert | fdbDelete
  | fdbFlush | fdbRead | preemptConfigWrite | drainRewrite | mstClear | timeAdjust | rateWrite | permitGrant | addendWrite
  | correlationLatch | syncCapturePop | phaseOffsetWrite | eventEntryWrite | canRecover | hostWordWrite | filHold
  | filRelease | hostConvert | driveLevelWrite | doorbell | msixUnmask | miscAck | watchdogKick | watchdogConfig | bar4Write
  | bar4Read | claspAcquire | claspRelease | errorLogPop | crcRestart | crcSeed | crcData8 | crcData16 | crcData32
  | rebalance | ilgMgmtRead | ilgMgmtWrite | workerImageStart | workerImageAbort | workerGenWrite | redResignCmd | redSwapCmd
  | redClaimCmd | freeze | unfreeze | recordFetch | partitionWrite | phyResetWrite =>
    exact onlyTimePasses_arrival shut_whenHost ha hs rfl
  | scheduleSilence | beaconPeriod | answerBeacon | beaconDeadline | countSend | settleExpiry | commitSend | commitForward
  | waitTimeout | switchInstant | backoffExpiry | compatHelloSend | compatHelloTimeout | compatHoldExpiry | rosterSend
  | graceExpiry | learn | ageingSweep | cellTime | revertStart | revertDrainMax | fdbCommandDone | pauseExpiry
  | flowControlFrame | fcRefresh | hdBackoffExpiry | verifySend | drainExpiry | syncSend | syncTimeout | mergeTimeout
  | mergeWaitExpiry | ppsPulse | ppsEnd | referenceMiss | tachStill | pd0Limit | carillonFire | lonelyRetry | canRecoveryDone
  | ttTxTrigger | ttWindowEnd | ttRxTrigger | ttArbTrigger | ttRefTrigger | ttWatchTrigger | filEthFrame | statusSample
  | sourceJob | changeEmissionDue | emission | drivePhasePass | readbackDelayEnd | readbackFault | proveWindowOpen
  | ringWrite | stallWaitExpiry | captureWrite | moderationTimer | localCycleEnd | noReady | readTimeout | prefetchExpiry
  | tenureExpiry | inboundFlush | claspExpiry =>
    exact onlyTimePasses_turn shut_whenRunning ha hs rfl
  | trunkLinkUp | trunkLinkDown | beaconReceive | countReceive | commitReceive | compatHelloReceive | topologyReceive
  | rosterReceive | admissionPoint | cellWrite | frameEnd | txFrameStart | preemption | txFrameEnd | edgeLinkChange
  | pauseReceive | collision | verifyResponse | syncReceive | phaseReference | canFrameReceive | canTxRecord | canArbitration
  | canTxAcknowledged | canAckError | canBusError | mailboxLoad | senseSample | inputStuck | txDescriptorFetch | txDataRead
  | inboundWrite | inboundRead | lirqEdge | rxDescriptorFetch | inputUnstuck | protocolExceptionExit | verifyFrameReceive =>
    exact onlyTimePasses_arrival shut_whenRunning ha hs rfl

/-- Settles O40: each command outside `actsInReset` runs behind a gate that is shut in reset. -/
theorem nothingHappensInReset : Obligations.NothingHappensInReset :=
  ⟨fun _ _ ha hs hc => onlyTimePasses_in_reset ha hs hc, fun s ha => by rw [finish_in_reset ha]; exact ⟨ha, rfl, rfl⟩⟩

/-! ### The warning threshold (R40, R46) -/

/-- A code of the width is the code of the value it reads as. -/
theorem codeOf_signedOf {w n : Nat} (hn : n < 2 ^ w) : codeOf w (signedOf w n) = n := by
  have hm : ((n : Int) % ((2 ^ w : Nat) : Int)).toNat = n := by
    rw [← Int.natCast_mod, Int.toNat_natCast, Nat.mod_eq_of_lt hn]
  rw [signedOf, Nat.mod_eq_of_lt hn, codeOf]
  split
  · exact hm
  · rw [Int.sub_emod_right]; exact hm

/-- A value within the signed width reads back from its code. -/
theorem signedOf_codeOf {w : Nat} {v : Int} (hw : 0 < w) (lo : -2 ^ (w - 1) ≤ v) (hi : v < 2 ^ (w - 1)) :
    signedOf w (codeOf w v) = v := by
  obtain ⟨k, rfl⟩ := Nat.exists_eq_succ_of_ne_zero hw.ne'
  have e : (2 : Int) ^ k = ((2 ^ k : Nat) : Int) := by push_cast; rfl
  simp only [Nat.succ_eq_add_one, Nat.add_sub_cancel, e] at lo hi
  have hc : (codeOf (k + 1) v : Int) = if 0 ≤ v then v else v + (2 ^ k * 2 : Nat) := by
    rw [codeOf, pow_succ, Int.toNat_of_nonneg (Int.emod_nonneg _ (by positivity))]
    split
    · exact Int.emod_eq_of_lt ‹_› (by omega)
    · rw [← Int.add_emod_right, Int.emod_eq_of_lt (by omega) (by omega)]
  have hn : codeOf (k + 1) v % 2 ^ (k + 1) = codeOf (k + 1) v := Nat.mod_eq_of_lt (by rw [pow_succ]; split at hc <;> omega)
  simp only [signedOf, Nat.succ_eq_add_one, Nat.add_sub_cancel, hn]
  rw [pow_succ]
  split at hc <;> split <;> omega

/-- The clamp of a signed field reads as the nearest value in its range. -/
theorem signedOf_fix_signed {w n : Nat} {lo hi : Int} (hw : 0 < w) (hlo : -2 ^ (w - 1) ≤ lo) (hhi : hi < 2 ^ (w - 1)) (hle : lo ≤ hi) :
    signedOf w ((Legal.signed lo hi).fix w n) = max lo (min (signedOf w n) hi) :=
  signedOf_codeOf hw (by omega) (by omega)

/-- The clamp of a signed field moves exactly the values outside its range. -/
theorem fix_signed_ne_iff {w n : Nat} {lo hi : Int} (hw : 0 < w) (hlo : -2 ^ (w - 1) ≤ lo) (hhi : hi < 2 ^ (w - 1)) (hle : lo ≤ hi)
    (hn : n < 2 ^ w) : (Legal.signed lo hi).fix w n ≠ n ↔ signedOf w n < lo ∨ hi < signedOf w n := by
  have back : (Legal.signed lo hi).fix w n = n ↔ max lo (min (signedOf w n) hi) = signedOf w n := by
    refine ⟨fun h => ?_, fun h => ?_⟩
    · rw [← signedOf_fix_signed hw hlo hhi hle, h]
    · show codeOf w _ = n
      rw [h, codeOf_signedOf hn]
  rw [ne_eq, back]
  omega

/-- A word with one field at its low end holds the field's value. -/
theorem toNat_putField_zero {n v : Nat} (hn : n ≤ 32) (hv : v < 2 ^ n) : (putField 0 0 n v).toNat = v := by
  have h : v < 2 ^ 32 := hv.trans_le (Nat.pow_le_pow_right (by decide) hn)
  simpa [putField, Nat.mod_eq_of_lt hv] using h

theorem fix_signed_lt {lo hi : Int} (w n : Nat) : (Legal.signed lo hi).fix w n < 2 ^ w := by
  have hpos : (0 : Int) < ((2 ^ w : Nat) : Int) := by positivity
  exact (Int.toNat_lt' (by positivity)).mpr (Int.emod_lt_of_pos _ hpos)

/-- Settles O46: the register holds one field, which is clamped as a signed value of 12 bits. -/
theorem temperatureThresholdIsClamped : Obligations.TemperatureThresholdIsClamped := by
  intro v x
  have hw : clampWord Row.GLB_TEMP_WARN v = putField 0 0 12 ((Legal.signed (-320) 1200).fix 12 (fieldOf v 0 12)) := rfl
  have hc : clampedOwn Row.GLB_TEMP_WARN v = ((Legal.signed (-320) 1200).fix 12 (fieldOf v 0 12) != fieldOf v 0 12) := Bool.or_false _
  have hv : fieldOf v 0 12 < 2 ^ 12 := Nat.mod_lt _ (by decide)
  refine ⟨?value, ?counted⟩
  case value =>
    rw [hw, toNat_putField_zero (by decide) (fix_signed_lt 12 _)]
    exact signedOf_fix_signed (by decide) (by decide) (by decide) (by decide)
  case counted =>
    rw [hc, Bool.eq_iff_iff, bne_iff_ne, decide_eq_true_iff]
    exact fix_signed_ne_iff (by decide) (by decide) (by decide) (by decide) hv

/-! ### An empty queue, and the registers after reset -/

/-- Settles O34: an idle step ends the arrival one cycle later, and with nothing waiting that is one cycle's passing. -/
theorem emptyQueueLetsOneCyclePass : Obligations.EmptyQueueLetsOneCyclePass := by
  intro s hq
  exact ⟨by rw [step, hq]; rfl, arrive_advance⟩

/-- The register file is empty after reset, so every word reads its reset value. -/
theorem reset_reg (a : Nat) : State.reset.reg a = regReset a := rfl

theorem regReset_BUF_ROW_CFG : ∀ p : Fin 464, regReset (Reg.BUF_ROW_CFG (p / 8) (p % 8)) = 0x40010#32 := by decide +kernel

/-- The guarantee of every row of the ledger is 16 cells after reset (R229). -/
theorem reset_min_cells (p : Fin 464) : State.reset.getF (Fld.BUF_ROW_CFG_min_cells (p / 8) (p % 8)) = 16 := by
  rw [State.getF, reset_reg, Fld.BUF_ROW_CFG_min_cells, regReset_BUF_ROW_CFG]
  exact (by decide : fieldOf 0x40010#32 0 12 = 16)

/-- Settles O41: single words by evaluation of the register map, the rows of the ledger by their common reset word. -/
theorem registersAfterReset : Obligations.RegistersAfterReset :=
  ⟨rfl, rfl, rfl, rfl, rfl, rfl, rfl, rfl, reset_min_cells, rfl⟩

end Sys2Proof.Machine
end

section
/-! PROOF. Register accesses of the host (R45, R49, R51, R54, R297, R461), roles and key rotation (R53, R56 to R61), and
that every command answers. -/
namespace Sys2Proof.Machine
open Sys2Proof.Claims
variable {s : State}

/-! ### A host access that reaches the device -/

theorem whenHost_reaches {f : State → State} (hr : s.reaches = true) : whenHost f s = f s := if_pos hr

/-- A host access that reaches the device ends with what it runs on the state in which it arrives. -/
theorem ends_host {c : Instr} {f : State → State} {s₀ t : State} {dt : Nat} (h : exec c s₀ = done (whenHost f (arrive dt s₀)))
    (hr : (arrive dt s₀).reaches = true) (e : f (arrive dt s₀) = t) : Ends c s₀ t :=
  ends_of h ((whenHost_reaches hr).trans e)

/-! ### Host writes (R45, R54, R66 to R68, R75, R134) -/

theorem writeOf_off {off : Nat} {v : Word} {w : Write} (h : writeOf off v = some w) : w.off = off := by
  unfold writeOf at h
  split at h
  · cases h
  · split at h <;> cases h
    rfl

theorem writeOf_noRegister {off : Nat} {v : Word} (h : locate off = none) : writeOf off v = none := by
  rw [writeOf, h]

theorem busWriteBe_all (off : Nat) (v : Word) (s : State) : busWriteBe off v 15#4 s = busWrite off v s := if_pos rfl

/-- A write that is partial, or that meets no register, changes nothing but the idle count. -/
theorem busWriteBe_ignored {off : Nat} {v : Word} {be : BitVec 4} (h : be ≠ 15#4 ∨ writeOf off v = none) :
    busWriteBe off v be s = touchIdle s := by
  by_cases hb : be = 15#4
  · have hw : writeOf off v = none := h.resolve_left (not_not_intro hb)
    rw [hb, busWriteBe_all, busWrite, hw]
  · exact if_neg hb

section
variable {off : Nat} {v : Word} {w : Write} (hw : writeOf off v = some w)
include hw

/-- A host write outside the ROL block is denied while the block is closed. -/
theorem busWrite_closed (hc : closed (touchIdle s) off = true) :
    busWrite off v s = deny .host (touchIdle s).role off v (touchIdle s) := by
  simp [busWrite, hw, hc]

/-- A host write of an open register is applied with the host's role. -/
theorem busWrite_open (hc : closed (touchIdle s) off = false) :
    busWrite off v s = applyWrite .host (touchIdle s).role w v (touchIdle s) := by
  simp [busWrite, hw, hc]

end

theorem applyWrite_live {x : Source} {role : Nat} {w : Write} {v : Word} (hl : w.live s = true) :
    applyWrite x role w v s = (s |> count Reg.EPO_LIVE_WRITES |> noteWrite x role w (shown w.off s)) := if_pos hl

theorem applyWrite_denied {x : Source} {role : Nat} {w : Write} {v : Word} (hl : w.live s = false) (hm : w.mayStore role s = false) :
    applyWrite x role w v s = deny x role w.off v s := by
  simp [applyWrite, hl, hm]

/-- A write that is taken is stored, recorded, and has its effect; that of ROL_DROP comes before the record. -/
theorem busWrite_taken {off : Nat} {v : Word} {w : Write} (hw : writeOf off v = some w) (h : Taken s w) :
    busWrite off v s =
      if w.row.base = Row.ROL_DROP.base then
        noteWrite .host (touchIdle s).role w (shown w.off (touchIdle s))
          (hook w.row w.i w.j (old s w) (val w) (storeWrite w (touchIdle s)))
      else hook w.row w.i w.j (old s w) (val w) (written s w) := by
  obtain ⟨-, hc, hl, hm⟩ := h
  rw [writeOf_off hw] at hc
  rw [busWrite_open hw hc, applyWrite, if_neg (by simp [hl]), if_neg (by simp [hm])]
  rfl

/-! ### Host reads (R45, R49, R51, R297, R461) -/

theorem readReg_noRegister {off : Nat} (hl : locate off = none) : readReg off s = (0, flushPassed s) := by
  simp [readReg, hl]

section
variable {off i j : Nat} {r : RegSpec} (hl : locate off = some r) (hh : r.hit off = some (i, j))
  (he : r.base ≠ Row.LBB_ERR_INFO.base) (hp : r.base ≠ Row.TIM_SYNC_CAP_NS.base)
include hl hh he hp

/-- A word that no snapshot holds is read where it stands: the read takes a snapshot of higher words and clears a count. -/
theorem readReg_fresh (hs : Sparse.find (flushPassed s).snaps off = none) :
    readReg off s = (readWord r off (flushPassed s), flushPassed s |> takeSnapshot r off j |> clearRc r off) := by
  simp [readReg, hl, hh, he, hp, hs]

/-- A word that a snapshot holds is read from it. -/
theorem readReg_snapshot {w : Word} (hs : Sparse.find (flushPassed s).snaps off = some w) : readReg off s = (w, flushPassed s) := by
  simp [readReg, hl, hh, he, hp, hs]

end

theorem locate_TIM_SYNC_CAP_NS : ∀ pin : Fin 4, locate (Reg.TIM_SYNC_CAP_NS pin) = some Row.TIM_SYNC_CAP_NS ∧
    Row.TIM_SYNC_CAP_NS.hit (Reg.TIM_SYNC_CAP_NS pin) = some (pin.val, 0) := by
  decide

theorem readReg_TIM_SYNC_CAP_NS (pin : Fin 4) :
    readReg (Reg.TIM_SYNC_CAP_NS pin) s = ((syncPop pin (flushPassed s)).host.lastRead, syncPop pin (flushPassed s)) := by
  obtain ⟨hl, hh⟩ := locate_TIM_SYNC_CAP_NS pin
  have he : Row.TIM_SYNC_CAP_NS.base ≠ Row.LBB_ERR_INFO.base := by decide
  simp [readReg, hl, hh, he]

theorem readReg_LBB_ERR_INFO : readReg Reg.LBB_ERR_INFO s = ((errorPop (flushPassed s)).host.lastRead, errorPop (flushPassed s)) := by
  have hl : locate Reg.LBB_ERR_INFO = some Row.LBB_ERR_INFO := rfl
  have hh : Row.LBB_ERR_INFO.hit Reg.LBB_ERR_INFO = some (0, 0) := rfl
  simp [readReg, hl, hh]

section
variable {off dt : Nat} {w : Word} {s₀ t : State} (hr : (arrive dt s₀).reaches = true)
  (e : readReg off (touchIdle (arrive dt s₀)) = (w, t))
include hr e

/-- A host read answers what the register's read answers once the idle count is reloaded. -/
theorem reads_of {c : Instr} (h : exec c s₀ = done (whenHost (busRead off) (arrive dt s₀))) : Reads c s₀ w t :=
  ends_host h hr (by rw [busRead, e])

theorem reads_either : ∀ c ∈ [Instr.rcRead off dt, .snapshotRead off dt], Reads c s₀ w t := by
  intro c hc
  rcases List.mem_pair.mp hc with rfl | rfl
  · exact reads_of hr e exec_rcRead
  · exact reads_of hr e exec_snapshotRead

end

/-- Settles O1: a write by what becomes of it (taken, ignored, denied, or to the live bank), a read by what its offset holds. -/
theorem registerAccessesComplete : Obligations.RegisterAccessesComplete := by
  refine ⟨?taken, ?ignored, ?refused, ?nothing, ?fresh, ?snapshot, ?capture, ?errors⟩
  case taken =>
    intro s₀ off v w dt s hw ht
    exact ends_host exec_registerWrite ht.1 ((busWriteBe_all off v s).trans (busWrite_taken hw ht))
  case ignored =>
    intro s₀ off v be dt s hr hi
    exact ends_host exec_registerWrite hr (busWriteBe_ignored hi)
  case refused =>
    intro s₀ off v w dt r s hr hw
    have ends {t : State} (e : busWrite off v r = t) : Ends (.registerWrite off v 15#4 dt) s₀ t :=
      ends_host exec_registerWrite hr ((busWriteBe_all off v r).trans e)
    refine ⟨fun hc => ends (busWrite_closed hw hc), fun hc hl => ends ?_, fun hc hl hm => ends ?_⟩
    · exact (busWrite_open hw hc).trans (applyWrite_live hl)
    · rw [busWrite_open hw hc, applyWrite_denied hl hm, writeOf_off hw]
  case nothing =>
    intro s₀ off dt s hr hl
    exact reads_either hr (readReg_noRegister hl)
  case fresh =>
    intro s₀ off r i j dt s hr hl hh he hp t hs
    exact reads_either hr (readReg_fresh hl hh he hp hs)
  case snapshot =>
    intro s₀ off r i j w dt s hr hl hh he hp t hs
    exact reads_either hr (readReg_snapshot hl hh he hp hs)
  case capture =>
    intro s₀ pin dt s hr t
    have e : readReg (Reg.TIM_SYNC_CAP_NS pin) (touchIdle s) = (t.host.lastRead, t) := readReg_TIM_SYNC_CAP_NS pin
    exact List.forall_mem_cons.mpr ⟨reads_of hr e exec_syncCapturePop, reads_either hr e⟩
  case errors =>
    intro s₀ dt s hr t
    have e : readReg Reg.LBB_ERR_INFO (touchIdle s) = (t.host.lastRead, t) := readReg_LBB_ERR_INFO
    exact List.forall_mem_cons.mpr ⟨reads_of hr e exec_errorLogPop, reads_either hr e⟩

/-! ### Offsets that hold no register (R45) -/

/-- A word of a row whose base and strides are whole words lies at a whole word. -/
theorem hit_aligned {r : RegSpec} {off : Nat} {p : Nat × Nat} (hb : 4 ∣ r.base) (h1 : 4 ∣ r.s1) (h2 : 4 ∣ r.s2)
    (h : r.hit off = some p) : 4 ∣ off := by
  unfold RegSpec.hit at h
  split at h
  · cases h
  · next hle =>
    dsimp only at h
    split at h
    · next hin =>
      obtain ⟨he, -, -⟩ := hin
      have hi : (off - r.base) / r.s1 * r.s1 ≤ off - r.base := Nat.div_mul_le_self _ _
      have hoff : off = r.base + (off - r.base) / r.s1 * r.s1 + (off - r.base - (off - r.base) / r.s1 * r.s1) := by omega
      rw [hoff, he]
      exact (hb.add (h1.mul_left _)).add (h2.mul_left _)
    · cases h

theorem regBlocks_aligned : ∀ b ∈ regBlocks, ∀ r ∈ b.2, 4 ∣ r.base ∧ 4 ∣ r.s1 ∧ 4 ∣ r.s2 := by decide +kernel

/-- A row that holds an offset is one of the map's. -/
theorem locate_mem {off : Nat} {r : RegSpec} (h : locate off = some r) :
    (∃ b ∈ regBlocks, r ∈ b.2) ∧ ∃ p, r.hit off = some p := by
  unfold locate at h
  split at h
  · cases h
  · next b hb =>
    have hit : (r.hit off).isSome = true := List.find?_some (p := fun r : RegSpec => (r.hit off).isSome) h
    exact ⟨⟨b, List.mem_of_find?_eq_some hb, List.mem_of_find?_eq_some h⟩, Option.isSome_iff_exists.mp hit⟩

theorem locate_aligned {off : Nat} {r : RegSpec} (h : locate off = some r) : 4 ∣ off := by
  obtain ⟨⟨b, hb, hr⟩, p, hp⟩ := locate_mem h
  obtain ⟨hbase, h1, h2⟩ := regBlocks_aligned b hb r hr
  exact hit_aligned hbase h1 h2 hp

/-- Settles O43: no write names a register there, and each row of the map lies at whole words. -/
theorem offsetWithoutRegister : Obligations.OffsetWithoutRegister := by
  refine ⟨?nothing, ?partly, ?unaligned⟩
  case nothing =>
    intro s₀ off v be dt s hr hl
    exact ⟨reads_of hr (readReg_noRegister hl) exec_rcRead,
      ends_host exec_registerWrite hr (busWriteBe_ignored (.inr (writeOf_noRegister hl)))⟩
  case partly =>
    intro s₀ off v be dt s hr hb
    exact ends_host exec_registerWrite hr (busWriteBe_ignored (.inl hb))
  case unaligned =>
    intro off ho
    exact Option.eq_none_iff_forall_ne_some.mpr fun r hr => ho (Nat.mod_eq_zero_of_dvd (locate_aligned hr))

/-! ### Roles and key rotation (R56 to R61) -/

/-- The nonce drops 60 s after its draw when no use of it falls in that cycle (R23, R57). -/
theorem nonceExpiry_expires (hv : s.on Fld.ROL_STATUS_nonce_valid = true)
    (hi : inTime isUnlock (advanceTo (s.roles.nonceAt + 60 * cyclesPerS) s) = false) :
    nonceExpiry s = (s |> advanceTo (s.roles.nonceAt + 60 * cyclesPerS) |> dropNonce) := by
  simp [nonceExpiry, hv, hi]

/-- The comparison at the front ends at its time, with the answer that it carries (R58). -/
theorem unlockCompareDone_front {c : Compare} {rest : List Compare} (hc : s.roles.compare = c :: rest) :
    unlockCompareDone s =
      let t := s |> advanceTo c.due |> modRoles (fun r => { r with compare := rest })
      let f := t.getF Fld.ROL_STATUS_failures
      if c.ok then
        t |> setF Fld.ROL_STATUS_failures 0 |> modRoles (fun r => { r with lockoutEnd := none })
          |> setF Fld.ROL_STATUS_role c.role |> setF Fld.ROL_IDLE_ticks 60000 |> record 0x10 [c.role, f]
      else
        let u := setF Fld.ROL_STATUS_failures (min (f + 1) 255) t
        u |> modRoles (fun r => { r with lockoutEnd := some (u.cycle + lockoutSeconds (min (f + 1) 255) * cyclesPerS) })
          |> record 0x11 [c.role, min (f + 1) 255] := by
  rw [unlockCompareDone, hc]
  rfl

theorem lockoutExpiry_ends {e : Nat} (he : s.roles.lockoutEnd = some e) :
    lockoutExpiry s = (s |> advanceTo e |> modRoles (fun r => { r with lockoutEnd := none })) := by
  rw [lockoutExpiry, he]

/-- An elevated role lapses at idle count 0 when no host access falls in that cycle (R23, R59). -/
theorem roleLapse_lapses (hr : s.role ≠ 0) (h0 : s.getF Fld.ROL_IDLE_ticks = 0) (hi : inTime bar0Access s = false) :
    roleLapse s = (s |> roleToOperator |> record 0x12 [s.role] |> latch Fld.ROL_EVENT_role_lapse) :=
  if_pos ⟨hr, h0, by rw [hi]; rfl⟩

/-- Both programs of a rotation succeed: the counter moves, with its record, and the role returns to operator (R61). -/
theorem rotationDone_programmed {v : Nat} (hv : s.roles.rotating = some v) :
    rotationDone true true s =
      let t := s |> modRoles (fun r => { r with rotating := none }) |> writeBlock false v true |> writeBlock true v true
      t |> setR Reg.ROL_KEY_ROT v |> record 0x16 (dle 4 (s.reg Reg.ROL_KEY_ROT).toNat ++ dle 4 v) |> roleToOperator
        |> setF Fld.ROL_STATUS_rotate_busy 0 := by
  rw [rotationDone, hv]
  rfl

/-- Settles O3: the host's commands are writes that run the hook of their register, the others run in their turn or as they
arrive. -/
theorem roleCommandsComplete : Obligations.RoleCommandsComplete := by
  refine ⟨?challenge, ?nonce, ?unlock, ?compared, ?lockout, ?lapse, ?drop, ?rotate, ?rotated⟩
  case challenge =>
    intro s₀ v dt s w hw
    exact ends_of exec_challenge (write_taken writeOf_ROL_CHALLENGE rfl (of_decide_eq_true rfl) hw)
  case nonce =>
    intro s₀ s ha hv e hi
    exact ends_turn exec_nonceExpiry ha (nonceExpiry_expires hv hi)
  case unlock =>
    intro s₀ v dt s w hw
    exact ends_of exec_unlock (write_taken writeOf_ROL_UNLOCK rfl (of_decide_eq_true rfl) hw)
  case compared =>
    intro s₀ c rest s ha hc t f
    have run := unlockCompareDone_front hc
    exact ⟨fun hk => ends_turn exec_unlockCompareDone ha (run.trans (if_pos hk)),
      fun hk => ends_turn exec_unlockCompareDone ha (run.trans (if_neg (Bool.eq_false_iff.mp hk)))⟩
  case lockout =>
    intro s₀ e s ha he
    exact ends_turn exec_lockoutExpiry ha (lockoutExpiry_ends he)
  case lapse =>
    intro s₀ s ha hr h0 hi
    exact ends_turn exec_roleLapse ha (roleLapse_lapses hr h0 hi)
  case drop =>
    intro s₀ v dt s w hw
    exact ends_host exec_roleDrop hw.1 ((busWrite_taken writeOf_ROL_DROP hw).trans (if_pos rfl))
  case rotate =>
    intro s₀ v dt s w hw
    exact ends_of exec_keyRotate (write_taken writeOf_ROL_ROTATE rfl (of_decide_eq_true rfl) hw)
  case rotated =>
    intro s₀ v dt s ha hv
    exact ends_arrival exec_rotationFlashDone ha (rotationDone_programmed hv)

/-! ### Dropping the role (R53, R60) -/

/-- A field of a word built from a number is that part of the number. -/
theorem fieldOf_ofNat {lo width : Nat} (h : lo + width ≤ 32) (n : Nat) :
    fieldOf (BitVec.ofNat 32 n) lo width = n / 2 ^ lo % 2 ^ width := by
  have hsplit : 2 ^ 32 = 2 ^ lo * 2 ^ (32 - lo) := by rw [← pow_add]; congr 1; omega
  rw [fieldOf, BitVec.toNat_ofNat, hsplit, Nat.mod_mul_right_div_self]
  exact Nat.mod_mod_of_dvd _ (pow_dvd_pow 2 (by omega))

/-- A field reads back what was put in it, cut to its width. -/
theorem fieldOf_putField {lo width : Nat} (h : lo + width ≤ 32) (w : Word) (v : Nat) :
    fieldOf (putField w lo width v) lo width = v % 2 ^ width := by
  have hlow : w.toNat % 2 ^ lo < 2 ^ lo := Nat.mod_lt _ (by positivity)
  have hsum : ∀ a b c : Nat, a + b * 2 ^ lo + c * 2 ^ (lo + width) = a + 2 ^ lo * (b + 2 ^ width * c) := fun a b c => by ring
  rw [putField, fieldOf_ofNat h, hsum, Nat.add_mul_div_left _ _ (by positivity), Nat.div_eq_of_lt hlow, Nat.zero_add,
    Nat.add_mul_mod_self_left, Nat.mod_mod]

theorem getF_of_reg {f : Fld} {t : State} (h : t.reg f.reg = s.reg f.reg) : t.getF f = s.getF f := by
  rw [State.getF, h, State.getF]

theorem getF_setF_same {f : Fld} (h : f.lo + f.width ≤ 32) (v : Nat) (s : State) : (setF f v s).getF f = v % 2 ^ f.width := by
  rw [State.getF, setF, reg_setReg, if_pos rfl, fieldOf_putField h]

theorem getF_setF_of_ne {f g : Fld} (h : g.reg ≠ f.reg) (v : Nat) (s : State) : (setF f v s).getF g = s.getF g :=
  getF_of_reg (setF_reg_of_ne h)

theorem roleToOperator_role (s : State) : (roleToOperator s).role = 0 :=
  (getF_setF_of_ne (by decide) 0 _).trans (getF_setF_same (by decide) 0 s)

theorem startPage_cycle (s : State) : (startPage s).cycle = s.cycle := by
  unfold startPage askSuspend
  dsimp only
  split
  · rfl
  · split
    · split <;> rfl
    · rfl

theorem startCommit_cycle (s : State) : (startCommit s).cycle = s.cycle := startPage_cycle _

theorem showFills_withLkt_cycle (s : State) (l : Locket) : (showFills { s with lkt := l }).cycle = s.cycle := by
  rw [showFills, setF_cycle, setF_cycle]

/-- Making a record or pair takes no time. -/
theorem placeRecords_cycle (rs : List Record) (s : State) : (placeRecords rs s).cycle = s.cycle := by
  unfold placeRecords
  extract_lets +onlyGivenNames n grp fresh seq toHold
  split
  · split
    · exact count_cycle (a := Reg.LKT_LOST)
    · exact (showFills_withLkt_cycle (setR Reg.LKT_SEQ _ s) _).trans setR_cycle
  · extract_lets +onlyGivenNames numbered programmed area excess overwritten lkt staged
    have hn : numbered.cycle = s.cycle := setR_cycle
    have ho : overwritten.cycle = numbered.cycle := countBy_cycle
    have hf : staged.cycle = overwritten.cycle := showFills_withLkt_cycle overwritten _
    have hs : staged.cycle = s.cycle := hf.trans (ho.trans hn)
    split
    · exact (startCommit_cycle staged).trans hs
    · exact hs

/-- Making a record leaves the role. -/
theorem record_role (t : Nat) (d : List Nat) (s : State) : (record t d s).role = s.role :=
  getF_of_reg (placeRecords_reg (by decide) _ s)

/-- A drop of an elevated role returns it to operator and is recorded. -/
theorem roleDrop_elevated {v : Nat} (hv : bit v 0 = true) (hr : s.role ≠ 0) :
    roleDrop v s = (s |> roleToOperator |> record 0x13 [s.role]) := if_pos ⟨hv, hr⟩

theorem roleDrop_operator {v : Nat} (hr : s.role = 0) : roleDrop v s = s := if_neg fun h => h.2 hr

/-- Settles O45: under the operator role there is nothing to drop, and the record of a drop leaves the role and the cycle. -/
theorem roleDropReturnsToOperator : Obligations.RoleDropReturnsToOperator := by
  refine ⟨fun s v hv => ?_, fun s v hr => roleDrop_operator hr, rfl⟩
  by_cases hr : s.role = 0
  · rw [roleDrop_operator hr]
    exact ⟨hr, rfl⟩
  · rw [roleDrop_elevated hv hr]
    exact ⟨(record_role _ _ _).trans (roleToOperator_role s), placeRecords_cycle _ _⟩

/-! ### Every command answers -/

/-- Every arm of the dispatch ends its command: none faults or refuses. -/
theorem exec_done (c : Instr) (s : State) : ∃ u, exec c s = done u := by
  cases c <;> exact ⟨_, rfl⟩

/-- Settles O35: the end of a command is a next state. -/
theorem everyCommandAnswers : Obligations.EveryCommandAnswers := by
  intro c s
  obtain ⟨u, hu⟩ := exec_done c s
  exact ⟨finish u, hu⟩

end Sys2Proof.Machine
end

section
/-! PROOF. Commands that the device takes once functions run: links and BEACONs of trunk lines (R90 to R92), and the Spire frames
that they bring in (R82, R88, R97, R103, R321). -/
namespace Sys2Proof.Machine
open Sys2Proof.Claims
variable {s : State}

/-! ### A command that the device takes once functions run -/

theorem whenRunning_running {f : State → State} (hr : s.running = true) : whenRunning f s = f s := if_pos hr

/-- A command that arrives while functions run ends with what it runs on the state in which it arrives. -/
theorem ends_running {c : Instr} {f : State → State} {s₀ t : State} {dt : Nat}
    (h : exec c s₀ = done (whenRunning f (arrive dt s₀))) (hr : (arrive dt s₀).running = true) (e : f (arrive dt s₀) = t) :
    Ends c s₀ t :=
  ends_of h ((whenRunning_running hr).trans e)

/-- What the device times itself while functions run ends with what it runs on the state in which its turn comes. -/
theorem ends_runningTurn {c : Instr} {f : State → State} {s₀ t : State} (h : exec c s₀ = done (inTurn (whenRunning f) s₀))
    (hr : (inItsTurn (whenRunning f) s₀).running = true) (e : f (inItsTurn (whenRunning f) s₀) = t) : Ends c s₀ t :=
  ends_of h (inTurn_eq.trans ((whenRunning_running hr).trans e))

/-! ### Links of trunk lines and the BEACONs in time (R90 to R92) -/

/-- A trunk port in ON without link takes the speed of its partner, or its own without autonegotiation. -/
theorem trunkLinkUp_comes {n speed : Nat} (hv : speed < 4) (hp : portState s (48 + n) = 2)
    (hl : s.on (Fld.TPT_STATUS_link n) = false) :
    trunkLinkUp n speed s =
      (s |> setWord (48 + n) (some (speed + 4)) |> setF (Fld.TPT_STATUS_link n) 1
        |> setF (Fld.TPT_STATUS_speed n) (if s.on (Fld.TPT_MODE_an n) then speed else s.getF (Fld.TPT_MODE_speed n))
        |> latch (Fld.TPT_EVENT_link_change n) |> startPreemption n |> sprLinkUp n) := by
  simp [trunkLinkUp, hp, hl, Nat.mod_eq_of_lt hv]

theorem trunkLinkDown_goes {n cause : Nat} (hl : s.on (Fld.TPT_STATUS_link n) = true) :
    trunkLinkDown n cause s =
      (s |> cutArrival (48 + n) |> cutFrame (48 + n) Reason.linkDown |> dropOwn (48 + n)
        |> sprLinkDown n (if portState s (48 + n) = 3 then 5 else cause)
        |> setWord (48 + n) none
        |> setVerify n none |> setF (Fld.TPT_STATUS_preempt_active n) 0 |> setF (Fld.TPT_STATUS_verify n) Vf.disabled
        |> setF (Fld.TPT_STATUS_link n) 0 |> setF (Fld.TPT_STATUS_speed n) 0 |> latch (Fld.TPT_EVENT_link_change n)) :=
  if_neg (by simp [hl])

/-- The periodic BEACONs leave at the earliest time that any line has (R90). -/
theorem beaconPeriod_due {e : Nat} {r : List Nat} (hon : spireOn s = true)
    (hd : (List.range 4).filterMap (fun n => (s.line n).nextAt) = e :: r) :
    beaconPeriod s =
      each (List.range 4) (fun n t =>
        match (t.line n).nextAt with
        | some e => if e ≤ t.cycle then
            t |> modLine n (fun x => { x with nextAt := some (e + 80000) })
              |> whenT (!t.on Fld.RED_STATUS_withdrawn) (sendBeacon false false n) else t
        | none => t) (advanceTo (r.foldl min e) s) := by
  unfold beaconPeriod
  rw [hd]
  exact if_neg (by simp [hon])

/-- A line with link answers a BEACON while the side is not withdrawn. -/
theorem answerBeacon_owed {n : Nat} (ha : (s.line n).answer = true) (hon : spireOn s = true) (hl : (s.line n).link = true)
    (hw : s.on Fld.RED_STATUS_withdrawn = false) :
    answerBeacon n s = (s |> modLine n (fun x => { x with answer := false }) |> sendBeacon false true n) :=
  if_pos ⟨ha, hon, hl, by rw [hw]; rfl⟩

/-- A watched line is lost at its deadline when no BEACON falls in that cycle (R23, R92). -/
theorem beaconDeadline_missed {n e : Nat} (hd : (s.line n).due = some e) (hw : watched s n = true)
    (hi : inTime (isBeaconArrival s n) s = false) :
    beaconDeadline n s =
      (s |> advanceTo e |> modLine n (fun x => { x with late := true }) |> dropLine n Ln.lost 2 |> judgeCompat) := by
  simp [beaconDeadline, hd, hw, hi]

/-! ### A frame that goes whole to Spire (R82, R88, R206, R321) -/

section
variable {p cls n at_ : Nat} {l : List Byte}

/-- A frame reaches what takes it in S when it came inside its acceptance windows and S had room for it. -/
theorem intoSpire_taken (h : (intoSpire p cls at_ l s).1 = true) :
    (checkWindows p cls at_ s).1 = true ∧ (takeToS p cls at_ l (checkWindows p cls at_ s).2).1 = true :=
  Bool.and_eq_true_iff.mp h

theorem intoSpire_state : (intoSpire p cls at_ l s).2 = (takeToS p cls at_ l (checkWindows p cls at_ s).2).2 := rfl

theorem intoS_inTime {take : Nat → List Byte → State → State} (h : (checkWindows p cls at_ s).1 = true) :
    intoS p cls at_ l take s = take at_ l (checkWindows p cls at_ s).2 := if_pos h

/-- A good Spire frame of another node, on a line that is not DOWN, is taken by its type (R88). -/
theorem takeSpire_byType {t u : State} (ht : (takeToS (48 + n) 7 at_ l t).1 = true) (hu : (takeToS (48 + n) 7 at_ l t).2 = u)
    (hv : beAt l 14 1 / 16 = 1) (hk : 1 ≤ beAt l 14 1 % 16 ∧ beAt l 14 1 % 16 ≤ 3) (hd : lstate u n ≠ Ln.down)
    (hid : beAt l 18 8 ≠ u.nodeId) (hon : spireOn u = true) (hp : portState u (48 + n) = 2) :
    takeSpire n at_ l t =
      if beAt l 14 1 % 16 = 1 then takeBeacon n at_ l u
      else if beAt l 14 1 % 16 = 2 then takeCount n l u
      else takeCommit n at_ l u := by
  have hbad : ¬(beAt l 14 1 / 16 ≠ 1 ∨ beAt l 14 1 % 16 = 0 ∨ 3 < beAt l 14 1 % 16 ∨ lstate u n = Ln.down) := by
    simp only [hd, or_false]; omega
  subst hu
  simp only [takeSpire, ht, Bool.not_true, Bool.false_eq_true, if_false, if_neg hbad, if_neg hid, hon, hp, ne_eq, not_true, or_self]

/-- A whole Spire frame that S takes goes through its windows to what its type names. -/
theorem receiveSpire_byType {back : Nat} {u : State} (hf : isSpireFrame s l = true)
    (hs : stillTakes s n (rxInstant (48 + n) back s) = true)
    (ht : (intoSpire (48 + n) 7 (rxInstant (48 + n) back s) l s).1 = true)
    (hu : (intoSpire (48 + n) 7 (rxInstant (48 + n) back s) l s).2 = u)
    (hv : beAt l 14 1 / 16 = 1) (hk : 1 ≤ beAt l 14 1 % 16 ∧ beAt l 14 1 % 16 ≤ 3) (hd : lstate u n ≠ Ln.down)
    (hid : beAt l 18 8 ≠ u.nodeId) (hon : spireOn u = true) (hp : portState u (48 + n) = 2) :
    receiveSpire n l back s =
      if beAt l 14 1 % 16 = 1 then takeBeacon n (rxInstant (48 + n) back s) l u
      else if beAt l 14 1 % 16 = 2 then takeCount n l u
      else takeCommit n (rxInstant (48 + n) back s) l u := by
  obtain ⟨hw, hr⟩ := intoSpire_taken ht
  rw [receiveSpire, spireIn, if_neg (by simp [hf, hs]), intoS_inTime hw]
  exact takeSpire_byType hr (intoSpire_state.symm.trans hu) hv hk hd hid hon hp

end

/-- Settles O5: a link command and a received frame by the branch that their conditions choose, the frame then by its type; the
BEACONs and their deadline in their turn. -/
theorem trunkLineCommandsComplete : Obligations.TrunkLineCommandsComplete := by
  refine ⟨?up, ?down, ?period, ?answer, ?deadline, ?receive⟩
  case up =>
    intro s₀ n speed dt s hr hp hl sp
    exact ends_running exec_trunkLinkUp hr (trunkLinkUp_comes speed.isLt hp hl)
  case down =>
    intro s₀ n dt s hr hl
    exact ends_running exec_trunkLinkDown hr (trunkLinkDown_goes hl)
  case period =>
    intro s₀ e r s hr hon hd
    exact ends_runningTurn exec_beaconPeriod hr (beaconPeriod_due hon hd)
  case answer =>
    intro s₀ n s hr ha hon hl hw
    exact ends_runningTurn exec_answerBeacon hr (answerBeacon_owed ha hon hl hw)
  case deadline =>
    intro s₀ n e s hr hd hw hi
    exact ends_runningTurn exec_beaconDeadline hr (beaconDeadline_missed hd hw hi)
  case receive =>
    intro s₀ n l back dt s hr hf hs a r u ht hv hd hid hon hp
    have run (hk : 1 ≤ beAt l 14 1 % 16 ∧ beAt l 14 1 % 16 ≤ 3) := receiveSpire_byType hf hs ht rfl hv hk hd hid hon hp
    refine ⟨fun h1 => ?_, fun h2 hb => ?_, fun h3 => ?_⟩
    · exact ends_running exec_beaconReceive hr ((run (by omega)).trans (if_pos h1))
    · subst hb
      exact ends_running exec_countReceive hr ((run (by omega)).trans ((if_neg (by omega)).trans (if_pos h2)))
    · exact ends_running exec_commitReceive hr ((run (by omega)).trans ((if_neg (by omega)).trans (if_neg (by omega))))

end Sys2Proof.Machine
end

section
/-! PROOF. Epochs (R96, R101 to R111, R147) and the LEAD and coupler inputs (R101, R545). -/
namespace Sys2Proof.Machine
open Sys2Proof.Claims
variable {s : State}

/-! ### Epochs (R96, R101 to R111, R147) -/

/-- The COUNT that is owed leaves as one copy on each UP line of its direction. -/
theorem sendCount_due {d : Nat} {o : Summary} (hd : countDue s d = true) (ho : outgoing s d = some o) :
    sendCount d s =
      let x := s.dir d
      let seq := match x.seq with
        | none => 0
        | some q => (q + 1) % 2 ^ 16
      let body := be 8 o.origin ++ [byte o.hops, byte o.maxEpoch] ++ zeros 2 ++ be 4 o.delay ++ be 4 o.digest ++ be 8 o.lead
      (s |> each (upLines s d) (fun n t =>
          sendFromS n 7 0 (spireFrame t n (spireHead t n 2 (b2n x.restart + 2 * b2n o.overflow) seq ++ body)) t)
        |> modDir d (fun x => { x with sent := some o, seq := some seq, owed := false, restart := false })) := by
  rw [sendCount, if_neg (by simp [hd])]
  split
  · next h => cases h.symm.trans ho
  · next h =>
    cases h.symm.trans ho
    rfl

/-- A view of several nodes that holds no clash is committed by its reference end as the settle window ends (R102). -/
theorem settleExpiry_commits {e : Nat} {v : View} {t : State} (hon : spireOn s = true) (he : s.spr.settleEnd = some e)
    (ht : (s |> advanceTo e |> modSpr (fun x => { x with settleEnd := none })) = t) (hv : viewOf t = some v)
    (hover : v.overflow = false) (hclash : v.clash = false) (hid : t.on Fld.SPR_STATUS_id_clash = false) (hn : v.n ≠ 1) :
    settleExpiry s = acceptCommit v v.newEpoch v.n t.nodeId v.digest v.leadConflict (digestOf t.nodeId) 0 (10 * t.cycle) t := by
  subst ht
  simp [settleExpiry, he, hon, hv, hover, hclash, hid, hn]

/-- An accepted COMMIT leaves at the end from which it is to be sent, and stands on its lines at once. -/
theorem commitOut_forwards {a : Accepted} {fromRef : Bool} (ha : s.spr.fwd = some a) (hr : (a.refDir == 0) = fromRef) :
    commitOut fromRef s =
      let l := upLines s (commitDir s a)
      let t := s |> advanceTo ((l.map (commitStart s a)).foldl max s.cycle) |> modSpr (fun x => { x with fwd := none })
        |> each l (fun n t => sendFromS n 7 (a.at_ + hStamps) (commitFrame t a n) t)
      let u := if dirUp t (commitDir s a) then report (commitDir s a) a.newEpoch a.digest t else t
      each (u.fab.frames.filter (fun p => decide (s.fab.nextId ≤ p.1))) (fun p => commitOnLine p.1 p.2) u := by
  have hsame : ((a.refDir == 0) != fromRef) = false := by rw [hr]; exact bne_self_eq_false _
  simp only [commitOut, sendCommit, ha, hsame, Bool.false_eq_true, if_false]

/-- The WAIT ends in an abort when no COMMIT falls in its last cycle (R23, R109). -/
theorem waitTimeout_aborts {e : Nat} (hon : spireOn s = true) (he : s.spr.waitEnd = some e)
    (hi : inTime (isCommitArrival s) s = false) : waitTimeout s = (s |> advanceTo e |> abortCommit 9 0 0) := by
  simp [waitTimeout, hon, he, hi]

/-- The switch, and the leaving BEACONs of a disable request that waited for it (R106, R113). -/
theorem switchInstant_switches {a : Accepted} (ha : s.spr.accepted = some a) :
    switchInstant s =
      let t := s |> advanceTo a.switchAt |> makeSwitch a false
      if t.getF Fld.SPR_CTRL_state = 3 then each ((List.range 4).filter (isUp t)) (sendBeacon true false) t else t := by
  rw [switchInstant, ha]

theorem backoffExpiry_gathers {e : Nat} (hon : spireOn s = true) (he : s.spr.backoffEnd = some e) :
    backoffExpiry s =
      (s |> advanceTo e |> setFsm Fsm.gather |> modDir 0 (fun x => { x with restart := true })
        |> modDir 1 (fun x => { x with restart := true }) |> oweCounts |> settleView) := by
  simp [backoffExpiry, hon, he]

theorem graceExpiry_ends {e : Nat} (he : s.spr.graceEnd = some e) : graceExpiry s = (s |> advanceTo e |> endGrace) := by
  rw [graceExpiry, he]

/-! ### The LEAD and coupler inputs (R101, R545) -/

/-- A new level of LEAD is followed at once, and its filter starts or is dropped. -/
theorem leadInput_changes {level : Bool} (h : level ≠ s.spr.leadRaw) :
    leadInput level s =
      let u := setF Fld.GLB_PINS_lead_raw (b2n level) s
      let ms := u.getF Fld.SPR_LEAD_FILT_ms
      let due := if level = leadOn u then none else some (u.cycle + ms * cyclesPerMs)
      let t := modSpr (fun x => { x with leadRaw := level, leadDue := due }) u
      if due.isSome ∧ ms = 0 then takeLead t else t := if_neg h

theorem leadAccept_due {e : Nat} (he : s.spr.leadDue = some e) : leadAccept s = (s |> advanceTo e |> takeLead) := by
  rw [leadAccept, he]

/-- Out of reset a new level of a coupler ball is followed at once, and its filter starts or is dropped. -/
theorem couplerInput_changes {c : Nat} {level : Bool} (ha : s.alive = true) (h : s.on (cplRaw c) ≠ level) :
    couplerInput c level s =
      let u := setF (cplRaw c) (b2n level) s
      let ms := u.getF Fld.SPR_LEAD_FILT_ms
      if u.on (cplFiltered c) = level then setCplDue c none u
      else if ms = 0 then u |> setCplDue c none |> setF (cplFiltered c) (b2n level)
      else setCplDue c (some (u.cycle + ms * cyclesPerMs)) u := by
  have hu : (setF (cplRaw c) (b2n level) s).alive = true := ha
  rw [couplerInput, if_neg h]
  exact if_neg (by simp [hu])

theorem couplerAccept_due {c e : Nat} (he : cplDue s c = some e) :
    couplerAccept c s = (s |> advanceTo e |> setCplDue c none |> setF (cplFiltered c) (s.getF (cplRaw c))) := by
  rw [couplerAccept, he]

/-- Settles O6: what the device times itself runs in its turn, EPO_GRACE is a write that runs its hook, and the inputs act as
they arrive, LEAD in reset too. -/
theorem epochCommandsComplete : Obligations.EpochCommandsComplete := by
  refine ⟨?count, ?settle, ?commit, ?wait, ?switch, ?backoff, ?grace, ?rewrite, ?lead, ?leadFilter, ?coupler, ?couplerFilter⟩
  case count =>
    intro s₀ d o s hr hd ho x seq body
    exact ends_runningTurn exec_countSend hr (sendCount_due hd ho)
  case settle =>
    intro s₀ e v s hr hon he t hv hover hclash hid hn
    exact ends_runningTurn exec_settleExpiry hr (settleExpiry_commits hon he rfl hv hover hclash hid hn)
  case commit =>
    intro s₀ a fromRef s hr ha hf l t u
    have run := commitOut_forwards ha hf
    cases fromRef with
    | true => exact ends_runningTurn exec_commitSend hr run
    | false => exact ends_runningTurn exec_commitForward hr run
  case wait =>
    intro s₀ e s hr hon he hi
    exact ends_runningTurn exec_waitTimeout hr (waitTimeout_aborts hon he hi)
  case switch =>
    intro s₀ a s hr ha t
    exact ends_runningTurn exec_switchInstant hr (switchInstant_switches ha)
  case backoff =>
    intro s₀ e s hr hon he
    exact ends_runningTurn exec_backoffExpiry hr (backoffExpiry_gathers hon he)
  case grace =>
    intro s₀ e s hr he
    exact ends_runningTurn exec_graceExpiry hr (graceExpiry_ends he)
  case rewrite =>
    intro s₀ v dt s w hw
    exact ends_of exec_graceRewrite (write_taken writeOf_EPO_GRACE rfl (of_decide_eq_true rfl) hw)
  case lead =>
    intro s₀ level dt s h u ms due t
    exact ends_of exec_leadInputChange (leadInput_changes h)
  case leadFilter =>
    intro s₀ e s ha he
    exact ends_turn exec_leadFilterAccept ha (leadAccept_due he)
  case coupler =>
    intro s₀ c level dt s ha h u ms
    exact ends_of exec_couplerInputChange (couplerInput_changes ha h)
  case couplerFilter =>
    intro s₀ c e s ha he
    exact ends_turn exec_couplerFilterAccept ha (couplerAccept_due he)

end Sys2Proof.Machine
end

section
/-! PROOF. Compatibility mode (R116 to R119) and rosters (R138 to R140). -/
namespace Sys2Proof.Machine
open Sys2Proof.Claims
variable {s : State}

/-! ### HELLO frames, the hold and the host's numbering (R116 to R119) -/

/-- A HELLO leaves on every line with link at its time, and the time of the next is set (R116). -/
theorem helloSend_due (hc : inCompat s = true) (hl : s.getF Fld.SPR_COMPAT_CTRL_length ≠ 0) :
    helloSend s =
      let u := advanceTo s.spr.helloAt s
      let next := if 1 < s.spr.helloFast then s.getF Fld.SPR_COMPAT_TIMING_fast_ms else s.getF Fld.SPR_COMPAT_TIMING_slow_ms
      let v := modSpr (fun x => { x with helloFast := s.spr.helloFast - 1, helloAt := u.cycle + next * cyclesPerMs }) u
      (v |> each ((List.range 4).filter (fun n => (v.line n).link)) (fun n t =>
          sendFromS n 7 0 (pad60 (helloBytes (drawFree t).2 (drawFree t).1)) (drawFree t).2)
        |> modSpr (fun x => { x with helloSeq := (x.helloSeq + 1) % 2 ^ 16 })) := by
  rw [helloSend, if_neg (by simp [hc])]
  exact if_neg hl

/-- In COMPAT a HELLO that S takes is noted; in native mode it is dropped as an untagged frame (R117, R129). -/
theorem receiveHello_compat {n : Nat} {l : List Byte} (hh : isHello s l = true) (hp : portState s (48 + n) = 2)
    (hc : inCompat s = true) (ht : (intoSpire (48 + n) 7 (rxInstant (48 + n) 0 s) l s).1 = true) :
    receiveHello n l s = noteHello n l (intoSpire (48 + n) 7 (rxInstant (48 + n) 0 s) l s).2 := by
  obtain ⟨hw, hr⟩ := intoSpire_taken ht
  rw [receiveHello, helloIn, if_neg (by simp [hh, hp]), if_pos hc, intoS_inTime hw]
  exact if_pos hr

theorem receiveHello_native {n : Nat} {l : List Byte} (hh : isHello s l = true) (hp : portState s (48 + n) = 2)
    (hc : inCompat s = false) :
    receiveHello n l s = dropHello n (edgeClass s (48 + n) l) (rxInstant (48 + n) 0 s) l s := by
  rw [receiveHello, helloIn, if_neg (by simp [hh, hp]), if_neg (by simp [hc])]

theorem helloTimeout_missed {n e : Nat} (hd : (s.line n).helloDue = some e) (hi : inTime (isHelloArrival s [n]) s = false) :
    helloTimeout n s =
      (s |> advanceTo e |> modLine n (fun x => { x with helloSrc := none, helloDue := none })
        |> setF Fld.SPR_COMPAT_STATUS_hello_seen (setBit (s.getF Fld.SPR_COMPAT_STATUS_hello_seen) n false)
        |> latch Fld.SPR_EVENT_line_change) := by
  simp [helloTimeout, hd, hi]

theorem holdExpiry_ends {e : Nat} (he : holdEnd s = some e) (hi : inTime (isHelloArrival s [0, 1, 2, 3]) s = false) :
    holdExpiry s = (s |> advanceTo e |> modSpr (fun x => { x with helloLast := none }) |> judgeCompat) := by
  simp [holdExpiry, he, hi]

/-- In COMPAT a TOPOLOGY frame comes in whole (R116). -/
theorem takeTopology_compat {n back : Nat} {l : List Byte} (hc : inCompat s = true) (ht : isTopology s l = true) :
    takeTopology n l back s =
      (s |> admissionPoint (48 + n) (l.take 128) (l.length + 4) back |> laterCells (l.length / 128) (48 + n) (l.drop 128)
        |> frameEnd (48 + n) [] .good 0) :=
  if_neg (by simp [hc, ht])

/-! ### Rosters (R138 to R140) -/

/-- The entries that wait for a direction leave on each of its UP lines, outside COMPAT (R139, R160). -/
theorem sendRoster_native {d : Nat} {t : State} (ht : modDir d (fun x => { x with roster := [] }) s = t)
    (hc : inCompat t = false) (hon : spireOn t = true) :
    sendRoster d s = each (s.dir d).roster (fun e t => each (upLines t d) (fun n u => sendFromS n 7 0 (rosterFrame u n e) u) t) t := by
  subst ht
  exact if_neg (by simp [hc, hon])

/-- The entry that a ROSTER frame tells (R138). -/
def entryOf (l : List Byte) : RosterEntry :=
  { hops := beAt l 15 1, seq := beAt l 16 2, origin := beAt l 18 8, epoch := beAt l 26 1, tnn := beAt l 27 1 % 64,
    digest := beAt l 30 4 }

/-- A good entry from the neighbour of an UP line is held, where its distance held none, and relayed (R139, R140). -/
theorem takeRoster_new {n at_ : Nat} {l : List Byte} {t u : State} (ht : (takeToS (48 + n) 7 at_ l t).1 = true)
    (hu : (takeToS (48 + n) 7 at_ l t).2 = u) (hbad : badRoster l = false) (hon : spireOn u = true) (hp : portState u (48 + n) = 2)
    (hc : inCompat u = false) (hup : isUp u n = true) (hpeer : (u.dir (dirOf n)).nbr = (u.line n).peer)
    (hnbr : (u.dir (dirOf n)).nbr ≠ none) (hfar : Sparse.find (u.dir (dirOf n)).far (beAt l 15 1) = none) :
    takeRoster n at_ l t =
      let d := dirOf n
      let e := entryOf l
      let v := modDir d (fun x => { x with far := Sparse.ins (Sparse.drop x.far e.hops) e.hops e }) u
      let b := if e.hops = 1 then report d e.epoch e.digest v else v
      if e.hops < 62 ∧ dirUp b (1 - d) then queueRoster (1 - d) [{ e with hops := e.hops + 1 }] b else b := by
  have htakes : ¬((!spireOn u) = true ∨ portState u (48 + n) ≠ 2 ∨ inCompat u = true ∨ (!isUp u n) = true ∨
      (u.dir (dirOf n)).nbr ≠ (u.line n).peer ∨ (u.dir (dirOf n)).nbr = none) := by
    simp [hon, hp, hc, hup, hpeer, hpeer ▸ hnbr]
  subst hu
  simp only [takeRoster, ht, hbad, Bool.not_true, Bool.false_eq_true, if_false, if_neg htakes, hfar]
  rfl

/-- A ROSTER frame that the line takes and S has room for is taken for its entry. -/
theorem receiveRoster_taken {n : Nat} {l : List Byte} (hf : isRosterFrame s l = true)
    (hs : stillTakes s n (rxInstant (48 + n) 0 s) = true) (hw : (checkWindows (48 + n) 7 (rxInstant (48 + n) 0 s) s).1 = true) :
    receiveRoster n l s =
      takeRoster n (rxInstant (48 + n) 0 s) l (checkWindows (48 + n) 7 (rxInstant (48 + n) 0 s) s).2 := by
  rw [receiveRoster, rosterIn, if_neg (by simp [hf, hs]), intoS_inTime hw]

/-- Settles O7: a received HELLO by the mode, a ROSTER frame through its windows to what is held of it, the host's numbering by the
hook of its register, the others in their turn. -/
theorem compatAndRosterCommandsComplete : Obligations.CompatAndRosterCommandsComplete := by
  refine ⟨?hello, ?received, ?missed, ?topology, ?commit, ?hold, ?send, ?roster⟩
  case hello =>
    intro s₀ s hr hc hl u next v
    exact ends_runningTurn exec_compatHelloSend hr (helloSend_due hc hl)
  case received =>
    intro s₀ n l dt s hr hh hp a r u seen due
    exact ⟨fun hc ht => ends_running exec_compatHelloReceive hr (receiveHello_compat hh hp hc ht),
      fun hc => ends_running exec_compatHelloReceive hr
        ((receiveHello_native hh hp hc).trans (if_neg (Bool.eq_false_iff.mp hc)).symm)⟩
  case missed =>
    intro s₀ n e s hr hd hi
    exact ends_runningTurn exec_compatHelloTimeout hr (helloTimeout_missed hd hi)
  case topology =>
    intro s₀ n l back dt s hr hc ht
    exact ends_running exec_topologyReceive hr (takeTopology_compat hc ht)
  case commit =>
    intro s₀ v dt s w hw
    exact ends_of exec_compatCommit (write_taken writeOf_SPR_COMPAT_COMMIT rfl (of_decide_eq_true rfl) hw)
  case hold =>
    intro s₀ e s hr he hi
    exact ends_runningTurn exec_compatHoldExpiry hr (holdExpiry_ends he hi)
  case send =>
    intro s₀ d s hr t hc hon
    exact ends_runningTurn exec_rosterSend hr (sendRoster_native rfl hc hon)
  case roster =>
    intro s₀ n l dt s a hr hf hs r u ht hops d e hbad hon hp hc hup hpeer hnbr hfar v b
    obtain ⟨hw, htake⟩ := intoSpire_taken ht
    have run := takeRoster_new htake rfl hbad hon hp hc hup hpeer hnbr hfar
    exact ends_running exec_rosterReceive hr ((receiveRoster_taken hf hs hw).trans run)

end Sys2Proof.Machine
end

section
/-! PROOF. Fields on the wire, most significant byte first (R7), and the head of a Spire frame (R82, R83). -/
namespace Sys2Proof.Machine

/-! ### Numbers as bytes -/

@[simp] theorem length_le (n v : Nat) : (le n v).length = n := by
  induction n generalizing v with
  | zero => rfl
  | succ n ih => rw [le, List.length_cons, ih]

@[simp] theorem length_be (n v : Nat) : (be n v).length = n := by rw [be, List.length_reverse, length_le]

theorem be_one (v : Nat) : be 1 v = [byte v] := rfl

theorem ofBE_concat (l : List Byte) (b : Byte) : ofBE (l ++ [b]) = ofBE l * 256 + b.toNat := by
  rw [ofBE, List.foldl_append]
  rfl

/-- A number reads back from its n bytes, cut to their width. -/
theorem ofBE_be (n v : Nat) : ofBE (be n v) = v % 256 ^ n := by
  induction n generalizing v with
  | zero => rw [pow_zero, Nat.mod_one]; rfl
  | succ n ih =>
    have hlow : (byte v).toNat = v % 256 := BitVec.toNat_ofNat v 8
    calc ofBE (be (n + 1) v)
      _ = ofBE (be n (v / 256) ++ [byte v]) := by rw [be, le, List.reverse_cons]; rfl
      _ = v / 256 % 256 ^ n * 256 + v % 256 := by rw [ofBE_concat, ih, hlow]
      _ = v % 256 ^ (n + 1) := by rw [pow_succ', Nat.mod_mul]; ring

/-! ### Fields of a frame one after another -/

theorem slice_here {m : List Byte} (l : List Byte) : slice (m ++ l) 0 m.length = m := by
  simp [slice]

theorem slice_skip {m : List Byte} {k : Nat} (h : m.length ≤ k) (l : List Byte) (n : Nat) :
    slice (m ++ l) k n = slice l (k - m.length) n := by
  rw [slice, slice, List.drop_append, List.drop_eq_nil_of_le h, List.nil_append]

/-- A field at the front is read. -/
theorem beAt_be_here (n v : Nat) (l : List Byte) : beAt (be n v ++ l) 0 n = v % 256 ^ n := by
  have h : slice (be n v ++ l) 0 n = be n v := by simpa using slice_here (m := be n v) l
  rw [beAt, h, ofBE_be]

/-- A field before the one that is read is passed over. -/
theorem beAt_be_skip {w k : Nat} (h : w ≤ k) (v : Nat) (l : List Byte) (n : Nat) : beAt (be w v ++ l) k n = beAt l (k - w) n := by
  rw [beAt, slice_skip (by rwa [length_be]), length_be, beAt]

/-! ### The head of a Spire frame (R82, R83) -/

theorem getF_lt (f : Fld) (s : State) : s.getF f < 2 ^ f.width := Nat.mod_lt _ (by positivity)

theorem nodeId_lt (s : State) : s.nodeId < 2 ^ 64 := by
  have hword : ∀ hi lo : Word, hi.toNat * 2 ^ 32 + lo.toNat < 2 ^ 64 := fun hi lo => by
    have := hi.isLt; have := lo.isLt; omega
  unfold State.nodeId
  split <;> exact hword _ _

/-- A frame that Spire makes is its fields in the order of R83, and what follows them. -/
theorem spireFrame_fields (s : State) (line type flags seq : Nat) (body : List Byte) :
    ∃ rest, spireFrame s line (spireHead s line type flags seq ++ body) =
      be 6 spireMac ++ (be 6 (s.macOf (48 + line)) ++ (be 2 (s.getF Fld.SPR_ETYPE_ethertype) ++ (be 1 (0x10 + type) ++
        (be 1 flags ++ (be 2 seq ++ (be 8 s.nodeId ++ (be 1 line ++ rest))))))) := by
  simp only [spireFrame, pad60, spireHead, be_one, List.append_assoc, List.cons_append, List.nil_append]
  exact ⟨_, rfl⟩

theorem length_pad60 (l : List Byte) : 60 ≤ (pad60 l).length := by
  rw [pad60, List.length_append, zeros, List.length_replicate]
  omega

/-- Each field of the head is read at its place, cut to its width. -/
theorem spireFrame_reads (s : State) (line type flags seq : Nat) (body : List Byte) :
    let l := spireFrame s line (spireHead s line type flags seq ++ body)
    frameDst l = spireMac % 256 ^ 6 ∧ etherTypeAt l 12 = s.getF Fld.SPR_ETYPE_ethertype % 256 ^ 2 ∧
      beAt l 14 1 = (0x10 + type) % 256 ^ 1 ∧ beAt l 15 1 = flags % 256 ^ 1 ∧ beAt l 16 2 = seq % 256 ^ 2 ∧
      beAt l 18 8 = s.nodeId % 256 ^ 8 ∧ beAt l 26 1 = line % 256 ^ 1 := by
  obtain ⟨rest, hl⟩ := spireFrame_fields s line type flags seq body
  simp only [hl, frameDst, etherTypeAt, beAt_be_skip, beAt_be_here, Nat.reduceLeDiff, Nat.reduceSub, le_refl, Nat.sub_self, and_self]

/-- Settles O48: each field of the head is as wide as what it carries, and its frame is padded. -/
theorem spireHeadReadsBack : Obligations.SpireHeadReadsBack := by
  intro s line type flags seq body hline htype l
  obtain ⟨hdst, hether, hkind, hflags, hseq, hnode, hat⟩ := spireFrame_reads s line type flags seq body
  have hspire : isSpireFrame s l = true := by
    have hd : frameDst l = spireMac := hdst.trans (Nat.mod_eq_of_lt (by decide))
    have he : etherTypeAt l 12 = s.getF Fld.SPR_ETYPE_ethertype :=
      hether.trans (Nat.mod_eq_of_lt (getF_lt Fld.SPR_ETYPE_ethertype s))
    simp [isSpireFrame, hd, he]
  exact ⟨hspire, length_pad60 _, hkind.trans (Nat.mod_eq_of_lt (by omega)), hflags, hseq,
    hnode.trans (Nat.mod_eq_of_lt (nodeId_lt s)), hat.trans (Nat.mod_eq_of_lt (by omega))⟩

end Sys2Proof.Machine
end

section
/-! PROOF. The Backbone Epoch Tag as bytes on the wire, its insertion and its removal (R126, R127). -/
namespace Sys2Proof.Machine

/-! ### The tag's bytes -/

@[simp] theorem length_betBytes (tag : Nat) (b : Bet) : (betBytes tag b).length = 8 := by
  rw [betBytes, List.length_append, length_be]
  rfl

/-- The tag is its eight bytes in the order of R126, and then comes the rest of the frame. -/
theorem betBytes_fields (tag : Nat) (b : Bet) (rest : List Byte) :
    betBytes tag b ++ rest = be 2 tag ++ (be 1 b.epoch ++ (be 1 (b.srcTnn * 4) ++ (be 1 (b.dstTnn * 4) ++
      (be 1 (b.cls * 32) ++ (be 1 (b.hops * 4) ++ (be 1 (b2n b.translated * 128 + b2n b.tat * 64) ++ rest)))))) := by
  simp only [betBytes, be_one, List.append_assoc, List.cons_append, List.nil_append]

/-- The two flags of byte 7 are read apart from each other. -/
theorem bit_seven_six_of_flags (translated tat : Bool) :
    let v := (b2n translated * 128 + b2n tat * 64) % 256 ^ 1
    bit v 7 = translated ∧ bit v 6 = tat := by
  cases translated <;> cases tat <;> decide

/-! ### What stands behind the source address -/

/-- Bytes before the field that is read are passed over. -/
theorem beAt_skip {m : List Byte} {k : Nat} (h : m.length ≤ k) (l : List Byte) (n : Nat) :
    beAt (m ++ l) k n = beAt l (k - m.length) n := by
  rw [beAt, slice_skip h, beAt]

/-- Each byte of an inserted tag is read at its place, cut to its width. -/
theorem insertBet_reads (tag : Nat) (b : Bet) {l : List Byte} (hl : 12 ≤ l.length) :
    let m := insertBet tag b l
    etherTypeAt m 12 = tag % 256 ^ 2 ∧ beAt m 14 1 = b.epoch % 256 ^ 1 ∧ beAt m 15 1 = b.srcTnn * 4 % 256 ^ 1 ∧
      beAt m 16 1 = b.dstTnn * 4 % 256 ^ 1 ∧ beAt m 17 1 = b.cls * 32 % 256 ^ 1 ∧ beAt m 18 1 = b.hops * 4 % 256 ^ 1 ∧
      beAt m 19 1 = (b2n b.translated * 128 + b2n b.tat * 64) % 256 ^ 1 := by
  have haddr : (l.take 12).length = 12 := List.length_take_of_le hl
  simp only [insertBet, List.append_assoc, betBytes_fields, etherTypeAt, beAt_skip, haddr, beAt_be_skip, beAt_be_here,
    Nat.reduceLeDiff, Nat.reduceSub, le_refl, Nat.sub_self, and_self]

/-! ### Insertion and removal -/

theorem length_insertBet (tag : Nat) (b : Bet) (l : List Byte) : (insertBet tag b l).length = l.length + 8 := by
  have hsplit : (l.take 12).length + (l.drop 12).length = l.length := by rw [← List.length_append, List.take_append_drop]
  rw [insertBet, List.length_append, List.length_append, length_betBytes]
  omega

/-- The tag's 8 bytes are cut out between the addresses and what followed them. -/
theorem removeBet_insertBet (tag : Nat) (b : Bet) {l : List Byte} (hl : 12 ≤ l.length) : removeBet (insertBet tag b l) = l := by
  have haddr : (l.take 12).length = 12 := List.length_take_of_le hl
  have hfront : (l.take 12 ++ betBytes tag b).length = 20 := by rw [List.length_append, haddr, length_betBytes]
  have htake : (insertBet tag b l).take 12 = l.take 12 := by rw [insertBet, List.append_assoc, List.take_left' haddr]
  have hdrop : (insertBet tag b l).drop 20 = l.drop 12 := by rw [insertBet, List.drop_left' hfront]
  rw [removeBet, htake, hdrop, List.take_append_drop]

/-- A tag whose fields fit their widths is found as it was inserted. -/
theorem betOf_insertBet {tag : Nat} {b : Bet} {l : List Byte} (hl : 12 ≤ l.length) (htag : tag < 2 ^ 16)
    (hepoch : b.epoch < 2 ^ 8) (hsrc : b.srcTnn < 2 ^ 6) (hdst : b.dstTnn < 2 ^ 6) (hcls : b.cls < 8) (hhops : b.hops < 2 ^ 6) :
    betOf tag (insertBet tag b l) = some b := by
  obtain ⟨rtag, repoch, rsrc, rdst, rcls, rhops, rflags⟩ := insertBet_reads tag b hl
  obtain ⟨htranslated, htat⟩ := bit_seven_six_of_flags b.translated b.tat
  have htype : etherTypeAt (insertBet tag b l) 12 = tag := rtag.trans (Nat.mod_eq_of_lt htag)
  have epoch_fits : b.epoch % 256 ^ 1 = b.epoch := Nat.mod_eq_of_lt hepoch
  have sixBits_fit : ∀ n, n < 2 ^ 6 → n * 4 % 256 ^ 1 / 4 = n := fun n hn => by omega
  have cls_fits : b.cls * 32 % 256 ^ 1 / 32 = b.cls := by omega
  rw [betOf, if_pos htype, repoch, rsrc, rdst, rcls, rhops, rflags, epoch_fits, sixBits_fit _ hsrc, sixBits_fit _ hdst, cls_fits,
    sixBits_fit _ hhops, htranslated, htat]

/-- Settles O49: the bytes of the tag stand behind the 12 of the addresses, each as wide as what it carries, and removal cuts
out just these 8. -/
theorem epochTagReadsBack : Obligations.EpochTagReadsBack := by
  intro tag b l hl htag hepoch hsrc hdst hcls hhops
  exact ⟨betOf_insertBet hl htag hepoch hsrc hdst hcls hhops, removeBet_insertBet tag b hl, length_insertBet tag b l⟩

end Sys2Proof.Machine
end

section
/-! PROOF. Frames that come into the fabric and the cells that cross it (R184, R185, R204, R205). -/
namespace Sys2Proof.Machine
open Sys2Proof.Claims
variable {s : State}

/-! ### Frames received (R184, R205) -/

/-- A frame that neither the MAC nor port S takes whole is judged at its first cell, by the kind of its port (R184, R204). -/
theorem admissionPoint_judged {p len back : Nat} {l : List Byte} (hp : receives s p = true)
    (ha : Sparse.find s.fab.arriving p = none) (hw : takenWhole s p len l = false) :
    admissionPoint p l len back s =
      let a := rxInstant p back s
      let r := if 48 ≤ p ∧ !inCompat s then ingressTrunk (p - 48) len a l s else ingressEdge p len a l s
      let id := match r.1 with
        | .taken id => some id
        | _ => none
      setArrival p { frame := id, line := l, learn := r.2.1, inAt := a } r.2.2 := by
  have hidle : ¬((!receives s p) = true ∨ (Sparse.find s.fab.arriving p).isSome = true) := by simp [hp, ha]
  exact (if_neg hidle).trans (if_neg (Bool.eq_false_iff.mp hw))

/-- A later cell of an admitted frame is stored where there are cells for it (R205). -/
theorem cellWrite_stored {p id : Nat} {bytes : List Byte} {a : Arrival} {f : Frame} {v : State}
    (ha : Sparse.find s.fab.arriving p = some a) (hid : a.frame = some id)
    (hv : setArrival p { a with line := a.line ++ bytes } s = v) (hf : v.frame id = some f)
    (hroom : lacksCells (closeFragments id v) f (max 1 ((storedPart v p f bytes).length / 128)) = false) :
    cellWrite p bytes s =
      let d := storedPart v p f bytes
      modFrame id (fun g => { g with data := d, cells := max 1 (d.length / 128) }) (closeFragments id v) := by
  simp only [cellWrite, ha, hv]
  simp only [hid, hf]
  exact if_neg (Bool.eq_false_iff.mp hroom)

/-- What the end of a good frame counts, and then the learn that the frame asks for (R177, R183, R258). -/
def endedGood (p frags : Nat) (line : List Byte) (learn : Option LearnReq) (s : State) : State :=
  let v := statEnd p line .good frags s
  let x := whenT (frags == 0 && cameExpress v p line) (stat1 p 20) v
  match learn with
  | some r => queueLearn r x
  | none => x

/-- A good frame no longer than its port takes is whole and ready where there are cells for its end (R184, R205, R236). -/
theorem frameEnd_ready {p id frags : Nat} {bytes : List Byte} {a : Arrival} {f : Frame} {u y : State}
    (ha : Sparse.find s.fab.arriving p = some a) (hid : a.frame = some id) (hu : endArrival p s = u)
    (hw : takenWhole u p ((a.line ++ bytes).length + 4) (a.line ++ bytes) = false)
    (hlen : (a.line ++ bytes).length + 4 ≤ maxFrame u p) (hy : endedGood p frags (a.line ++ bytes) a.learn u = y)
    (hf : y.frame id = some f)
    (hroom : lacksCells (closeFragments id y) f (cellsOf ((storedPart y p f bytes).length + 4)) = false) :
    frameEnd p bytes .good frags s =
      let d := storedPart y p f bytes
      endGood p id
        (modFrame id (fun g => { g with data := d, cells := cellsOf (d.length + 4), len := d.length + 4 }) (closeFragments id y)) := by
  have hgood : (FrameErr.good == .good && !decide (maxFrame u p < (a.line ++ bytes).length + 4)) = true := by
    rw [decide_eq_false (Nat.not_lt.mpr hlen)]
    rfl
  subst hu
  unfold frameEnd
  simp -zeta only [ha]
  extract_lets +onlyGivenNames t line long good frag
  refine (if_neg (Bool.eq_false_iff.mp hw)).trans ?_
  extract_lets +onlyGivenNames counted express learned
  have hlearned : learned = y := by
    rw [← hy]
    unfold learned express
    rw [show good = true from hgood]
    cases a.learn <;> rfl
  simp only [hid, hlearned, hf]
  exact (if_neg (Bool.eq_false_iff.mp hroom)).trans (if_pos hgood)

/-- Settles O8: a received frame's first cell, its later cells and its good end by the branch that their conditions choose; the cell
time in its turn. -/
theorem fabricCommandsComplete : Obligations.FabricCommandsComplete := by
  refine ⟨?admitted, ?cell, ?ended, ?crossed⟩
  case admitted =>
    intro s₀ p l len back dt s hr hp ha hw a r id
    exact ends_running exec_admissionPoint hr (admissionPoint_judged hp ha hw)
  case cell =>
    intro s₀ p bytes a id f dt s hr ha hid v d u hf hroom
    exact ends_running exec_cellWrite hr (cellWrite_stored ha hid rfl hf hroom)
  case ended =>
    intro s₀ p bytes frags dt a id f s hr ha hid line u hw hlen v x y d z hf hroom
    exact ends_running exec_frameEnd hr (frameEnd_ready ha hid rfl hw hlen rfl hf hroom)
  case crossed =>
    intro s₀ s hr u v w m
    exact ends_runningTurn exec_cellTime hr rfl

end Sys2Proof.Machine
end

section
/-! PROOF. The move back to a returned line (R193), and the forwarding database: learning, ageing and the host's commands
(R177 to R180). -/
namespace Sys2Proof.Machine
open Sys2Proof.Claims
variable {s : State}

/-! ### The move back (R193) -/

theorem revertStart_due {d n : Nat} (hn : returned s d = some n) (hon : s.on Fld.FAB_AGG_CTRL_revert = true)
    (hnone : Sparse.find s.fab.revert d = none) : revertStart d s = (s |> advanceTo (revertDue s n) |> beginRevert d) := by
  have hfree : ¬((!s.on Fld.FAB_AGG_CTRL_revert) = true ∨ (Sparse.find s.fab.revert d).isSome = true) := by simp [hon, hnone]
  rw [revertStart, hn]
  exact if_neg hfree

/-- A class that has still not moved when the drain's time is over is moved and counted. -/
theorem revertForce_moves {d c t0 : Nat} {m moved : List Nat} {u : State} (hm : Sparse.find s.fab.revert d = some m)
    (ht : Sparse.find s.fab.revertAt d = some t0)
    (hu : (s |> advanceTo (t0 + s.getF Fld.FAB_AGG_CTRL_drain_max_ms * cyclesPerMs) |> revertCheck d) = u)
    (hmoved : Sparse.find u.fab.revert d = some moved) (hc : moved.contains c = false) :
    revertForce d c s =
      (u |> latch Fld.FAB_EVENT_revert_forced |> count Reg.FAB_AGG_FORCED
        |> modFab (fun x => { x with revert := Sparse.ins (Sparse.drop x.revert d) d (c :: moved) }) |> revertCheck d) := by
  subst hu
  simp only [revertForce, hm, ht, hmoved]
  exact if_neg (Bool.eq_false_iff.mp hc)

/-! ### The forwarding database (R177 to R180) -/

/-- The head of the queue is applied at the next cell time. -/
theorem learnStep_head {l : LearnReq} {t : List LearnReq} (hq : s.fab.learnQueue = l :: t) :
    learnStep s =
      let u := advanceTo (nextCell s s.fab.learnAt) s
      (u |> modFab (fun x => { x with learnQueue := t, learnAt := u.cycle }) |> learnNow l) := by
  rw [learnStep, hq]

theorem ageingSweep_due {e : Nat} (hd : s.fab.sweepDue = some e) :
    ageingSweep s =
      let u := s |> advanceTo e |> flushBefore
      let v := modFab (fun x => { x with sweepDue := some (e + sweepInterval u) }) u
      each (fdbUsed v) ageEntry v := by
  rw [ageingSweep, hd]

/-- A running command ends at its time, after a sweep and a learn of that cycle (R180). -/
theorem fdbDone_due {c : FdbCmd} (hc : s.fab.fdbCmd = some c) :
    fdbDone s =
      let u := advanceTo c.due s
      let v := whenT (u.fab.sweepDue == some u.cycle) ageingSweep u
      (v |> whenT (learnFalls v) learnStep |> flushPassed |> modFab (fun x => { x with fdbCmd := none }) |> fdbRun c
        |> setF Fld.FDB_CMD_STATUS_busy 0 |> latch Fld.FDB_EVENT_cmd_done) := by
  rw [fdbDone, hc]

/-- Every command of FDB_CMD is the host's write of that register. -/
theorem exec_fdbCmd {v : Word} {dt : Nat} {c : Instr}
    (hc : c ∈ [Instr.fdbNop v dt, .fdbLookup v dt, .fdbInsert v dt, .fdbDelete v dt, .fdbFlush v dt, .fdbRead v dt]) :
    exec c s = done (whenHost (busWrite Reg.FDB_CMD v) (arrive dt s)) := by
  simp only [List.mem_cons, List.not_mem_nil, or_false] at hc
  rcases hc with rfl | rfl | rfl | rfl | rfl | rfl <;> rfl

/-- Settles O9: a host write that is taken runs the hook of its register, and each other command the branch that its conditions
choose, in its turn. -/
theorem revertAndFdbCommandsComplete : Obligations.RevertAndFdbCommandsComplete := by
  refine ⟨?start, ?force, ?enable, ?learn, ?sweep, ?command, ?finished⟩
  case start =>
    intro s₀ d n s hr hn hon hnone
    exact ends_runningTurn exec_revertStart hr (revertStart_due hn hon hnone)
  case force =>
    intro s₀ d c m t0 moved s hr hm ht u hmoved hc
    exact ends_runningTurn exec_revertDrainMax hr (revertForce_moves hm ht rfl hmoved hc)
  case enable =>
    intro s₀ v dt s w hw
    exact ends_of exec_revertEnable (write_taken writeOf_FAB_AGG_CTRL rfl (of_decide_eq_true rfl) hw)
  case learn =>
    intro s₀ l t s hr hq u
    exact ends_runningTurn exec_learn hr (learnStep_head hq)
  case sweep =>
    intro s₀ e s hr hd u v
    exact ends_runningTurn exec_ageingSweep hr (ageingSweep_due hd)
  case command =>
    intro s₀ v dt s w hw c hc
    exact ends_of (exec_fdbCmd hc) (write_taken writeOf_FDB_CMD rfl (of_decide_eq_true rfl) hw)
  case finished =>
    intro s₀ c s hr hc u v
    exact ends_runningTurn exec_fdbCommandDone hr (fdbDone_due hc)

end Sys2Proof.Machine
end

section
/-! PROOF. The invariant of a run (R213, R218): the register file in canonical form and the drop reasons of every row in
agreement, after reset, across every step and so along every run; and the difference of a row under a refusal at the admission
point (R214, R224). -/
namespace Sys2Proof.Machine
variable {s : State}

/-! ### The invariant, as the operations keep it -/

theorem led_agrees_iff (s : State) (row : Nat) :
    (s.led row).Agrees ↔
      Sparse.wf (fun _ => 0) (s.led row).drop = true ∧ ((s.led row).struck = false → dropsumOk s row = true) := by
  rw [Led.Agrees, dropsumOk, beq_iff_eq]

/-- The invariant is what every operation keeps, apart from the queue. -/
theorem kept_pending_iff : Kept s.pending s ↔ Safety.Canonical s ∧ Safety.DropsAgree s := by
  have hrows : Agree s.fab.ledger ↔ Safety.DropsAgree s := forall_congr' (led_agrees_iff s)
  rw [Kept, hrows, Safety.Canonical]
  exact and_iff_right rfl

/-- A step takes the front of the queue and keeps the invariant. -/
theorem step_kept (h : Kept s.pending s) : ∃ t, step s = .next t ∧ Kept s.pending.tail t := by
  unfold step
  split
  next hq =>
    rw [hq] at h
    rw [hq]
    exact ⟨idle s, rfl, finish_kept (arrive_kept h)⟩
  next c rest hq =>
    rw [hq]
    obtain ⟨-, hregs, hrows⟩ := h
    exact exec_kept (s := s.withPending rest) ⟨rfl, hregs, hrows⟩

/-- Settles O37: the idle cycle and every command keep the register file canonical and the drop reasons in agreement. -/
theorem stepKeepsTheInvariant : Obligations.StepKeepsTheInvariant := by
  intro s t hc hd hstep
  obtain ⟨u, hu, hk⟩ := step_kept (kept_pending_iff.mpr ⟨hc, hd⟩)
  obtain rfl : u = t := Host.Outcome.next.inj (hu.symm.trans hstep)
  rw [← hk.1] at hk
  exact kept_pending_iff.mp hk

/-- Every state takes a step: none faults or is refused. -/
theorem step_goes (s : State) : Safety.Goes s := by
  unfold Safety.Goes step
  split
  · exact ⟨idle s, rfl⟩
  · exact everyCommandAnswers _ _

/-- Settles O39, by induction on the number of steps with the invariant carried along. -/
theorem runsAreSafe : Obligations.RunsAreSafe := by
  intro s hc hd n
  induction n generalizing s with
  | zero =>
    rintro t rfl
    exact ⟨hc, step_goes _⟩
  | succ n ih =>
    rintro t ⟨u, hstep, hrun⟩
    obtain ⟨huc, hud⟩ := stepKeepsTheInvariant s u hc hd hstep
    exact ih u huc hud t hrun

/-- Settles O36: after reset the register file and the ledger hold no entry. -/
theorem resetStateIsSound : Obligations.ResetStateIsSound := by
  have hk : Kept State.reset.pending State.reset := ⟨rfl, rfl, Agree.nil⟩
  obtain ⟨hc, hd⟩ := kept_pending_iff.mp hk
  exact ⟨hc, hd, rfl⟩

/-! ### The accounts of a row -/

/-- A row reads what was put in it, and every other row as before. -/
theorem led_setLed (row r : Nat) (l : Led) (s : State) : (setLed row l s).led r = if r = row then l else s.led r :=
  Sparse.get_put (fun _ => Led.zero) s.fab.ledger row r l

theorem led_ledAdmit (row n r : Nat) (s : State) :
    (ledAdmit row n s).led r = if r = row then { s.led row with adm := ((s.led row).adm + n) % 2 ^ 48 } else s.led r :=
  led_setLed row r _ s

theorem led_ledDrop (row reason n r : Nat) (s : State) :
    (ledDrop row reason n s).led r =
      if r = row then
        { s.led row with
          dropSum := ((s.led row).dropSum + n) % 2 ^ 48
          drop := Sparse.put (fun _ => 0) (s.led row).drop reason ((Sparse.get (fun _ => 0) (s.led row).drop reason + n) % 2 ^ 32) }
      else s.led r :=
  led_setLed row r _ s

theorem ledRefuse_led_other {row r : Nat} (h : r ≠ row) (reason n : Nat) (s : State) : (ledRefuse row reason n s).led r = s.led r := by
  rw [ledRefuse, led_ledDrop, if_neg h, led_ledAdmit, if_neg h]

/-- What a refusal of n copies leaves in the row's four accounts. -/
theorem ledRefuse_accounts (row reason n : Nat) (s : State) :
    ((ledRefuse row reason n s).led row).adm = ((s.led row).adm + n) % 2 ^ 48 ∧
      ((ledRefuse row reason n s).led row).dropSum = ((s.led row).dropSum + n) % 2 ^ 48 ∧
      ((ledRefuse row reason n s).led row).deliver = (s.led row).deliver ∧
      ((ledRefuse row reason n s).led row).ret = (s.led row).ret := by
  rw [ledRefuse, led_ledDrop, if_pos rfl, led_ledAdmit, if_pos rfl]
  exact ⟨rfl, rfl, rfl, rfl⟩

/-- A refused frame is never held. -/
theorem heldShown_ledRefuse (row reason n r : Nat) (s : State) : heldShown (ledRefuse row reason n s) r = heldShown s r := rfl

/-- Amounts that ADMIT and DROP_SUM both take on cancel in the difference, modulo 2^48. -/
theorem delta_of_common {a d p r h : Nat} (n : Nat) (ha : a < 2 ^ 48) (hd : d < 2 ^ 48) (hp : p < 2 ^ 48) (hr : r < 2 ^ 48)
    (hh : h < 2 ^ 48) :
    ((a + n) % 2 ^ 48 + 4 * 2 ^ 48 - d - (p + n) % 2 ^ 48 - r - h) % 2 ^ 48 = (a + 4 * 2 ^ 48 - d - p - r - h) % 2 ^ 48 := by
  omega

theorem rowDelta_ledRefuse_same {row : Nat} (reason n : Nat) (ha : (s.led row).adm < 2 ^ 48) (hd : (s.led row).deliver < 2 ^ 48)
    (hp : (s.led row).dropSum < 2 ^ 48) (hr : (s.led row).ret < 2 ^ 48) : rowDelta (ledRefuse row reason n s) row = rowDelta s row := by
  have hh : heldShown s row < 2 ^ 48 := Nat.mod_lt _ (by decide)
  obtain ⟨eadm, esum, edeliver, eret⟩ := ledRefuse_accounts row reason n s
  rw [rowDelta, rowDelta, eadm, esum, edeliver, eret, heldShown_ledRefuse]
  exact delta_of_common n ha hd hp hr hh

theorem rowDelta_ledRefuse_other {row r : Nat} (h : r ≠ row) (reason n : Nat) (s : State) :
    rowDelta (ledRefuse row reason n s) r = rowDelta s r := by
  rw [rowDelta, rowDelta, ledRefuse_led_other h, heldShown_ledRefuse]

/-- Settles O52: in the refused row ADMIT and DROP_SUM move by the same amount, and every other row stays. -/
theorem refusedFrameKeepsDelta : Obligations.RefusedFrameKeepsDelta := by
  intro s row reason n r ha hd hp hr t
  refine ⟨?delta, fun h => ledRefuse_led_other h reason n s, ledRefuse_accounts row reason n s⟩
  case delta =>
    by_cases h : r = row
    · subst h
      exact rowDelta_ledRefuse_same reason n ha hd hp hr
    · exact rowDelta_ledRefuse_other h reason n s

end Sys2Proof.Machine
end

section
/-! PROOF. Transmission at a frame boundary, preemption and its verify exchange (R215, R247, R252), the drain of a stopping
edge port (R257) and the clear of a port's statistics (R260). -/
namespace Sys2Proof.Machine
open Sys2Proof.Claims
variable {s : State}

/-! ### Starts and ends of frames (R215, R247, R252) -/

/-- At a frame boundary of a full-duplex port the frame that is picked starts, as a first attempt. -/
theorem txFrameStart_picked {p q id : Nat} {f : Frame} (hl : portLink s p = true) (hp : portState s p = 2 ∨ portState s p = 3)
    (hw : Sparse.find s.mac.fcWait p = none) (hn : sendingAt s p = none) (hf : isHalf s p = false)
    (hpick : (pickStart p (queuesOf p) s).1 = some (q, id, f)) :
    txFrameStart p s = putOnLine p q id f none 1 true (pickStart p (queuesOf p) s).2 := by
  have hopen : (portState s p == 2 || portState s p == 3) = true := by simpa using hp
  have hfree : ¬((!portLink s p) = true ∨ (!(portState s p == 2 || portState s p == 3)) = true ∨
      (Sparse.find s.mac.fcWait p).isSome = true) := by simp [hl, hopen, hw]
  have hstart : txFrameStart p s = startHead p s := by
    simp only [txFrameStart, if_neg hfree, hn, hf, Bool.false_eq_true, if_false]
  simp only [hstart, startHead, hpick, whenT, hf, Bool.false_eq_true, if_false]

/-- An express frame interrupts a preemptable one that has sent its least and has 64 bytes left. -/
theorem preempt_interrupts {n sent id : Nat} {x : Sending} {f : Frame} (hx : sendingAt s (48 + n) = some x)
    (ha : preemptActive s n = true) (he : x.express = false) (hleast : 64 * (1 + s.getF (Fld.TPT_PREEMPT_add_frag n)) - 4 ≤ sent)
    (hleft : x.base + sent + 64 ≤ presentBytes s x + 4)
    (hpick : (startFrom ((txQueue s (48 + n) 8).length + 1) (48 + n) 8 s).1 = some (id, f)) :
    preempt n sent s =
      (putOnLine (48 + n) 8 id f (some { frame := x.frame, bytes := x.bytes, sent := x.base + sent, taken := x.taken })
        (x.fragments + 1) true (startFrom ((txQueue s (48 + n) 8).length + 1) (48 + n) 8 s).2 |> stat1 (48 + n) 47) := by
  have hmay : ¬((!preemptActive s n) = true ∨ x.express = true ∨ sent < 64 * (1 + s.getF (Fld.TPT_PREEMPT_add_frag n)) - 4 ∨
      presentBytes s x + 4 < x.base + sent + 64) := by
    simp only [ha, he, Bool.not_true, Bool.false_eq_true, false_or]; omega
  simp only [preempt, hx, if_neg hmay, hpick]

/-- The last byte of a good frame that preempted nothing has left: it is counted and delivered (R215). -/
theorem txFrameEnd_delivers {p : Nat} {x : Sending} {f : Frame} (hx : sendingAt s p = some x) (hf : s.frame x.frame = some f)
    (hair : onAir s p = true) (hc : f.complete = true)
    (hy : f.copies.any (fun y => y.out == p && decide (f.cells ≤ y.pos)) = true) (hb : f.bad = false) (hh : x.held = none) :
    txFrameEnd p s =
      let l := x.bytes ++ f.data.drop x.taken
      let u := advanceTo (x.startAt + bytesCycles (portMbps s p) (l.length + 4)) s
      let n := (u.half p).attempts
      let v := u |> emitOut (.frame p l false) |> statTxWhole p l |> whenT x.express (stat1 p 48)
        |> whenT (decide (1 < x.fragments) && !x.express) (fun t => t |> stat1 p 46 |> stat1 p 47)
        |> whenT (decide (n = 1)) (stat1 p 40) |> whenT (decide (1 < n)) (stat1 p 41)
        |> clearSending p |> tsResolve f true |> deliverCopy x.frame p
      setHalf p { v.half p with attempts := 0, deferring := false, deferred := none, backoffEnd := none } v := by
  have hends : ¬((!onAir s p) = true ∨
      (!(f.complete && f.copies.any (fun y => y.out == p && decide (f.cells ≤ y.pos)))) = true) := by simp [hair, hc, hy]
  simp only [txFrameEnd, hx, hf, if_neg hends, hb, hh, Bool.false_eq_true, if_false]

/-! ### The verify exchange (R252) -/

section
variable {n : Nat} {v : Verify} (hv : Sparse.find s.mac.verify n = some v) (hr : v.restart = false)
  (hi : inTime (isVerifyResponse n) (advanceTo v.due s) = false)
include hv hr hi

/-- Below the limit the next verify frame leaves at its time, when no respond frame falls in that cycle (R23). -/
theorem verifySend_again (hlim : v.sent < (advanceTo v.due s).getF (Fld.TPT_PREEMPT_verify_limit n)) :
    verifySend n s =
      let u := advanceTo v.due s
      let w := u |> verifyOut n false |> setF (Fld.TPT_STATUS_verify n) Vf.verifying
      setVerify n (some { v with sent := v.sent + 1, due := u.cycle + u.getF (Fld.TPT_PREEMPT_verify_ms n) * cyclesPerMs }) w := by
  simp only [verifySend, hv, hr, hi, if_pos hlim, Bool.false_eq_true, if_false]

/-- At the limit the exchange has failed. -/
theorem verifySend_fails (hlim : (advanceTo v.due s).getF (Fld.TPT_PREEMPT_verify_limit n) ≤ v.sent) :
    verifySend n s =
      (advanceTo v.due s |> setF (Fld.TPT_STATUS_verify n) Vf.failed |> setVerify n none |> latch (Fld.TPT_EVENT_verify_fail n)) := by
  simp only [verifySend, hv, hr, hi, if_neg (Nat.not_lt.mpr hlim), Bool.false_eq_true, if_false]

end

/-- A respond frame ends an exchange in VERIFYING that does not wait to restart: preemption is active. -/
theorem verifyResponse_succeeds {n : Nat} (hrec : receives s (48 + n) = true)
    (hst : (stat1 (48 + n) 52 s).getF (Fld.TPT_STATUS_verify n) = Vf.verifying)
    (hw : ((Sparse.find (stat1 (48 + n) 52 s).mac.verify n).map (fun v => v.restart)).getD false = false) :
    verifyResponse n s =
      (stat1 (48 + n) 52 s |> setF (Fld.TPT_STATUS_verify n) Vf.succeeded |> setVerify n none
        |> setF (Fld.TPT_STATUS_preempt_active n) 1) := by
  have hends : (!((Sparse.find (stat1 (48 + n) 52 s).mac.verify n).map (fun v => v.restart)).getD false) = true ∧
      (stat1 (48 + n) 52 s).getF (Fld.TPT_STATUS_verify n) = Vf.verifying := ⟨by rw [hw]; rfl, hst⟩
  rw [verifyResponse, if_neg (by simp [hrec])]
  exact if_pos hends

theorem verifyReceive_answers {n : Nat} (hrec : receives s (48 + n) = true) :
    verifyReceive n s = (s |> stat1 (48 + n) 52 |> verifyOut n true) := if_neg (by simp [hrec])

/-! ### Drains (R257) -/

theorem drainExpiry_due {p t : Nat} (hd : Sparse.find s.mac.drainAt p = some t) :
    drainExpiry p s = (s |> advanceTo (t + s.getF (Fld.EPT_CTRL_drain_us p) * cyclesPerUs) |> drainOver p) := by
  rw [drainExpiry, hd]

/-! ### The clear of a port's statistics (R260) -/

/-- What a write of MST_CLEAR sets off: rewrite with it, since unfolding the clear of all counters is deep. -/
theorem hook_MST_CLEAR : hook Row.MST_CLEAR = hookWord mstClear := rfl

/-- Settles O11: a command of the line by the branch that its conditions choose, as it arrives or in its turn; a host write that
is taken by the hook of its register. -/
theorem transmitCommandsComplete : Obligations.TransmitCommandsComplete := by
  refine ⟨?start, ?preemption, ?finished, ?verify, ?response, ?verifyFrame, ?config, ?drained, ?drain, ?clear⟩
  case start =>
    intro s₀ p dt q id f s hr hl hp hw hn hf r hpick
    exact ends_running exec_txFrameStart hr (txFrameStart_picked hl hp hw hn hf hpick)
  case preemption =>
    intro s₀ n sent dt x id f s hr hx ha he hleast hleft r hpick held
    exact ends_running exec_preemption hr (preempt_interrupts hx ha he hleast hleft hpick)
  case finished =>
    intro s₀ p dt x f s hr hx hf hair hc hy hb hh l a u n v
    exact ends_running exec_txFrameEnd hr (txFrameEnd_delivers hx hf hair hc hy hb hh)
  case verify =>
    intro s₀ n v s hr hv hrestart u hi
    exact ⟨fun hlim => ends_runningTurn exec_verifySend hr (verifySend_again hv hrestart hi hlim),
      fun hlim => ends_runningTurn exec_verifySend hr (verifySend_fails hv hrestart hi hlim)⟩
  case response =>
    intro s₀ n dt s hr hrec u hst hw
    exact ends_running exec_verifyResponse hr (verifyResponse_succeeds hrec hst hw)
  case verifyFrame =>
    intro s₀ n dt s hr hrec
    exact ends_running exec_verifyFrameReceive hr (verifyReceive_answers hrec)
  case config =>
    intro s₀ n v dt s w hw
    exact ends_of exec_preemptConfigWrite (write_taken (writeOf_TPT_PREEMPT n) rfl (of_decide_eq_true rfl) hw)
  case drained =>
    intro s₀ p t s hr hd
    exact ends_runningTurn exec_drainExpiry hr (drainExpiry_due hd)
  case drain =>
    intro s₀ p v dt s w hw
    refine ends_of exec_drainRewrite ?_
    rw [write_taken (writeOf_EPT_CTRL p) rfl (of_decide_eq_true rfl) hw]
    exact hook_fnWrite (.edge p) v (old s w) (val w) (written s w)
  case clear =>
    intro s₀ v dt s w hw
    refine ends_of exec_mstClear ((write_taken writeOf_MST_CLEAR rfl (of_decide_eq_true rfl) hw).trans ?_)
    show hook Row.MST_CLEAR 0 0 (old s w) (val w) (written s w) = _
    rw [hook_MST_CLEAR, hookWord_apply]

end Sys2Proof.Machine
end

section
/-! PROOF. The counters of a MAC roll over (R258), and the commands of an edge port: its link, flow control and half duplex
(R235, R238 to R240, R242 to R245). -/
namespace Sys2Proof.Machine
open Sys2Proof.Claims
variable {s : State}

/-! ### Counters of a MAC (R258) -/

/-- Counter k of MAC p as its words show it: 48 bits in two words, or 32 bits in the low word. -/
def State.macCount (s : State) (p k : Nat) : Nat :=
  if wideCounter k then (s.reg (Reg.MST_CNT_HI p k)).toNat % 2 ^ 16 * 2 ^ 32 + (s.reg (Reg.MST_CNT_LO p k)).toNat
  else (s.reg (Reg.MST_CNT_LO p k)).toNat

theorem macCount_wide {k : Nat} (h : wideCounter k = true) (s : State) (p : Nat) :
    s.macCount p k = (s.reg (Reg.MST_CNT_HI p k)).toNat % 2 ^ 16 * 2 ^ 32 + (s.reg (Reg.MST_CNT_LO p k)).toNat := if_pos h

theorem macCount_narrow {k : Nat} (h : ¬wideCounter k = true) (s : State) (p : Nat) :
    s.macCount p k = (s.reg (Reg.MST_CNT_LO p k)).toNat := if_neg h

theorem macCount_of_words {t : State} {p k : Nat} (hlo : t.reg (Reg.MST_CNT_LO p k) = s.reg (Reg.MST_CNT_LO p k))
    (hhi : t.reg (Reg.MST_CNT_HI p k) = s.reg (Reg.MST_CNT_HI p k)) : t.macCount p k = s.macCount p k := by
  rw [State.macCount, hlo, hhi, State.macCount]

theorem stat_wide {k : Nat} (h : wideCounter k = true) (p n : Nat) (s : State) :
    stat p k n s = (s |> setR (Reg.MST_CNT_LO p k) ((s.macCount p k + n) % 2 ^ 32)
      |> setR (Reg.MST_CNT_HI p k) ((s.macCount p k + n) / 2 ^ 32 % 2 ^ 16)) := by
  rw [macCount_wide h]; exact if_pos h

theorem stat_narrow {k : Nat} (h : ¬wideCounter k = true) (p n : Nat) (s : State) :
    stat p k n s = setR (Reg.MST_CNT_LO p k) ((s.macCount p k + n) % 2 ^ 32) s := by
  rw [macCount_narrow h]; exact if_neg h

theorem MST_CNT_LO_ne_HI (q j p k : Nat) : Reg.MST_CNT_LO q j ≠ Reg.MST_CNT_HI p k := by
  unfold Reg.MST_CNT_LO Reg.MST_CNT_HI; omega

theorem MST_CNT_LO_inj {q j p k : Nat} (hj : j < 64) (hk : k < 64) (h : Reg.MST_CNT_LO q j = Reg.MST_CNT_LO p k) :
    (q, j) = (p, k) := by
  unfold Reg.MST_CNT_LO at h; rw [Prod.mk.injEq]; omega

theorem MST_CNT_HI_inj {q j p k : Nat} (hj : j < 64) (hk : k < 64) (h : Reg.MST_CNT_HI q j = Reg.MST_CNT_HI p k) :
    (q, j) = (p, k) := by
  unfold Reg.MST_CNT_HI at h; rw [Prod.mk.injEq]; omega

/-- A count writes no register but the two words of its counter. -/
theorem stat_reg_of_ne {p k a : Nat} (hlo : a ≠ Reg.MST_CNT_LO p k) (hhi : a ≠ Reg.MST_CNT_HI p k) (n : Nat) (s : State) :
    (stat p k n s).reg a = s.reg a := by
  by_cases hw : wideCounter k = true
  · rw [stat_wide hw, setR_reg_of_ne hhi, setR_reg_of_ne hlo]
  · rw [stat_narrow hw, setR_reg_of_ne hlo]

theorem stat_cycle (p k n : Nat) (s : State) : (stat p k n s).cycle = s.cycle := by
  by_cases hw : wideCounter k = true
  · rw [stat_wide hw]; rfl
  · rw [stat_narrow hw]; rfl

/-- The counter of its own port grows modulo 2^48 or 2^32. -/
theorem macCount_stat_same (p k n : Nat) (s : State) :
    (stat p k n s).macCount p k = (s.macCount p k + n) % (if wideCounter k then 2 ^ 48 else 2 ^ 32) := by
  by_cases hw : wideCounter k = true
  · have hlo : ∀ v, (BitVec.ofNat 32 (v % 2 ^ 32)).toNat = v % 2 ^ 32 := by intro v; rw [BitVec.toNat_ofNat]; omega
    have hhi : ∀ v, (BitVec.ofNat 32 (v % 2 ^ 16)).toNat = v % 2 ^ 16 := by intro v; rw [BitVec.toNat_ofNat]; omega
    rw [stat_wide hw, macCount_wide hw, reg_setR, if_pos rfl, setR_reg_of_ne (MST_CNT_LO_ne_HI p k p k), reg_setR, if_pos rfl,
      hlo, hhi, if_pos hw]
    omega
  · rw [stat_narrow hw, macCount_narrow hw (setR _ _ s), reg_setR, if_pos rfl, BitVec.toNat_ofNat, if_neg hw, Nat.mod_mod]

/-- Another counter of any MAC stays. -/
theorem macCount_stat_other {q j p k : Nat} (hj : j < 64) (hk : k < 64) (h : (q, j) ≠ (p, k)) (n : Nat) (s : State) :
    (stat p k n s).macCount q j = s.macCount q j :=
  macCount_of_words (stat_reg_of_ne (fun e => h (MST_CNT_LO_inj hj hk e)) (MST_CNT_LO_ne_HI q j p k) n s)
    (stat_reg_of_ne (MST_CNT_LO_ne_HI p k q j).symm (fun e => h (MST_CNT_HI_inj hj hk e)) n s)

/-- Settles O53: the words of a counter are written back modulo its width, and no other counter has a word at their places. -/
theorem statisticsRollOver : Obligations.StatisticsRollOver := by
  intro s p k n _ hk count
  exact ⟨macCount_stat_same p k n s, fun q j _ hj h => macCount_stat_other hj hk h n s⟩

/-! ### The link of an edge port (R235) -/

section
variable {p : Nat} {speed : Nat} {full : Bool} (hp : portState s p = 2 ∨ portState s p = 3)
include hp

theorem edgePort_open : (portState s p == 2 || portState s p == 3) = true := by simpa using hp

/-- The link comes up unless SGMII autonegotiation reports half duplex at 1000 Mbit/s. -/
theorem edgeLink_comes (hs : speed < 4)
    (hgood : s.on (Fld.EPT_MODE_an p) = false ∨ s.on (Fld.EPT_MODE_iface p) = true ∨ full = true ∨ speed ≠ 2) :
    edgeLink p true speed full s =
      let an := s.on (Fld.EPT_MODE_an p)
      let sgmii := !s.on (Fld.EPT_MODE_iface p)
      let sp := if !sgmii then 3 else if an then speed else s.getF (Fld.EPT_MODE_speed p)
      let du := !sgmii || (if an then full else s.on (Fld.EPT_MODE_duplex p))
      (s |> setWord p (some (speed + 4 * b2n full)) |> setF (Fld.EPT_STATUS_link p) 1 |> setF (Fld.EPT_STATUS_speed p) sp
        |> setF (Fld.EPT_STATUS_duplex p) (b2n du) |> setF (Fld.EPT_STATUS_an_done p) (b2n an)
        |> setF (Fld.EPT_STATUS_bad_mode p) 0
        |> whenT (!s.on (Fld.EPT_STATUS_link p)) (latch (Fld.EPT_EVENT_link_change p)) |> fcLinkUp p) := by
  have hfits : ¬(true && s.on (Fld.EPT_MODE_an p) && !s.on (Fld.EPT_MODE_iface p) && !full && speed == 2) = true := by
    rcases hgood with h | h | h | h <;> simp [h]
  simp only [edgeLink, edgePort_open hp, if_neg hfits, Bool.not_true, Bool.false_eq_true, if_false, Nat.mod_eq_of_lt hs]

theorem edgeLink_goes : edgeLink p false speed full s = edgeDown p s := by
  simp only [edgeLink, edgePort_open hp, Bool.not_true, Bool.false_and, Bool.not_false, Bool.false_eq_true, if_false, if_true]

end

/-! ### Flow control (R242 to R245) -/

theorem pauseReceive_taken {p : Nat} {l : List Byte} (hrec : receives s p = true) (ht : etherTypeAt l 12 = 0x8808)
    (hl : 60 ≤ l.length) : pauseReceive p l s = takeControl p l s := by
  rw [pauseReceive, if_pos (.inl hrec), if_pos ⟨ht, hl⟩]

/-- A pause time ends at its deadline when no control frame falls in that cycle (R23, R244). -/
theorem pauseExpiry_ends {p k e : Nat} (he : Sparse.find s.mac.pauseEnd (16 * p + k) = some e)
    (hi : inTime (isPauseArrival p) s = false) : pauseExpiry p k s = (s |> advanceTo e |> setPause p k 0 |> showPause p) := by
  simp only [pauseExpiry, he, hi, Bool.false_eq_true, if_false]

/-- At a frame boundary of a linked port the merged requests leave in one frame, which is counted (R245). -/
theorem flowControlFrame_leaves {p bits : Nat} (hw : Sparse.find s.mac.fcWait p = some bits) (hair : onAir s p = false)
    (hl : portLink s p = true) (hm : fcMode s p ≠ 0) :
    flowControlFrame p s =
      let l := fcFrame s p bits
      (s |> modMac (fun m => { m with fcWait := Sparse.drop m.fcWait p, lastFc := Sparse.ins (Sparse.drop m.lastFc p) p s.cycle })
        |> emitOut (.frame p l false) |> stat p 32 (l.length + 4) |> statTxWhole p l
        |> stat1 p (if fcMode s p == 2 then 39 else 38)) := by
  have hsends : ¬(onAir s p = true ∨ (!portLink s p) = true ∨ fcMode s p = 0) := by simp [hair, hl, hm]
  simp only [flowControlFrame, hw, if_neg hsends]

/-- While a covered row is XOFF a request stands again half a quanta time after the last frame (R245). -/
theorem fcRefresh_due {p t : Nat} (ht : Sparse.find s.mac.lastFc p = some t) (hx : xoffClasses s p ≠ []) (hm : fcMode s p ≠ 0) :
    fcRefresh p s =
      let u := advanceTo (t + quantaCycles s p (s.getF (Fld.EPT_FC_quanta p)) / 2) s
      let bits := Sparse.get (fun _ => 0) u.mac.fcWait p
      modMac (fun m => { m with fcWait := Sparse.ins (Sparse.drop m.fcWait p) p bits }) u := by
  have hasks : ¬((xoffClasses s p).isEmpty = true ∨ fcMode s p = 0) := by simp [hx, hm]
  simp only [fcRefresh, ht, if_neg hasks]

/-! ### Half duplex (R238 to R240) -/

/-- A port in half duplex with its frame on the line can see a collision. -/
theorem collision_possible {p : Nat} (hh : isHalf s p = true) (hair : onAir s p = true) :
    ¬((!isHalf s p) = true ∨ (!onAir s p) = true) := by simp [hh, hair]

section
variable {p : Nat} {x : Sending} (hx : sendingAt s p = some x) (hh : isHalf s p = true) (hair : onAir s p = true)
include hx hh hair

/-- A late collision gives the frame up (R239). -/
theorem collision_late (hlate : bytesCycles (portMbps s p) 64 < s.cycle - x.startAt) :
    collision p s =
      (stat1 p 45 s |> latch (Fld.EPT_EVENT_late_coll p) |> stat1 p 43 |> giveUp p Reason.lateCollision) := by
  have hafter : bytesCycles (portMbps s p) 64 < (stat1 p 45 s).cycle - x.startAt := by rwa [stat1, stat_cycle]
  simp only [collision, hx, if_neg (collision_possible hh hair), if_pos hafter]

section
variable (hin : s.cycle - x.startAt ≤ bytesCycles (portMbps s p) 64)
include hin

/-- The sixteenth attempt that collides gives the frame up. -/
theorem collision_excess (hn : 15 ≤ (s.half p).attempts) :
    collision p s =
      (stat1 p 45 s |> latch (Fld.EPT_EVENT_excess_coll p) |> stat1 p 42 |> giveUp p Reason.excessCollision) := by
  have hwithin : ¬bytesCycles (portMbps s p) 64 < (stat1 p 45 s).cycle - x.startAt := by rw [stat1, stat_cycle]; omega
  have hlast : 16 ≤ (s.half p).attempts + 1 := by omega
  simp only [collision, hx, if_neg (collision_possible hh hair), if_neg hwithin, if_pos hlast]

/-- An earlier attempt that collides backs off for a drawn number of slots after the jam (R240). -/
theorem collision_backsOff (hn : (s.half p).attempts < 15) :
    collision p s =
      let h := s.half p
      let v := stat1 p 45 s
      let n := h.attempts + 1
      let r := (Config.backoff Config.fusedUid p h.draws).toNat % 2 ^ min n 10
      let e := v.cycle + bytesCycles (portMbps s p) 4 + r * bytesCycles (portMbps s p) 64
      setHalf p { h with attempts := n, draws := h.draws + 1, deferring := false, backoffEnd := some e } v := by
  have hwithin : ¬bytesCycles (portMbps s p) 64 < (stat1 p 45 s).cycle - x.startAt := by rw [stat1, stat_cycle]; omega
  have hmore : ¬16 ≤ (s.half p).attempts + 1 := by omega
  simp only [collision, hx, if_neg (collision_possible hh hair), if_neg hwithin, if_neg hmore]

end
end

/-- With the line free the frame that collided starts again after the gap, uncounted (R239). -/
theorem backoffDone_retries {p e : Nat} {x : Sending} {f : Frame} (he : (s.half p).backoffEnd = some e)
    (hx : sendingAt s p = some x) (hf : s.frame x.frame = some f) (hc : (s.half p).carrier = false) :
    backoffDone p s =
      let u := advanceTo e s
      (u |> advanceTo (gapEnd u p) |> setHalf p { s.half p with backoffEnd := none } |> putOnLine p f.cls x.frame f none 1 false) := by
  have hstays : (advanceTo e s).frame x.frame = some f := hf
  simp only [backoffDone, he, hx, hc, hstays, Bool.false_eq_true, if_false]

theorem carrierSense_half {p : Nat} {carrier : Bool} (hh : isHalf s p = true) :
    carrierSense p carrier s =
      let h := s.half p
      setHalf p { h with carrier := carrier, carrierEnd := if h.carrier && !carrier then s.cycle else h.carrierEnd } s :=
  if_neg (by simp [hh])

/-- Settles O10: a command of the line by the branch that its conditions choose, as it arrives or in its turn; the level of
CARRIER_SENSE is followed whether or not functions run. -/
theorem edgePortCommandsComplete : Obligations.EdgePortCommandsComplete := by
  refine ⟨?up, ?down, ?pause, ?expiry, ?flow, ?refresh, ?collision, ?backoff, ?carrier⟩
  case up =>
    intro s₀ p speed full dt s hr hp hgood an sgmii sp du
    exact ends_running exec_edgeLinkChange hr (edgeLink_comes hp speed.isLt hgood)
  case down =>
    intro s₀ p speed full dt s hr hp
    exact ends_running exec_edgeLinkChange hr (edgeLink_goes hp)
  case pause =>
    intro s₀ p l dt s hr hrec ht hl
    exact ends_running exec_pauseReceive hr (pauseReceive_taken hrec ht hl)
  case expiry =>
    intro s₀ p k e s hr he hi
    exact ends_runningTurn exec_pauseExpiry hr (pauseExpiry_ends he hi)
  case flow =>
    intro s₀ p bits s hr hw hair hl hm l
    exact ends_runningTurn exec_flowControlFrame hr (flowControlFrame_leaves hw hair hl hm)
  case refresh =>
    intro s₀ p t s hr ht hx hm u bits
    exact ends_runningTurn exec_fcRefresh hr (fcRefresh_due ht hx hm)
  case collision =>
    intro s₀ p dt x s hr hx hh hair mbps h v
    exact ⟨fun hlate => ends_running exec_collision hr (collision_late hx hh hair hlate),
      fun hin hn => ends_running exec_collision hr (collision_excess hx hh hair hin hn),
      fun hin hn => ends_running exec_collision hr (collision_backsOff hx hh hair hin hn)⟩
  case backoff =>
    intro s₀ p e x f s hr he hx hf hc h u
    exact ends_runningTurn exec_hdBackoffExpiry hr (backoffDone_retries he hx hf hc)
  case carrier =>
    intro s₀ p carrier dt s hh h
    exact ends_of exec_carrierSense (carrierSense_half hh)

end Sys2Proof.Machine
end

section
/-! PROOF. The time engine: time and the stamp counter (R268, R269, R285 to R288), native Syncs with their deadlines, permits and
merges (R283, R284, R286, R291, R292, R295), and the host's writes and the SYNC pins (R296 to R298, R316). -/
namespace Sys2Proof.Machine
open Sys2Proof.Claims
variable {s : State}

/-! ### Time that passes (R268, R269) -/

/-- A stretch of cycles in two parts is the stretch: each part adds to the count, the node time and the phase domains. -/
theorem advance_add (m n : Nat) (s : State) : advance (m + n) s = advance n (advance m s) := by
  have hcycle : s.cycle + (m + n) = s.cycle + m + n := (Nat.add_assoc ..).symm
  have htime : (s.time + (m + n) * s.timeInc) % timeModulus =
      ((s.time + m * s.timeInc) % timeModulus + n * s.timeInc) % timeModulus := by
    rw [Nat.mod_add_mod, Nat.add_mul, Nat.add_assoc]
  have hpos (p i : Int) : p + ((m + n : Nat) : Int) * i = p + m * i + n * i := by push_cast; ring
  simp only [advance, hcycle, htime, hpos, List.map_map, Function.comp_def]

theorem advance_stamp (n : Nat) (s : State) : (advance n s).stamp = (s.stamp + 10 * n) % 2 ^ 32 := by
  rw [State.stamp, State.stamp, advance_cycle, Nat.mod_add_mod, Nat.mul_add]

/-- The stamp counter counts cycles and nothing else. -/
theorem stamp_of_cycle {t : State} (h : t.cycle = s.cycle) : t.stamp = s.stamp := by rw [State.stamp, h, State.stamp]

/-- TIM_STAMP shows the stamp counter. -/
theorem shown_TIM_STAMP (s : State) : shown Reg.TIM_STAMP s = BitVec.ofNat 32 s.stamp := rfl

/-! ### Rate, slews, steps and the addend take no cycle but their own (R283, R285, R287, R288) -/

@[simp] theorem noteTime_cycle (s : State) : (noteTime s).cycle = s.cycle := rfl

@[simp] theorem record_cycle (t : Nat) (d : List Nat) (s : State) : (record t d s).cycle = s.cycle := placeRecords_cycle _ s

@[simp] theorem useRate_cycle (r : Int) (s : State) : (useRate r s).cycle = s.cycle := by
  unfold useRate
  extract_lets t
  have ht : t.cycle = s.cycle := setI_cycle.trans (noteTime_cycle s)
  split
  · exact ht
  · exact ht

@[simp] theorem setRate_cycle (r : Int) (s : State) : (setRate r s).cycle = s.cycle := useRate_cycle _ _

@[simp] theorem slewOver_cycle (s : State) : (slewOver s).cycle = s.cycle := setRate_cycle _ _

@[simp] theorem slewStart_cycle (o : Int) (c : Nat) (s : State) : (slewStart o c s).cycle = s.cycle := by
  unfold slewStart
  extract_lets left t
  have ht : t.cycle = s.cycle := record_cycle _ _ _
  split
  · exact (slewOver_cycle t).trans ht
  · exact (useRate_cycle _ _).trans ht

@[simp] theorem rateWritten_cycle (w : Nat) (s : State) : (rateWritten w s).cycle = s.cycle := by
  unfold rateWritten
  dsimp only
  split
  · rfl
  · split
    · rfl
    · exact setRate_cycle _ s

/-- A step takes the cycle in which it is made, and no other. -/
theorem stepTime_cycle (o : Int) (c : Nat) (s : State) : (stepTime o c s).cycle = (advance 1 s).cycle :=
  record_cycle _ _ _

/-- In increment mode a new addend takes the cycle after its write; else it waits for the mode. -/
theorem addendWritten_cycle (s : State) :
    (addendWritten s).cycle = (if s.on Fld.TIM_CTRL_inc_mode then advance 1 s else s).cycle := by
  unfold addendWritten
  split <;> rfl

/-- Settles O54: a stretch of cycles adds up, and whatever sets the time or its rate leaves the count of cycles, of which the stamp
counter is the multiple, but for the one cycle that a step or an addend takes. -/
theorem timePassesEvenly : Obligations.TimePassesEvenly := by
  refine ⟨fun s m n => ⟨advance_add m n s, advance_stamp n s, rfl, rfl, rfl⟩, fun s => ⟨shown_TIM_STAMP s, ?_⟩⟩
  exact ⟨fun r => stamp_of_cycle (setRate_cycle r s), fun w => stamp_of_cycle (rateWritten_cycle w s),
    fun o c => stamp_of_cycle (slewStart_cycle o c s), stamp_of_cycle (slewOver_cycle s),
    fun o c => stamp_of_cycle (stepTime_cycle o c s), stamp_of_cycle (addendWritten_cycle s)⟩

/-! ### Native Syncs (R291, R292) -/

/-- The periodic Syncs leave at their instant, in each direction that sends them. -/
theorem syncSend_periodic (h : s.tim.extra = []) :
    syncSend s =
      let u := advanceTo s.tim.nextSync s
      let due := s.tim.nextSync + syncCycles u
      let v := modTim (fun x => { x with nextSync := if due ≤ u.cycle then u.cycle + syncCycles u else due }) u
      each (masters v) sendSync v := by
  rw [syncSend, h]
  rfl

/-- The extra Syncs that are owed leave in the directions that still send. -/
theorem syncSend_extra (h : s.tim.extra ≠ []) :
    syncSend s = (s |> modTim (fun x => { x with extra := [] }) |> each (s.tim.extra.filter (masters s).contains) sendSync) := by
  unfold syncSend
  split
  · next he => exact absurd he h
  · rfl

/-- A Sync that S takes on the first UP line of the slave direction is accepted (R292). -/
theorem takeSync_slave {n at_ : Nat} {l : List Byte} {t v : State} (ht : (takeToS (48 + n) 6 at_ l t).1 = true)
    (hv : (takeToS (48 + n) 6 at_ l t).2 = v) (hp : portState v (48 + n) = 2) (ho : servoOwns v = true)
    (hf : firstUp v (dirOf n) = some n) (hd : slaveDir v = dirOf n + 1) :
    takeSync n at_ l t = syncAccept n (rxTime16 v (48 + n) at_) l v := by
  subst hv
  simp only [takeSync, ht, hp, ho, hf, hd, Bool.not_true, Bool.false_eq_true, ne_eq, not_true, or_self, true_or, if_false, if_true]

/-- A whole Sync that the line takes goes through its windows and into S to the servo (R292, R321). -/
theorem receiveSync_accepted {n back : Nat} {l : List Byte} {v : State} (hn : isNativeSync s l = true)
    (hs : stillTakes s n (rxInstant (48 + n) back s) = true)
    (ht : (intoSpire (48 + n) 6 (rxInstant (48 + n) back s) l s).1 = true)
    (hv : (intoSpire (48 + n) 6 (rxInstant (48 + n) back s) l s).2 = v) (hp : portState v (48 + n) = 2) (ho : servoOwns v = true)
    (hf : firstUp v (dirOf n) = some n) (hd : slaveDir v = dirOf n + 1) :
    receiveSync n l back s = syncAccept n (rxTime16 v (48 + n) (rxInstant (48 + n) back s)) l v := by
  obtain ⟨hw, hr⟩ := intoSpire_taken ht
  rw [receiveSync, syncIn, if_neg (by simp [hn, hs]), intoS_inTime hw]
  exact takeSync_slave hr (intoSpire_state.symm.trans hv) hp ho hf hd

/-! ### Deadlines of the time engine (R283, R284, R286, R295) -/

theorem slewEnd_due {e : Nat} (h : s.tim.slewEnd = some e) : slewEnd s = (s |> advanceTo e |> slewOver) := by
  rw [slewEnd, h]

theorem permitLapse_due {e : Nat} (h : s.tim.grantEnd = some e) :
    permitLapse s = (s |> advanceTo e |> setF Fld.TIM_STATUS_permit_grant 0 |> setF Fld.TIM_PERMIT_grant 0
      |> modTim (fun x => { x with grantEnd := none })) := by
  rw [permitLapse, h]

section
variable {e : Nat} (hi : inTime (isSyncArrival s) s = false)
include hi

/-- Three intervals without a Sync, none in the last cycle either, lead to HOLDOVER (R23, R286). -/
theorem syncTimeout_missed (h : s.tim.syncDue = some e) : syncTimeout s = (s |> advanceTo e |> enterHoldover) := by
  simp only [syncTimeout, h, hi, Bool.false_eq_true, if_false]

theorem mergeTimeout_missed (h : s.tim.mergeEnd = some e) : mergeTimeout s = (s |> advanceTo e |> endMerge 2) := by
  simp only [mergeTimeout, h, hi, Bool.false_eq_true, if_false]

/-- The wait for a first Sync ends: the slave direction is lost, and a grandmaster that yielded resumes (R295). -/
theorem mergeWaitExpiry_noSync (h : s.tim.waitEnd = some e) :
    mergeWaitExpiry s =
      let u := s |> advanceTo e |> modTim (fun x => { x with waitEnd := none }) |> loseSlave
      whenT (s.on Fld.TIM_STATUS_gm_yielded) gmResume u := by
  simp only [mergeWaitExpiry, h, hi, Bool.false_eq_true, if_false]

/-- With only flagged Syncs for as long, a grandmaster that yielded resumes (R295). -/
theorem mergeWaitExpiry_onlyFlagged {c : Nat} (hw : s.tim.waitEnd = none) (hc : s.tim.flaggedSince = some c)
    (hy : s.on Fld.TIM_STATUS_gm_yielded = true) :
    mergeWaitExpiry s = (s |> advanceTo (c + s.getF Fld.TIM_MERGE_CFG_wait_ms * cyclesPerMs) |> gmResume) := by
  simp only [mergeWaitExpiry, hw, hc, hi, hy, Bool.false_eq_true, if_false, if_true]

end

/-- Settles O12: a received Sync by the branch that its conditions choose, as it arrives; what the device times itself by its
deadline, in its turn. -/
theorem syncCommandsComplete : Obligations.SyncCommandsComplete := by
  refine ⟨?periodic, ?extra, ?received, ?slew, ?missed, ?lapse, ?merge, ?wait, ?flagged⟩
  case periodic =>
    intro s₀ s hr he u due v
    exact ends_runningTurn exec_syncSend hr (syncSend_periodic he)
  case extra =>
    intro s₀ s hr he
    exact ends_runningTurn exec_syncSend hr (syncSend_extra he)
  case received =>
    intro s₀ n l back dt s a hr hn hs r v ht hp ho hf hd
    exact ends_running exec_syncReceive hr (receiveSync_accepted hn hs ht rfl hp ho hf hd)
  case slew =>
    intro s₀ e s ha he
    exact ends_turn exec_slewEnd ha (slewEnd_due he)
  case missed =>
    intro s₀ e s hr he hi
    exact ends_runningTurn exec_syncTimeout hr (syncTimeout_missed hi he)
  case lapse =>
    intro s₀ e s ha he
    exact ends_turn exec_permitLapse ha (permitLapse_due he)
  case merge =>
    intro s₀ e s hr he hi
    exact ends_runningTurn exec_mergeTimeout hr (mergeTimeout_missed hi he)
  case wait =>
    intro s₀ e s hr he hi u
    exact ends_runningTurn exec_mergeWaitExpiry hr (mergeWaitExpiry_noSync hi he)
  case flagged =>
    intro s₀ c s hr hw hc hy hi
    exact ends_runningTurn exec_mergeWaitExpiry hr (mergeWaitExpiry_onlyFlagged hi hw hc hy)

/-! ### SYNC pins and PPS (R297, R298) -/

/-- A level of a SYNC ball is followed, and an edge that the pin's mode captures stores the time. -/
theorem syncPinIn_follows (n : Nat) (level : Bool) (s : State) :
    syncPinIn n level s =
      let was := s.tim.pinsIn.contains n
      let pins := if level then (if was then s.tim.pinsIn else n :: s.tim.pinsIn) else s.tim.pinsIn.filter (· != n)
      let v := modTim (fun x => { x with pinsIn := pins }) s
      if was != level && capturesEdge (syncMode s n) level then syncCapture n v else v := rfl

@[simp] theorem driveSync_cycle (n : Nat) (level : Bool) (s : State) : (driveSync n level s).cycle = s.cycle := by
  unfold driveSync
  split <;> rfl

@[simp] theorem driveSync_getF (n : Nat) (level : Bool) (s : State) (f : Fld) : (driveSync n level s).getF f = s.getF f := by
  unfold driveSync
  split <;> rfl

/-- A pulse starts at the next whole second plus the offset, and its end is set by the width (R298). -/
theorem ppsPulse_starts {n : Nat} (h : syncMode s n = 4) :
    ppsPulse n s =
      let t : Int := (s.time : Int) - s.getI (Fld.TIM_SYNC_OFFSET_offset n) * (nsUnits : Int)
      let past : Nat := (t % (secUnits : Int)).toNat
      let now := decide (past < s.timeInc) && Sparse.find s.tim.ppsAt n != some s.cycle
      let u := if now then s else advance (ceilDiv (secUnits - past) s.timeInc) s
      let v := driveSync n (!u.on (Fld.TIM_SYNC_CFG_polarity n)) u
      let ends := v.cycle + v.getF (Fld.TIM_SYNC_CFG_width_us n) * cyclesPerUs
      modTim (fun x => { x with ppsAt := Sparse.ins (Sparse.drop x.ppsAt n) n v.cycle,
                                ppsEnd := Sparse.ins (Sparse.drop x.ppsEnd n) n ends }) v := by
  simp only [ppsPulse, if_neg (not_not_intro h), driveSync_cycle, driveSync_getF]

theorem ppsEnd_due {n e : Nat} (h : Sparse.find s.tim.ppsEnd n = some e) :
    ppsEnd n s = (s |> advanceTo e |> modTim (fun x => { x with ppsEnd := Sparse.drop x.ppsEnd n })
      |> driveSync n (s.on (Fld.TIM_SYNC_CFG_polarity n))) := by
  rw [ppsEnd, h]

/-- Settles O13: a host write that is taken runs the hook of its register, a SYNC ball is followed as it changes, and the pulses of
a PPS pin start and end in their turn. -/
theorem timeAndPinCommandsComplete : Obligations.TimeAndPinCommandsComplete := by
  refine ⟨?adjust, ?rate, ?grant, ?addend, ?correlation, ?offset, ?pin, ?pulse, ?pulseEnd⟩
  case adjust =>
    intro s₀ v dt s w hw
    exact ends_of exec_timeAdjust (write_taken writeOf_TIM_ADJ_CTRL rfl (of_decide_eq_true rfl) hw)
  case rate =>
    intro s₀ v dt s w hw
    exact ends_of exec_rateWrite (write_taken writeOf_TIM_RATE rfl (of_decide_eq_true rfl) hw)
  case grant =>
    intro s₀ v dt s w hw
    exact ends_of exec_permitGrant (write_taken writeOf_TIM_PERMIT rfl (of_decide_eq_true rfl) hw)
  case addend =>
    intro s₀ v dt s w hw
    exact ends_of exec_addendWrite (write_taken writeOf_TIM_ADDEND_HI rfl (of_decide_eq_true rfl) hw)
  case correlation =>
    intro s₀ v dt s w hw
    exact ends_of exec_correlationLatch (write_taken writeOf_TIM_CORR_CTRL rfl (of_decide_eq_true rfl) hw)
  case offset =>
    intro s₀ d v dt s w hw
    exact ends_of exec_phaseOffsetWrite (write_taken (writeOf_PHS_OFFSET d) rfl (of_decide_eq_true rfl) hw)
  case pin =>
    intro s₀ n level dt s was pins v
    exact ends_of exec_syncPinCapture (syncPinIn_follows n level s)
  case pulse =>
    intro s₀ n s hr hm t past now u v ends
    exact ends_runningTurn exec_ppsPulse hr (ppsPulse_starts hm)
  case pulseEnd =>
    intro s₀ n e s hr he
    exact ends_runningTurn exec_ppsEnd hr (ppsEnd_due he)

end Sys2Proof.Machine
end

section
/-! PROOF. The phase domains' references and their absence (R306, R308, R309, R311), and the carillon's event table, cells and
silence (R314, R315, R323). -/
namespace Sys2Proof.Machine
open Sys2Proof.Claims
variable {s : State}

/-! ### References of a phase domain by its source (R306, R308) -/

section
variable {d : Nat} (hon : lockState s d ≠ Lk.off)
include hon

/-- The crossing that waits for the domain is used up, and counts from the cycle in which it was stamped. -/
theorem phaseReference_mains {p : Nat × Nat} (hf : s.sd.refs.find? (fun p => p.1 == d) = some p) (hsrc : phsSource s d = Src.mains) :
    phaseReference d .mains s =
      let v := { s with sd := { s.sd with refs := s.sd.refs.erase p } }
      cyclicRef d (v.cycle - p.2) v := by
  simp only [phaseReference, if_neg hon, hf]
  exact if_pos hsrc

theorem phaseReference_sync (hsrc : phsSource s d = Src.sync) (hm : syncMode s (s.getF (Fld.PHS_CTRL_input d) % 4) = 6) :
    phaseReference d .sync s = cyclicRef d 0 s := by
  simp only [phaseReference, if_neg hon, if_pos (And.intro hsrc hm)]

theorem phaseReference_tach {forward : Bool} (hsrc : phsSource s d = Src.tach) :
    phaseReference d (.tach forward) s = tachEdge d forward s := by
  simp only [phaseReference, if_neg hon, if_pos hsrc]

theorem phaseReference_index (hsrc : phsSource s d = Src.tach) : phaseReference d .index s = indexSeen d s := by
  simp only [phaseReference, if_neg hon, if_pos hsrc]

end

/-! ### References that stay away (R308, R309, R311) -/

/-- A domain that follows a cyclic source counts a miss at its deadline when no reference falls in that cycle (R23). -/
theorem referenceMiss_missed {d : Nat} {u : State}
    (hu : advanceTo ((s.dom d).lastAt + (2 * (s.dom d).missed + 3) * refPeriod (s.dom d).inc 1 / 2) s = u)
    (hl : lockState s d = Lk.acquire ∨ lockState s d = Lk.locked) (hseen : (s.dom d).seen ≠ 0)
    (hsrc : phsSource s d = Src.mains ∨ phsSource s d = Src.sync) (hi : inTime (isCyclicEdge d) u = false) :
    referenceMiss d s =
      (u |> count (Reg.PHS_MISSES d) |> modDom d (fun y => { y with missed := y.missed + 1 }) |> refLost d) := by
  have hfollows := And.intro hl (And.intro hseen hsrc)
  simp only [referenceMiss, if_pos hfollows, hu, hi, Bool.false_eq_true, if_false]

section
variable {d : Nat} {u : State} (hu : advanceTo ((s.dom d).lastAt + s.getF (Fld.PHS_SLIP_still_ms d) * cyclesPerMs) s = u)
  (hsrc : phsSource s d = Src.tach) (hon : lockState s d ≠ Lk.off) (hmoves : lockState s d ≠ Lk.hold)
  (hi : inTime (isTachEdge d) u = false)
include hu hsrc hon hmoves hi

/-- A tachometer domain that has seen no edge holds where it is. -/
theorem tachStill_noEdge (hseen : (s.dom d).seen = 0) :
    tachStill d s = (u |> modDom d (fun y => { y with inc := 0 }) |> moveLock d Lk.hold) := by
  have hdue := And.intro hsrc (And.intro hon hmoves)
  simp only [tachStill, if_pos hdue, hu, hi, Bool.false_eq_true, if_false, if_pos hseen]

/-- One that has seen edges holds at the phase of the last (R309). -/
theorem tachStill_lastEdge (hseen : (s.dom d).seen ≠ 0) :
    tachStill d s =
      (u |> modDom d (fun y => { y with pos := y.pos + signedOf 32 (y.lastRef + 2 ^ 32 - phaseNow u d) * (2 ^ 32 : Nat), inc := 0 })
        |> moveLock d Lk.hold) := by
  have hdue := And.intro hsrc (And.intro hon hmoves)
  simp only [tachStill, if_pos hdue, hu, hi, Bool.false_eq_true, if_false, if_neg hseen]

end

/-- PD0 out of LOCKED for the time allowed raises the resignation trigger of its limit (R311). -/
theorem pd0Limit_due {c : Nat} (h : s.car.pd0Since = some c) :
    pd0Limit s =
      (s |> advanceTo (c + s.getF Fld.PHS_PD0_LIM_hold_ms * cyclesPerMs) |> modCar (fun x => { x with pd0Since := none })
        |> latch Fld.PHS_EVENT_pd0_limit |> trigger 5) := by
  rw [pd0Limit, h]

/-! ### Cells and silence of the carillon (R315, R323) -/

/-- In ON each cell time selects, domain after domain, the entries that were reached, and their actions are scheduled. -/
theorem carillonFire_cell (hon : s.getF Fld.CAR_CTRL_state = 2) :
    carillonFire s =
      let u := advanceTo (nextCell s s.car.cellAt) s
      (u |> modCar (fun x => { x with cellAt := u.cycle }) |> each (List.range 8) selectDom |> scheduleActs) :=
  if_neg (not_not_intro hon)

/-- The set number of ticks over the limit silences the schedule. -/
theorem scheduleSilence_starts (hs : silenced s = false) (ht : s.getF Fld.CAR_SILENCE_ticks ≤ s.car.overTicks) :
    scheduleSilence s =
      let mask := s.getF Fld.CAR_MERGE_sched_classes
      (s |> setF Fld.CAR_STATUS_silenced 1 |> latch Fld.CAR_EVENT_silence |> silenceRecord 0
        |> whenT (s.getF Fld.CAR_CTRL_state == 1 || s.getF Fld.CAR_CTRL_state == 2) (silenceGates mask)
        |> whenT (s.on Fld.CAR_CTRL_silence_resign) (trigger 6)) :=
  if_neg (by simp [hs, ht])

/-- Settles O14: a reference by the source of its domain, as it arrives; what the device times itself by its deadline, in its turn;
a host write that is taken runs the hook of its register. -/
theorem phaseAndCarillonCommandsComplete : Obligations.PhaseAndCarillonCommandsComplete := by
  refine ⟨?reference, ?miss, ?still, ?limit, ?fire, ?entry, ?silence, ?release⟩
  case reference =>
    intro s₀ d dt s hr hon
    exact ⟨fun p hf hsrc => ends_running exec_phaseReference hr (phaseReference_mains hon hf hsrc),
      fun hsrc hm => ends_running exec_phaseReference hr (phaseReference_sync hon hsrc hm),
      fun forward hsrc => ends_running exec_phaseReference hr (phaseReference_tach hon hsrc),
      fun hsrc => ends_running exec_phaseReference hr (phaseReference_index hon hsrc)⟩
  case miss =>
    intro s₀ d s hr hl hseen hsrc x u hi
    exact ends_runningTurn exec_referenceMiss hr (referenceMiss_missed rfl hl hseen hsrc hi)
  case still =>
    intro s₀ d s hr hsrc hon hmoves u hi
    exact ⟨fun hseen => ends_runningTurn exec_tachStill hr (tachStill_noEdge rfl hsrc hon hmoves hi hseen),
      fun hseen => ends_runningTurn exec_tachStill hr (tachStill_lastEdge rfl hsrc hon hmoves hi hseen)⟩
  case limit =>
    intro s₀ c s hr hc
    exact ends_runningTurn exec_pd0Limit hr (pd0Limit_due hc)
  case fire =>
    intro s₀ s hr hon u
    exact ends_runningTurn exec_carillonFire hr (carillonFire_cell hon)
  case entry =>
    intro s₀ k v dt s w hw
    exact ends_of exec_eventEntryWrite (write_taken (writeOf_CAR_EVT1 k) rfl (of_decide_eq_true rfl) hw)
  case silence =>
    intro s₀ s hr hs ht mask
    exact ends_runningTurn exec_scheduleSilence hr (scheduleSilence_starts hs ht)
  case release =>
    intro s₀ v dt s w hw
    exact ends_of exec_silenceRelease (write_taken writeOf_CAR_RELEASE rfl (of_decide_eq_true rfl) hw)

end Sys2Proof.Machine
end

section
/-! PROOF. The CAN channels: frames received, the host queue, arbitration and what ends an attempt, errors and recovery (R330,
R338, R341 to R348), and the schedule of time-triggered operation with its mailboxes (R353 to R358). -/
namespace Sys2Proof.Machine
open Sys2Proof.Claims
variable {s : State}

/-! ### A frame received (R338, R344, R347) -/

/-- A classic frame, and any frame on a channel with fd, is none that the channel has to leave out (R330, R341). -/
theorem fd_permits {c : Nat} {f : CanFrame} (h : f.fdf = false ∨ s.on (Fld.CAN_CTRL_fd c) = true) :
    ¬(f.fdf = true ∧ (!s.on (Fld.CAN_CTRL_fd c)) = true) := by
  rcases h with h | h <;> simp [h]

section
variable {c len : Nat} {f : CanFrame} {u : State} (ho : onBus s c = true)
  (hu : (s |> offBus c |> modChan c (fun x => { x with sender := false })) = u)
include ho hu

/-- A CAN FD frame on a channel without fd is a protocol exception. -/
theorem canReceive_exception (hf : f.fdf = true) (hd : u.on (Fld.CAN_CTRL_fd c) = false) :
    canReceive c f len s =
      (u |> count (Reg.CAN_PEX c) |> latch (Fld.CAN_EVENT_pex c) |> modChan c (fun x => { x with pex := true })) := by
  subst hu
  rw [canReceive, if_neg (by simp [ho])]
  exact if_pos ⟨hf, by rw [hd]; rfl⟩

theorem canReceive_taken (hf : f.fdf = false ∨ u.on (Fld.CAN_CTRL_fd c) = true) :
    canReceive c f len s =
      let at_ := u.cycle - len + nominalSample (u.chan c).nbt
      let t := u |> receivedWell c |> notLonely c |> takeCan c (canStampAt at_) f
      whenT (isTt u c) (ttReceive (canStampAt at_) at_ f) t := by
  subst hu
  rw [canReceive, if_neg (by simp [ho])]
  exact if_neg (fd_permits hf)

end

/-! ### Records of the host (R341, R357, R421) -/

section
variable {r : Nat} {l : List Byte} {j : TxJob} (hj : canJob s r = some j)
include hj

/-- A record with index 0 is not sent as CAN FD on a channel without fd; else it enters the host queue of its channel, or waits
for room there. -/
theorem canTxRecord_queue (hi : recordIndex l = 0) :
    canTxRecord r l s =
      let c := beAt l 6 1 % 16
      let f := recordFrame l
      let u := modHost (fun h => { h with lastTx := r }) s
      let v := setFate r j.id .waiting u
      if f.fdf ∧ !u.on (Fld.CAN_CTRL_fd c) then u |> count (Reg.CAN_TX_DROPPED c) |> txDoneOpen r j.id 5 0
      else if (v.chan c).host.length < 16 then putHost c r j.id f v
      else { v with can := { v.can with waiting := v.can.waiting ++ [(r, j.id, c, f)] } } := by
  rw [canTxRecord, hj]
  exact if_neg (not_not_intro hi)

/-- A record with index 1 to 64 loads the 16 words of its mailbox. -/
theorem mailboxLoad_loads (h0 : recordIndex l ≠ 0) (h64 : recordIndex l ≤ 64) :
    mailboxLoad r l s =
      let k := recordIndex l - 1
      (modHost (fun h => { h with lastTx := r }) s
        |> each (List.range 16) (fun i t => setR (Reg.CAN_MB_DATA k i) (leAt l (16 + 4 * i) 4) t)
        |> setF (Fld.CAN_MB_STATE_loaded k) 1 |> txDoneOpen r j.id 0 0) := by
  rw [mailboxLoad, hj]
  exact (if_neg h0).trans (if_neg (Nat.not_lt.mpr h64))

end

/-! ### Sending (R334, R342, R345 to R347) -/

/-- A channel in ON that is free to send starts the frame it chooses; a mailbox's start is noted in its window, and in loopback
nothing leaves (R350). -/
theorem canArbitrate_starts {c tdcv : Nat} {src : CanSrc} {f : CanFrame} (ho : onBus s c = true) (hst : chanState s c = 2)
    (hb : (s.chan c).bus = none) (hm : (s.chan c).mode ≠ 1) (hp : lonelyPaused s c = false) :
    canChoice s c = some (src, f) → canArbitrate c tdcv s =
      let x := s.chan c
      let g := { f with esi := estate s c == Es.passive }
      let at_ := s.cycle + nominalSample x.nbt
      let b : CanBus := { src := src, frame := g, stamp := canStampAt at_, at_ := at_ }
      let mb := match src with
        | .mailbox _ => true
        | _ => false
      (s |> setChan c { x with bus := some b, sender := true, lastTry := s.cycle, release := false }
        |> whenT mb (modTt (fun t => { t with window := t.window.map (fun w => { w with started := true }) }))
        |> whenT (g.fdf && bit x.dbt.toNat 31) (setF (Fld.CAN_STATUS_tdcv c) tdcv)
        |> whenT (x.mode != 2) (emitOut (.can c { g with data := CanFrame.bytes g }))) := by
  intro hc
  rewrite [canArbitrate, if_neg (by simp [ho, hst, hb, hm, hp]), hc]
  rfl

section
variable {c : Nat} {b : CanBus} (hb : (s.chan c).bus = some b)
include hb

/-- An acknowledged frame of the host leaves its queue and is written back with the stamp of its SOF. -/
theorem canAcked_host {r j : Nat} (hsrc : b.src = .host r j) :
    canAcked c s =
      let u := s |> modChan c (fun x => { x with bus := none }) |> count (Reg.CAN_TX_FRAMES c) |> notLonely c
      let v := if estate u c = Es.busOff then u
        else putErrs c (u.getF (Fld.CAN_STATUS_tec c) - 1) (u.getF (Fld.CAN_STATUS_rec c)) u
      let w := v |> modChan c (fun x => { x with host := x.host.drop 1 })
        |> txDone r j 0 0 (b.stamp % 2 ^ 32) (b.stamp / 2 ^ 32) false
      (w |> whenT ((w.chan c).mode == 2) (takeCan c b.stamp b.frame) |> retryCan) := by
  simp only [canAcked, hb, hsrc]

/-- An attempt without acknowledgement counts towards LONELY, and raises the transmit counter but for an error-passive channel
that saw no dominant bit (R346). -/
theorem canAckError_counted {dominant : Bool} :
    canAckError c dominant s =
      let n := (s.chan c).ackErrs + 1
      let u := s |> offBus c |> count (Reg.CAN_ACK_ERR c) |> modChan c (fun x => { x with ackErrs := n })
      let v := whenT (n == u.getF (Fld.CAN_LONELY_count c))
        (fun t => t |> setF (Fld.CAN_STATUS_lonely c) 1 |> latch (Fld.CAN_EVENT_lonely c)) u
      whenT (estate u c == Es.active || dominant) (addErrs c 8 0) v := by
  rw [canAckError, hb]

end

theorem lonelyRetry_releases {c : Nat} (h : lonelyPaused s c = true) :
    lonelyRetry c s =
      (s |> advanceTo ((s.chan c).lastTry + s.getF (Fld.CAN_LONELY_retry_ms c) * cyclesPerMs)
        |> modChan c (fun x => { x with release := true })) :=
  if_neg (by simp [h])

/-! ### Errors and recovery (R344, R348, R350) -/

/-- An error that the channel can have is counted by its kind and moves the error counters. -/
theorem canBusError_counted {c : Nat} {k : BusError} {transmitting flag : Bool} (ho : onBus s c = true)
    (hsender : transmitting = true → (s.chan c).sender = true)
    (hsends : transmitting = true ∨ k = .flagBit ∨ k = .dominantRun → (s.chan c).mode ≠ 1) :
    canBusError c k transmitting flag s =
      let d := errSteps k transmitting flag
      let u := s |> offBus c |> modChan c (fun x => { x with sender := transmitting })
      let v := match errCounter k c with
        | some a => count a u
        | none => u
      addErrs c d.1 d.2 v := by
  have hcan : ¬((!onBus s c) = true ∨ (transmitting = true ∧ (!(s.chan c).sender) = true) ∨
      ((transmitting || k == .flagBit || k == .dominantRun) = true ∧ (s.chan c).mode = 1)) := by
    rintro (h | ⟨ht, h⟩ | ⟨h, hm⟩)
    · simp [ho] at h
    · simp [hsender ht] at h
    · exact hsends (by simpa [or_assoc] using h) hm
  exact if_neg hcan

theorem canRecovered_ends {c : Nat} (h : s.on (Fld.CAN_STATUS_recovering c) = true) :
    canRecovered c s =
      (s |> setF (Fld.CAN_STATUS_recovering c) 0 |> setF (Fld.CAN_CTRL_recover c) 0 |> putErrs c 0 0
        |> latch (Fld.CAN_EVENT_recovered c)) :=
  if_neg (by simp [h])

/-- Settles O15: what reaches a channel by the branch that its conditions choose, as it arrives; what the device times itself in
its turn; the write of CAN_CTRL, once taken, runs the hook of an enable register. -/
theorem canChannelCommandsComplete : Obligations.CanChannelCommandsComplete := by
  refine ⟨?received, ?record, ?arbitration, ?acknowledged, ?unacknowledged, ?retry, ?error, ?exit, ?recover, ?recovered⟩
  case received =>
    intro s₀ c f len dt s hr ho u
    exact ⟨fun hf hd => ends_running exec_canFrameReceive hr (canReceive_exception ho rfl hf hd),
      fun hf => ends_running exec_canFrameReceive hr (canReceive_taken ho rfl hf)⟩
  case record =>
    intro s₀ r l dt j s hr hj hi c f u
    have run := canTxRecord_queue hj hi
    refine ⟨fun hf hd => ends_running exec_canTxRecord hr (run.trans (if_pos ⟨hf, by rw [hd]; rfl⟩)), ?_⟩
    intro hf v
    exact ends_running exec_canTxRecord hr (run.trans (if_neg (fd_permits hf)))
  case arbitration =>
    intro s₀ c tdcv dt src f s hr ho hst hb hm hp hc
    exact ends_running exec_canArbitration hr (canArbitrate_starts ho hst hb hm hp hc)
  case acknowledged =>
    intro s₀ c dt b r j s hr hb hsrc
    exact ends_running exec_canTxAcknowledged hr (canAcked_host hb hsrc)
  case unacknowledged =>
    intro s₀ c dominant dt b s hr hb
    exact ends_running exec_canAckError hr (canAckError_counted hb)
  case retry =>
    intro s₀ c s hr hp
    exact ends_runningTurn exec_lonelyRetry hr (lonelyRetry_releases hp)
  case error =>
    intro s₀ c k transmitting flag dt s hr ho hsender hsends
    exact ends_running exec_canBusError hr (canBusError_counted ho hsender hsends)
  case exit =>
    intro s₀ c dt s hr
    exact ends_running exec_protocolExceptionExit hr rfl
  case recover =>
    intro s₀ c v dt s w hw
    exact ends_of exec_canRecover ((write_taken (writeOf_CAN_CTRL c) rfl (of_decide_eq_true rfl) hw).trans
      (hook_fnWrite (.canChannel c) v _ _ _))
  case recovered =>
    intro s₀ c s hr hc
    exact ends_runningTurn exec_canRecoveryDone hr (canRecovered_ends hc)

/-! ### The schedule (R353 to R358) -/

theorem ttWindowEnd_ends {w : TtWindow} (h : s.can.tt.window = some w) : ttWindowEnd s = (s |> advanceTo w.endAt |> endWindow) := by
  rw [ttWindowEnd, h]

section
variable {j : Nat}

/-- The entry that is the next to fire acts on the state in which its time has come. -/
theorem trigger1_next {type : Nat} {f : State → State} (h : trigNext s type j = true) :
    trigger1 type j f s = f (triggered type j s) :=
  if_neg (by simp [h])

/-- A Tx entry ages its mailbox; a stale mailbox is not sent if so set, one without the node role is suppressed, and any other
has its window opened (R354, R357, R358). -/
theorem ttTx_next (h : trigNext s 1 j = true) :
    ttTx j s =
      let u := triggered 1 j s
      let k := u.getF (Fld.CAN_TT_TRIG_B_mailbox j)
      let age := if u.on (Fld.CAN_MB_STATE_loaded k) then 0 else min (u.getF (Fld.CAN_MB_STATE_age k) + 1) 255
      let v := u |> setF (Fld.CAN_MB_STATE_age k) age |> setF (Fld.CAN_MB_STATE_loaded k) 0
      let w : TtWindow := { mailbox := k, endAt := v.cycle + v.getF Fld.CAN_TT_CFG_tx_enable * ntu v, started := false }
      if v.getF (Fld.CAN_MB_CFG_age_limit k) < age ∧ v.on (Fld.CAN_MB_CFG_stale_action k) then
        v |> count Reg.CAN_TT_STALE |> latch Fld.CAN_TT_EVENT_stale
      else if !v.hasRole then count Reg.CAN_TT_SUPPRESSED v
      else modTt (fun t => { t with window := some w }) v :=
  trigger1_next h

/-- An Rx entry uses up the frame that its mailbox has seen, or counts a miss. -/
theorem ttRx_next (h : trigNext s 2 j = true) :
    ttRx j s =
      let u := triggered 2 j s
      let k := u.getF (Fld.CAN_TT_TRIG_B_mailbox j)
      if u.can.tt.seen.contains k then modTt (fun t => { t with seen := t.seen.filter (· != k) }) u
      else u |> count Reg.CAN_TT_MISSED |> latch Fld.CAN_TT_EVENT_missed :=
  trigger1_next h

/-- Queued frames may start until the next entry's mark. -/
theorem ttArb_next (h : trigNext s 3 j = true) :
    ttArb j s =
      let u := triggered 3 j s
      modTt (fun t => { t with arbEnd := (nextTrig u (j + 1)).map (trigAt u) }) u :=
  trigger1_next h

/-- A Watch entry acts at its mark when no reference is in time (R23, R355). -/
theorem ttWatch_missed (h : trigNext s 5 j = true) (hi : refInTime s (trigAt s j) = false) :
    ttWatch j s = (triggered 5 j s |> count Reg.CAN_TT_WATCH |> ttCause 2 |> oweReference) :=
  (if_neg (by simp [hi])).trans (trigger1_next h)

end

/-- Settles O16: an entry of the schedule that is the next to fire acts when its time has come; a record of the host loads its
mailbox as it arrives. -/
theorem canScheduleCommandsComplete : Obligations.CanScheduleCommandsComplete := by
  refine ⟨?tx, ?windowEnd, ?rx, ?arbitrating, ?reference, ?watch, ?mailbox⟩
  case tx =>
    intro s₀ j s hat u k age v
    obtain ⟨hr, hn⟩ := hat
    have run := ttTx_next hn
    refine ⟨fun hstale => ends_runningTurn exec_ttTxTrigger hr (run.trans (if_pos hstale)), ?_⟩
    intro hfresh hrole w
    have hcurrent : ¬(v.getF (Fld.CAN_MB_CFG_age_limit k) < age ∧ v.on (Fld.CAN_MB_CFG_stale_action k) = true) :=
      fun ⟨hage, hset⟩ => hfresh.elim (Nat.not_le.mpr hage) (by simp [hset])
    have hnode : ¬(!v.hasRole) = true := by simp [hrole]
    exact ends_runningTurn exec_ttTxTrigger hr (run.trans ((if_neg hcurrent).trans (if_neg hnode)))
  case windowEnd =>
    intro s₀ w s hr hw
    exact ends_runningTurn exec_ttWindowEnd hr (ttWindowEnd_ends hw)
  case rx =>
    intro s₀ j s hat u k
    exact ends_runningTurn exec_ttRxTrigger hat.1 (ttRx_next hat.2)
  case arbitrating =>
    intro s₀ j s hat u
    exact ends_runningTurn exec_ttArbTrigger hat.1 (ttArb_next hat.2)
  case reference =>
    intro s₀ j s hat
    exact ends_runningTurn exec_ttRefTrigger hat.1 (trigger1_next hat.2)
  case watch =>
    intro s₀ j s hat hi
    exact ends_runningTurn exec_ttWatchTrigger hat.1 (ttWatch_missed hat.2 hi)
  case mailbox =>
    intro s₀ r l dt j s hr hj h0 h64 k u
    exact ends_running exec_mailboxLoad hr (mailboxLoad_loads hj h0 h64)

end Sys2Proof.Machine
end

section
/-! PROOF. Filigree: source events and emissions (R364 to R380), and the sense inputs and drive outputs (R387 to R399). -/
namespace Sys2Proof.Machine
open Sys2Proof.Claims
variable {s : State}

/-- A condition that holds does not turn away. -/
theorem open_of_true {b : Bool} (h : b = true) : ¬(!b) = true := by simp [h]

/-! ### Source events (R364, R365, R376) -/

/-- Port F takes the frame at its head while it is off or its FIFO has room. -/
theorem filEthFrame_takes {id : Nat} {rest : List Nat} {f : Frame} (hq : txQueue s portF 0 = id :: rest) (hf : s.frame id = some f)
    (hroom : s.getF Fld.FIL_CTRL_state = 0 ∨ s.fil.events.length < 256) :
    filEthFrame s =
      let l := vlanForm f portF
      let m := tatIn f portF l s
      (s |> noteTat id (m != l) |> setTxq portF 0 rest |> deliverCopy id portF |> filTake m) := by
  have hfree : ¬(s.getF Fld.FIL_CTRL_state ≠ 0 ∧ 256 ≤ s.fil.events.length) := by omega
  simp only [filEthFrame, hq, hf, if_neg hfree]

theorem statusSample_on {read : State → List Nat} (hon : s.getF Fld.FIL_CTRL_state ≠ 0) :
    statusSample read s =
      let t := advanceTo s.fil.nextStatus s
      let u := modFil (fun x => { x with nextStatus := t.cycle + t.getF Fld.FIL_STATUS_CFG_period_us * cyclesPerUs }) t
      let l := read u
      each ((List.range l.length).zip l) (fun p v => statusEvent p.1 p.2 v) u :=
  if_neg hon

section
variable {e : FilEvent} {rest : List FilEvent} {t : State} (hq : s.fil.events = e :: rest) (he : s.fil.emits = [])
  (hr : filRuns s = true) (ht : modFil (fun x => { x with events := rest }) s = t)
include hq he hr ht

/-- While no emission waits, the oldest event leaves the FIFO; it may match no descriptor (R376). -/
theorem sourceJob_unmatched (hn : filMatch t e = none) : sourceJob s = (t |> advance 8 |> count Reg.FIL_NO_MATCH) := by
  subst ht
  simp [sourceJob, hq, he, hr, hn]

/-- The descriptor it matches counts a hit and refreshes its signals, unless the data are too short for it. -/
theorem sourceJob_matched {i : Nat} (hi : filMatch t e = some i) :
    sourceJob s =
      let u := setF (Fld.FIL_SRC3_hits i) (min (t.getF (Fld.FIL_SRC3_hits i) + 1) 0xFFFFFFFF) t
      if e.data.length < u.getF (Fld.FIL_SRC2_min_len i) then u |> advance 8 |> count Reg.FIL_SHORT
      else u |> advance (8 + (srcSignals u i).length) |> each (srcSignals u i) (refresh e.data) := by
  subst ht
  simp [sourceJob, hq, he, hr, hi]

end

/-! ### Emissions (R372, R373) -/

/-- A change emission that is due, of a node with the role, enters the FIFO at the end of its gap (R373). -/
theorem changeDue_queued {t c : Nat} (hp : s.fil.pending.contains (t, false) = true) (hc : Sparse.find s.fil.lastEmit t = some c)
    (hrole : (advanceTo (c + s.getF (Fld.FIL_TPL1_min_gap_us t) * cyclesPerUs) s).hasRole = true) :
    changeDue t s = queueEmission t true (advanceTo (c + s.getF (Fld.FIL_TPL1_min_gap_us t) * cyclesPerUs) s) := by
  rw [changeDue, hc, if_neg (open_of_true hp)]
  exact if_pos hrole

/-- Settles O17: what the device times itself in its turn, by the branch that the conditions choose; a write that is
taken by the hook of its register. -/
theorem filigreeCommandsComplete : Obligations.FiligreeCommandsComplete := by
  refine ⟨?frame, ?status, ?word, ?source, ?due, ?emission, ?hold⟩
  case frame =>
    intro s₀ id rest f s hr hq hf hroom
    exact ends_runningTurn exec_filEthFrame hr (filEthFrame_takes hq hf hroom)
  case status =>
    intro s₀ s hr hon
    exact ends_runningTurn exec_statusSample hr (statusSample_on hon)
  case word =>
    intro s₀ i v dt s w hw
    exact ends_of exec_hostWordWrite (write_taken (writeOf_FIL_HOST_WORD i) rfl (of_decide_eq_true rfl) hw)
  case source =>
    intro s₀ e rest s hr hq he hf t
    refine ⟨fun hn => ends_runningTurn exec_sourceJob hr (sourceJob_unmatched hq he hf rfl hn), ?_⟩
    intro i hi u
    have run := sourceJob_matched hq he hf rfl hi
    exact ⟨fun hshort => ends_runningTurn exec_sourceJob hr (run.trans (if_pos hshort)),
      fun hlong => ends_runningTurn exec_sourceJob hr (run.trans (if_neg (Nat.not_lt.mpr hlong)))⟩
  case due =>
    intro s₀ t c s hr hp hc u hu
    exact ends_runningTurn exec_changeEmissionDue hr (changeDue_queued hp hc hu)
  case emission =>
    intro s₀ t w rest s hr hq hf u hb hv hrole eth udp n v r aged x y
    refine ends_runningTurn exec_emission hr ?_
    have hgood : ¬(tplBadWord u t = true ∨ (!tplValid u t) = true) := by simp [hb, hv]
    show emission s = _
    rw [emission, hq]
    exact (if_neg (open_of_true hf)).trans ((if_neg hgood).trans (if_neg (open_of_true hrole)))
  case hold =>
    intro s₀ v dt s w hw
    have run : whenHost (busWrite Reg.FIL_CTRL v) s = request .filigree (written s w) :=
      (write_taken writeOf_FIL_CTRL rfl (of_decide_eq_true rfl) hw).trans (hook_fnWrite .filigree v _ _ _)
    exact ⟨ends_of exec_filHold run, ends_of exec_filRelease run⟩

/-! ### Sense inputs (R387, R388) -/

/-- A fed input whose first samples are past makes a sample of the bits with those fed. -/
theorem senseSample_made {n : Nat} {bits : List Bool} {t : State} (hfed : senseFed s n = true) (ht : feedBits n bits s = t)
    (hskip : (t.sense n).skip = 0) (hon : t.getF Fld.SNS_CTRL_state = 2) :
    senseSample n bits s =
      let r := sampleOf (decimation t n) (sincSum (decimation t n) (t.sense n).bits)
      let ago := sampleAgo t n
      let stamp := t.cycle - ago
      (t |> setF (Fld.SNS_SAMPLE_sample n) (codeOf 24 r.1) |> setF (Fld.SNS_STATUS_overrange n) (b2n r.2)
        |> whenT r.2 (latch Fld.SNS_EVENT_overrange) |> convSample n r.1 r.2 stamp |> cycleSample n r.1 r.2 ago
        |> zeroSample n r.1 r.2 stamp |> proveSample n r.1 r.2 stamp
        |> modSense n (fun y => { y with prev := some (r.1, stamp) })) := by
  subst ht
  exact (if_neg (open_of_true hfed)).trans ((if_neg (not_not_intro hskip)).trans (if_neg (not_not_intro hon)))

theorem inputStuck_new {n : Nat} {level : Bool} (hfed : senseFed s n = true) (hfree : isStuck s n = false) :
    inputStuck n level s =
      (s |> setF (Fld.SNS_STATUS_stuck n) 1 |> setF ⟨Reg.SNS_STUCK, n, 1⟩ 1 |> count Reg.SNS_STUCK_COUNT
        |> latch Fld.SNS_EVENT_stuck |> record 0x51 [n, b2n level]) :=
  if_neg (by simp [hfed, hfree])

/-! ### Drive outputs (R395, R398, R399) -/

/-- An output that follows a domain takes the level of the passing, in so many cycles as it comes. -/
theorem drivePass_passes {o n : Nat} (hm : 2 ≤ drvMode s o) (hon : lockState s (drvDom s o) ≠ Lk.off)
    (hn : passingIn s (drvDom s o) (lastWith (s.getF (Fld.DRV_PHASE_phase o)) (position s (drvDom s o)))
      (Sparse.get (fun _ => position s (drvDom s o)) s.sd.passed o) (position s (drvDom s o)) = some n) :
    drivePass o s = takePassing o (advance n s) := by
  have hfollows : ¬(drvMode s o < 2 ∨ lockState s (drvDom s o) = Lk.off) := not_or.mpr ⟨Nat.not_lt.mpr hm, hon⟩
  simp only [drivePass, if_neg hfollows, hn]

theorem readbackStart_due {o c : Nat} (hc : Sparse.find s.sd.rbDue o = some c) :
    readbackStart o s =
      let t := advanceTo c s
      modSd (fun x => { x with rbDue := Sparse.drop x.rbDue o, rbSince := Sparse.ins (Sparse.drop x.rbSince o) o t.cycle }) t := by
  rw [readbackStart, hc]

theorem readbackFault_first {o c : Nat} (hc : Sparse.find s.sd.rbSince o = some c) (hen : s.on (Fld.DRV_CFG_rb_en o) = true)
    (hw : awaitsSoon (.readback o c) s = false) :
    readbackFault o s = (s |> advanceTo (c + cyclesPerUs) |> inCycles 1 (.readback o c)) := by
  rw [readbackFault, hc]
  exact if_neg (by simp [hen, hw])

theorem proveOpen_due {o : Nat} {p : Prove} (hp : Sparse.find s.sd.prove o = some p) (hl : p.left = none) :
    proveOpen o s =
      let t := advanceTo p.dueAt s
      let q := { p with dueAt := t.cycle, left := some (t.getF (Fld.DRV_PROVE_CFG_samples o)) }
      modSd (fun x => { x with prove := Sparse.ins (Sparse.drop x.prove o) o q }) t := by
  rw [proveOpen, hp]
  exact if_neg (by simp [hl])

/-- The hook of a register is the entry of the table for its row. -/
theorem hook_of_find {r : RegSpec} {p : RegSpec × Hook} (h : hooks.find? (fun q => q.1.base == r.base) = some p) :
    hook r = p.2 := by
  funext i j o v s
  rw [hook, h]

/-- What a write of DRV_LEVEL sets off: rewrite with it, since unfolding its 32 outputs is deep. -/
theorem hook_DRV_LEVEL : hook Row.DRV_LEVEL = fun _ _ _ _ => levelWritten := by
  have hfind : hooks.find? (fun q => q.1.base == Row.DRV_LEVEL.base) = some (Row.DRV_LEVEL, fun _ _ _ _ => levelWritten) := rfl
  rw [hook_of_find hfind]

/-- Settles O18: a sample or a level as it arrives, what the device times itself in its turn, a host write that is taken by the
hook of its register. -/
theorem senseAndDriveCommandsComplete : Obligations.SenseAndDriveCommandsComplete := by
  refine ⟨?sample, ?stuck, ?unstuck, ?convert, ?level, ?pass, ?delay, ?fault, ?completes, ?prove⟩
  case sample =>
    intro s₀ n bits dt a s hr hfed hskip hon
    have hfed' : senseFed a n = true := hfed
    exact ends_running exec_senseSample hr (senseSample_made hfed' rfl hskip hon)
  case stuck =>
    intro s₀ n level dt s hr hfed hfree
    exact ends_running exec_inputStuck hr (inputStuck_new hfed hfree)
  case unstuck =>
    intro s₀ n dt s hr hfed
    exact ends_running exec_inputUnstuck hr (if_pos hfed)
  case convert =>
    intro s₀ v dt s w hw
    exact ends_of exec_hostConvert (write_taken writeOf_SNS_CONVERT rfl (of_decide_eq_true rfl) hw)
  case level =>
    intro s₀ v dt s w hw
    refine ends_of exec_driveLevelWrite ((write_taken writeOf_DRV_LEVEL rfl (of_decide_eq_true rfl) hw).trans ?_)
    show hook Row.DRV_LEVEL 0 0 (old s w) (val w) (written s w) = _
    rw [hook_DRV_LEVEL]
  case pass =>
    intro s₀ o n s hr hm hon d now last hn u at_ c
    exact ends_runningTurn exec_drivePhasePass hr (drivePass_passes hm hon hn)
  case delay =>
    intro s₀ o c s hr hc t
    exact ends_runningTurn exec_readbackDelayEnd hr (readbackStart_due hc)
  case fault =>
    intro s₀ o c s hr hc hen hw
    exact ends_runningTurn exec_readbackFault hr (readbackFault_first hc hen hw)
  case completes =>
    intro s o since hc v
    exact if_neg (not_not_intro hc)
  case prove =>
    intro s₀ o p s hr hp hl t q
    exact ends_runningTurn exec_proveWindowOpen hr (proveOpen_due hp hl)

end Sys2Proof.Machine
end

section
/-! PROOF. The host's rings and what leaves and enters them (R206, R413 to R431), and the host interface: the watchdog,
the link, failed requests (R406 to R410, R433 to R436). -/
namespace Sys2Proof.Machine
open Sys2Proof.Claims
variable {s : State}

/-! ### Doorbells and descriptors (R413, R414, R421) -/

section
variable {r v : Nat}

theorem doorbellArrives_first (ha : s.host.bellsAhead.contains (r, v) = false) : doorbellArrives r v s = doorbell r v s :=
  if_neg (Bool.eq_false_iff.mp ha)

theorem doorbell_valid {pos : Nat} (ha : s.host.bellsAhead.contains (r, v) = false) (hp : doorbellOk s r v = some pos) :
    doorbellArrives r v s =
      let x := s.ring r
      let new := pos != x.prod
      (s |> modRing r (fun y => { y with prod := pos, stallEnd := if new then none else y.stallEnd,
                                         lateArmed := y.lateArmed && !new })
        |> whenT (x.lateArmed && new) (count (Reg.RNG_LATE_DOORBELL r)) |> goOn r) := by
  rw [doorbellArrives_first ha, doorbell, hp]

theorem doorbell_bad (ha : s.host.bellsAhead.contains (r, v) = false) (hp : doorbellOk s r v = none) :
    doorbellArrives r v s = (s |> count (Reg.RNG_BAD_DOORBELL r) |> ringEvent Fld.RNG_EVENT_bad_doorbell r) := by
  rw [doorbellArrives_first ha, doorbell, hp]

theorem doorbell_ahead (ha : s.host.bellsAhead.contains (r, v) = true) :
    doorbellArrives r v s = modHost (fun h => { h with bellsAhead := h.bellsAhead.erase (r, v) }) s := if_pos ha

end

theorem txFetched_fetching {r : Nat} {descs : List (List Byte)} (hi : ringIs s r 0 = true) (hb : s.on Fld.HST_LINK_bme = true) :
    txFetched r descs s =
      let x := s.ring r
      let n := min descs.length (min (x.avail - x.fetched.length) (prefetchRoom x))
      formJobs 9 r (modRing r (fun y =>
        { y with fetched := y.fetched ++ (descs.take n).map (fun d => (d ++ zeros 32).take 32) }) s) :=
  if_neg (by simp [hi, hb])

/-- An RX or CAPTURE ring fetches in ON, an RX ring for the copy in progress in STOPPING too. -/
theorem rxFetched_fetching {r : Nat} {descs : List (List Byte)}
    (hi : ringIs s r 1 = true ∨ ringIs s r 3 = true ∨ (ringState s r = 3 ∧ (s.ring r).writing.isSome = true))
    (hb : s.on Fld.HST_LINK_bme = true) :
    rxFetched r descs s =
      let x := s.ring r
      let l := (descs.take (x.avail - x.fetched.length)).map (fun d => (d ++ zeros 32).take 32)
      (s |> modRing r (fun y => { y with fetched := y.fetched ++ l }) |> goOn r) := by
  have hf : (ringIs s r 1 || ringIs s r 3 || (ringState s r == 3 && (s.ring r).writing.isSome)) = true := by
    simpa [or_assoc] using hi
  exact if_neg (by simp only [hf, hb]; decide)

/-! ### Frames from and to the host (R206, R421 to R425, R430, R431) -/

/-- The data of the frame in hand of the ring that is served: behind a waiting frame of its class it waits too. -/
theorem txDataRead_served {r : Nat} {bytes : List Byte} {j : TxJob} (hs : txServed s = some r) (hb : s.on Fld.HST_LINK_bme = true)
    (hj : nextReading s r = some j) (hc : Desc.can ((j.slots.head?.map (·.2)).getD (zeros 32)) = false) :
    txDataRead r bytes s =
      let d := (j.slots.head?.map (·.2)).getD (zeros 32)
      let l := slice bytes 0 (j.slots.map (fun p => Desc.len p.2)).sum
      let v := modHost (fun h => { h with lastTx := r }) s
      let cls := (hostFrame d l r j.id v).cls
      if v.host.waitH.any (fun w => w.1 == cls) then
        v |> modHost (fun h => { h with waitH := h.waitH ++ [(cls, r, j.id)] })
          |> modRing r (fun x =>
              { x with jobs := x.jobs.map (fun k => if k.id = j.id then { k with fate := .waiting, data := l } else k) })
      else hostAdmit r j l v := by
  rw [txDataRead, if_neg (by simp [hs, hb]), hj]
  exact if_neg (Bool.eq_false_iff.mp hc)

/-- The copy at the front reaches the ring writer while its ring writes no other; with a slot it is begun. -/
theorem ringWrite_begins {i : RxItem} {rest : List RxItem} {t : State} (hq : s.fab.ringQueue = i :: rest)
    (hw : (s.ring (ringOfItem s i)).writing = none) (ht : modFab (fun x => { x with ringQueue := (i :: rest).erase i }) s = t)
    (hi : ringIs t (ringOfItem t i) 1 = true) (hfree : (t.ring (ringOfItem t i)).writing = none)
    (hheld : (t.ring (ringOfItem t i)).held = []) (hslot : 0 < freeSlots t (ringOfItem t i)) :
    ringWrite s = beginWrite (ringOfItem t i) i t := by
  have hout : modFab (fun x => { x with ringQueue := x.ringQueue.erase i }) s = t := by rw [← ht, modFab, modFab, hq]
  rw [ringWrite, hq, List.find?_cons_of_pos (by simp only [hw]; rfl)]
  dsimp only
  rw [hout]
  simp only [hfree]
  exact (if_neg (open_of_true hi)).trans (if_neg (by simp [hheld, hslot.ne']))

/-- No doorbell in time: the copy is discarded, and the copies that wait go on. -/
theorem stallExpiry_discards {r e : Nat} (he : (s.ring r).stallEnd = some e)
    (hi : inTime (isDoorbell s r) (advanceTo e s) = false) :
    stallExpiry r s =
      let t := s |> advanceTo e |> discardWriting r
      drainHeld ((t.ring r).held.length + 1) r t := by
  rw [stallExpiry, he]
  exact if_neg (Bool.eq_false_iff.mp hi)

/-- A capture that its ring's next buffer can hold is written and delivered. -/
theorem captureWrite_written {c : Captured} {rest : List Captured} {b : List Byte} {more : List (List Byte)}
    (hq : s.fab.captures = c :: rest) (hgood : c.chain.any (fun i => s.fab.badWords.contains (0, i)) = false)
    (hi : ringIs s c.ring 3 = true) (hslot : freeSlots s c.ring ≠ 0) (hb : (s.ring c.ring).fetched = b :: more)
    (h64 : 64 ≤ Desc.len b) (hlen : c.data.length ≤ Desc.len b) :
    captureWrite s =
      (s |> writeHost (Desc.addr b) c.data
        |> writeBack c.ring (s.ring c.ring).cons (zeros 8 ++ le 2 c.data.length ++ [byte 0x83])
        |> modRing c.ring (fun x => x.take 1) |> count (Reg.RNG_FRAMES c.ring) |> noteWriteback c.ring
        |> modFab (fun x => { x with captures := rest }) |> ledDeliver (ledRow portM c.cls) 1 |> count Reg.MIR_CAPTURES) := by
  have hring : ¬((!ringIs s c.ring 3) = true ∨ freeSlots s c.ring = 0) := by simp [hi, hslot]
  simp only [captureWrite, hq, if_neg (Bool.eq_false_iff.mp hgood), if_neg hring, hb, if_neg (Nat.not_lt.mpr h64),
    if_neg (Nat.not_lt.mpr hlen)]

theorem moderationTimer_announces {r : Nat} (hn : (s.ring r).unannounced ≠ 0) :
    moderationTimer r s =
      (s |> advanceTo ((s.ring r).firstUnannounced + s.getF (Fld.RNG_MOD_timer_us r) * cyclesPerUs) |> announce r) := if_neg hn

/-- Settles O19: what the host asks as it reaches the device, what it answers as it arrives, and what the device times itself in
its turn. -/
theorem ringCommandsComplete : Obligations.RingCommandsComplete := by
  refine ⟨?bell, ?bad, ?ahead, ?tx, ?rx, ?data, ?write, ?stall, ?capture, ?moderation⟩
  case bell =>
    intro s₀ r v pos dt s hr ha hp x new
    exact ends_host exec_doorbell hr (doorbell_valid ha hp)
  case bad =>
    intro s₀ r v dt s hr ha hp
    exact ends_host exec_doorbell hr (doorbell_bad ha hp)
  case ahead =>
    intro s₀ r v dt s hr ha
    exact ends_host exec_doorbell hr (doorbell_ahead ha)
  case tx =>
    intro s₀ r descs dt s hr hi hb x n
    exact ends_running exec_txDescriptorFetch hr (txFetched_fetching hi hb)
  case rx =>
    intro s₀ r descs dt s x hr hi hb l
    exact ends_running exec_rxDescriptorFetch hr (rxFetched_fetching hi hb)
  case data =>
    intro s₀ r bytes dt j s hr hs hb hj d hc l v cls
    have run := txDataRead_served (bytes := bytes) hs hb hj hc
    exact ⟨fun hfirst => ends_running exec_txDataRead hr (run.trans (if_neg (Bool.eq_false_iff.mp hfirst))),
      fun hbehind => ends_running exec_txDataRead hr (run.trans (if_pos hbehind))⟩
  case write =>
    intro s₀ i rest s hr hq hw t r hi hfree hheld hslot
    exact ends_runningTurn exec_ringWrite hr (ringWrite_begins hq hw rfl hi hfree hheld hslot)
  case stall =>
    intro s₀ r e s hr he hi t
    exact ends_runningTurn exec_stallWaitExpiry hr (stallExpiry_discards he hi)
  case capture =>
    intro s₀ c rest b more s hr hq hgood hi hslot hb h64 hlen
    exact ends_runningTurn exec_captureWrite hr (captureWrite_written hq hgood hi hslot hb h64 hlen)
  case moderation =>
    intro s₀ r s hr hn
    exact ends_runningTurn exec_moderationTimer hr (moderationTimer_announces hn)

/-! ### The watchdog (R436) -/

theorem wdogKick_enabled (h : s.on Fld.HST_WDOG_CTRL_enable = true) :
    wdogKick s = (s |> setF Fld.HST_WDOG_STATUS_expired 0 |> wdogLoad) := if_pos h

/-- With no kick in time the count ends. -/
theorem wdogExpiry_expired {e : Nat} (he : s.host.wdogEnd = some e) (hi : inTime isKick (advanceTo e s) = false) :
    wdogExpiry s =
      let t := s |> advanceTo e |> modHost (fun h => { h with wdogEnd := none }) |> setF Fld.HST_WDOG_STATUS_expired 1
        |> latch Fld.HST_EVENT_wdog
      let u := record 0x42 (dle 2 (s.getF Fld.HST_WDOG_CTRL_timeout_ms)) t
      whenT (s.on Fld.HST_WDOG_CTRL_resign) (trigger 7) u := by
  rw [wdogExpiry, he]
  exact if_neg (Bool.eq_false_iff.mp hi)

section
variable {i j o x : Nat}

theorem hookWatchdog_disabled (h : s.on Fld.HST_WDOG_CTRL_enable = false) :
    hookWatchdog i j o x s = modHost (fun h => { h with wdogEnd := none }) s := if_pos (by simp [h])

/-- The bit of a word that is the enable of the watchdog. -/
theorem enable_eq_zero_iff (w : Word) :
    fieldOf (BitVec.ofNat 32 w.toNat) Fld.HST_WDOG_CTRL_enable.lo 1 = 0 ↔ bit w.toNat 0 = false := by
  rw [BitVec.ofNat_toNat, BitVec.setWidth_eq, bit, beq_eq_false_iff_ne, fieldOf,
    show Fld.HST_WDOG_CTRL_enable.lo = 0 from rfl, pow_one]
  exact Nat.mod_two_ne_one.symm

/-- The count is loaded at the enable, and again while it runs. -/
theorem hookWatchdog_loads {w : Word} (h : s.on Fld.HST_WDOG_CTRL_enable = true)
    (hl : bit w.toNat 0 = false ∨ s.host.wdogEnd.isSome = true) : hookWatchdog i j w.toNat x s = wdogLoad s :=
  (if_neg (open_of_true h)).trans (if_pos (by simpa only [enable_eq_zero_iff] using hl))

end

/-! ### The link and its power states (R406, R410) -/

theorem linkTrained_up {speed width payload readMax : Nat} (hp : s.pwr.stage ≠ .pll) (hm : s.pwr.stage ≠ .memory)
    (hl : lanes s ≠ 0) :
    linkTrained speed width payload readMax s =
      (s |> setF Fld.HST_LINK_up 1 |> setF Fld.HST_LINK_speed speed |> setF Fld.HST_LINK_width (min width (lanes s))
        |> setF Fld.HST_LINK_dstate 0 |> modHost (fun h => { h with maxPayload := payload, maxRead := readMax })) :=
  if_neg (by simp [hp, hm, hl])

theorem busMasterClear_clears (h : s.on Fld.HST_LINK_bme = true) :
    busMasterClear s =
      let t := setF Fld.HST_LINK_bme 0 s
      each ((List.range 64).filter (fun r => ringState s r != 0)) (fun r u => u |> setF (Fld.RNG_CTRL_err r) 2 |> goOn r) t :=
  if_neg (open_of_true h)

/-- What was held back is sent, the writes first, and every ring goes on. -/
theorem busMasterEnable_sends (h : s.on Fld.HST_LINK_up = true) :
    busMasterEnable s =
      let t := setF Fld.HST_LINK_bme 1 s
      (t |> modHost (fun h => { h with heldWrites := [], heldReads := [] })
        |> each t.host.heldWrites (fun w => emitOut (.hostWrite w.2.1 w.2.2)) |> each t.host.heldReads (fun w => readHost w.1 w.2)
        |> sendHeld |> flushMsix |> each (List.range 64) goOn) :=
  if_neg (open_of_true h)

/-! ### Failed requests (R435) -/

section
variable {r a cpl : Nat} {got : List Byte}

theorem memoryRequestError_descriptors (h : ringState s r ≠ 0) :
    memoryRequestError 0 r a cpl got s = (s |> dmaError 0 r a cpl |> setF (Fld.RNG_CTRL_err r) 1 |> forceStop (.ring (fin 64 r))) :=
  if_neg h

theorem memoryRequestError_data (h : (nextReading s r).isSome = true) :
    memoryRequestError 1 r a cpl got s = (s |> dmaError 1 r a cpl |> txReadFails r got) :=
  if_neg (by simp [Option.isSome_iff_ne_none.mp h])

theorem memoryRequestError_image (hst : imgState s ≠ 0) (hsrc : imgSource s = 1) :
    memoryRequestError 2 r a cpl got s = imageReadError a cpl s := if_pos ⟨hst, hsrc⟩

end

/-- Settles O20: a host access as it reaches the device, what befalls the host interface as it arrives, the expiry of the watchdog
in its turn, and a write that is taken by the hook of its register. -/
theorem hostCommandsComplete : Obligations.HostCommandsComplete := by
  refine ⟨?all, ?one, ?ack, ?kick, ?expiry, ?config, ?failed, ?flr, ?down, ?up, ?d3, ?clear, ?enable⟩
  case all =>
    intro s₀ dt s hr
    exact ends_host exec_msixUnmask hr rfl
  case one =>
    intro s₀ k dt s hr
    exact ends_host exec_msixUnmask hr rfl
  case ack =>
    intro s₀ v dt s w hw
    exact ends_of exec_miscAck (write_taken writeOf_HST_MISC_ACK rfl (of_decide_eq_true rfl) hw)
  case kick =>
    intro s₀ v dt s hr hen
    exact ends_host exec_watchdogKick hr (wdogKick_enabled hen)
  case expiry =>
    intro s₀ e s ha he hi t u
    exact ends_turn exec_watchdogExpiry ha (wdogExpiry_expired he hi)
  case config =>
    intro s₀ v dt s w t hw
    have run : whenHost (busWrite Reg.HST_WDOG_CTRL v) s = hookWatchdog 0 0 (old s w) (val w) t :=
      write_taken writeOf_HST_WDOG_CTRL rfl (of_decide_eq_true rfl) hw
    exact ⟨fun hoff => ends_of exec_watchdogConfig (run.trans (hookWatchdog_disabled hoff)),
      fun hon hl => ends_of exec_watchdogConfig (run.trans (hookWatchdog_loads hon hl))⟩
  case failed =>
    intro s₀ r a cpl got dt s ha
    exact ⟨fun hring => ends_arrival exec_hostDmaError ha (memoryRequestError_descriptors hring),
      fun hj => ends_arrival exec_hostDmaError ha (memoryRequestError_data hj),
      fun hst hsrc => ends_arrival exec_hostDmaError ha (memoryRequestError_image hst hsrc)⟩
  case flr =>
    intro s₀ dt s ha
    exact ends_arrival exec_functionLevelReset ha rfl
  case down =>
    intro s₀ dt s ha
    exact ends_arrival exec_pcieLinkDown ha rfl
  case up =>
    intro s₀ speed width payload readMax dt s ha hp hm hl
    exact ends_arrival exec_pcieLinkUp ha (linkTrained_up hp hm hl)
  case d3 =>
    intro s₀ dt s ha
    exact ends_arrival exec_d3hotEntry ha rfl
  case clear =>
    intro s₀ dt s ha hb t
    exact ends_arrival exec_busMasterClear ha (busMasterClear_clears hb)
  case enable =>
    intro s₀ dt s ha hu t
    exact ends_arrival exec_busMasterEnable ha (busMasterEnable_sends hu)

end Sys2Proof.Machine
end

section
/-! PROOF. The local bus bridge: accesses of the host and their cycles (R445 to R452), the local master, interrupt inputs and
the Clasp (R454 to R459). -/
namespace Sys2Proof.Machine
open Sys2Proof.Claims
variable {s : State}

/-! ### Posted writes and reads of the host (R448, R450) -/

section
variable {a : Nat} {d : List (Option Byte)} (hon : lbbState s ≠ 0)
include hon

theorem bar4Write_queued (h : wfifoUse s + ceilDiv d.length 64 ≤ 32) :
    bar4Write a d s = modLbb (fun b => { b with work := b.work ++ [.write a d (ceilDiv d.length 64)] }) s :=
  (if_neg hon).trans (if_neg (Nat.not_lt.mpr h))

theorem bar4Write_full (h : 32 < wfifoUse s + ceilDiv d.length 64) : bar4Write a d s = busError LbbErr.wfifoFull 1 0 a s :=
  (if_neg hon).trans (if_pos h)

theorem bar4Read_waits {en : List Bool} :
    bar4Read a en s = (s |> modLbb (fun b => { b with unaccepted := b.unaccepted ++ [(a, en)] }) |> acceptReads 9) := if_neg hon

end

/-- A write that joins the queue takes its entries. -/
theorem wfifoUse_queued {a k : Nat} {d : List (Option Byte)} :
    wfifoUse (modLbb (fun b => { b with work := b.work ++ [.write a d k] }) s) = wfifoUse s + k := by
  simp [wfifoUse]

theorem busError_work {kind source tag a : Nat} : (busError kind source tag a s).lbb.work = s.lbb.work := by
  simp only [busError]
  split <;> rfl

/-- Settles O55: a request joins the queue with its entries, or is an error that leaves the queue. -/
theorem postedWritesTakeEntries : Obligations.PostedWritesTakeEntries := by
  intro s₀ a d dt s hr hon
  refine ⟨bar4Write a.toNat d s, ends_host exec_bar4Write hr rfl, ?room, ?full⟩
  case room =>
    intro h
    rw [bar4Write_queued hon h]
    exact ⟨wfifoUse_queued, rfl, rfl⟩
  case full =>
    intro h
    rw [bar4Write_full hon h]
    exact ⟨busError_work, rfl⟩

/-! ### Local cycles (R445, R446, R451, R452) -/

/-- A cycle whose ready comes within the limit, or that needs none, is done when its strobe may rise. -/
theorem localCycleEnd_done {data at_ : Nat} {ok : Bool} {c : BusCycle} (hc : s.lbb.cycle = some c)
    (hl : c.ready = false ∨ (if c.ready then max c.endMin at_ else c.endMin) ≤ c.limitAt) :
    localCycleEnd data ok at_ s =
      (s |> advanceTo (if c.ready then max c.endMin at_ else c.endMin) |> cycleDone c data ok) := by
  have hin : ¬(c.ready = true ∧ c.limitAt < if c.ready then max c.endMin at_ else c.endMin) := by
    rintro ⟨hready, hlate⟩
    exact hl.elim (by simp [hready]) (Nat.not_le.mpr hlate)
  simp only [localCycleEnd, hc, if_neg hin]

theorem noReady_lost {c : BusCycle} (hc : s.lbb.cycle = some c) (hready : c.ready = true)
    (hi : inTime isLocalEnd (advanceTo c.limitAt s) = false) : noReady s = (s |> advanceTo c.limitAt |> cycleLost c) := by
  rw [noReady, hc]
  exact (if_neg (open_of_true hready)).trans (if_neg (Bool.eq_false_iff.mp hi))

/-- A read that times out is answered with all ones; its cycle in progress is left to end, its work not begun is given up. -/
theorem readTimeout_answers {tag : Nat} {r : BusRead} (hr : readOf s tag = some r) (hn : r.answer = none)
    (hl : lastDataInTime (advanceTo r.due s) r = false) :
    readTimeout tag s =
      let u := advanceTo r.due s
      (u |> busError LbbErr.timeout 0 tag r.addr |> modRead tag (fun q => { q with answer := some (allOnes q.len) })
        |> (if u.lbb.cycle.isSome && u.lbb.work.head? == some (.read tag) then putHead .dead
          else modLbb (fun b => { b with work := b.work.filter (fun o => o != .read tag) })) |> flushCompletions) := by
  rw [readTimeout, hr]
  exact (if_neg (by simp [hn])).trans (if_neg (Bool.eq_false_iff.mp hl))

theorem prefetchExpiry_discards {cs : Nat} {p : Prefetch} (hp : prefetchOf s cs = some p) :
    prefetchExpiry cs s = (s |> advanceTo (p.filledAt + 10 * cyclesPerUs) |> discardPrefetch cs) := by
  rw [prefetchExpiry, hp]

/-- Settles O21: an access of the host as it reaches the device, what ends a cycle or a read in its turn. -/
theorem localBusCyclesComplete : Obligations.LocalBusCyclesComplete := by
  refine ⟨?write, ?read, ?done, ?lost, ?timeout, ?prefetch⟩
  case write =>
    intro s₀ a d dt s hr hon hroom
    exact ends_host exec_bar4Write hr (bar4Write_queued hon hroom)
  case read =>
    intro s₀ a en dt s hr hon
    exact ends_host exec_bar4Read hr (bar4Read_waits hon)
  case done =>
    intro s₀ data ok dt c at_ s hr hc e hl
    exact ends_runningTurn exec_localCycleEnd hr (localCycleEnd_done hc hl)
  case lost =>
    intro s₀ c s hr hc hready hi
    exact ends_runningTurn exec_noReady hr (noReady_lost hc hready hi)
  case timeout =>
    intro s₀ tag r s hr hq hn hl t u
    have run := readTimeout_answers hq hn hl
    refine ⟨fun hin => ends_runningTurn exec_readTimeout hr (run.trans ?_),
      fun hout => ends_runningTurn exec_readTimeout hr (run.trans ?_)⟩
    · exact congrArg (fun f : State → State => flushCompletions (f t)) (if_pos hin)
    · exact congrArg (fun f : State → State => flushCompletions (f t)) (if_neg (Bool.eq_false_iff.mp hout))
  case prefetch =>
    intro s₀ cs p s hr hp
    exact ends_runningTurn exec_prefetchExpiry hr (prefetchExpiry_discards hp)

/-! ### The local master and its tenures (R454) -/

section
variable (hon : lbbState s = 2)
include hon

theorem busRequest_idle (hc : s.lbb.cycle = none) : busRequest s = modLbb (fun b => { b with wanted := true }) s := by
  rw [busRequest, if_neg (not_not_intro hon)]
  simp only [modLbb_lbb, hc]

/-- A cycle that has not begun before gives way to a grant; one that has begun goes on. -/
theorem busRequest_cycle {c : BusCycle} (hc : s.lbb.cycle = some c) :
    busRequest s =
      let t := modLbb (fun b => { b with wanted := true }) s
      if t.cycle ≤ c.startAt ∧ mayGrant t = true then modLbb (fun b => { b with cycle := none }) t else t := by
  rw [busRequest, if_neg (not_not_intro hon)]
  simp only [modLbb_lbb, hc]

end

theorem tenureExpiry_withdraws {t : Nat} (ht : s.lbb.tenure = some t) :
    tenureExpiry s = (s |> advanceTo (t + s.getF Fld.LBB_ARB_tenure_us * cyclesPerUs) |> withdraw) := by
  rw [tenureExpiry, ht]

/-! ### Inbound accesses (R455, R456) -/

section
variable {la data ok : Nat} {upper : Bool} (ht : isTarget s = true)
include ht

theorem inboundWrite_withheld (hw : s.lbb.waitingIn = none) (hfull : 32 ≤ inboundUse s) :
    inboundWrite la upper data ok s = modLbb (fun b => { b with waitingIn := some (la, upper, data, ok) }) s :=
  (if_neg (by simp [ht, hw])).trans (if_pos hfull)

theorem inboundWrite_taken (hw : s.lbb.waitingIn = none) (hroom : inboundUse s < 32) :
    inboundWrite la upper data ok s = takeInbound la upper data ok s :=
  (if_neg (by simp [ht, hw])).trans (if_neg (Nat.not_le.mpr hroom))

theorem inboundRead_answered :
    inboundRead la s = (s |> pulseReady |> emitOut (.localAnswer 0xFFFF) |> busError LbbErr.inbRead 2 0 la) := if_pos ht

end

@[simp] theorem pulseReady_lbb : (pulseReady s).lbb = s.lbb := rfl

/-- The lower byte alone, unchecked, begins a block. -/
theorem takeInbound_begins {la data ok : Nat} (hp : s.on Fld.LBB_INB_CFG_parity = false) (hb : s.lbb.block = [])
    (he : la % 2 = 0) :
    takeInbound la false data ok s =
      let t := pulseReady s
      modLbb (fun b => { b with block := b.block ++ [(la, byte data)], entries := b.entries + 1, lastWrite := t.cycle }) t := by
  simp [takeInbound, hp, hb, he, each]

theorem inboundFlush_due (h : s.lbb.entries ≠ 0) :
    inboundFlush s = (s |> advanceTo (s.lbb.lastWrite + 16 * busUnit) |> flushBlock) := if_neg h

/-! ### Interrupt inputs and the Clasp (R457, R459) -/

/-- An edge of the set kind counts as merged while its bit stands, unless the host clears the bit in that cycle. -/
theorem lirqEdge_taken {n : Nat} {rising : Bool} (hon : lbbState s ≠ 0) (he : bit (s.getF Fld.LBB_IRQ_CFG_falling) n = !rising) :
    lirqEdge n rising s =
      let t := flushBlock s
      if bit (t.getF Fld.LBB_IRQ_EVENT_edge) n && !inTime (clearsIrq n) t then count Reg.LBB_IRQ_MERGED t
      else t |> latchBits Fld.LBB_IRQ_EVENT_edge (2 ^ n)
        |> whenT (bit (t.getF Fld.LBB_IRQ_EN_en) n) (msix (64 + fieldOf (t.reg Reg.LBB_IRQ_CFG) (3 * n) 3)) :=
  if_neg (by simp [hon, he])

theorem claspExpiry_ends {m e : Nat} (h : s.lbb.clasp = some (m, e)) : claspExpiry s = (s |> advanceTo e |> endClasp true) := by
  rw [claspExpiry, h]

/-- Settles O22: what the local master does as it arrives, a deadline in its turn, a write that is taken by the hook of its
register. -/
theorem localBusGuestsComplete : Obligations.LocalBusGuestsComplete := by
  refine ⟨?request, ?tenureEnd, ?expiry, ?block, ?write, ?read, ?flush, ?edge, ?clasp, ?claspEnd⟩
  case request =>
    intro s₀ dt s hon t
    exact ⟨fun hc => ends_of exec_busRequest (busRequest_idle hon hc),
      fun c hc hfirst hg => ends_of exec_busRequest ((busRequest_cycle hon hc).trans (if_pos ⟨hfirst, hg⟩)),
      fun c hc hbegun => ends_of exec_busRequest ((busRequest_cycle hon hc).trans (if_neg (fun h => Nat.not_le.mpr hbegun h.1)))⟩
  case tenureEnd =>
    intro s₀ dt s
    exact ends_of exec_tenureEnd rfl
  case expiry =>
    intro s₀ t s hr ht
    exact ends_runningTurn exec_tenureExpiry hr (tenureExpiry_withdraws ht)
  case block =>
    intro s₀ la data ok dt s hr ht hw hroom hp hb he t
    exact ends_running exec_inboundWrite hr ((inboundWrite_taken ht hw hroom).trans (takeInbound_begins hp hb he))
  case write =>
    intro s₀ la upper data ok dt s hr ht hw
    exact ⟨fun hfull => ends_running exec_inboundWrite hr (inboundWrite_withheld ht hw hfull),
      fun hroom => ends_running exec_inboundWrite hr (inboundWrite_taken ht hw hroom)⟩
  case read =>
    intro s₀ la dt s hr ht
    exact ends_running exec_inboundRead hr (inboundRead_answered ht)
  case flush =>
    intro s₀ s hr hn
    exact ends_runningTurn exec_inboundFlush hr (inboundFlush_due hn)
  case edge =>
    intro s₀ n rising dt s hr hon he t
    have run := lirqEdge_taken hon he
    refine ⟨fun hbit hi => ?_, fun h => ?_⟩
    · have hmerged : (bit (t.getF Fld.LBB_IRQ_EVENT_edge) n && !inTime (clearsIrq n) t) = true := by simp [hbit, hi]
      exact ends_running exec_lirqEdge hr (run.trans (if_pos hmerged))
    · have hnew : ¬(bit (t.getF Fld.LBB_IRQ_EVENT_edge) n && !inTime (clearsIrq n) t) = true := by rcases h with h | h <;> simp [h]
      exact ends_running exec_lirqEdge hr (run.trans (if_neg hnew))
  case clasp =>
    intro s₀ v dt s w hw
    have run : whenHost (busWrite Reg.LBB_CLASP_CTRL v) s = claspCtrl (val w) (written s w) :=
      write_taken writeOf_LBB_CLASP_CTRL rfl (of_decide_eq_true rfl) hw
    exact ⟨ends_of exec_claspAcquire run, ends_of exec_claspRelease run⟩
  case claspEnd =>
    intro s₀ m e s hr h
    exact ends_runningTurn exec_claspExpiry hr (claspExpiry_ends h)

end Sys2Proof.Machine
end

section
/-! PROOF. The check-value units of the host (R466 to R473): the presets, what a unit holds, and what its commands change. -/
namespace Sys2Proof.Machine
open Sys2Proof.Claims
variable {s : State}

/-! ### The presets: their widths, and a result continued (R466, R470) -/

/-- A bound that every step keeps, a number of steps keep. -/
theorem repeatN_lt {f : Nat → Nat} {m : Nat} (hf : ∀ x < m, f x < m) (n : Nat) {x : Nat} (hx : x < m) : repeatN n f x < m := by
  induction n generalizing x with
  | zero => exact hx
  | succ n ih => exact ih (hf x hx)

theorem crcBitFwd_lt (w poly x : Nat) : crcBitFwd w poly x < 2 ^ w := by
  unfold crcBitFwd
  split <;> exact Nat.mod_lt _ (by positivity)

theorem crcFwd_lt (w poly x : Nat) (b : Byte) : crcFwd w poly x b < 2 ^ w :=
  repeatN_lt (fun y _ => crcBitFwd_lt w poly y) 7 (crcBitFwd_lt w poly _)

theorem crcBitRef_lt {w poly x : Nat} (hp : poly < 2 ^ w) (hx : x < 2 ^ w) : crcBitRef poly x < 2 ^ w := by
  have hhalf : x / 2 < 2 ^ w := (Nat.div_le_self x 2).trans_lt hx
  unfold crcBitRef
  split
  · exact Nat.xor_lt_two_pow hhalf hp
  · exact hhalf

theorem crcRef_lt {w poly x : Nat} (hw : 8 ≤ w) (hp : poly < 2 ^ w) (b : Byte) (hx : x < 2 ^ w) : crcRef poly x b < 2 ^ w := by
  have hb : b.toNat < 2 ^ w := b.isLt.trans_le (Nat.pow_le_pow_right (by decide) hw)
  exact repeatN_lt (fun y hy => crcBitRef_lt hp hy) 8 (Nat.xor_lt_two_pow hx hb)

/-- A reflected preset of 32 bits gives results of 32 bits. -/
theorem reflected_lt {poly x : Nat} (hp : poly < 2 ^ 32) (l : List Byte) (hx : x < 2 ^ 32) :
    l.foldl (crcRef poly) (x ^^^ 0xFFFFFFFF) ^^^ 0xFFFFFFFF < 2 ^ 32 := by
  have hones : 0xFFFFFFFF < 2 ^ 32 := by decide
  have hfold : l.foldl (crcRef poly) (x ^^^ 0xFFFFFFFF) < 2 ^ 32 :=
    List.foldlRecOn (motive := (· < 2 ^ 32)) l (crcRef poly) (Nat.xor_lt_two_pow hx hones)
      (fun z hz b _ => crcRef_lt (by decide) hp b hz)
  exact Nat.xor_lt_two_pow hfold hones

/-- A result that fits the preset's width still fits it when it is continued. -/
theorem crcFeed_lt (u : Fin 4) {x : Nat} (l : List Byte) (hx : x < 2 ^ crcWidth u) : crcFeed u x l < 2 ^ crcWidth u := by
  match u with
  | 0 => exact List.foldlRecOn (motive := (· < 2 ^ 8)) l _ hx (fun z _ b _ => crcFwd_lt 8 0x07 z b)
  | 1 => exact List.foldlRecOn (motive := (· < 2 ^ 16)) l _ hx (fun z _ b _ => crcFwd_lt 16 0x1021 z b)
  | 2 => exact reflected_lt (by decide) l hx
  | 3 => exact reflected_lt (by decide) l hx

/-- The result over the bytes fed since a restart is one of the preset's. -/
theorem crcFeed_start_lt (u : Fin 4) (l : List Byte) : crcFeed u (crcStart u) l < 2 ^ crcWidth u :=
  crcFeed_lt u l ((by decide : ∀ u : Fin 4, crcStart u < 2 ^ crcWidth u) u)

theorem crcWidth_le (u : Fin 4) : crcWidth u ≤ 32 := (by decide : ∀ u : Fin 4, crcWidth u ≤ 32) u

theorem toNat_crcFeed_start (u : Fin 4) (l : List Byte) :
    (BitVec.ofNat 32 (crcFeed u (crcStart u) l)).toNat = crcFeed u (crcStart u) l := by
  have hlt : crcFeed u (crcStart u) l < 2 ^ 32 :=
    (crcFeed_start_lt u l).trans_le (Nat.pow_le_pow_right (by decide) (crcWidth_le u))
  rw [BitVec.toNat_ofNat, Nat.mod_eq_of_lt hlt]

theorem crcFeed_nil (u : Fin 4) (x : Nat) : crcFeed u x [] = x := by
  match u with
  | 0 => rfl
  | 1 => rfl
  | 2 => exact Nat.xor_xor_cancel_right x _
  | 3 => exact Nat.xor_xor_cancel_right x _

theorem reflected_append (poly x : Nat) (a b : List Byte) :
    (a ++ b).foldl (crcRef poly) (x ^^^ 0xFFFFFFFF) ^^^ 0xFFFFFFFF =
      b.foldl (crcRef poly) ((a.foldl (crcRef poly) (x ^^^ 0xFFFFFFFF) ^^^ 0xFFFFFFFF) ^^^ 0xFFFFFFFF) ^^^ 0xFFFFFFFF := by
  rw [List.foldl_append, Nat.xor_xor_cancel_right]

/-- The result over a list goes on from the result over its first part. -/
theorem crcFeed_append (u : Fin 4) (x : Nat) (a b : List Byte) : crcFeed u x (a ++ b) = crcFeed u (crcFeed u x a) b := by
  match u with
  | 0 => exact List.foldl_append
  | 1 => exact List.foldl_append
  | 2 => exact reflected_append _ x a b
  | 3 => exact reflected_append _ x a b

/-- Settles O57: the presets are evaluated. -/
theorem crcCheckValues : Obligations.CrcCheckValues := by
  unfold Obligations.CrcCheckValues
  exact ⟨by decide +kernel, by decide +kernel, by decide +kernel, by decide +kernel⟩

/-! ### The registers of a unit (R467 to R470) -/

theorem CRC_RESULT_ne_COUNT (u : Nat) : Reg.CRC_RESULT u ≠ Reg.CRC_COUNT u := by
  unfold Reg.CRC_RESULT Reg.CRC_COUNT
  omega

theorem countBy_reg {a n : Nat} : (countBy a n s).reg a = BitVec.ofNat 32 (min ((s.reg a).toNat + n) 0xFFFFFFFF) :=
  (reg_setR _ a a _).trans (if_pos rfl)

section
variable {u : Nat}

theorem crcTake_result {l : List Byte} :
    (crcTake u l s).reg (Reg.CRC_RESULT u) = BitVec.ofNat 32 (crcFeed u (s.reg (Reg.CRC_RESULT u)).toNat l) := by
  rw [crcTake, countBy_reg_of_ne (CRC_RESULT_ne_COUNT u), reg_setR, if_pos rfl]

theorem crcTake_count {l : List Byte} :
    (crcTake u l s).reg (Reg.CRC_COUNT u) = BitVec.ofNat 32 (min ((s.reg (Reg.CRC_COUNT u)).toNat + l.length) 0xFFFFFFFF) := by
  rw [crcTake, countBy_reg, setR_reg_of_ne (CRC_RESULT_ne_COUNT u).symm]

/-- Both registers are loaded, as a restart and a seed do. -/
theorem loaded_result {r c : Nat} :
    (s |> setR (Reg.CRC_RESULT u) r |> setR (Reg.CRC_COUNT u) c).reg (Reg.CRC_RESULT u) = BitVec.ofNat 32 r := by
  rw [setR_reg_of_ne (CRC_RESULT_ne_COUNT u), reg_setR, if_pos rfl]

theorem loaded_count {r c : Nat} :
    (s |> setR (Reg.CRC_RESULT u) r |> setR (Reg.CRC_COUNT u) c).reg (Reg.CRC_COUNT u) = BitVec.ofNat 32 c := by
  rw [reg_setR, if_pos rfl]

theorem crcCtrl_restarts {v : Nat} (h : bit v 0 = true) :
    crcCtrl u v s = (s |> setR (Reg.CRC_RESULT u) (crcStart u) |> setR (Reg.CRC_COUNT u) 0) := if_pos h

end

/-- Settles O56: the restart loads both registers, and the register map has the same words. -/
theorem crcRestart : Obligations.CrcRestart := by
  intro s u v hv start
  have hstart : BitVec.ofNat 32 (crcStart u) = start :=
    (by decide : ∀ u : Fin 4, BitVec.ofNat 32 (crcStart u) = if u.val = 1 then 0xFFFF else 0) u
  rw [crcCtrl_restarts hv, loaded_result, loaded_count, hstart, reset_reg, reset_reg]
  exact ⟨rfl, rfl, (by decide : ∀ u : Fin 4, regReset (Reg.CRC_RESULT u) = if u.val = 1 then 0xFFFF else 0) u,
    (by decide : ∀ u : Fin 4, regReset (Reg.CRC_COUNT u) = 0) u⟩

/-! ### What a unit holds after feeds (R467, R468, R473) -/

/-- A unit holds the preset's result over bytes fed since a restart, and their number. -/
def CrcHolds (u : Fin 4) (fed : List Byte) (s : State) : Prop :=
  (s.reg (Reg.CRC_RESULT u)).toNat = crcFeed u (crcStart u) fed ∧ (s.reg (Reg.CRC_COUNT u)).toNat = min fed.length (2 ^ 32 - 1)

theorem crcHolds_restart (u : Fin 4) (s : State) : CrcHolds u [] (crcCtrl u 1 s) := by
  have hstart := toNat_crcFeed_start u []
  rw [crcFeed_nil] at hstart
  rw [crcCtrl_restarts rfl, CrcHolds, loaded_result, loaded_count, hstart, crcFeed_nil]
  exact ⟨rfl, rfl⟩

theorem crcHolds_take {u : Fin 4} {fed : List Byte} (h : CrcHolds u fed s) (l : List Byte) :
    CrcHolds u (fed ++ l) (crcTake u l s) := by
  obtain ⟨hresult, hcount⟩ := h
  rw [CrcHolds, crcTake_result, crcTake_count, hresult, hcount, ← crcFeed_append, toNat_crcFeed_start, BitVec.toNat_ofNat,
    List.length_append]
  exact ⟨rfl, by omega⟩

/-- Feeds one after another are one feed. -/
theorem crcHolds_feeds {u : Fin 4} {fed : List Byte} (feeds : List (List Byte)) (h : CrcHolds u fed s) :
    CrcHolds u (fed ++ feeds.flatten) (feeds.foldl (fun t l => crcTake u l t) s) := by
  induction feeds generalizing fed s with
  | nil => simpa using h
  | cons l feeds ih =>
    rw [List.foldl_cons, List.flatten_cons, ← List.append_assoc]
    exact ih (crcHolds_take h l)

/-- Settles O58, by induction on the feeds. -/
theorem crcResultOverEveryByteFed : Obligations.CrcResultOverEveryByteFed := by
  intro s u feeds t
  exact crcHolds_feeds feeds (crcHolds_restart u s)

/-- Settles O59: the seed is a result of the preset's width, from which the unit goes on. -/
theorem crcSeedContinues : Obligations.CrcSeedContinues := by
  intro s u a b t
  have hseed : (t.reg (Reg.CRC_RESULT u)).toNat = crcFeed u (crcStart u) a := by
    show ((crcSeed u _ s).reg _).toNat = _
    rw [crcSeed, loaded_result, Nat.mod_eq_of_lt (crcFeed_start_lt u a), toNat_crcFeed_start]
  refine ⟨hseed, loaded_count, ?_⟩
  rw [crcTake_result, hseed, ← crcFeed_append, toNat_crcFeed_start]

/-! ### The commands, and what they change (R469 to R471) -/

/-- Settles O23: each is a host write that is taken and runs the hook of its register. -/
theorem crcCommandsComplete : Obligations.CrcCommandsComplete := by
  refine ⟨?restart, ?seed, ?data8, ?data16, ?data32⟩
  case restart =>
    intro s₀ u v dt s w hw
    exact ends_of exec_crcRestart (write_taken (writeOf_CRC_CTRL u) rfl (of_decide_eq_true rfl) hw)
  case seed =>
    intro s₀ u v dt s w hw
    exact ends_of exec_crcSeed (write_taken (writeOf_CRC_SEED u) rfl (of_decide_eq_true rfl) hw)
  case data8 =>
    intro s₀ u v dt s w hw
    exact ends_of exec_crcData8 (write_taken (writeOf_CRC_DATA8 u) rfl (of_decide_eq_true rfl) hw)
  case data16 =>
    intro s₀ u v dt s w hw
    exact ends_of exec_crcData16 (write_taken (writeOf_CRC_DATA16 u) rfl (of_decide_eq_true rfl) hw)
  case data32 =>
    intro s₀ u v dt s w hw
    exact ends_of exec_crcData32 (write_taken (writeOf_CRC_DATA32 u) rfl (of_decide_eq_true rfl) hw)

/-- Refutes O60: a feed moves CRC_COUNT, and the device notes in `State.now` what a count moved by in the present cycle (R49). After
reset nothing is noted; one byte fed to unit 0 leaves a note. -/
theorem not_crcCommandsFrame : ¬ Obligations.CrcCommandsFrame := by
  intro h
  obtain ⟨_, hframe⟩ := h State.reset 0 0 (crcData8 0 0) (by simp)
  have hnow : (crcData8 0 0 State.reset).now.counts = [] := congrArg (fun t : State => t.now.counts) hframe
  have hnoted : (crcData8 0 0 State.reset).now.counts = [(Reg.CRC_COUNT 0, (0, 1))] := rfl
  exact List.cons_ne_nil _ _ (hnoted.symm.trans hnow)

end Sys2Proof.Machine
end

section
/-! PROOF. The links of the Ilgil and its units (R475 to R492). -/
namespace Sys2Proof.Machine
open Sys2Proof.Claims
variable {s : State}

/-! ### Bring-up and loss of a link (R478 to R480) -/

section
variable {g : Nat}

theorem blockLock_locks (hp : ilgPortState s g = 2) (hst : ilgState s g < Lk.ilgHello) :
    blockLock g s =
      (s |> setF (Fld.ILG_PORT_STATUS_lane_lock g) 15 |> setF (Fld.ILG_PORT_STATUS_lstate g) Lk.ilgHello
        |> modIlgPort g (fun x => { x with helloAt := s.cycle, hello := [] })) :=
  if_neg (by simp [hp, hst])

theorem helloUnitSend_due (hp : ilgPortState s g = 2) (hst : ilgState s g = Lk.ilgHello) :
    helloUnitSend g s =
      let t := advanceTo (s.ilgPort g).helloAt s
      let u := sendUnit g (helloUnit t g) t
      modIlgPort g (fun x => { x with helloAt := u.cycle + cyclesPerUs }) u :=
  if_neg (by simp [hp, hst])

/-- A HELLO with an index that the device need not judge as a worker is held, and a second one like it brings the link up. -/
theorem helloReceive_held {l : List Byte} {u v : State} (hu : (plainUnit g Unit.hello l s).2 = u)
    (htake : (plainUnit g Unit.hello l s).1 = true) (hst : ilgState u g = Lk.ilgHello) (hpeer : beAt l 2 1 % 16 ≠ 15)
    (hv : (u |> setF (Fld.ILG_PORT_STATUS_lstate g) Lk.ilgHello |> modIlgPort g (fun x => { x with hello := l })
      |> setF (Fld.ILG_PORT_STATUS_peer_index g) (beAt l 2 1 % 16) |> setF (Fld.ILG_PORT_STATUS_peer_role g) (beAt l 1 1 % 4)
      |> setR (Reg.ILG_PEER_ID_HI g) (beAt l 4 4) |> setR (Reg.ILG_PEER_ID_LO g) (beAt l 8 4)) = v)
    (hw : isWorker v = false) (hclash : ¬(isManager v = true ∧ beAt l 1 1 % 4 = 1)) :
    helloReceive g l s = if (u.ilgPort g).hello = l then ilgEnterUp g l v else v := by
  have htaken : ¬((!(plainUnit g Unit.hello l s).1) = true ∨
      (!(ilgState u g == Lk.ilgHello || ilgState u g == Lk.ilgRefused)) = true) := by simp [htake, hst]
  have hfresh : ¬(ilgState u g = Lk.ilgRefused ∧ (u.ilgPort g).hello = l) := by rintro ⟨h, -⟩; rw [hst] at h; cases h
  simp only [helloReceive, hu, if_neg htaken, if_neg hfresh, hv, if_neg hclash, if_neg hpeer, hw]
  rfl

/-! ### Reach and paths (R482) -/

/-- A REACH unit that says what the one before said leaves 100 µs after it. -/
theorem reachSend_sends (hup : ilgUp s g = true) (hp : ilgPortState s g = 2) :
    reachSend g s =
      let t := if (s.ilgPort g).reachLast = reachBody s g then advanceTo ((s.ilgPort g).reachAt + 100 * cyclesPerUs) s else s
      let b := reachBody t g
      let u := sendUnit g (unitBytes ([byte Unit.reach, 0, 0] ++ b) []) t
      setIlgPort g { s.ilgPort g with reachAt := t.cycle, reachLast := b } u :=
  if_neg (by simp [hup, hp])

theorem reachReceive_taken {l : List Byte} {u : State} (hu : (plainUnit g Unit.reach l s).2 = u)
    (htake : (plainUnit g Unit.reach l s).1 = true) (hup : ilgUp u g = true) :
    reachReceive g l s =
      let v := u |> setF (Fld.ILG_PORT_REACH_reach g) (beAt l 3 1) |> repath
      if isWorker v = true ∧ pathOf v 0 = some g then
        v |> setF Fld.ILG_STATUS_quarantined (beAt l 4 1) |> setF Fld.ILG_STATUS_node_role (beAt l 5 1 % 2)
          |> setQuarantine (bit (beAt l 4 1) (ownIndex v))
      else v := by
  subst hu
  exact if_neg (by simp [htake, hup])

end

theorem rebalance_goes {v : Nat} (h : bit v 0 = true) :
    rebalance v s =
      modIlg (fun i =>
        { i with moving := (List.range 8).filter (fun d => (pathOf s d).isSome && choosePath s d != pathOf s d) }) s :=
  if_neg (open_of_true h)

/-- Settles O24: each command of the links and of the distances, past its gate, is the effect of its own branch. -/
theorem ilgilLinkCommandsComplete : Obligations.IlgilLinkCommandsComplete := by
  refine ⟨?lock, ?loss, ?hello, ?heard, ?reach, ?reached, ?rebalance⟩
  case lock =>
    intro s₀ g dt s ha hp hst
    exact ends_arrival exec_ilgilBlockLock ha (blockLock_locks hp hst)
  case loss =>
    intro s₀ g dt s ha u
    exact ends_arrival exec_ilgilLinkLoss ha rfl
  case hello =>
    intro s₀ g s ha hp hst t u
    exact ends_turn exec_ilgilHelloSend ha (helloUnitSend_due hp hst)
  case heard =>
    intro s₀ g l dt s ha htake u hst hpeer v hw hclash
    exact ends_arrival exec_ilgilHelloReceive ha (helloReceive_held rfl htake hst hpeer rfl hw hclash)
  case reach =>
    intro s₀ g s ha hup hp t b u
    exact ends_turn exec_reachSend ha (reachSend_sends hup hp)
  case reached =>
    intro s₀ g l dt s ha htake u hup v
    have run := reachReceive_taken rfl htake hup
    exact ⟨fun hm => ends_arrival exec_reachReceive ha (run.trans (if_pos hm)),
      fun hm => ends_arrival exec_reachReceive ha (run.trans (if_neg hm))⟩
  case rebalance =>
    intro s₀ v dt s w t hw hgo
    exact ends_of exec_rebalance ((write_taken writeOf_ILG_REBALANCE rfl (of_decide_eq_true rfl) hw).trans (rebalance_goes hgo))

/-! ### Credits and replays (R477, R478, R488) -/

section
variable {g : Nat} {l : List Byte} {u : State}

/-- Credits are owed: at once with nak, else they leave 256 ns after the last. -/
theorem creditSend_owed (hup : ilgUp s g = true) (ho : creditOwed (s.ilgPort g) = true) :
    creditSend g s =
      let x := s.ilgPort g
      let t := if x.nak then s else advanceTo (x.creditAt + 204) s
      let give := (List.range 8).map (fun c => min 4095 (x.credits.getD c 0))
      let l := unitBytes ([byte Unit.credit] ++ be 2 ((x.rxSeq + 4095) % 4096) ++ [byte (b2n x.nak)] ++ packCredits give) []
      (t |> sendUnit g l
        |> setIlgPort g { x with nak := false, ackOwed := false, creditAt := t.cycle,
                                 credits := (List.range 8).map (fun c => x.credits.getD c 0 - give.getD c 0) }) :=
  if_neg (by simp [hup, ho])

theorem replayTimeout_replays (hup : ilgUp s g = true) (hr : (s.ilgPort g).replay ≠ [])
    (hi : inTime (isProgress s g) (advanceTo ((s.ilgPort g).ackAt + 2 * cyclesPerUs) s) = false) :
    replayTimeout g s = replayOrLose g (advanceTo ((s.ilgPort g).ackAt + 2 * cyclesPerUs) s) :=
  (if_neg (by simp [hup, hr])).trans (if_neg (Bool.eq_false_iff.mp hi))

/-! ### CELL units (R484 to R486) -/

/-- The arrival that the cells of a tier and class of port g belong to. -/
def cellKey (g : Nat) (l : List Byte) : Nat := 1000 + 16 * g + (if bit (beAt l 3 1) 2 then 8 else beAt l 3 1 / 32)

theorem cellReceive_later {a : Arrival} {id : Nat} {f : Frame} (hu : (acceptUnit g Unit.cell l s).2 = u)
    (htake : (acceptUnit g Unit.cell l s).1 = true) (hlater : bit (beAt l 3 1) 4 = false)
    (ha : Sparse.find u.fab.arriving (cellKey g l) = some a) (hid : a.frame = some id) (hf : u.frame id = some f) :
    cellReceive g l s =
      let v := modFrame id (fun x => { x with data := f.data ++ slice l 32 (min 128 (beAt l 9 1)), cells := f.cells + 1 }) u
      if bit (beAt l 3 1) 3 then cellLast g (cellKey g l) id a.line a.learn v else v := by
  rw [cellKey] at ha
  simp only [cellReceive, hu, if_neg (open_of_true htake), if_neg (Bool.eq_false_iff.mp hlater), ha, hid, Option.bind_some, hf]
  rfl

/-- A first cell that is admitted: its frame arrives under its tier and class. -/
theorem cellReceive_first {id : Nat} {d : List Byte} {w : Frame × Fan × State} {a : Adm × State}
    (hu : (acceptUnit g Unit.cell l s).2 = u) (htake : (acceptUnit g Unit.cell l s).1 = true)
    (hfirst : bit (beAt l 3 1) 4 = true) (hd : slice l 32 (min 128 (beAt l 9 1)) = d) (hs : isSpireFrame u d = false)
    (hw : cellFan (cellFrame g l d u) (beAt l 8 1) u = w) (ha : dispatch w.1 w.2.1 true w.2.2 = a) (hid : a.1 = .taken id) :
    cellReceive g l s =
      let v := setArrival (cellKey g l) { frame := some id, line := d, learn := cellLearn w.1 a.2, inAt := 10 * u.cycle } a.2
      if bit (beAt l 3 1) 3 then cellLast g (cellKey g l) id d (cellLearn w.1 a.2) v else v := by
  simp only [cellReceive, hu, if_neg (open_of_true htake), if_pos hfirst, hd, if_neg (Bool.eq_false_iff.mp hs), hw, ha, hid]
  rfl

end

/-! ### TIME units (R491, R492) -/

section
variable {g : Nat} {l : List Byte} {u v : State} (hu : (plainUnit g Unit.time l s).2 = u)
  (htake : (plainUnit g Unit.time l s).1 = true) (hup : ilgUp u g = true)
  (hv : setIlgPort g { u.ilgPort g with
    rxT := some (beAt l 1 2, u.stamp, beAt l 4 4), periodic := ((u.stamp, beAt l 4 4) :: (u.ilgPort g).periodic).take 2 } u = v)
include hu htake hup hv

/-- A TIME unit without an echo is noted, and where the servo does not follow it that is all. -/
theorem timeUnitReceive_noted (hecho : bit (beAt l 3 1) 0 = false)
    (hleft : isWorker v = false ∨ pathOf v 0 ≠ some g ∨ bit (beAt l 3 1) 1 = false ∨ servoOwns v = false) :
    timeUnitReceive g l s = v := by
  have htaken : ¬((!(plainUnit g Unit.time l s).1) = true ∨ (!ilgUp u g) = true) := by simp [htake, hup]
  simp only [timeUnitReceive, hu, if_neg htaken, hv, hecho, Bool.false_eq_true, if_false]
  exact if_pos (by simpa only [Bool.not_eq_true'] using hleft)

/-- An echo gives a sample of the link delay; the worker's servo follows the time of the port that leads to its manager. -/
theorem timeUnitReceive_followed {t1 : Nat} {m : State} (hecho : bit (beAt l 3 1) 0 = true)
    (ht1 : Sparse.find (u.ilgPort g).sentT (beAt l 12 2) = some t1) (hm : ilgDelay g t1 u.stamp (beAt l 8 4) v = m)
    (hw : isWorker m = true) (hp : pathOf m 0 = some g) (hmaster : bit (beAt l 3 1) 1 = true) (ho : servoOwns m = true) :
    timeUnitReceive g l s =
      let at_ : Int := ((beAt l 14 6 * 1000000000 + beAt l 20 4) * 65536 + beAt l 24 2 : Nat)
      let o16 : Int := m.time16 - at_ - (m.getF (Fld.ILG_PORT_DELAY_delay g) * 8192 : Nat)
      let rho := ilgRho (m.ilgPort g)
      let free := drawFree m
      let n := modTim (fun y => { y with lastGood := free.2.cycle, syncDue := some (free.2.cycle + 300000) }) free.2
      (servoAccept o16 125000 (signedOf 32 free.1) rho.1 rho.2 n).2 := by
  have htaken : ¬((!(plainUnit g Unit.time l s).1) = true ∨ (!ilgUp u g) = true) := by simp [htake, hup]
  simp only [timeUnitReceive, hu, if_neg htaken, hv, hecho, if_true, ht1, hm]
  exact if_neg (by simp [hw, hp, hmaster, ho])

end

/-- Settles O25: a unit that is taken by what it carries, as it arrives; what the device times itself in its turn. -/
theorem ilgilUnitCommandsComplete : Obligations.IlgilUnitCommandsComplete := by
  refine ⟨?credit, ?credited, ?replay, ?later, ?first, ?time, ?timed, ?followed, ?switch⟩
  case credit =>
    intro s₀ g s ha hup ho x t give l
    exact ends_turn exec_creditUnitSend ha (creditSend_owed hup ho)
  case credited =>
    intro s₀ g l dt s ha htake u hup x at_ n v delivered paid
    refine ends_arrival exec_creditUnitReceive ha ?_
    show creditReceive g l s = _
    exact if_neg (by rw [htake, hup]; decide)
  case replay =>
    intro s₀ g s ha hup hr t hi
    exact ends_turn exec_replayTimeout ha (replayTimeout_replays hup hr hi)
  case later =>
    intro s₀ g l dt id f s ha htake u b key hlater a hfind hid hf v
    exact ends_arrival exec_cellUnitReceive ha (cellReceive_later rfl htake hlater hfind hid hf)
  case first =>
    intro s₀ g l dt id s ha htake u b key d hfirst hs w a hid v
    exact ends_arrival exec_cellUnitReceive ha (cellReceive_first rfl htake hfirst rfl hs rfl rfl hid)
  case time =>
    intro s₀ g s ha hup x t tx master e turn l
    refine ends_turn exec_timeUnitSend ha ?_
    show timeUnitSend g s = _
    exact if_neg (open_of_true hup)
  case timed =>
    intro s₀ g l dt s ha htake u hup x v hecho hleft
    exact ends_arrival exec_timeUnitReceive ha (timeUnitReceive_noted rfl htake hup rfl hecho hleft)
  case followed =>
    intro s₀ g l dt t1 s ha htake u hup x v hecho ht1 m hw hp hm ho at_ o16 rho free n
    exact ends_arrival exec_timeUnitReceive ha (timeUnitReceive_followed rfl htake hup rfl hecho ht1 rfl hw hp hm ho)
  case switch =>
    intro s₀ g l dt s ha htake u hw hnew e t r o
    refine ends_arrival exec_switchUnitReceive ha ?_
    show switchReceive g l s = _
    have htaken : ¬((!(acceptUnit g Unit.switch l s).1) = true ∨ (!isWorker u) = true) := by rw [htake, hw]; decide
    have hsame : ¬(beAt l 3 1 = liveEpoch u ∧ beAt l 4 1 = prevEpoch u ∧ beAt l 5 1 % 64 = liveTnn u ∧ beAt l 6 1 % 64 = liveN u) :=
      fun ⟨hlive, hprev, htnn, hn⟩ => by simp [hlive, hprev, htnn, hn] at hnew
    exact (if_neg htaken).trans (if_neg hsame)

end Sys2Proof.Machine
end

section
/-! PROOF. The management of the Ilgil and the images of workers (R494 to R496). -/
namespace Sys2Proof.Machine
open Sys2Proof.Claims
variable {s : State}

/-! ### Accesses of the manager (R494) -/

theorem mgmtCtrl_goes {v : Nat} (h : bit v 31 = true) : mgmtCtrl v s = mgmtGo (v / 2 ^ 16 % 8) (bit v 8) s := if_pos h

/-- What a write of ILG_MGMT_CTRL sets off: rewrite with it, since the kernel takes long to compare a bit of a word with it. -/
theorem hook_ILG_MGMT_CTRL : hook Row.ILG_MGMT_CTRL = hookWord mgmtCtrl :=
  hook_of_find (p := (Row.ILG_MGMT_CTRL, hookWord mgmtCtrl)) rfl

section
variable {g : Nat} {l : List Byte} {r : Bool × State} (htake : r.1 = true)
include htake

/-- A worker answers a request for a write with its result, any other with the word read. -/
theorem mgmtRequest_answered (hr : mgmtReceive g (fun l => !mgmtResponse l && decide (mgmtOp l ≤ 1)) l s = r)
    (hw : isWorker r.2 = true) :
    mgmtRequest g l s =
      if mgmtOp l = 1 then
        let a := managerWrite (beAt l 4 1 % 4) (beAt l 8 4) (BitVec.ofNat 32 (beAt l 12 4)) r.2
        mgmtRespond g l a.1 (beAt l 12 4) a.2
      else
        let a := managerRead (beAt l 8 4) r.2
        mgmtRespond g l 0 a.1.toNat a.2 := by
  subst hr
  exact if_neg (by simp [htake, hw])

section
variable {e : Nat} (hr : mgmtReceive g (fun l => mgmtResponse l && decide (mgmtOp l ≤ 1)) l s = r) (he : r.2.ilg.mgmtDue = some e)
include hr he

theorem mgmtAnswer_stale (ht : beAt l 5 1 ≠ r.2.ilg.tag) : mgmtAnswer g l s = count Reg.ILG_LATE_MGMT r.2 := by
  simp only [mgmtAnswer, hr, if_neg (open_of_true htake), he, if_pos ht]

theorem mgmtAnswer_inTime (ht : beAt l 5 1 = r.2.ilg.tag) (hc : r.2.cycle ≤ e) :
    mgmtAnswer g l s = (r.2 |> setR Reg.ILG_MGMT_DATA (beAt l 12 4) |> mgmtEnd (beAt l 16 1 % 16)) := by
  simp only [mgmtAnswer, hr, if_neg (open_of_true htake), he, if_neg (not_not_intro ht), if_neg (Nat.not_lt.mpr hc)]

end

/-- A worker's report is held by the manager; one that is not current raises an event (R496). -/
theorem workerReport_held (hr : mgmtReceive g (fun l => mgmtOp l == 3) l s = r) (hm : isManager r.2 = true)
    (hi : mgmtSource l ≠ 0) :
    workerReport g l s =
      let i := mgmtSource l
      let t := r.2 |> setR (Reg.ILG_WORKER_ID_HI i) (beAt l 8 4) |> setR (Reg.ILG_WORKER_ID_LO i) (beAt l 12 4)
        |> setF (Fld.ILG_WORKER_STATE_reported i) 1 |> workerSays i l
      whenT (!workerCurrent t i) (latch Fld.ILG_EVENT_stale) t := by
  subst hr
  exact if_neg (by simp [htake, hm, hi])

end

theorem mgmtTimeout_ends {e : Nat} (he : s.ilg.mgmtDue = some e) (hi : inTime (isAnswer s) s = false) :
    mgmtTimeout s = (s |> advanceTo e |> mgmtEnd 2) := by
  rw [mgmtTimeout, he]
  exact if_neg (Bool.eq_false_iff.mp hi)

/-- Settles O26: a window access, and each unit of the request and answer protocol as it is taken, does what its branch says. -/
theorem ilgilManagementComplete : Obligations.IlgilManagementComplete := by
  refine ⟨?access, ?request, ?response, ?timeout, ?report, ?generation, ?judged⟩
  case access =>
    intro s₀ v dt s w hw hgo
    have run : whenHost (busWrite Reg.ILG_MGMT_CTRL v) s = hook Row.ILG_MGMT_CTRL 0 0 (old s w) (val w) (written s w) :=
      write_taken writeOf_ILG_MGMT_CTRL rfl (of_decide_eq_true rfl) hw
    rw [hook_ILG_MGMT_CTRL, hookWord_apply] at run
    have go := run.trans (mgmtCtrl_goes hgo)
    exact ⟨fun hread => ends_of exec_ilgMgmtRead (go.trans (by rw [hread])),
      fun hwrite => ends_of exec_ilgMgmtWrite (go.trans (by rw [hwrite]))⟩
  case request =>
    intro s₀ g l dt s ha r htake hw
    have run := mgmtRequest_answered htake rfl hw
    exact ⟨fun hop => ends_arrival exec_mgmtRequestReceive ha (run.trans (if_pos hop)),
      fun hop => ends_arrival exec_mgmtRequestReceive ha (run.trans (if_neg hop))⟩
  case response =>
    intro s₀ g l dt e s ha r htake he
    exact ⟨fun ht => ends_arrival exec_mgmtResponseReceive ha (mgmtAnswer_stale htake rfl he ht),
      fun ht hc => ends_arrival exec_mgmtResponseReceive ha (mgmtAnswer_inTime htake rfl he ht hc)⟩
  case timeout =>
    intro s₀ e s ha he hi
    exact ends_turn exec_mgmtTimeout ha (mgmtTimeout_ends he hi)
  case report =>
    intro s₀ g l dt s ha r i htake hm hi t
    refine ends_arrival exec_workerReport ha ((workerReport_held htake rfl hm hi).trans ?_)
    show whenT (!workerCurrent t i) (latch Fld.ILG_EVENT_stale) t = _
    cases hc : workerCurrent t i <;> simp [whenT]
  case generation =>
    intro s₀ i v dt s w hw hm
    exact ends_of exec_workerGenWrite ((write_taken (writeOf_ILG_WORKER_GEN i) rfl (of_decide_eq_true rfl) hw).trans (if_pos hm))
  case judged =>
    intro s i c
    rfl

/-! ### Images of workers (R495) -/

/-- What a write of ILG_IMG_CTRL sets off: a start, then an abort. -/
theorem hook_ILG_IMG_CTRL : hook Row.ILG_IMG_CTRL = fun _ _ _ v s => s |> workerImageStart v |> workerImageAbort v :=
  hook_of_find (p := (Row.ILG_IMG_CTRL, fun _ _ _ v s => s |> workerImageStart v |> workerImageAbort v)) rfl

section
variable {v : Nat}

theorem workerImageAbort_of_bit_clear (h : bit v 1 = false) : workerImageAbort v s = s := if_neg (Bool.eq_false_iff.mp h)

theorem workerImageStart_of_bit_clear (h : bit v 0 = false) : workerImageStart v s = s := if_pos (.inl (by rw [h]; rfl))

/-- An idle manager starts an image toward an index that has a path. -/
theorem workerImageStart_starts (hgo : bit v 0 = true) (hidle : s.getF Fld.ILG_IMG_STATUS_state = 0) (hm : isManager s = true)
    (hp : pathOf s (v / 2 ^ 8 % 8) ≠ none) :
    workerImageStart v s =
      (s |> setF Fld.ILG_IMG_STATUS_state 1 |> setF Fld.ILG_IMG_STATUS_index (v / 2 ^ 8 % 8) |> setF Fld.ILG_IMG_STATUS_result 0
        |> modIlg (fun x => { x with imgPass := 0, imgOff := 0, imgBytes := [], imgLen := 0 }) |> imgRead 0) :=
  if_neg (by simp only [hgo, hidle, hm, hp]; decide)

/-- The host's abort of an image in hand goes to the worker with both bits set. -/
theorem workerImageAbort_ends (hstop : bit v 1 = true) (hbusy : s.getF Fld.ILG_IMG_STATUS_state ≠ 0) :
    workerImageAbort v s =
      (s |> sendImageUnit 192 s.ilg.imgOff [] |> setF Fld.ILG_IMG_STATUS_state 2 |> modIlg (fun x => { x with imgBytes := [] })) :=
  (if_pos hstop).trans (if_neg hbusy)

end

/-- Bytes of an image whose length is known are sent on, and the next are asked for. -/
theorem workerImageRead_sends {l : List Byte} (hst : s.getF Fld.ILG_IMG_STATUS_state = 1) (hlen : s.ilg.imgLen ≠ 0) :
    workerImageRead l s =
      let t := sendImage (l.length / 128 + 3) (modIlg (fun x => { x with imgBytes := x.imgBytes ++ l }) s)
      if t.getF Fld.ILG_IMG_STATUS_state = 1 then imgRead (t.ilg.imgOff + t.ilg.imgBytes.length) t else t := by
  have hknown : ¬((modIlg (fun x => { x with imgBytes := x.imgBytes ++ l }) s).ilg.imgLen = 0 ∧
      12 ≤ (modIlg (fun x => { x with imgBytes := x.imgBytes ++ l }) s).ilg.imgBytes.length) := fun h => hlen h.1
  simp only [workerImageRead, if_neg (not_not_intro hst), if_neg hknown]

section
variable {g : Nat} {l : List Byte} {r : Bool × State} (hr : acceptUnit g Unit.image l s = r) (htake : r.1 = true)
include hr htake

theorem imageUnitReceive_relayed (hd : unitDest l ≠ ownIndex r.2) : imageUnitReceive g l s = relayUnit l r.2 := by
  simp only [imageUnitReceive, hr, if_neg (open_of_true htake), if_pos hd]

section
variable (hd : unitDest l = ownIndex r.2) (hst : imgState r.2 ≠ 0) (hsrc : imgSource r.2 = 2)
include hd hst hsrc

/-- The manager ends the image in hand. -/
theorem imageUnitReceive_aborted (habort : bit (beAt l 3 1) 6 = true) :
    imageUnitReceive g l s = imageEnd (if bit (beAt l 3 1) 7 then 0x18 else 0x17) r.2.image.index r.2 := by
  have hown : ¬unitDest l ≠ ownIndex r.2 := not_not_intro hd
  have hbegun : ∀ p : Prop, ¬(imgState r.2 = 0 ∧ p) := fun _ h => hst h.1
  have hmine : ¬(imgState r.2 = 0 ∨ imgSource r.2 ≠ 2) := by simp [hst, hsrc]
  simp only [imageUnitReceive, hr, if_neg (open_of_true htake), if_neg hown, if_neg (hbegun _), if_neg hmine, if_pos habort]

/-- A piece of the first pass is put where it belongs. -/
theorem imageUnitReceive_first (hmore : bit (beAt l 3 1) 6 = false) (hpass : r.2.ilg.rxPass = 1) :
    imageUnitReceive g l s =
      modIlg (fun x => { x with rxImage := x.rxImage.take (beAt l 4 4) ++ slice (l.drop 32) 0 128,
                                rxPass := if bit (beAt l 3 1) 7 then 2 else 1 }) r.2 := by
  have hown : ¬unitDest l ≠ ownIndex r.2 := not_not_intro hd
  have hbegun : ∀ p : Prop, ¬(imgState r.2 = 0 ∧ p) := fun _ h => hst h.1
  have hmine : ¬(imgState r.2 = 0 ∨ imgSource r.2 ≠ 2) := by simp [hst, hsrc]
  simp only [imageUnitReceive, hr, if_neg (open_of_true htake), if_neg hown, if_neg (hbegun _), if_neg hmine,
    if_neg (Bool.eq_false_iff.mp hmore), if_pos hpass, modIlg]

end
end

/-- The result that a worker reports of the image in hand ends it (R495). -/
theorem imageResult_ends {g : Nat} {l : List Byte} {r : Bool × State} {t : State}
    (hr : mgmtReceive g (fun l => mgmtOp l == 2) l s = r)
    (htake : r.1 = true) (hm : isManager r.2 = true) (hi : mgmtSource l ≠ 0)
    (ht : (r.2 |> workerSays (mgmtSource l) l |> record 0x62 ([mgmtSource l, beAt l 16 1] ++ dle 4 (beAt l 17 4))) = t)
    (hst : t.getF Fld.ILG_IMG_STATUS_state ≠ 0) (hx : t.getF Fld.ILG_IMG_STATUS_index = mgmtSource l) :
    imageResult g l s =
      (t |> setF Fld.ILG_IMG_STATUS_result (beAt l 16 1) |> setF Fld.ILG_IMG_STATUS_state 0 |> latch Fld.ILG_EVENT_image_done
        |> modIlg (fun x => { x with imgPass := 0, imgOff := 0, imgBytes := [], imgLen := 0 })) := by
  subst hr ht
  exact (if_neg (by simp [htake, hm, hi])).trans (if_pos ⟨hst, hx⟩)

/-- Settles O27: a start, an abort and each unit of an image, as the state of the transfer lets it count. -/
theorem workerImageCommandsComplete : Obligations.WorkerImageCommandsComplete := by
  refine ⟨?start, ?abort, ?read, ?piece, ?result⟩
  case start =>
    intro s₀ v dt s w t i hw hgo hstop hidle hm hp
    refine ends_of exec_workerImageStart ((write_taken writeOf_ILG_IMG_CTRL rfl (of_decide_eq_true rfl) hw).trans ?_)
    show hook Row.ILG_IMG_CTRL 0 0 (old s w) (val w) t = _
    rw [hook_ILG_IMG_CTRL]
    exact (workerImageAbort_of_bit_clear hstop).trans (workerImageStart_starts hgo hidle hm hp)
  case abort =>
    intro s₀ v dt s w t hw hgo hstop hbusy
    refine ends_of exec_workerImageAbort ((write_taken writeOf_ILG_IMG_CTRL rfl (of_decide_eq_true rfl) hw).trans ?_)
    show hook Row.ILG_IMG_CTRL 0 0 (old s w) (val w) t = _
    rw [hook_ILG_IMG_CTRL]
    exact (congrArg (workerImageAbort (val w)) (workerImageStart_of_bit_clear hgo)).trans (workerImageAbort_ends hstop hbusy)
  case read =>
    intro s₀ l dt s ha hst hlen t
    exact ends_arrival exec_workerImageRead ha (workerImageRead_sends hst hlen)
  case piece =>
    intro s₀ g l dt s ha r htake
    refine ⟨fun hd => ends_arrival exec_imageUnitReceive ha (imageUnitReceive_relayed rfl htake hd), fun hd hst hsrc => ⟨?_, ?_⟩⟩
    · exact fun habort => ends_arrival exec_imageUnitReceive ha (imageUnitReceive_aborted rfl htake hd hst hsrc habort)
    · exact fun hmore hpass => ends_arrival exec_imageUnitReceive ha (imageUnitReceive_first rfl htake hd hst hsrc hmore hpass)
  case result =>
    intro s₀ g l dt s ha r i htake hm hi t hst hx
    exact ends_arrival exec_imageResultReceive ha (imageResult_ends rfl htake hm hi rfl hst hx)

/-! ### The check of a unit (R475) -/

theorem crc32c_lt (l : List Byte) : crc32c l < 2 ^ 32 := crcFeed_start_lt 3 l

theorem length_slice (l : List Byte) (k n : Nat) : (slice l k n).length = n := by
  simp only [slice, List.length_append, List.length_take, List.length_replicate]
  omega

/-- The four bytes of the check are not under it. -/
theorem unitCheck_eq {head check : List Byte} (hh : head.length = 28) (hc : check.length = 4) (rest : List Byte) :
    unitCheck (head ++ check ++ rest) = crc32c (head ++ rest) := by
  rw [unitCheck, List.append_assoc, List.take_append_of_le_length hh.ge, List.take_of_length_le hh.le, ← List.append_assoc,
    List.drop_append_of_le_length (by simp [hh, hc]), List.drop_of_length_le (by simp [hh, hc]), List.nil_append]

theorem unitBytes_eq (head rest : List Byte) :
    unitBytes head rest = slice head 0 28 ++ be 4 (crc32c (slice head 0 28 ++ rest)) ++ rest := by
  rw [unitBytes, unitCheck_eq (length_slice head 0 28) rfl]

theorem unitCheck_unitBytes (head rest : List Byte) : unitCheck (unitBytes head rest) = crc32c (slice head 0 28 ++ rest) := by
  rw [unitBytes_eq, unitCheck_eq (length_slice head 0 28) (length_be 4 _)]

/-- The check is read back whole: it fits the four bytes in which it stands. -/
theorem unitBytes_check (head rest : List Byte) : beAt (unitBytes head rest) 28 4 = unitCheck (unitBytes head rest) := by
  have hlen := length_slice head 0 28
  rw [unitCheck_unitBytes, unitBytes_eq, List.append_assoc, beAt_skip hlen.le, hlen, Nat.sub_self, beAt_be_here]
  exact Nat.mod_eq_of_lt (crc32c_lt _)

theorem length_unitBytes (head rest : List Byte) : (unitBytes head rest).length = rest.length + 32 := by
  rw [unitBytes_eq, List.length_append, List.length_append, length_slice, length_be]
  omega

theorem unitType_unitBytes {head : List Byte} (h : 1 ≤ head.length) (rest : List Byte) :
    unitType (unitBytes head rest) = unitType head := by
  obtain ⟨b, tail, rfl⟩ := List.exists_cons_of_length_pos h
  rw [unitBytes_eq]
  rfl

/-- Settles O50: the type and the length stand in the unit as they were given, and its check is read back. -/
theorem unitsPassTheirCheck : Obligations.UnitsPassTheirCheck := by
  intro head rest hone _ hslots hlen
  simp [unitOk, unitType_unitBytes hone, length_unitBytes, hslots, hlen, unitBytes_check]

end Sys2Proof.Machine
end

section
/-! PROOF. Redundant node pairs: heartbeats, claims, swaps (R505 to R523). -/
namespace Sys2Proof.Machine
open Sys2Proof.Claims
variable {s : State}

/-! ### The bytes of a heartbeat (R508, R509) -/

/-- Bytes with their CRC-32C behind them. -/
def sealed (l : List Byte) : List Byte := l ++ be 4 (crc32c l)

theorem sealed_check {l : List Byte} {n : Nat} (h : l.length = n) : beAt (sealed l) n 4 = crc32c ((sealed l).take n) := by
  subst h
  rw [sealed, beAt_skip le_rfl, Nat.sub_self, List.take_left, ← List.append_nil (be 4 _), beAt_be_here]
  exact Nat.mod_eq_of_lt (crc32c_lt l)

theorem length_sumBytes (o : Option Summary) : (sumBytes o).length = 28 := by
  cases o with
  | none => rfl
  | some h => simp [sumBytes, zeros]

/-- The first 252 bytes of a heartbeat begin with the version, the state, the sequence number and the identity. -/
theorem heartbeat_eq (s : State) : ∃ st seq rest, rest.length = 240 ∧
    heartbeat s = sealed ([byte 1, byte st] ++ (be 2 seq ++ (be 8 s.nodeId ++ rest))) := by
  have hsealed : heartbeat s = sealed _ := rfl
  simp only [List.append_assoc] at hsealed
  exact ⟨_, _, _, by simp [length_sumBytes, zeros], hsealed⟩

/-- Settles O51: the fields before the identity fill the places before it, and the check is read back whole. -/
theorem heartbeatsAreWellFormed : Obligations.HeartbeatsAreWellFormed := by
  intro s
  obtain ⟨st, seq, rest, hrest, heq⟩ := heartbeat_eq s
  have hlen : ([byte 1, byte st] ++ (be 2 seq ++ (be 8 s.nodeId ++ rest))).length = 252 := by simp [hrest]
  rw [heq]
  refine ⟨by rw [sealed, List.length_append, hlen, length_be], rfl, sealed_check hlen, ?_⟩
  rw [sealed, List.append_assoc, beAt_skip (by simp), List.append_assoc, beAt_be_skip (by simp), List.append_assoc]
  exact (beAt_be_here 8 _ _).trans (Nat.mod_eq_of_lt (nodeId_lt s))

/-! ### Heartbeats (R508, R509) -/

theorem validHeartbeat_of {l : List Byte} (hlen : l.length = 256) (hversion : beAt l 0 1 = 1)
    (hcheck : beAt l 252 4 = crc32c (l.take 252)) : validHeartbeat l = true := by
  simp [validHeartbeat, hlen, hversion, hcheck]

theorem whenT_not (b : Bool) (f : State → State) : whenT (!b) f s = if b then s else f s := by
  cases b <;> rfl

theorem heartbeatLoss_declared (hheard : s.red.heard.isSome = true) (hlost : s.red.lost = false)
    (hin : inTime isHeartbeat (advanceTo (s.red.heardAt + hbLossCycles s) s) = false) :
    heartbeatLoss s = declareLoss (advanceTo (s.red.heardAt + hbLossCycles s) s) := by
  have hheld : ¬(s.red.heard.isNone = true ∨ s.red.lost = true) := by simp [hlost, Option.isSome_iff_ne_none.mp hheard]
  exact (if_neg hheld).trans (if_neg (Bool.eq_false_iff.mp hin))

/-- Settles O28: the effect of a valid heartbeat is read off the definition, with the mismatch of R510 stated the
other way round. -/
theorem heartbeatCommandsComplete : Obligations.HeartbeatCommandsComplete := by
  refine ⟨?send, ?receive, ?loss⟩
  case send =>
    intro s₀ s ha t u
    exact ends_turn exec_heartbeatSend ha rfl
  case receive =>
    intro s₀ l dt s ha hlen hversion hcheck a b c d e f g h i
    refine ends_arrival exec_heartbeatReceive ha ?_
    have hf : f = whenT (!(idMatch e l && tagMatch e l)) (latch Fld.RED_EVENT_sync_fail) e := (whenT_not _ _).symm
    clear_value f
    subst hf
    exact if_neg (open_of_true (validHeartbeat_of hlen hversion hcheck))
  case loss =>
    intro s₀ s ha hheard hlost t hin
    exact ends_turn exec_heartbeatLoss ha (heartbeatLoss_declared hheard hlost hin)

/-! ### Claims (R505, R507, R513) -/

theorem resignInChange_changes {level : Bool} {t u : State} (h : level ≠ s.red.resignIn)
    (ht : modRed (fun r => { r with resignIn := level, inSince := s.cycle, told := false }) s = t)
    (hu : (if level then inCycles twoUs .resignLook t else t) = u) :
    resignInChange level s =
      if !level ∧ redRole u = Rd.claiming ∧ u.red.waitEnd = none then
        modRed (fun r => { r with waitEnd := some (u.cycle + u.getF Fld.RED_TIMING_claim_wait_us * cyclesPerUs) }) u
      else u := by
  subst ht hu
  exact if_neg h

section
variable {e : Nat} {t : State} (he : s.red.waitEnd = some e) (hr : redRole s = Rd.claiming)
  (ht : (s |> advanceTo e |> modRed (fun r => { r with waitEnd := none })) = t)
include he hr ht

/-- The wait of a claiming side has ended: what it does is judged in the state of that cycle. -/
theorem claimWaitExpiry_judged :
    claimWaitExpiry s =
      if t.red.resignIn ∨ inTime isRelease t then t
      else if sideB t then t |> resignOut false |> setRole Rd.standby |> count Reg.RED_CONFLICTS |> latch Fld.RED_EVENT_conflict
      else becomeActive t := by
  subst ht
  rw [claimWaitExpiry, he]
  exact if_neg (not_not_intro hr)

theorem claimWaitExpiry_confirms (h : t.red.resignIn = true ∨ inTime isRelease t = true) : claimWaitExpiry s = t :=
  (claimWaitExpiry_judged he hr ht).trans (if_pos h)

variable (hin : t.red.resignIn = false) (hout : inTime isRelease t = false)
include hin hout

theorem claimWaitExpiry_conflicts (hb : sideB t = true) :
    claimWaitExpiry s =
      (t |> resignOut false |> setRole Rd.standby |> count Reg.RED_CONFLICTS |> latch Fld.RED_EVENT_conflict) :=
  (claimWaitExpiry_judged he hr ht).trans ((if_neg (by simp [hin, hout])).trans (if_pos hb))

theorem claimWaitExpiry_takes (hb : sideB t = false) : claimWaitExpiry s = becomeActive t :=
  (claimWaitExpiry_judged he hr ht).trans ((if_neg (by simp [hin, hout])).trans (if_neg (Bool.eq_false_iff.mp hb)))

end

theorem claimConfirm_takes (hdue : dueClaim s = none) (hr : redRole s = Rd.claiming) (hwait : s.red.waitEnd = none)
    (hin : s.red.resignIn = true) :
    claimConfirm s = (s |> advanceTo (max s.red.claimAt s.red.inSince + twoUs) |> becomeActive) := by
  rw [claimConfirm, hdue]
  exact if_pos ⟨hr, hwait, hin⟩

theorem peerDemand_resigns (hr : redRole s = Rd.active) (hin : s.red.resignIn = false) :
    peerDemand s = (s |> advanceTo (s.red.inSince + twoUs) |> trigger 9) := if_pos ⟨hr, by rw [hin]; rfl⟩

section
variable {e : Nat} {u : State} (he : s.red.startAt = some e) (hr : redRole s = Rd.none)
  (hu : (s |> advanceTo e |> modRed (fun r => { r with startAt := none })) = u)
include he hr hu

theorem startClaim_starts :
    startClaim s = if !paired u ∨ u.red.resignIn then beginClaim 2 u.cycle false u else setRole Rd.standby u := by
  subst hu
  rw [startClaim, he]
  exact if_neg (not_not_intro hr)

theorem startClaim_claims (h : paired u = false ∨ u.red.resignIn = true) : startClaim s = beginClaim 2 u.cycle false u :=
  (startClaim_starts he hr hu).trans (if_pos (h.imp_left (fun hp => by rw [hp]; rfl)))

theorem startClaim_waits (hp : paired u = true) (hin : u.red.resignIn = false) : startClaim s = setRole Rd.standby u :=
  (startClaim_starts he hr hu).trans (if_neg (by simp [hp, hin]))

end

/-! ### Proof swaps (R520 to R523) -/

section
variable {k ph n : Nat} (hswap : s.red.swap = some (k, ph)) (hn : cyclesTo s 0 (k * 2 ^ 32 + ph) = some n)
include hswap hn

theorem swapInstant_active (hr : redRole (advance n s) = Rd.active) :
    swapInstant s =
      (advance n s |> trigger 11 |> latch Fld.RED_EVENT_swap_done |> count Reg.RED_SWAPS |> record 0x73 ([1] ++ dle 4 k ++ dle 4 ph)
        |> modRed (fun r => { r with swap := none })) := by
  simp only [swapInstant, hswap, hn, if_pos hr]

theorem swapInstant_standby (hr : redRole (advance n s) = Rd.standby) :
    swapInstant s = beginClaim 3 (advance n s).cycle true (advance n s) := by
  have hactive : redRole (advance n s) ≠ Rd.active := by rw [hr]; decide
  simp only [swapInstant, hswap, hn, if_neg hactive, if_pos hr]

end

theorem swapOverdue_warns (hh : s.getF Fld.RED_SWAP_AUTO_warn_h ≠ 0) (hfirst : s.red.overdue = false)
    (hage : s.getF Fld.RED_SWAP_AUTO_warn_h * 3600 ≤ (s.reg Reg.RED_ROLE_AGE).toNat) :
    swapOverdue s = (s |> latch Fld.RED_EVENT_swap_overdue |> modRed (fun r => { r with overdue := true })) :=
  if_neg (by simp [hh, hfirst, hage])

theorem autoSwap_requests (hh : s.getF Fld.RED_SWAP_AUTO_interval_h ≠ 0) (hr : redRole s = Rd.active)
    (hage : s.red.activeSince + s.getF Fld.RED_SWAP_AUTO_interval_h * 3600 ≤ (s.reg Reg.LKT_OPSEC).toNat) :
    autoSwap s = requestSwap s := if_neg (by simp [hh, hr, hage])

/-- Settles O29: the host's commands are RED_CMD's hook; the rest, in its turn or on a level, takes the branch its
conditions name. -/
theorem redundancyRoleCommandsComplete : Obligations.RedundancyRoleCommandsComplete := by
  refine ⟨?change, ?expiry, ?confirm, ?demand, ?start, ?cmd, ?instant, ?overdue, ?auto⟩
  case change =>
    intro s₀ level dt s hl r u
    exact ends_of exec_resignInChange (resignInChange_changes hl rfl rfl)
  case expiry =>
    intro s₀ e s ha he hr t
    exact ⟨fun h => ends_turn exec_claimWaitExpiry ha (claimWaitExpiry_confirms he hr rfl h),
      fun hin hout hb => ends_turn exec_claimWaitExpiry ha (claimWaitExpiry_conflicts he hr rfl hin hout hb),
      fun hin hout hb => ends_turn exec_claimWaitExpiry ha (claimWaitExpiry_takes he hr rfl hin hout hb)⟩
  case confirm =>
    intro s₀ s ha hdue hr hwait hin
    exact ends_turn exec_claimConfirm ha (claimConfirm_takes hdue hr hwait hin)
  case demand =>
    intro s₀ s ha hr hin
    exact ends_turn exec_peerDemand ha (peerDemand_resigns hr hin)
  case start =>
    intro s₀ e s ha he hr u
    exact ⟨fun h => ends_turn exec_startClaim ha (startClaim_claims he hr rfl h),
      fun hp hin => ends_turn exec_startClaim ha (startClaim_waits he hr rfl hp hin)⟩
  case cmd =>
    intro s₀ v dt s w t hw
    have run : whenHost (busWrite Reg.RED_CMD v) s = t :=
      (write_taken writeOf_RED_CMD rfl (of_decide_eq_true rfl) hw).trans rfl
    exact ⟨ends_of exec_redResignCmd run, ends_of exec_redSwapCmd run, ends_of exec_redClaimCmd run⟩
  case instant =>
    intro s₀ k ph n s ha hswap hn
    exact ⟨fun hr => ends_turn exec_swapInstant ha (swapInstant_active hswap hn hr),
      fun hr => ends_turn exec_swapInstant ha (swapInstant_standby hswap hn hr)⟩
  case overdue =>
    intro s₀ s ha h hh hfirst hage
    exact ends_turn exec_swapOverdue ha (swapOverdue_warns hh hfirst hage)
  case auto =>
    intro s₀ s ha h hh hr hage
    exact ends_turn exec_autoSwap ha (autoSwap_requests hh hr hage)

end Sys2Proof.Machine
end

section
/-! PROOF. The Locket (R527 to R538), power and reset, the test port (R546 to R560). -/
namespace Sys2Proof.Machine
open Sys2Proof.Claims
variable {s : State}

/-! ### The bytes of a record (R527) -/

theorem leAt_le_here (n v : Nat) (l : List Byte) : leAt (le n v ++ l) 0 n = v % 256 ^ n := by
  have hslice : slice (le n v ++ l) 0 n = le n v := by simpa using slice_here (m := le n v) l
  rw [leAt, hslice]
  exact ofBE_be n v

theorem slice_le_skip {w k : Nat} (h : w ≤ k) (v : Nat) (l : List Byte) (n : Nat) :
    slice (le w v ++ l) k n = slice l (k - w) n := by
  rw [slice_skip (by rwa [length_le]), length_le]

theorem leAt_le_skip {w k : Nat} (h : w ≤ k) (v : Nat) (l : List Byte) (n : Nat) :
    leAt (le w v ++ l) k n = leAt l (k - w) n := by
  rw [leAt, slice_le_skip h, leAt]

theorem slice_one {l : List Byte} {i : Nat} (h : i < l.length) : slice l i 1 = [l[i]] := by
  have htake : (l.drop i).take 1 = [l[i]] := by rw [List.drop_eq_getElem_cons h, List.take_succ_cons, List.take_zero]
  simp [slice, htake]

/-- Data that is short is filled with zeros, and data that is long is cut. -/
theorem slice_data (data : List Byte) {i : Nat} (h : i < 9) : slice ((data ++ zeros 9).take 9) i 1 = [data.getD i 0] := by
  rw [slice_one (by simp [zeros]; omega), List.getElem_take, List.getElem_append]
  split
  case isTrue hin => rw [List.getD_eq_getElem _ _ hin]
  case isFalse hout =>
    rw [List.getD_eq_default _ _ (by omega)]
    exact congrArg ([·]) (List.getElem_replicate _)

theorem recordBytes_eq (r : Record) :
    recordBytes r = le 4 r.seq ++ (le 4 r.opsec ++ (le 4 r.pcc ++ (le 4 (r.ns % 2 ^ 30 + (r.role % 4) * 2 ^ 30) ++ (le 6 r.sec ++
      (le 1 r.rtype ++ (r.data ++ zeros 9).take 9))))) := by
  simp only [recordBytes, List.append_assoc]
  rfl

/-- Settles O47: each field is read behind the widths of those before it. -/
theorem recordLayout : Obligations.RecordLayout := by
  intro r l
  have hl : l = _ := recordBytes_eq r
  clear_value l
  subst hl
  refine ⟨by simp [zeros], ?seq, ?opsec, ?pcc, ?ns, ?sec, ?rtype, fun i hi => ?data⟩
  case ns =>
    have hfits : r.ns % 2 ^ 30 + r.role % 4 * 2 ^ 30 < 256 ^ 4 := by omega
    simp only [leAt_le_skip, leAt_le_here, Nat.reduceLeDiff, Nat.reduceSub]
    exact Nat.mod_eq_of_lt hfits
  case data =>
    have hskip : ∀ v w j l, slice (le w v ++ l) (w + j) 1 = slice l j 1 := fun v w j l => by
      rw [slice_le_skip (Nat.le_add_right w j), Nat.add_sub_cancel_left]
    rw [show 23 + i = 4 + (4 + (4 + (4 + (6 + (1 + i))))) by omega]
    simp only [hskip]
    exact slice_data _ hi
  all_goals simp [leAt_le_skip, leAt_le_here]
/-! ### Programs, erases and fetches (R534, R535, R538) -/

section
variable {pg : Page} (h : s.lkt.page = some pg) (zeroOk : Bool)
include h

theorem pageProgramDone_good : pageProgramDone true zeroOk s = (s |> pageDone pg |> flashGoesOn) := by
  rw [pageProgramDone, h]
  exact if_pos rfl

theorem pageProgramDone_failed :
    pageProgramDone false zeroOk s =
      (s |> flashFailed pg.slot pg.count zeroOk |> modLkt (fun l => { l with page := none })
        |> moveWrite (128 - s.lkt.wrSlot % 128) |> flashGoesOn) := by
  rw [pageProgramDone, h]
  exact if_neg Bool.false_ne_true

end

theorem eraseDone_ends {sec : Nat} {ok zeroOk : Bool} {b : State} (h : s.lkt.erase = some sec) (hruns : s.lkt.suspended = false)
    (hb : (if ok then modLkt (fun l => { l with log := l.log.filter (fun p => p.1 / 128 != sec) }) s
      else flashFailed (128 * sec) 128 zeroOk s) = b) :
    eraseDone ok zeroOk s =
      (b |> modLkt (fun l => { l with erase := none, eraseNext := [], suspending := false, suspended := false })
        |> each b.lkt.eraseNext eraseSector |> showLog |> flashGoesOn) := by
  subst hb
  rw [eraseDone, h]
  exact if_neg (Bool.eq_false_iff.mp hruns)

theorem eraseSuspended_pauses (h : s.lkt.erase.isSome = true) (hask : s.lkt.suspending = true) (hruns : s.lkt.suspended = false) :
    eraseSuspended s = (s |> modLkt (fun l => { l with suspended := true }) |> startPage |> resumeErase) :=
  if_pos ⟨h, hask, by rw [hruns]; rfl⟩

theorem recordFetch_starts {v : Nat} (hgo : bit v 31 = true) (hidle : s.lkt.fetch = none) :
    recordFetch v s = (s |> setF Fld.LKT_READ_STATUS_busy 1 |> modLkt (fun l => { l with fetch := some v })) :=
  if_pos ⟨hgo, by rw [hidle]; rfl⟩

section
variable {v : Nat} {ok : Bool} {t : State} (hv : s.lkt.fetch = some v)
  (ht : (s |> modLkt (fun l => { l with fetch := none }) |> setF Fld.LKT_READ_STATUS_busy 0
    |> setF Fld.LKT_READ_STATUS_result (fetched s v ok).1) = t)
include hv ht

theorem recordFetchDone_missing (h : (fetched s v ok).2 = none) : recordFetchDone ok s = t := by
  simp only [recordFetchDone, hv, h, ← ht]

theorem recordFetchDone_found {x : Record} (h : (fetched s v ok).2 = some x) :
    recordFetchDone ok s = each (List.range 8) (fun i => setR (Reg.LKT_READ_DATA i) (leAt (recordBytes x) (4 * i) 4)) t := by
  simp only [recordFetchDone, hv, h, ← ht]

end

/-! ### Operating time, power failure and freezes (R530, R536, R537) -/

theorem operatingSecond_counts {n : Nat} {a b : State} (hm : s.pwr.main = true)
    (hn : ((s.reg Reg.LKT_OPSEC).toNat + 1) % 2 ^ 32 = n) (ha : setR Reg.LKT_OPSEC n s = a)
    (hb : (if redRole a = Rd.active then a else setR Reg.RED_ROLE_AGE (((a.reg Reg.RED_ROLE_AGE).toNat + 1) % 2 ^ 32) a) = b) :
    operatingSecond s =
      if b.alive = true ∧ b.on Fld.LKT_STATUS_frozen = false ∧ n % 3600 = 0 then routineCopy b else b := by
  subst hn ha hb
  refine (if_neg (open_of_true hm)).trans (if_congr ?_ rfl rfl)
  rw [Bool.and_eq_true, Bool.and_eq_true, and_assoc, Bool.not_eq_true', beq_iff_eq]

theorem powerFail_begins {a b : State} (hpll : s.pwr.stage ≠ .pll) (hmem : s.pwr.stage ≠ .memory) (hlkt : s.pwr.stage ≠ .locket)
    (hfirst : s.on Fld.LKT_STATUS_pfail = false)
    (ha : (s |> setF Fld.GLB_PINS_pfail_n 0 |> setF Fld.LKT_STATUS_pfail 1 |> latch Fld.LKT_EVENT_pfail
      |> record 0x02 (dle 2 (min (s.lkt.staging.length + s.lkt.holding.length) 0xFFFF))) = a)
    (hb : (if a.on Fld.LKT_STATUS_frozen || a.on Fld.LKT_STATUS_pending then lapseFreeze a else a) = b) :
    powerFail s = startCommit (if b.lkt.erase.isSome then askSuspend b else b) := by
  subst ha hb
  have hgoes : ¬(s.on Fld.LKT_STATUS_pfail = true ∨ s.pwr.stage = .pll ∨ s.pwr.stage = .memory ∨ s.pwr.stage = .locket) := by
    simp [hfirst, hpll, hmem, hlkt]
  exact if_neg hgoes

theorem lktCtrl_freezes (h : s.on Fld.LKT_CTRL_freeze = true) : lktCtrl s = (s |> startFreeze |> settleFreeze) := if_pos h

theorem lktCtrl_unfreezes (h : s.on Fld.LKT_CTRL_freeze = false)
    (hf : s.on Fld.LKT_STATUS_frozen = true ∨ s.on Fld.LKT_STATUS_pending = true) : lktCtrl s = (s |> endFreeze 1 |> resumeErase) :=
  (if_neg (Bool.eq_false_iff.mp h)).trans (if_pos hf)

theorem freezeLapse_lapses (h : s.on Fld.LKT_STATUS_frozen = true) :
    freezeLapse s =
      (s |> advanceTo (s.lkt.frozenAt + s.getF Fld.LKT_CTRL_max_freeze_s * cyclesPerS) |> lapseFreeze |> resumeErase) :=
  if_neg (open_of_true h)

theorem hook_LKT_CTRL : hook Row.LKT_CTRL = fun _ _ _ _ => lktCtrl :=
  hook_of_find (p := (Row.LKT_CTRL, fun _ _ _ _ => lktCtrl)) rfl
theorem hook_LKT_PART : hook Row.LKT_PART = fun _ _ _ _ => routineCopy :=
  hook_of_find (p := (Row.LKT_PART, fun _ _ _ _ => routineCopy)) rfl

/-- Settles O30: what the flash, the power monitor and the island report, as it arrives; the host's writes by their hooks. -/
theorem locketCommandsComplete : Obligations.LocketCommandsComplete := by
  refine ⟨?program, ?erase, ?suspend, ?fetch, ?fetched, ?part, ?second, ?fail, ?restored, ?freeze, ?lapse⟩
  case program =>
    intro s₀ zeroOk dt pg s ha hpg
    exact ⟨ends_arrival exec_pageProgramDone ha (pageProgramDone_good hpg zeroOk),
      ends_arrival exec_pageProgramDone ha (pageProgramDone_failed hpg zeroOk)⟩
  case erase =>
    intro s₀ ok zeroOk dt sec s ha hsec hruns a b
    exact ends_arrival exec_eraseDone ha (eraseDone_ends hsec hruns rfl)
  case suspend =>
    intro s₀ dt s ha herase hask hruns
    exact ends_arrival exec_eraseSuspended ha (eraseSuspended_pauses herase hask hruns)
  case fetch =>
    intro s₀ v dt s w t hw hgo hidle
    refine ends_of exec_recordFetch ((write_taken writeOf_LKT_READ_CTRL rfl (of_decide_eq_true rfl) hw).trans ?_)
    show hook Row.LKT_READ_CTRL 0 0 (old s w) (val w) t = _
    rw [hook_LKT_READ_CTRL, hookWord_apply]
    exact recordFetch_starts hgo hidle
  case fetched =>
    intro s₀ ok v dt s ha hv r t
    exact ⟨fun h => ends_arrival exec_recordFetchDone ha (recordFetchDone_missing hv rfl h),
      fun x h => ends_arrival exec_recordFetchDone ha (recordFetchDone_found hv rfl h)⟩
  case part =>
    intro s₀ v dt s w hw
    refine ends_of exec_partitionWrite ((write_taken writeOf_LKT_PART rfl (of_decide_eq_true rfl) hw).trans ?_)
    show hook Row.LKT_PART 0 0 (old s w) (val w) (written s w) = _
    rw [hook_LKT_PART]
  case second =>
    intro s₀ dt s hm n a b
    exact ends_of exec_operatingSecond (operatingSecond_counts hm rfl rfl rfl)
  case fail =>
    intro s₀ dt s ha hpll hmem hlkt hfirst a b
    exact ends_arrival exec_powerFail ha (powerFail_begins hpll hmem hlkt hfirst rfl rfl)
  case restored =>
    intro s₀ dt s ha
    exact ends_arrival exec_powerRestored ha rfl
  case freeze =>
    intro s₀ v dt s w t hw
    have run : whenHost (busWrite Reg.LKT_CTRL v) s = lktCtrl t := by
      refine (write_taken writeOf_LKT_CTRL rfl (of_decide_eq_true rfl) hw).trans ?_
      show hook Row.LKT_CTRL 0 0 (old s w) (val w) t = _
      rw [hook_LKT_CTRL]
    exact ⟨fun h => ends_of exec_freeze (run.trans (lktCtrl_freezes h)),
      fun h hf => ends_of exec_unfreeze (run.trans (lktCtrl_unfreezes h hf))⟩
  case lapse =>
    intro s₀ s ha hf
    exact ends_turn exec_freezeLapse ha (freezeLapse_lapses hf)

/-! ### Power and reset (R553, R556) -/

theorem mainPowerOn_starts {straps : BitVec 13} {t : State} (h : s.pwr.main = false)
    (ht : (s |> modPwr (fun p => { p with main := true }) |> setR Reg.LKT_PCC (((s.reg Reg.LKT_PCC).toNat + 1) % 2 ^ 32)) = t) :
    mainPowerOn straps s = if s.pwr.poresetN then sampleStraps straps t else t := by
  subst ht
  exact if_neg (Bool.eq_false_iff.mp h)

theorem resetAssert_perst (h : s.getF Fld.GLB_STRAP_pcie ≠ 3) :
    resetAssert .perst s = (s |> modPwr (fun p => { p with perstN := false, sawPerst := true }) |> hold) := if_neg h

theorem resetAssert_perst_ignored (h : s.getF Fld.GLB_STRAP_pcie = 3) :
    resetAssert .perst s = modPwr (fun p => { p with perstN := false }) s := if_pos h

theorem resetEnd_starts {straps : BitVec 13} {b c : State} (hreset : s.alive = false) (hmain : s.pwr.main = true)
    (htap : tapHolds s = false)
    (hb : (s |> clockAtReset straps |> applyStraps |> loadResetInfo |> ilgilAtReset
      |> modPwr (fun p => { p with sawPower := false, sawPoreset := false, sawPerst := false, sawPll := false })) = b)
    (hc : timersAtReset b = c) :
    resetEnd straps s =
      (c |> setF Fld.SPR_STATUS_lead (b2n c.spr.leadRaw) |> setF Fld.GLB_PINS_lead_raw (b2n c.spr.leadRaw)
        |> setF Fld.GLB_PINS_cpl1 (c.getF Fld.GLB_PINS_cpl1_raw) |> setF Fld.GLB_PINS_cpl2 (c.getF Fld.GLB_PINS_cpl2_raw)) := by
  subst hb hc
  exact if_neg (by simp [hreset, hmain, htap])

theorem poresetRisingEdge_samples {straps : BitVec 13} (h : s.pwr.poresetN = false) :
    Machine.poresetRisingEdge straps s = (s |> modPwr (fun p => { p with poresetN := true }) |> sampleStraps straps) :=
  if_neg (Bool.eq_false_iff.mp h)

/-- Settles O31: a power or reset command that changes its level takes the branch that acts. -/
theorem powerCommandsComplete : Obligations.PowerCommandsComplete := by
  refine ⟨?on, ?loss, ?poreset, ?perst, ?ignored, ?ends, ?edge⟩
  case on =>
    intro s₀ straps dt s hm t
    exact ends_of exec_mainPowerOn (mainPowerOn_starts hm rfl)
  case loss =>
    intro s₀ vbak dt s t
    exact ends_of exec_mainPowerLoss (whenT_not vbak islandLost)
  case poreset =>
    intro s₀ dt s
    exact ends_of exec_resetAssert rfl
  case perst =>
    intro s₀ dt s hp
    exact ends_of exec_resetAssert (resetAssert_perst hp)
  case ignored =>
    intro s₀ dt s hp
    exact ends_of exec_resetAssert (resetAssert_perst_ignored hp)
  case ends =>
    intro s₀ straps dt s hreset hmain htap a b lock c
    exact ends_of exec_resetEnd (resetEnd_starts hreset hmain htap rfl rfl)
  case edge =>
    intro s₀ straps dt s hp
    exact ends_of exec_poresetRisingEdge (poresetRisingEdge_samples hp)

/-! ### The first steps of start-up, the PHY resets and the TAP (R546, R559, R560) -/

theorem pllLock_locks (h : s.pwr.stage = .pll) :
    pllLock s = (s |> modPwr (fun p => { p with stage := .memory, pll := true }) |> setF Fld.GLB_CLK_cclk_lock 1) := if_pos h

theorem memoryStepDone_goes {temp : BitVec 12} {supply : BitVec 9} {clk : BitVec 4} {t u : State} (h : s.pwr.stage = .memory)
    (ht : modPwr (fun p => { p with stage := .locket }) s = t) (hu : (if s.pwr.sawPower then loadResetInfo t else t) = u) :
    memoryStepDone temp supply clk s =
      (u |> setR Reg.GLB_UID_LO (Config.fusedUid.toNat % 2 ^ 32) |> setR Reg.GLB_UID_HI (Config.fusedUid.toNat / 2 ^ 32)
        |> setR Reg.GLB_MAC_BASE_LO (macBase % 2 ^ 32) |> setR Reg.GLB_MAC_BASE_HI (macBase / 2 ^ 32)
        |> clockBits clk |> monitorSample temp supply |> drivePhyPins false) := by
  subst ht hu
  exact if_neg (not_not_intro h)

theorem locketStep_boots {works : Bool} (h : s.pwr.stage = .locket) :
    locketStep works s = (s |> setF Fld.GLB_PINS_pfail_n 1 |> resetFlash |> locketWork works |> bootBegin) :=
  if_neg (not_not_intro h)

theorem hook_GLB_PHY_RST : hook Row.GLB_PHY_RST = fun _ _ o _ => phyResetWritten o :=
  hook_of_find (p := (Row.GLB_PHY_RST, fun _ _ o _ => phyResetWritten o)) rfl

theorem tapSet_holds {t : Tap} (h : tapHolds (modPwr (fun p => { p with tap := t }) s) = true) :
    tapSet t s = hold (modPwr (fun p => { p with tap := t }) s) := if_pos h

theorem tapSet_passes {t : Tap} (h : tapHolds (modPwr (fun p => { p with tap := t }) s) = false) :
    tapSet t s = modPwr (fun p => { p with tap := t }) s := if_neg (Bool.eq_false_iff.mp h)

/-- Settles O32: each step in its stage; the write of the PHY resets by its hook; the instructions that hold the device and
those that pass. -/
theorem resetStepsAndTapComplete : Obligations.ResetStepsAndTapComplete := by
  refine ⟨?pll, ?memory, ?locket, ?phy, ?tap⟩
  case pll =>
    intro s₀ dt s h
    exact ends_of exec_pllLock (pllLock_locks h)
  case memory =>
    intro s₀ temp supply clk dt s h t u
    exact ends_of exec_memoryStepDone (memoryStepDone_goes h rfl rfl)
  case locket =>
    intro s₀ works dt s h
    exact ends_of exec_locketStep (locketStep_boots h)
  case phy =>
    intro s₀ v dt s w hw
    refine ends_of exec_phyResetWrite ((write_taken writeOf_GLB_PHY_RST rfl (of_decide_eq_true rfl) hw).trans ?_)
    show hook Row.GLB_PHY_RST 0 0 (old s w) (val w) (written s w) = _
    rw [hook_GLB_PHY_RST]
  case tap =>
    intro s₀ dt s set
    refine ⟨ends_of exec_tapBypass (tapSet_passes rfl), ends_of exec_tapIdcode ?_, fun sampled preload =>
      ends_of exec_tapSamplePreload ?_, ends_of exec_tapExtest (tapSet_holds rfl), ends_of exec_tapClamp (tapSet_holds rfl),
      ends_of exec_tapHighz (tapSet_holds rfl)⟩
    · rw [Machine.tapIdcode, tapSet_passes rfl]
    · rw [Machine.tapSample, tapSet_passes rfl]

end Sys2Proof.Machine
end

section
/-! PROOF. The queue of commands (R585). -/
namespace Sys2Proof.Machine
open Sys2Proof.Claims
variable {s : State}

/-- Settles O33: the branch of the step for a queue that is not empty. -/
theorem stepRunsTheFrontCommand : Obligations.StepRunsTheFrontCommand := by
  intro s c rest hq
  rw [step, hq]

/-- Settles O38: every operation keeps the queue as the step leaves it to the command, without its front. -/
theorem queueIsFirstInFirstOut : Obligations.QueueIsFirstInFirstOut := by
  intro s t hc hd hstep
  obtain ⟨u, hu, hkept⟩ := step_kept (kept_pending_iff.mpr ⟨hc, hd⟩)
  obtain rfl : u = t := Host.Outcome.next.inj (hu.symm.trans hstep)
  obtain ⟨hqueue, -⟩ := hkept
  exact hqueue

end Sys2Proof.Machine
end
